-- ==== Sys2Proof/Word.lean ====
section
/-! DEFINITION. The word and byte types of the device and their plainest arithmetic (R5: 32-bit little-endian words). -/

namespace Sys2Proof

/-- A 32-bit word (R5). -/
abbrev Word := BitVec 32

/-- A byte of memory. -/
abbrev Byte := BitVec 8

/-- A register number g0 to g15 (R91). -/
abbrev RegNo := BitVec 4

/-- The 14-bit immediate of an Isrin word (R97). -/
abbrev Imm := BitVec 14

/-- A Vat number V0 to V15. -/
abbrev VatNo := Fin 16

/-- A chain number: 0 to 7 are U0 to U7, 8 is US. -/
abbrev ChainNo := Fin 9

/-- A queue number Q0 to Q47 (R367). -/
abbrev QueueNo := Fin 48

end Sys2Proof
end

