-- ==== Sys2Proof/Types.lean ====
section
/-! DEFINITION. The types that commands carry: outcome classes, decoded Isrin instructions, and the physical
observations (what a receiver, a sensor or a link measured) that the event commands bring to the block. -/

namespace Sys2Proof

/-- Outcome classes (R13). -/
inductive Oc where
  | none | one | clash | crcf | early | late | weak | cut
deriving DecidableEq, Repr

/-- Who makes a bus access: the host, the Ranger's firmware, the Ranger's hoop loader, or the JTAG port (R7, R123, R462). -/
inductive Writer where
  | host | ranger | loader | jtag
deriving DecidableEq, Repr

/-- The width of a bus access in bytes (R6). -/
inductive Width where
  | b1 | b2 | b4 | b8
deriving DecidableEq, Repr

/-- A decoded Isrin instruction (R97 to R99, R126, R127); the extension word of LDX, JMP, CALL, DSP and TOPEN is a
field. `illegal` is every word that R99 or R127 calls illegal or undefined. -/
inductive Isrin where
  | nop (imm : Imm)
  | ldi (rd : RegNo) (imm : Imm)
  | ldx (rd : RegNo) (ext : Word)
  | mov (rd ra : RegNo)
  | add (rd ra rb : RegNo)
  | addi (rd ra : RegNo) (imm : Imm)
  | sub (rd ra rb : RegNo)
  | and (rd ra rb : RegNo)
  | or (rd ra rb : RegNo)
  | xor (rd ra rb : RegNo)
  | shl (rd ra rb : RegNo) (imm : Imm)
  | shr (rd ra rb : RegNo) (imm : Imm)
  | ldw (rd ra : RegNo) (imm : Imm)
  | stw (ra rb : RegNo) (imm : Imm)
  | tst (ra : RegNo) (imm : Imm)
  | halt
  | jmp (ext : Word)
  | call (ext : Word)
  | ret
  | dsp (ra : RegNo) (mode : BitVec 2) (k : BitVec 4) (ext : Word)
  | clr (imm : Imm)
  | waita (ra rb : RegNo) (u : Bool)
  | stamp (rd : RegNo) (src : BitVec 2)
  | waitt (input : BitVec 2)
  | tmo (rb : RegNo)
  | bind (port : BitVec 5)
  | hop (ra : RegNo) (i : Bool) (table : BitVec 3) (idx : BitVec 10)
  | pwr (ra : RegNo) (i : Bool) (setpt : BitVec 9)
  | ant (ra : RegNo) (i : Bool) (port : BitVec 4)
  | carry (on : Bool)
  | txc (rd rb : RegNo) (launch : BitVec 2) (tpl : BitVec 10)
  | lsn (rd : RegNo) (tpl : BitVec 10)
  | beam (ra : RegNo) (i : Bool) (set : BitVec 10)
  | rxb (ra : RegNo) (w : BitVec 8)
  | lput (rd ra rb : RegNo) (off : BitVec 5)
  | lget (rd ra rb : RegNo) (off : BitVec 5)
  | ltouch (ra : RegNo)
  | topen (rd ra rb : RegNo) (queue : BitVec 6) (ext : Word)
  | tput (ra rb : RegNo) (src : Bool) (w : BitVec 8)
  | tdone (ra : RegNo)
  | tfail (ra rb : RegNo)
  | post (ch : BitVec 6)
  | qpush (ra rb : RegNo) (w : BitVec 8) (queue : BitVec 6)
  | qpop (rd ra : RegNo) (w : BitVec 8) (queue : BitVec 6)
  | illegal (word : Word)
deriving DecidableEq, Repr

/-- A receiving port: a UHF front end's receiver, the HF port or the ACT port. -/
inductive RxPort where
  | uhf (c : ChainNo)
  | hfr
  | act
deriving DecidableEq, Repr

/-- One hypothesis of the correlator bank that reached its preamble (R70): coding, link-frequency centre,
normalised correlation times 256, pilot length. -/
structure Hyp where
  coding : BitVec 2
  fhyp : Fin 5
  corr : Nat
  pilotLong : Bool
deriving DecidableEq, Repr

/-- What the receiver measured up to the validation of a preamble (R70, R73): the estimated start in AT ticks, the
tick of validation, every hypothesis with its correlation, and the levels. -/
structure PreambleObs where
  start : Nat
  tick : Nat
  hyps : List Hyp
  gain : BitVec 4
  rssi : BitVec 12
  snr : BitVec 8
  phase : BitVec 10
  blf : BitVec 16
deriving DecidableEq, Repr

/-- What the receiver measured in a window up to its decision (R75 to R79): the decoded bits in order, whether the reply
went on for more than one symbol period past its expected length, the number of low-margin symbols, the ends E_D and
E_R in AT ticks, the mean link frequency, drift beyond 2.5 %, full scale after the hold; the highest level in
0.25 dB above the noise floor that energy kept for four subcarrier periods (two bit times on HFR and ACT), and the
tick it ended; and for HFR and ACT the positions of the collided bits, and the parity or stop-bit and coding marks. -/
structure ReplyObs where
  bits : List Bool
  overrun : Bool
  lowc : Nat
  clip : Bool
  drift : Bool
  blf : BitVec 16
  snr : BitVec 8
  rssi : BitVec 12
  level : Nat
  energyEnd : Nat
  eD : Nat
  eR : Nat
  collisions : List Nat
  parityErr : Bool
  violation : Bool
  fofs : BitVec 16
deriving DecidableEq, Repr

/-- One trim that a calibration arrived at (table "Trim kinds"). -/
structure TrimVal where
  kind : BitVec 8
  sub : BitVec 8
  value : BitVec 12
deriving DecidableEq, Repr

/-- What one attempt of a calibration observed (R235, R236): the variance ratio in units of 0.125, the quality figure,
an absent input, a trim needed beyond full scale, the sensor reading, and the trims found. -/
structure CalObs where
  vr : Nat
  qual : BitVec 8
  absent : Bool
  outOfRange : Bool
  temp : BitVec 12
  ratio : Word
  sd : BitVec 11
  trims : List TrimVal
deriving DecidableEq, Repr

/-- The kind of an Oluon frame (R323). -/
inductive MshKind where
  | beacon | data | command | ack
deriving DecidableEq, Repr

/-- One link of a joined network's tables as an enhanced beacon carries it (R311). -/
structure EbLink where
  index : Fin 128
  word : Word
deriving DecidableEq, Repr

/-- The tables a joining reader copies from a beacon (R311): slotframe words, hop words, hop length and links. -/
structure EbTables where
  slotframes : List Word
  hops : List Word
  hopLen : BitVec 4
  links : List EbLink
deriving DecidableEq, Repr

/-- A frame as the mesh radio received it (R306 to R327): `startTick` is the measured start of the PPDU, `mic` the result
of the CCM* check with the key of its index, `correction` the time-correction IE of an acknowledgement in ticks. -/
structure MshFrame where
  kind : MshKind
  sf : BitVec 2
  fcsOk : Bool
  len : Nat
  parsable : Bool
  pan : BitVec 16
  srcExt : BitVec 64
  srcShort : BitVec 16
  toUs : Bool
  broadcast : Bool
  ackReq : Bool
  nack : Bool
  dsn : BitVec 8
  counter : Word
  level : BitVec 3
  keyMode : BitVec 2
  keyIdx : BitVec 8
  mic : Bool
  rssi : BitVec 12
  ch : BitVec 4
  startTick : Nat
  correction : Option Int
  asn : BitVec 40
  rank : Option (BitVec 8 × BitVec 8 × BitVec 16)
  sched : Option (Word × BitVec 8)
  keyroll : Option (BitVec 8 × BitVec 40)
  tables : Option EbTables
  host : Option (List Byte)
deriving DecidableEq, Repr

/-- What the radio measured when it abandoned a frame (R309): whether the frame's PHR had been received and was valid, by how many
tenths of a dB the correlation of another SFD that validated exceeds that of its own, where one did, and the lowest mean chip
correlation over two consecutive symbols, × 256. -/
structure AbandonObs where
  phrValid : Bool
  margin : Option Int
  corr : Nat
deriving DecidableEq, Repr

/-- A frame as a wired port received it (R335 to R337): `bytes` are the frame from its destination address to its FCS, `dst`
the destination with the first byte sent as the most significant one. -/
structure WireFrame where
  dst : BitVec 48
  etherType : BitVec 16
  bytes : List Byte
  fcsOk : Bool
  codeOk : Bool
  control : Bool
  sfdTick : Nat
  oluon : Option MshFrame
deriving DecidableEq, Repr

/-- The gatable power domains (R381). -/
inductive Domain where
  | uhf (c : ChainNo)
  | syn (m : Fin 4)
  | hfr | act | msh
  | spe (n : Fin 2)
  | clr (k : Fin 16)
deriving DecidableEq, Repr

/-- The straps sampled while RSTN is low (R429). -/
structure Straps where
  hsel : Bool
  qspi4 : Bool
  rcvry : Bool
deriving DecidableEq, Repr

/-- What a start-up step brings with it from the physical world (R424 to R428): its status where the step itself has no
rule that computes one, the islands present at roll call, the banks that failed their self-test, the PLL locks. -/
structure StepObs where
  status : BitVec 16
  present : BitVec 10
  failedBanks : BitVec 16
  locks : BitVec 4
deriving DecidableEq, Repr

/-- What a mesh slot brings from the radio (R311): whether the channel was busy in the CCA of a shared link. -/
structure SlotObs where
  ccaBusy : Bool
deriving DecidableEq, Repr

/-- A PCI Express configuration write that the block sees (R23, R430, R431): the two words of BAR0, Bus Master Enable,
Max_Read_Request_Size (0 128, 1 256, 2 512 bytes), and MSI-X enable with function mask. -/
structure ConfigWrite where
  bar : BitVec 64
  bme : Bool
  maxRead : BitVec 3
  msixEnable : Bool
  msixMask : Bool
deriving DecidableEq, Repr

end Sys2Proof
end

