-- ==== Sys2Proof/Syntax.lean ====
section
/-! DEFINITION. The commands of the block: one constructor for each row of spec/opcode_table.json, in the table's order,
with the row's operands. There is no other. -/

namespace Sys2Proof

/-- A command, event or Isrin instruction that changes the device's state; the docstring of each constructor is the row's
summary with its rule. -/
inductive Instr where
  /-- R102: Vat executes NOP, idling for IMM + 1 cycles. -/
  | nop (v : VatNo) (imm : Imm)
  /-- R102: Vat loads a sign-extended immediate into g[RD]. -/
  | ldi (v : VatNo) (rd : RegNo) (imm : Imm)
  /-- R102: Vat loads its extension word into g[RD]. -/
  | ldx (v : VatNo) (rd : RegNo) (ext : Word)
  /-- R102: Vat copies g[RA] to g[RD]. -/
  | mov (v : VatNo) (rd ra : RegNo)
  /-- R102: Vat adds two registers modulo 2^32. -/
  | add (v : VatNo) (rd ra rb : RegNo)
  /-- R102: Vat adds a sign-extended immediate to a register. -/
  | addi (v : VatNo) (rd ra : RegNo) (imm : Imm)
  /-- R102: Vat subtracts two registers modulo 2^32. -/
  | sub (v : VatNo) (rd ra rb : RegNo)
  /-- R102: Vat forms the bitwise AND of two registers. -/
  | and (v : VatNo) (rd ra rb : RegNo)
  /-- R102: Vat forms the bitwise OR of two registers. -/
  | or (v : VatNo) (rd ra rb : RegNo)
  /-- R102: Vat forms the bitwise XOR of two registers. -/
  | xor (v : VatNo) (rd ra rb : RegNo)
  /-- R102: Vat shifts a register left by an immediate or register amount. -/
  | shl (v : VatNo) (rd ra rb : RegNo) (imm : Imm)
  /-- R102: Vat shifts a register right, logically or arithmetically. -/
  | shr (v : VatNo) (rd ra rb : RegNo) (imm : Imm)
  /-- R103: Vat reads a word from hoop memory, Data SRAM or the capture buffer. -/
  | ldw (v : VatNo) (rd ra : RegNo) (imm : Imm)
  /-- R103: Vat writes a word to Data SRAM. -/
  | stw (v : VatNo) (ra rb : RegNo) (imm : Imm)
  /-- R102: Vat tests a register under a mask and sets OC to NONE or ONE. -/
  | tst (v : VatNo) (ra : RegNo) (imm : Imm)
  /-- R102: Vat enters HALTED and its carriers ramp down. -/
  | halt (v : VatNo)
  /-- R106: Vat jumps to the address in its extension word. -/
  | jmp (v : VatNo) (ext : Word)
  /-- R106: Vat pushes the return address and jumps. -/
  | call (v : VatNo) (ext : Word)
  /-- R106: Vat pops its return stack into PC. -/
  | ret (v : VatNo)
  /-- R107: Vat reads a dispatch-table entry indexed by OC, register bits or Q and OC, and acts on it. -/
  | dsp (v : VatNo) (ra : RegNo) (mode : BitVec 2) (k : BitVec 4) (ext : Word)
  /-- R109: Vat records a clearing, reloads its watchdog, then swaps or stops if requested. -/
  | clr (v : VatNo) (imm : Imm)
  /-- R112: Vat issues a wait for an absolute AT tick. -/
  | waita (v : VatNo) (ra rb : RegNo) (u : Bool)
  /-- R112: The target tick of a waiting WAITA arrives; the Vat is released with OC ONE and the target advanced. -/
  | waitaRelease (v : VatNo)
  /-- R114: Vat writes the AT or the mirrored ASN into a register pair. -/
  | stamp (v : VatNo) (rd : RegNo) (src : BitVec 2)
  /-- R115: Vat waits on a task input, consuming a pending trigger at once if present. -/
  | waitt (v : VatNo) (input : BitVec 2)
  /-- R115: A trigger becomes visible at a waiting Vat's task input and WAITT releases with ONE or CLASH. -/
  | waittRelease (v : VatNo)
  /-- R116: Vat arms the timeout for its next WAITT or QPOP. -/
  | tmo (v : VatNo) (rb : RegNo)
  /-- R116: The armed timeout of a blocked WAITT or QPOP expires. -/
  | vatTimeout (v : VatNo)
  /-- R99: Vat executes an undefined opcode or illegal encoding and faults. -/
  | illegal (v : VatNo) (word : Word)
  /-- R117: A Vat watchdog expires and raises the WDOG fault. -/
  | wdog (v : VatNo)
  /-- R132: Vat binds or releases an air port or canopy group. -/
  | bind (v : VatNo) (port : BitVec 5)
  /-- R134: Vat retunes its chain's synthesiser from a hop-table entry and sets CHSLOT. -/
  | hop (v : VatNo) (ra : RegNo) (i : Bool) (table : BitVec 3) (idx : BitVec 10)
  /-- R135: Vat writes a setpoint, checked by the guard during a carrier. -/
  | pwr (v : VatNo) (ra : RegNo) (i : Bool) (setpt : BitVec 9)
  /-- R136: Vat selects an antenna multiplexer port. -/
  | ant (v : VatNo) (ra : RegNo) (i : Bool) (port : BitVec 4)
  /-- R137: Vat loads a canopy weight set and its steering table. -/
  | beam (v : VatNo) (ra : RegNo) (i : Bool) (set : BitVec 10)
  /-- R138: Vat requests carrier on or off on its bound port. -/
  | carry (v : VatNo) (on : Bool)
  /-- R45: A held or named CARRY launches once lock, settle and the guard's launch checks allow, or is refused. -/
  | carryLaunch (v : VatNo)
  /-- R46: A held CARRY reaches 100 µs without lock and ends with CUT. -/
  | synTimeout (v : VatNo)
  /-- R140: Vat sends a transmit template now or relative to the last reply. -/
  | txc (v : VatNo) (rd rb : RegNo) (launch : BitVec 2) (tpl : BitVec 10)
  /-- R140: The last symbol of a transmitted template ends and the Vat is released. -/
  | txcEnd (v : VatNo)
  /-- R142: Vat opens a listen window with a listen template. -/
  | lsn (v : VatNo) (rd : RegNo) (tpl : BitVec 10)
  /-- R70: The correlator bank validates a reply preamble, freezing AGC and starting decoding. -/
  | preambleValidated (p : RxPort) (o : PreambleObs)
  /-- R79: A listen window reaches its decision tick; class, descriptor and OC are set and a reply slot is written. -/
  | lsnDecision (p : RxPort) (o : ReplyObs)
  /-- R145: Vat copies the latest reply slot to Data SRAM. -/
  | rxb (v : VatNo) (ra : RegNo) (w : BitVec 8)
  /-- R150: Vat enters or updates a ledger record for a key. -/
  | lput (v : VatNo) (rd ra rb : RegNo) (off : BitVec 5)
  /-- R150: Vat looks up a key in the ledger. -/
  | lget (v : VatNo) (rd ra rb : RegNo) (off : BitVec 5)
  /-- R150: Vat updates the last-sighting fields of a record by number. -/
  | ltouch (v : VatNo) (ra : RegNo)
  /-- R148: The ledger engine's answer returns and releases the waiting Vat. -/
  | ledgerAnswer (v : VatNo)
  /-- R151: Vat opens a transaction, reserving pool space and a handle. -/
  | topen (v : VatNo) (rd ra rb : RegNo) (queue : BitVec 6) (ext : Word)
  /-- R152: Vat appends words to a transaction's result. -/
  | tput (v : VatNo) (ra rb : RegNo) (src : Bool) (w : BitVec 8)
  /-- R153: Vat closes a transaction successfully and its completion is placed. -/
  | tdone (v : VatNo) (ra : RegNo)
  /-- R153: Vat closes a transaction with a failure status. -/
  | tfail (v : VatNo) (ra rb : RegNo)
  /-- R154: Vat publishes an event on a trails channel. -/
  | post (v : VatNo) (ch : BitVec 6)
  /-- R155: Vat pushes one item to a queue. -/
  | qpush (v : VatNo) (ra rb : RegNo) (w : BitVec 8) (queue : BitVec 6)
  /-- R156: Vat pops the oldest item of a queue, or waits while it is empty. -/
  | qpop (v : VatNo) (rd ra : RegNo) (w : BitVec 8) (queue : BitVec 6)
  /-- R156: An item becomes visible for a waiting QPOP and is taken and copied. -/
  | qpopTake (v : VatNo)
  /-- R121: A write of VATn_CTRL.START starts a Vat at ENTRY. -/
  | start (v : VatNo)
  /-- R94: A write of VATn_CTRL.STOP stops a Vat. -/
  | stop (v : VatNo)
  /-- R123: A write of DBG_HALT puts a Vat in DEBUG. -/
  | dbgHalt (v : VatNo)
  /-- R123: A write of RESUME returns a Vat from DEBUG to RUN. -/
  | resume (v : VatNo)
  /-- R123: A write of STEP executes one instruction in DEBUG. -/
  | step (v : VatNo)
  /-- R122: A write of CNT_CLR clears VATn_LATE and VATn_ECC. -/
  | cntClr (v : VatNo)
  /-- R122: A write of VAT_GSTART starts the masked Vats in one cycle. -/
  | vatGstart (mask : BitVec 16)
  /-- R122: A write of VAT_GSTOP stops the masked Vats in one cycle. -/
  | vatGstop (mask : BitVec 16)
  /-- R111: A write of VATn_SWAP.ARM makes a swap pending. -/
  | vatSwapArm (by' : Writer) (v : VatNo) (entry : BitVec 18)
  /-- R111: A write of VATn_SWAP.CANCEL clears a pending swap. -/
  | vatSwapCancel (v : VatNo)
  /-- R133: A write of VATn_ASTAT.UNBIND releases a stopped Vat's binding. -/
  | unbind (v : VatNo)
  /-- R159: A write of VATn_ASTAT.ACLR clears VATn_ACNT. -/
  | aclr (v : VatNo)
  /-- R44: A write of UHFn_CTRL.TARGET moves the chain to a state, ramping down and cutting the bound Vat. -/
  | uhfTargetWrite (c : ChainNo) (target : BitVec 3)
  /-- R35: A write of UHFn_CTRL.SYN_SEL changes the chain's synthesiser unless refused. -/
  | synSelWrite (c : ChainNo) (sel : BitVec 2)
  /-- R48: A host write of UHFn_PWR.SETPT, checked by the guard during a carrier. -/
  | setptWrite (c : ChainNo) (setpt : BitVec 9)
  /-- R52: A write of UHFn_TXW changes transmit phase and amplitude. -/
  | txwWrite (c : ChainNo) (amp : BitVec 8) (phase : BitVec 10)
  /-- R53: A host write of UHFn_ANT.PORT drives a new multiplexer port unless refused. -/
  | portWrite (c : ChainNo) (port : BitVec 4)
  /-- R53: The multiplexer settle time elapses and SETTLED reads 1. -/
  | portSettled (c : ChainNo)
  /-- R49: A write to a modulation profile re-evaluates its VALID bit. -/
  | modpWrite (c : ChainNo) (k : Fin 4) (part : Fin 3) (value : Word)
  /-- R385: A write of UHFn_FE.PAEN_POL updates AON_PAPOL. -/
  | paenPolWrite (c : ChainNo) (pol : Bool)
  /-- R55: A write of UHFn_TRIP.FORCE trips the chain with cause HOST. -/
  | tripForce (c : ChainNo)
  /-- R55: A chain detects a trip cause, closes its gate and enters TRIP. -/
  | chainTrip (c : ChainNo) (causes : BitVec 10)
  /-- R55: A write clearing UHFn_TRIP cause bits lets the chain leave TRIP. -/
  | tripClear (c : ChainNo) (mask asserted : BitVec 10)
  /-- R42: A carrier ramp-up completes and the chain enters CARRIER. -/
  | rampUpDone (c : ChainNo)
  /-- R42: A carrier ramp-down completes and the chain enters RX. -/
  | rampDownDone (c : ChainNo)
  /-- R42: A timed chain transition such as OFF to READY, READY to RX or TRIP to READY completes. -/
  | chainTransitionDone (c : ChainNo)
  /-- R36: A host write of SYN_Fm_FREQ retunes a synthesiser unless refused. -/
  | synFreqWrite (m : Fin 4) (freq : BitVec 20)
  /-- R33: A synthesiser's lock detector reports lock. -/
  | synLock (m : Fin 4)
  /-- R37: A synthesiser loses lock; chains using it with gates open trip unramped. -/
  | synUnlock (m : Fin 4)
  /-- R38: A write of SYN_Fm_CTRL.RECAL starts a synthesiser recalibration. -/
  | recal (m : Fin 4)
  /-- R38: A synthesiser recalibration ends, setting CAL_OK and TCAL on success. -/
  | synRecalDone (m : Fin 4) (ok : Bool) (temp : BitVec 8)
  /-- R38: The Ranger finds a synthesiser drifted beyond SYN_DRIFT.DT and recalibrates or shadows it. -/
  | synDriftRecal (m : Fin 4) (temp : BitVec 8)
  /-- R39: A write of SYN_SHADOW.GO starts a shadow hand-over. -/
  | shadowGo (src dst : BitVec 2)
  /-- R40: A write of SYN_SHADOW.CANCEL abandons a hand-over before the swap. -/
  | shadowCancel
  /-- R39: At the first tick all source chains have gates closed, they move to the destination synthesiser. -/
  | shadowSwap
  /-- R40: A hand-over not swapped within 10 s is abandoned. -/
  | shadowAbandon
  /-- R78: A 64 µs noise-floor mean completes in CARRIER and updates NOISE. -/
  | noiseMean (c : ChainNo) (value : BitVec 12)
  /-- R87: A write of UHFn_RX_VCLR.VIO clears the violation counters. -/
  | vclrVio (c : ChainNo)
  /-- R87: A write of UHFn_RX_VCLR.CLS clears the class counters. -/
  | vclrCls (c : ChainNo)
  /-- R82: A read of a reply DATA register returns a word of the viewed slot and advances IDX. -/
  | replyDataRead (p : RxPort)
  /-- R88: A write of CAP_CTRL.ARM takes the capture buffer and arms a capture. -/
  | capArm (c : ChainNo)
  /-- R88: A write of CAP_CTRL.ABORT stops a capture and releases the buffer. -/
  | capAbort (c : ChainNo)
  /-- R88: An armed capture meets its trigger condition. `idx` and `written` are what an observer of the buffer counts; the block
  counts its samples itself and takes nothing from them. -/
  | capTrigger (c : ChainNo) (idx : BitVec 16) (written : Nat)
  /-- R88: The post-trigger samples are written and the capture stops. `samples` are what the receiver sampled last, newest last. -/
  | capDone (c : ChainNo) (samples : List Word)
  /-- R210: A write of BRG_CANk_CFG forms, changes or disables a canopy group unless refused. -/
  | brgCfgWrite (k : Fin 4) (value : Word)
  /-- R210: A write of BRG_CANk_RADDR sets the result-record address unless refused. -/
  | brgRaddrWrite (k : Fin 4) (value : Word)
  /-- R216: The bearing matcher starts a match for a canopy window, abandoning an unfinished earlier one. -/
  | matchStart (k : Fin 4)
  /-- R220: A bearing match becomes ready and loads its result and record. -/
  | matchReady (k : Fin 4)
  /-- R224: A write of BRG_PCAL.ARM starts a phase-reference measurement. -/
  | pcalArm (value : Word)
  /-- R225: A write of BRG_PCAL.ABORT ends a measurement with no change. -/
  | pcalAbort
  /-- R224: N contributing windows are gathered; the measurement is tested, repeated or written. -/
  | pcalEnd
  /-- R225: A measurement gathers no window within 1 s and ends with CAL_NO_LOAD. -/
  | pcalNoLoad
  /-- R231: A write of CAL_CMD.GO starts a calibration on an available unit, or is refused. -/
  | calGo (unit op port : BitVec 4) (chslot : BitVec 3)
  /-- R234: A write of CAL_CMD.ABORT aborts the calibration on a unit. -/
  | calAbort (unit : BitVec 4)
  /-- R237: A calibration attempt ends; it is repeated, passes and writes trims, or fails. -/
  | calDone (unit : Fin 15) (o : CalObs)
  /-- R251: A write of CAL_TDATA sets a trim unless its unit calibrates. -/
  | calTdataWrite (value : Word)
  /-- R241: The Ranger finds a chain's temperature moved by DT and recalibrates it. -/
  | calAuto (c : ChainNo) (temp : BitVec 12)
  /-- R241: A deferred automatic recalibration is retried after 10 s. -/
  | calAutoRetry (c : ChainNo) (temp : BitVec 12)
  /-- R242: A write of UHFS_SPARE.READINESS changes the spare's readiness. -/
  | readinessWrite (r : BitVec 2)
  /-- R243: A hot unattached spare reruns its internal DC pass every 100 ms. -/
  | spareDcRerun (o : CalObs)
  /-- R243: The spare's DC trims age past 200 ms and RDY falls at HOT. -/
  | spareDcAged
  /-- R246: The 2:1 switch settles during a switch-over; the carrier launch is checked or the switch-over ends. -/
  | spareSwitchSettled
  /-- R247: The single DC pass of a warm takeover ends. -/
  | spareDcPassDone (o : CalObs)
  /-- R248: A write of UHFS_TAKE.GO requests a planned takeover. -/
  | takeGo (chain : BitVec 4)
  /-- R249: A write of UHFS_TAKE.RELEASE requests return of the front end to its chain. -/
  | takeRelease
  /-- R248: At the first tick with chain n's gate closed and US ready, SPSELn is set and US takes the settings. -/
  | plannedSwitch
  /-- R249: At the first tick with US's gate closed and chain n in RX, SPSELn is cleared. -/
  | releaseSwitch
  /-- R248: A planned takeover or release not achieved within 1 s ends with TAKE_TIMEOUT. -/
  | takeTimeout
  /-- R260: The guard starts the ramp-down of a carrier ahead of its DWELL, OCCUPANCY or SLOT limit tick. -/
  | rguLimitEnd (fe : Fin 8)
  /-- R260: Forward power stays above the limit for 20 µs and the guard ends the carrier. -/
  | overpower (fe : Fin 8) (fwd : BitVec 12)
  /-- R262: An occupancy sub-window boundary passes and the counted occupancy rolls. -/
  | occSubwindow
  /-- R267: The AIR island learns of MSH_DESYNC; the guard widens guards and ends offending carriers. -/
  | rguDesync
  /-- R267: The guard returns to synchronised mode at the first slot boundary after mesh time returns. -/
  | rguResync
  /-- R272: A write of HFR_CTRL.TARGET changes the HF port state, switching the field off. -/
  | hfrTargetWrite (target : BitVec 3)
  /-- R273: A write of HFR_DRV sets the driver current, limited by ILIM. -/
  | hfrDrvWrite (itgt : BitVec 9)
  /-- R271: A write to an HF mode profile re-evaluates VALID. -/
  | hfrModeWrite (k : Fin 4) (value : Word)
  /-- R273: A write of HFR_TRIP.FORCE trips the HF port. -/
  | hfrForce
  /-- R273: The HF port detects a trip cause and switches the field off. -/
  | hfrTrip (causes : BitVec 6)
  /-- R273: Clearing every HFR_TRIP cause bit returns the port to READY. -/
  | hfrTripClear (mask asserted : BitVec 6)
  /-- R276: The HF field reaches 90 % of ITGT and the CARRY ON ends. -/
  | hfrCarryEnd (imeas : BitVec 9)
  /-- R283: A card-watch pulse falls due and is made, or skipped. -/
  | cwPulse (amp : BitVec 12) (phase : BitVec 8)
  /-- R290: A write of ACT_CTRL.TARGET changes the ACT port state. -/
  | actTargetWrite (target : BitVec 3)
  /-- R291: A write of ACT_TRIP.FORCE trips the ACT port. -/
  | actForce
  /-- R291: The ACT port detects a trip cause and turns off its transmitter. -/
  | actTrip (causes : BitVec 4)
  /-- R291: Clearing every ACT_TRIP cause bit returns the port to READY. -/
  | actTripClear (mask asserted : BitVec 4)
  /-- R292: A 225 s duty sub-window ends and the rolling transmit account moves on. -/
  | actDutySubwindow
  /-- R299: A write of WKR_CODE re-evaluates CODE_BAD. -/
  | wkrCodeWrite (code : Word)
  /-- R299: WR433 matches its wake code, publishing an event or waking the device. -/
  | wr433Match (code : Word)
  /-- R300: WR24 sees a qualifying pulse train, publishing an event or waking the device. -/
  | wr24Match (pulses : List (Nat × Nat))
  /-- R320: A write of MSH_CTRL.RUN starts the MAC scanning or as root, or turns it off. -/
  | mshRunWrite (run root align : Bool)
  /-- R320: A write of MSH_CTRL.RESCAN makes the MAC leave the network and scan. -/
  | rescan
  /-- R331: A write of MSH_CTRL.CNT_CLR clears the mesh counters. -/
  | mshCntClr
  /-- R307: The mesh radio receives a whole frame and the MAC checks, delivers, acknowledges or corrects time. -/
  | mshFrameRx (f : MshFrame)
  /-- R309: A frame in reception is abandoned for a stronger SFD or a correlation floor breach. -/
  | mshFrameAbandon (phrValid : AbandonObs)
  /-- R310: A mesh slot boundary passes and the active link's transmit or receive proceeds. -/
  | mshSlotBoundary (o : SlotObs)
  /-- R318: A timekeeping receive window closes with no frame from the parent; MISS counts and a switch or DESYNC may follow. -/
  | mshMiss
  /-- R320: A scan dwell on one channel ends without a beacon and the scan moves on. -/
  | mshScanDwell
  /-- R317: A boundary ASN and AT pair from the MAC reaches the AIR mirror in time. -/
  | asnPair (asn : BitVec 40) (tick : Nat)
  /-- R317: No pair arrives 1 ms before an expected boundary; the AIR island counts on and treats the MAC as desynchronised. -/
  | asnPairMissing
  /-- R327: The MAC takes a host transmit request item from its TXQ. -/
  | mshTxRequest
  /-- R328: A write of MSH_WAKE.GO schedules a wake pulse train. -/
  | mshWake
  /-- R328: A wake train ends and EV_MSH_WAKE_DONE is published. -/
  | mshWakeDone
  /-- R321: An unlinked neighbour entry is removed 300 s after its last authenticated frame. -/
  | neighbourExpiry (i : Fin 64)
  /-- R324: The frame counter reaches mark minus 32,768 and the Ranger raises the stored mark. -/
  | fcMarkRaise
  /-- R334: A write of SPEn_CTRL.EN enables or disables a wired port. -/
  | speEnWrite (n : Fin 2) (en : Bool)
  /-- R334: A write of SPEn_CTRL.RETRAIN returns the port to auto-negotiation. -/
  | retrain (n : Fin 2)
  /-- R340: A write of SPEn_CTRL.CNT_CLR clears the port counters. -/
  | speCntClr (n : Fin 2)
  /-- R334: Auto-negotiation ends with a mode for TRAINING or with FAIL. -/
  | speAnDone (n : Fin 2) (partner24 partner10 : Bool)
  /-- R334: SNR holds above UP_SNR for 10 ms and the port enters UP. -/
  | speTrained (n : Fin 2) (snr eye echo : BitVec 8)
  /-- R334: Training lasts 1.0 s without success and the port returns to AN. -/
  | speTrainTimeout (n : Fin 2)
  /-- R334: A wired port loses its link and returns to AN. -/
  | speLinkLoss (n : Fin 2)
  /-- R335: A wired port takes a host transmit item and sends the frame. -/
  | speTxRequest (n : Fin 2)
  /-- R335: A wired port receives a whole frame and delivers, passes to the mesh, or drops and counts it. -/
  | speFrameRx (n : Fin 2) (f : WireFrame)
  /-- R346: A write of a new SRC to a running ring switches its source and stamps SCH. -/
  | ringSrcChange (n : Fin 8) (src : BitVec 4)
  /-- R345: A ring takes a source tick, advances its count and evaluates compares. -/
  | ringSourceTick (n : Fin 8)
  /-- R347: A write of RINGn_CMPk word 0 arms a compare, which may fire at once late. -/
  | ringCmpArm (n : Fin 8) (k : Fin 4) (lo : Word)
  /-- R348: A write of RINGn_CMPST.DISARM disarms compares without firing. -/
  | ringDisarm (n : Fin 8) (mask : BitVec 4)
  /-- R347: A write of RINGn_CNT loads the count of a stopped ring. -/
  | ringCntWrite (n : Fin 8) (lo : Word)
  /-- R350: A read of RINGn_CNT word 0 latches word 1 and the linked counter. -/
  | ringCntRead (n : Fin 8)
  /-- R349: A capture input event stores the ring count in its queue. -/
  | ringCapture (n : Fin 8) (j : Fin 2)
  /-- R349: A read of RINGn_CAPj word 0 pops the oldest capture. -/
  | ringCapRead (n : Fin 8) (j : Fin 2)
  /-- R353: A PPS edge is captured and qualified against the expected interval. -/
  | ppsEdge
  /-- R354: 1.5 s pass without a qualifying edge and the PPS state enters HOLDOVER. -/
  | ppsHoldover
  /-- R354: 3,600 s of holdover pass and the PPS state enters FREE. -/
  | ppsFree
  /-- R342: A read of AON_HW word 0 latches the heartwood high word. -/
  | aonHwRead
  /-- R360: A write of TRL_SWPUB publishes an event from the host or Ranger. -/
  | trlSwpub (by' : Writer) (ch : BitVec 6) (gen : BitVec 3)
  /-- R359: A write of TRL_CHk changes a channel's owner or clears its flags, subject to rights. -/
  | trlChWrite (by' : Writer) (k : Fin 64) (value : Word)
  /-- R361: A trails event reaches a consumer, setting pending, overrun or merge state. -/
  | trailsDelivery (id : Fin 128)
  /-- R363: A write of TRL_CSTAT.MCLR clears a consumer's MERGE count. -/
  | mclr (id : Fin 128)
  /-- R371: A host write of QMX_Qk_PUSH pushes a header or payload word. -/
  | qmxPush (q : QueueNo) (word : Word)
  /-- R373: A host read of QMX_Qk_POP pops one word, stalling while no item is visible. -/
  | qmxPop (q : QueueNo)
  /-- R373: A stalled host POP read reaches CEIL and ends with Q_EMPTY_TIMEOUT. -/
  | popCeiling (q : QueueNo)
  /-- R375: A write of QMX_Qk_CTRL.FLUSH discards the queue's items, tearing a partial one. -/
  | flush (q : QueueNo)
  /-- R376: A write of QMX_Qk_CTRL.MARK records the consumer pointer. -/
  | mark (q : QueueNo)
  /-- R376: A write of QMX_Qk_CTRL.REWIND returns the consumer pointer to the mark. -/
  | rewind (q : QueueNo)
  /-- R374: The two copies of a queue pointer differ and the queue is reset. -/
  | ptrMismatch (q : QueueNo)
  /-- R368: A write of QMX_Qk_BASE or QMX_Qk_EP configures, enables or disables a queue. -/
  | qmxConfigWrite (by' : Writer) (q : QueueNo) (ep : Bool) (value : Word)
  /-- R192: A write of TXN_HCMD.FREE returns a closed handle and its blocks. -/
  | txnFree (h : BitVec 8)
  /-- R192: A write of TXN_HCMD.ABORT closes an open handle with TXN_ABORTED. -/
  | txnAbort (h : BitVec 8)
  /-- R185: A write of TXN_POOL moves or resizes the result pool when every handle is free. -/
  | txnPoolWrite (value : Word)
  /-- R191: A completion queue gains room and the oldest pending completion is moved into it. -/
  | pendingMove (q : QueueNo)
  /-- R203: A write of LDG_CTRL.RUN stops or restarts the ledger engine. -/
  | ldgRunWrite (run : Bool)
  /-- R203: The ledger engine finishes its request in progress and stops. -/
  | ldgStopDone
  /-- R203: The ledger engine's rebuild of counts ends and it serves again. -/
  | ldgRebuildDone
  /-- R198: A write of LDG_SEED changes the hash seed while the engine is stopped. -/
  | ldgSeedWrite (seed : Word)
  /-- R197: A write of LDG_OVF relocates the overflow area unless refused. -/
  | ldgOvfWrite (value : Word)
  /-- R202: Ledger command READ copies a record consistently into LDG_RDATA. -/
  | ldgRead (arg : BitVec 16)
  /-- R202: Ledger command DELETE clears a record and its overflow slot. -/
  | ldgDelete (arg : BitVec 16)
  /-- R202: Ledger command CLEAR_BANK zeroes a bank and returns it to service. -/
  | clearBank (arg : BitVec 16)
  /-- R202: Ledger command AGE deletes records last seen before the threshold. -/
  | age
  /-- R202: Ledger command CLEAR_ALL zeroes every bank and clears stale marks. -/
  | clearAll
  /-- R202: A ledger command ends, setting RESULT and publishing EV_LDG_CMD. -/
  | ldgCmdDone
  /-- R386: A write of PWR_CTRL.ENTER requests entry to GLADE or FALLOW. -/
  | pwrEnter (target : BitVec 2)
  /-- R392: A write of PWR_CTRL.CANCEL cancels a running entry before the point of no return. -/
  | pwrCancel
  /-- R387: The device idle time elapses and the device enters its automatic sleep state. -/
  | autoEntry
  /-- R204: The Cellar bank signatures of an entry are stored in AON. -/
  | signaturesStored
  /-- R388: On the next heartwood edge AON latches AT, heartwood and the watch configuration. -/
  | entryLatch
  /-- R388: The next heartwood edge makes entry irreversible and engages the clamps. -/
  | pointOfNoReturn
  /-- R388: Every domain outside the target state loses power and SLEEPN goes low. -/
  | domainsOff
  /-- R391: A wake source in GLADE or FALLOW asserts a device reset and records the wake. -/
  | wake (sources : BitVec 8) (detail : Word)
  /-- R390: In GLADE the AON sensor is read and compared with the temperature window. -/
  | gladeTempSample (temp : BitVec 8)
  /-- R389: Heartwood reaches PWR_WT in sleep. -/
  | wakeTimer
  /-- R352: Heartwood reaches AON_HWCMP in GLADE. -/
  | hwcmpWake
  /-- R389: The WAKEN ball goes to its active level in sleep. -/
  | wakenPin
  /-- R382: A domain's idle timer expires and the domain is gated. -/
  | domainGate (dom : Domain)
  /-- R383: An access reaches a gated domain and wakes it, stalling until ready. -/
  | domainWake (dom : Domain)
  /-- R393: A retained-bank refresh interval ends, counting a miss if incomplete. -/
  | refreshInterval (temp : BitVec 8) (incomplete : BitVec 16)
  /-- R27: VDD_AON rises or falls past its threshold and resets the whole device. -/
  | powerOnReset (straps : Straps)
  /-- R27: RSTN is held low for 1 µs and resets the device. -/
  | pinReset (straps : Straps)
  /-- R27: A core supply monitor falls below threshold and resets the device. -/
  | brownOut (rail : BitVec 4)
  /-- R27: A temperature sensor reaches 145 °C and resets the device. -/
  | thermalReset (sensor : Fin 12) (temp : BitVec 12)
  /-- R29: Every sensor reads below 130 °C and the thermal reset is released. -/
  | thermalRelease
  /-- R31: A keyed write of SYS_RESET_REQ starts a host-request device reset. -/
  | sysResetReq (key : BitVec 16) (device : Bool)
  /-- R27: Ranger firmware requests a device reset. -/
  | rangerResetReq
  /-- R399: The Ranger watchdog expires, resetting the RGR island or escalating to a device reset. -/
  | rgrWdogExpiry
  /-- R27: A PCI Express or SPI target reset resets the HLK island. -/
  | hlkReset
  /-- R30: A device reset is released, the cause latch loads SYS_RESET_CAUSE and start-up begins. -/
  | deviceResetRelease
  /-- R426: A start-up step ends, setting SYS_STEP and publishing its event. -/
  | startupStepEnd (k : Fin 14) (o : StepObs)
  /-- R403: Mailbox command INFO returns identity, firmware and life-cycle data. -/
  | info
  /-- R406: Mailbox command STAGE_OPEN opens a two-slot region for staging. -/
  | stageOpen
  /-- R406: Mailbox command STAGE_WRITE writes data into the open target slot. -/
  | stageWrite
  /-- R406: Mailbox command STORE writes the CRC and makes the target slot current. -/
  | store
  /-- R406: Mailbox command STAGE_DISCARD abandons the open region. -/
  | stageDiscard
  /-- R240: Mailbox command CAL_CAPTURE captures the present calibration into the staged store. -/
  | calCapture
  /-- R177: Mailbox command HOOP_LOAD checks and loads a hoop image into hoop memory. -/
  | hoopLoad
  /-- R179: Mailbox command HOOP_SWAP loads a hoop and arms swaps for named Vats. -/
  | hoopSwap
  /-- R181: Mailbox command HOOP_FREE releases a hoop's index entry and span. -/
  | hoopFree
  /-- R406: Mailbox command HOOP_BOOTSET adds or removes an image in the open hoop store. -/
  | hoopBootset
  /-- R180: All Vats of a joint swap have stopped and are swapped and started together. -/
  | jointSwapStart
  /-- R180: A joint swap is not achieved within 1 s and the Vats are restarted. -/
  | jointSwapTimeout
  /-- R265: Mailbox command RGU_SELECT activates a regulatory profile. -/
  | rguSelect
  /-- R403: Mailbox command MSH_KEY loads a mesh key and optionally a new address. -/
  | mshKey
  /-- R409: Mailbox command KEY_SET writes and commits a key-store entry. -/
  | keySet
  /-- R411: Mailbox command FW_WRITE writes into the inactive firmware slot. -/
  | fwWrite
  /-- R412: Mailbox command FW_ACTIVATE checks the new slot and starts a trial boot. -/
  | fwActivate
  /-- R412: Mailbox command FW_CONFIRM ends a trial and raises ROLLBACK. -/
  | fwConfirm
  /-- R412: The 60 s firmware trial timer expires and resets the Ranger island. -/
  | fwTrialTimer
  /-- R413: Mailbox command ATTEST writes and signs an attestation report. -/
  | attest
  /-- R413: Mailbox command ATTEST_CERT copies the attestation certificate. -/
  | attestCert
  /-- R416: Mailbox command LCS_ADVANCE blows a life-cycle fuse and resets the device. -/
  | lcsAdvance
  /-- R417: Mailbox command RETURN_AUTH verifies the owner and returns a challenge. -/
  | returnAuth
  /-- R417: Mailbox command RETURN_TOKEN verifies the vendor token and enters RETURNED with erasure. -/
  | returnToken
  /-- R403: A mailbox item with an unknown TYPE ends with MBX_UNKNOWN. -/
  | mailboxUnknownType
  /-- R401: A read of SNS_TRNG takes a new random word. -/
  | snsTrngRead
  /-- R401: A TRNG health test fails and output is withheld. -/
  | trngHealthFail
  /-- R421: A read of MGT_LOG_D0 loads the log entry named by MGT_LOG_IDX. -/
  | mgtLogRead
  /-- R435: SPI command WRITE writes words from an address. -/
  | spiWrite (addr : Word) (words : List Word)
  /-- R435: SPI command READ returns N words after the start byte. -/
  | spiRead (addr : Word) (count : BitVec 8)
  /-- R435: SPI command STATUS returns the READY, ERR and BUSY byte. -/
  | spiStatus
  /-- R435: SPI command 0x66 arms the host-link reset. -/
  | spiResetArm
  /-- R435: SPI command 0x99 after arming resets the HLK island. -/
  | spiReset
  /-- R431: PCI Express link training completes. -/
  | pcieLinkUp (speed5 : Bool)
  /-- R440: The host link goes down or bus mastering is disabled; DMA channels stop. -/
  | linkDown
  /-- R432: A triggered or pending MSI-X vector is sent once enabled and unmasked. -/
  | msixMessage (vec : Fin 32)
  /-- R438: A DMA channel copies a visible queue item into the host ring and writes WR. -/
  | dmaItem (k : Fin 16)
  /-- R439: A write of HLK_DMAk_CFG enables or disables a DMA channel unless refused. -/
  | dmaCfgWrite (k : Fin 16) (value : Word)
  /-- R438: A write of HLK_DMAk_RD updates the host read index. -/
  | dmaRdWrite (k : Fin 16) (rd : Word)
  /-- R7: A write to a register field without behaviour of its own, per its access code. -/
  | registerWrite (by' : Writer) (width : Width) (addr : Word) (value : BitVec 64)
  /-- R294: The ACT synthesiser locks after a CARRY ON, the port enters RX and the CARRY ends. -/
  | actLock
  /-- R276: After a CARRY OFF on HFR the field falls below 1 % and the CARRY ends. -/
  | hfrFieldOff
  /-- R272: The HFR or ACT port finishes its timed transition to READY from OFF or TRIP, with its PLL locked. -/
  | portReadyDone (act : Bool)
  /-- R310: The sender's 400 µs acknowledgement listen window closes with no acknowledgement, so the frame is retried or ends with MSH_NO_ACK. -/
  | mshAckWindowEnd
  /-- R335: A wired port finishes sending a frame's FCS on the line and posts its 0x53 status item. -/
  | speTxDone (n : Fin 2)
  /-- R399: After a Ranger-island reset the firmware is running again, management resumes and RESTARTED is posted on Q1. -/
  | rangerRestart
  /-- R351: The JTAG port halts the Ranger for debugging, freezing the rings whose FRZ_SRC names it. -/
  | rangerDebugHalt
  /-- R351: The JTAG port releases a halted Ranger and the frozen rings count again. -/
  | rangerDebugResume
  /-- R392: The Ranger ends recovery after a thermal, brown-out or watchdog reset, and PHASE leaves RECOVERY. -/
  | recoveryEnd
  /-- R401: After a health-test failure, 1,024 consecutive samples pass and the TRNG delivers output again. -/
  | trngHealthPass
  /-- R431: A PCI Express configuration request is answered, with Retry Status before step 6 and served in full after it, setting Bus Master Enable and MSI-X enables. -/
  | pcieConfigRequest (write : Option ConfigWrite)
  /-- R24: A host read whose access has behaviour of its own beyond returning data, such as latching a high word (MSH_ASN_LO, RING_AT, RING_PPS) or ending as a host link error. -/
  | registerRead (by' : Writer) (width : Width) (addr : Word)
deriving DecidableEq, Repr

end Sys2Proof
end

