-- ==== Sys2Proof/Decode.lean ====
section
/-! DEFINITION. The commands that a word spells: no row of spec/opcode_table.json gives its command any bits, so none. (The
encoding of the Vats' own instructions is in Sys2Proof/Machine/Isrin.lean.) -/

namespace Sys2Proof

/-- The command whose bits are `w`: the table gives no row any bits. -/
def decodeTableWord (_nbits _w : Nat) : Option Instr := none

end Sys2Proof
end

