-- ==== Sys2Proof/Config.lean ====
section
/-! DEFINITION. What an implementation fixes and the free values: constants with no body, so that nothing can be
proved of a value of theirs. Each one is named in notes/assumptions. -/

namespace Sys2Proof.Config

/-- The random number of an ECDSA P-521 signature (R408, R413): private key, message. -/
opaque p521Nonce : List Byte → List Byte → BitVec 521

/-- The n-th word the random generator delivers (R401). -/
opaque trngWord : Nat → Word

/-- The analogue value that a unit reports where the spec gives it no number; the argument is the model's own count
of such values taken so far. -/
opaque freeValue : Nat → Word

/-- The heartwood edges that fall in the AT ticks from the second count to the third when heartwood holds the first (R342:
a crystal the AT clock does not share a phase with). -/
opaque heartwoodEdges : Nat → Nat → Nat → Nat

/-- The heartwood ticks that pass where AT does not count: in a sleep, and from a reset to the edge that loads AT (R341,
R389). The argument is the model's count of free values. -/
opaque heartwoodGap : Nat → Nat

/-- The 16-byte serial number of a life-cycle epoch derives a mesh address by a function the spec does not give (R403). -/
opaque meshAddress : List Byte → Nat → BitVec 64

/-- The highest of the 0.5 µs energy blocks of the listen time before a launch of a front end at a tick, signed, 0.1 dBm
(R259): what the receiver heard. -/
opaque lbtLevel : Nat → Nat → BitVec 12

/-- The drive that the power loop of chain registers has corrected to (R47): the registers, the number of corrections since the
ramp-up, the setpoint. -/
opaque loopDrive : Nat → Nat → Nat → BitVec 12

/-- Where the tracking canceller of a chain's electronics stands at a tick (R57): the electronics, 0 for the in-phase trim, 1 for
the quadrature trim, the trim it tracks from, the tick it tracks from, and the tick. -/
opaque lkcTrack : Nat → Nat → Nat → Nat → Nat → BitVec 12

/-- The residual at the mixer input of a chain's electronics at a tick (R59). -/
opaque lkcResid : Nat → Nat → BitVec 12

/-- A reading of a directional coupler's detector (R47, table "Transmit characteristics"): the front end, 0 for forward and 1 for
reflected power, and the number of the 1 µs reading. -/
opaque detReading : Nat → Nat → Nat → BitVec 12

/-- The detail word of a log entry that no chapter states (R402): sequence number and word 4 to 7. -/
opaque logDetail : Nat → Nat → Word

/-- The ticks an HF frame takes (R278): the mode profile (STD, RATE, RXLOW, DUALSC, C256, PARITY, DEPTH), the template's word 0,
the bits sent with CRC and parity. The spec names the standards whose framing this is and does not restate them. -/
opaque hfFrameTicks : Nat → Nat → List Bool → Nat

/-- The end of the last pause of an HF frame in ticks before its end (R279), in a mode with 100 % ASK: the mode profile, the bits
sent. -/
opaque hfLastPause : Nat → List Bool → Nat

/-- The ticks that a signature verification takes: about 9 ms (R177). The argument is the model's count of free values. -/
opaque verifyTicks : Nat → Nat

/-- The ticks that digesting and copying a hoop image take (R177), before the bound of 1 ms per 100 KB. -/
opaque copyTicks : Nat → Nat

/-- The bytes of a key-store slot as its entries lie there (R404, R409): the public entries, the offset. The spec does not lay the
slot out. -/
opaque keyStoreByte : List (Nat × List Byte) → Nat → Byte

/-- The vendor's signature over the attestation certificate (R409): the bytes it signs, the place in the trailer. -/
opaque vendorSign : List Byte → Nat → Byte

/-- Whether the receiver of a port has been at full scale since the gain was held (R80, R281), where a window ends before its
decision measures it: port, tick. -/
opaque rxClip : Nat → Nat → Bool

/-- A sample of the DSP capture (R88): registers of the chain, D of the decimation or 0 in RAW mode, the tick it is complete. -/
opaque capSample : Nat → Nat → Nat → Word

/-- The step of the fast AGC of a chain while it still moves (R73): registers, tick. -/
opaque agcStep : Nat → Nat → Nat

/-- The low-margin symbols a UHF receiver has counted (R80), where a window ends before its decision: registers, tick. -/
opaque rxLowc : Nat → Nat → Nat

/-- The low byte of a status code that the spec says is reported and does not give: 0 an automatic recalibration, 1 its
deferral (R241); further numbers where the model names them. -/
opaque codeCase : Nat → Nat

/-- The group of such a code, where the spec does not say whose the code is. -/
opaque codeGroup : Nat → Nat

/-- A status code of group `g` that the spec does not give: within the group, and not success (R11). -/
def codeIn (g n : Nat) : Nat := 256 * g + 1 + codeCase n % 255

/-- A status code whose group is not given either: one of the groups of the table "Status code groups" (R11). -/
def codeAny (n : Nat) : Nat := codeIn (1 + codeGroup n % 10) n

/-- The status code of the log entry of a Vat fault (R119), which the spec does not give. -/
def vatFaultCode : Nat := codeAny 60

/-- The status code of the log entry of a hoop swap (R110), which the spec does not give. -/
def vatSwapCode : Nat := codeAny 61

/-- The status with which a recalibration of a synthesiser ended that did not succeed (R38, R235, R236), where the event
does not say which. -/
opaque synFailCode : Nat

/-- The averaged RSSI of a neighbour after a frame (R313): the old average, the frame's RSSI. The spec names the average and
does not say how it is taken. -/
opaque meshRssi : Nat → Nat → BitVec 12

/-- The shared links a backoff lets pass (R311): CSMA-CA of IEEE 802.15.4, whose random draw is not the spec's; the argument
is the model's count of free values. -/
opaque meshBackoff : Nat → Nat

/-- The bytes of the PSDU of an own frame (R311): its kind's number and the bytes of its Oluon sub-IEs. The spec names the
frame format of IEEE 802.15.4 and does not restate it. -/
opaque meshFrameBytes : Nat → Nat → Nat

/-- What a temperature sensor reads at a tick, 0.1 °C (R423): sensor, tick. -/
opaque sensorTemp : Nat → Nat → BitVec 12

/-- The field phase that the HF receiver measures at a tick (R288): nothing else fixes it. -/
opaque fieldPhase : Nat → Nat

end Sys2Proof.Config
end

