-- ==== Sys2Proof/Machine/RegMap.lean ====
section
/-! DEFINITION. The register map: every register of the register tables of spec/ by name, its place in the
address space, and its fields with the access code and reset value the tables give (R5, R7, R9, R23). Written
from the register tables; one row of a table is one row here. -/

namespace Sys2Proof.Machine

/-- The registers of the device, one constructor for each register table of spec/ (an indexed register is one
constructor; a register of several words is one constructor for each word, `_W0`, `_W1`, …). -/
inductive Reg where
  | SYS_RESET_CAUSE | SYS_RESET_REQ | UHF_CTRL | UHF_STATUS | UHF_PWR | UHF_FE | UHF_ANT | UHF_RAMP | UHF_TXW
  | UHF_DET | UHF_TRIP | UHF_PROT | UHF_LKC_CTRL | UHF_LKC_TRIM | UHF_LKC_RESID | UHF_LKC_CIDX
  | UHF_LKC_CDATA | UHF_MODP_A | UHF_MODP_B | UHF_MODP_C | UHFS_SPARE | UHFS_TAKE | UHFS_SPSEL | SYN_F_CTRL
  | SYN_F_FREQ | SYN_F_STATUS | SYN_F_CAL | SYN_SHADOW | SYN_DRIFT | UHF_RX_CTRL | UHF_RX_QFLR
  | UHF_RX_STATUS | UHF_RX_NOISE | UHF_RX_VCLR | UHF_RX_CCNT | UHF_RX_VCNT0 | UHF_RX_VCNT1 | UHF_RX_VCNT2
  | UHF_RPY_IDX | UHF_RPY_DATA | UHF_CAP_CTRL | UHF_CAP_STATUS | UHF_CAP_TAT_LO | UHF_CAP_TAT_HI | VAT_CTRL
  | VAT_STATUS | VAT_PC | VAT_ENTRY | VAT_OC | VAT_BIND | VAT_WDOG | VAT_FAULT | VAT_SWAP | VAT_CLRID
  | VAT_LATE | VAT_ECC | VAT_TMO | VAT_TRIG | VAT_G | VAT_RSTK | VAT_FAT_LO | VAT_FAT_HI | VAT_SUMMARY
  | VAT_GSTART | VAT_GSTOP | VAT_ASTAT | VAT_ACNT | VAT_GEN | VAT_HOPEN | TXN_POOL | TXN_STATUS | TXN_POOLST
  | TXN_PEND | TXN_HCMD | TXN_HIDX | TXN_HINFO0 | TXN_HINFO1 | TXN_HINFO2 | TXN_HINFO3 | TXN_HINFO4
  | TXN_CNT0 | TXN_CNT1 | TXN_CQ | LDG_CTRL | LDG_SEED | LDG_STATUS | LDG_COUNT | LDG_BANK | LDG_CMD
  | LDG_CMDST | LDG_OVF | LDG_OVFST | LDG_AGE_LO | LDG_AGE_HI | LDG_CNT0 | LDG_CNT1 | LDG_RDATA | BRG_CTRL
  | BRG_STATUS | BRG_CAN_CFG | BRG_CAN_RADDR | BRG_CAN_RES0 | BRG_CAN_RES1 | BRG_CAN_RES2 | BRG_CAN_CNT0
  | BRG_CAN_CNT1 | BRG_POIDX | BRG_PODATA | BRG_PCAL | BRG_PCAL_ST | BRG_PCAL_R | CAL_CTRL | CAL_CMD
  | CAL_STATUS | CAL_QUAL | CAL_TIDX | CAL_TDATA | CAL_ERR | UHFS_SPST | UHFS_CBANK | RGU_ACTIVE | RGU_STATUS
  | RGU_SLOT | RGU_CNT | RGU_PRM | RGU_CHIDX | RGU_CHDATA | RGU_ANTIDX | RGU_ANTDATA | RGU_FE | RGU_OCIDX
  | RGU_OCDATA | RGU_OCHOLD | HFR_CTRL | HFR_STATUS | HFR_DRV | HFR_MEAS | HFR_TRIP | HFR_RX | HFR_QFLR
  | HFR_MODE | HFR_VCNT | HFR_RPY_IDX | HFR_RPY_DATA | HFR_CW_CTRL | HFR_CW_THR | HFR_CW_BASE | HFR_CW_LAST
  | HFR_CW_CNT | ACT_CTRL | ACT_STATUS | ACT_TXCFG | ACT_LIMIT | ACT_DUTY | ACT_TRIP | ACT_RX | ACT_RPY_IDX
  | ACT_RPY_DATA | WKR_CTRL | WKR_CODE | WKR_433CFG | WKR_24PW | WKR_24SEQ | WKR_STATUS | WKR_CNT | MSH_CTRL
  | MSH_STATUS | MSH_NET | MSH_PHY | MSH_SYNC | MSH_SCAN | MSH_ASN_LO | MSH_ASN_HI | MSH_DRIFT | MSH_TSRC
  | MSH_Q | MSH_WAKE | MSH_FCOUT | MSH_KEYST | MSH_EXT_LO | MSH_EXT_HI | MSH_HOP | MSH_SF | MSH_LIDX
  | MSH_LDATA | MSH_NIDX | MSH_NDATA_W0 | MSH_NDATA_W1 | MSH_NDATA_W2 | MSH_NDATA_W3 | MSH_NDATA_W4
  | MSH_NDATA_W5 | MSH_SIDX | MSH_SDATA_W0 | MSH_SDATA_W1 | MSH_SDATA_W2 | MSH_SDATA_W3 | MSH_CNT | SPE_CTRL
  | SPE_STATUS | SPE_QUAL | SPE_MAC_LO | SPE_MAC_HI | SPE_Q | SPE_CNT | RING_CTRL | RING_PRE | RING_CNT_W0
  | RING_CNT_W1 | RING_CMP_W0 | RING_CMP_W1 | RING_CMPST | RING_CAPCFG | RING_CAP_W0 | RING_CAP_W1
  | RING_CAPST | RING_SCH_W0 | RING_SCH_W1 | RING_LCNT_W0 | RING_LCNT_W1 | RING_PPSCFG | RING_PPSST
  | RING_PPS_W0 | RING_PPS_W1 | RING_AT_W0 | RING_AT_W1 | AON_HW_W0 | AON_HW_W1 | AON_ATRATIO | AON_ATCFG
  | AON_ATST | AON_ENT_W0 | AON_ENT_W1 | AON_ENT_W2 | AON_ENT_W3 | AON_HWCMP_W0 | AON_HWCMP_W1 | TRL_CH
  | TRL_PIDX | TRL_PDATA | TRL_CIDX | TRL_CMASK_LO | TRL_CMASK_HI | TRL_CSTAT | TRL_SWPUB | TRL_STATUS
  | TRL_DROP | QMX_Q_BASE | QMX_Q_EP | QMX_Q_CTRL | QMX_Q_CNT | QMX_Q_STAT | QMX_Q_PUSH | QMX_Q_POP
  | PWR_CTRL | PWR_STATUS | PWR_POLICY | PWR_WAKEEN | PWR_IDLE0 | PWR_IDLE1 | PWR_DOM0 | PWR_DOM1 | PWR_GTEMP
  | PWR_WT_LO | PWR_WT_HI | PWR_CNT | AON_RET_SEL | AON_RET_STATUS | AON_WAKE_REC0 | AON_WAKE_REC1
  | AON_WAKE_REC2 | AON_WAKE_REC3 | AON_PAPOL | AON_REFR | NVM_STATUS | NVM_GIDX | NVM_GEN0 | NVM_GEN1
  | NVM_BOOT | MGT_STATUS | MGT_LOG_NEW | MGT_LOG_OLD | MGT_LOG_IDX | MGT_LOG_CNT | MGT_LOG_D | LCS_STATE
  | LCS_SERIAL | SNS_TEMP | SNS_SUPPLY | SNS_TRNG | SNS_TRNG_ST | SYS_IDENT | SYS_STRAP | SYS_STEP | SYS_ROLL
  | SYS_CLK | HLK_STATUS | HLK_PCI_ID | HLK_ERR | HLK_ERRADDR | HLK_IRQPEND | HLK_IRQMASK | HLK_DMA_CFG
  | HLK_DMA_BASE_LO | HLK_DMA_BASE_HI | HLK_DMA_SHD_LO | HLK_DMA_SHD_HI | HLK_DMA_RD | HLK_DMA_WR
  | HLK_DMA_STAT | PMX_PAD | UHF_RPY_D0 | UHF_RPY_D1 | UHF_RPY_D2 | UHF_RPY_D3 | UHF_RPY_D4 | UHF_RPY_D5
  | UHF_RPY_D6 | UHF_RPY_D7 | HFR_RPY_D0 | HFR_RPY_D1 | HFR_RPY_D2 | HFR_RPY_D3 | HFR_RPY_D4 | HFR_RPY_D5
  | HFR_RPY_D6 | HFR_RPY_D7 | ACT_RPY_D0 | ACT_RPY_D1 | ACT_RPY_D2 | ACT_RPY_D3 | ACT_RPY_D4 | ACT_RPY_D5
  | ACT_RPY_D6 | ACT_RPY_D7
deriving DecidableEq, Repr

/-- The access codes of R7. -/
inductive Access where
  | rw | ro | wo | w1c | w1s | rwl | rwo
deriving DecidableEq, Repr

/-- One field of a register table: bits [hi:lo], access code, reset value. -/
structure Row where
  hi : Nat
  lo : Nat
  acc : Access
  reset : Nat
deriving DecidableEq, Repr

/-- Where a register lies: the byte address of its first copy, then the count and stride of its two indices
(the unit it belongs to, and its own index within the unit). -/
structure Place where
  base : Nat
  ni : Nat := 1
  si : Nat := 0
  nj : Nat := 1
  sj : Nat := 0
deriving DecidableEq, Repr

/-- A register field: the register and its bits. -/
structure Fld where
  r : Reg
  hi : Nat
  lo : Nat
deriving DecidableEq, Repr

/-- The place of each register (R23 and the offset table of each block). -/
def Reg.place : Reg → Place
  | .SYS_RESET_CAUSE => { base := 0x40000010 }
  | .SYS_RESET_REQ => { base := 0x40000014 }
  | .UHF_CTRL => { base := 0x40100000, ni := 9, si := 0x10000 }
  | .UHF_STATUS => { base := 0x40100004, ni := 9, si := 0x10000 }
  | .UHF_PWR => { base := 0x40100008, ni := 9, si := 0x10000 }
  | .UHF_FE => { base := 0x4010000c, ni := 9, si := 0x10000 }
  | .UHF_ANT => { base := 0x40100010, ni := 9, si := 0x10000 }
  | .UHF_RAMP => { base := 0x40100014, ni := 9, si := 0x10000 }
  | .UHF_TXW => { base := 0x40100018, ni := 9, si := 0x10000 }
  | .UHF_DET => { base := 0x4010001c, ni := 9, si := 0x10000 }
  | .UHF_TRIP => { base := 0x40100020, ni := 9, si := 0x10000 }
  | .UHF_PROT => { base := 0x40100024, ni := 9, si := 0x10000 }
  | .UHF_LKC_CTRL => { base := 0x40100028, ni := 9, si := 0x10000 }
  | .UHF_LKC_TRIM => { base := 0x4010002c, ni := 9, si := 0x10000 }
  | .UHF_LKC_RESID => { base := 0x40100030, ni := 9, si := 0x10000 }
  | .UHF_LKC_CIDX => { base := 0x40100034, ni := 9, si := 0x10000 }
  | .UHF_LKC_CDATA => { base := 0x40100038, ni := 9, si := 0x10000 }
  | .UHF_MODP_A => { base := 0x40100040, ni := 9, si := 0x10000, nj := 4, sj := 16 }
  | .UHF_MODP_B => { base := 0x40100044, ni := 9, si := 0x10000, nj := 4, sj := 16 }
  | .UHF_MODP_C => { base := 0x40100048, ni := 9, si := 0x10000, nj := 4, sj := 16 }
  | .UHFS_SPARE => { base := 0x40180080 }
  | .UHFS_TAKE => { base := 0x40180084 }
  | .UHFS_SPSEL => { base := 0x40180088 }
  | .SYN_F_CTRL => { base := 0x400a0000, ni := 4, si := 0x20 }
  | .SYN_F_FREQ => { base := 0x400a0004, ni := 4, si := 0x20 }
  | .SYN_F_STATUS => { base := 0x400a0008, ni := 4, si := 0x20 }
  | .SYN_F_CAL => { base := 0x400a000c, ni := 4, si := 0x20 }
  | .SYN_SHADOW => { base := 0x400a0080 }
  | .SYN_DRIFT => { base := 0x400a0084 }
  | .UHF_RX_CTRL => { base := 0x40100100, ni := 9, si := 0x10000 }
  | .UHF_RX_QFLR => { base := 0x40100104, ni := 9, si := 0x10000 }
  | .UHF_RX_STATUS => { base := 0x40100108, ni := 9, si := 0x10000 }
  | .UHF_RX_NOISE => { base := 0x4010010c, ni := 9, si := 0x10000 }
  | .UHF_RX_VCLR => { base := 0x40100110, ni := 9, si := 0x10000 }
  | .UHF_RX_CCNT => { base := 0x40100120, ni := 9, si := 0x10000, nj := 4, sj := 4 }
  | .UHF_RX_VCNT0 => { base := 0x40100130, ni := 9, si := 0x10000 }
  | .UHF_RX_VCNT1 => { base := 0x40100134, ni := 9, si := 0x10000 }
  | .UHF_RX_VCNT2 => { base := 0x40100138, ni := 9, si := 0x10000 }
  | .UHF_RPY_IDX => { base := 0x40100160, ni := 9, si := 0x10000 }
  | .UHF_RPY_DATA => { base := 0x40100164, ni := 9, si := 0x10000 }
  | .UHF_CAP_CTRL => { base := 0x40100180, ni := 9, si := 0x10000 }
  | .UHF_CAP_STATUS => { base := 0x40100184, ni := 9, si := 0x10000 }
  | .UHF_CAP_TAT_LO => { base := 0x40100188, ni := 9, si := 0x10000 }
  | .UHF_CAP_TAT_HI => { base := 0x4010018c, ni := 9, si := 0x10000 }
  | .VAT_CTRL => { base := 0x40060000, ni := 16, si := 0x400 }
  | .VAT_STATUS => { base := 0x40060004, ni := 16, si := 0x400 }
  | .VAT_PC => { base := 0x40060008, ni := 16, si := 0x400 }
  | .VAT_ENTRY => { base := 0x4006000c, ni := 16, si := 0x400 }
  | .VAT_OC => { base := 0x40060010, ni := 16, si := 0x400 }
  | .VAT_BIND => { base := 0x40060014, ni := 16, si := 0x400 }
  | .VAT_WDOG => { base := 0x40060018, ni := 16, si := 0x400 }
  | .VAT_FAULT => { base := 0x4006001c, ni := 16, si := 0x400 }
  | .VAT_SWAP => { base := 0x40060020, ni := 16, si := 0x400 }
  | .VAT_CLRID => { base := 0x40060024, ni := 16, si := 0x400 }
  | .VAT_LATE => { base := 0x40060028, ni := 16, si := 0x400 }
  | .VAT_ECC => { base := 0x4006002c, ni := 16, si := 0x400 }
  | .VAT_TMO => { base := 0x40060030, ni := 16, si := 0x400 }
  | .VAT_TRIG => { base := 0x40060034, ni := 16, si := 0x400 }
  | .VAT_G => { base := 0x40060040, ni := 16, si := 0x400, nj := 16, sj := 4 }
  | .VAT_RSTK => { base := 0x40060080, ni := 16, si := 0x400, nj := 8, sj := 4 }
  | .VAT_FAT_LO => { base := 0x400600a0, ni := 16, si := 0x400 }
  | .VAT_FAT_HI => { base := 0x400600a4, ni := 16, si := 0x400 }
  | .VAT_SUMMARY => { base := 0x40064000 }
  | .VAT_GSTART => { base := 0x40064004 }
  | .VAT_GSTOP => { base := 0x40064008 }
  | .VAT_ASTAT => { base := 0x40060100, ni := 16, si := 0x400 }
  | .VAT_ACNT => { base := 0x40060104, ni := 16, si := 0x400 }
  | .VAT_GEN => { base := 0x40060108, ni := 16, si := 0x400 }
  | .VAT_HOPEN => { base := 0x4006010c, ni := 16, si := 0x400 }
  | .TXN_POOL => { base := 0x40070000 }
  | .TXN_STATUS => { base := 0x40070004 }
  | .TXN_POOLST => { base := 0x40070008 }
  | .TXN_PEND => { base := 0x4007000c }
  | .TXN_HCMD => { base := 0x40070010 }
  | .TXN_HIDX => { base := 0x40070018 }
  | .TXN_HINFO0 => { base := 0x4007001c }
  | .TXN_HINFO1 => { base := 0x40070020 }
  | .TXN_HINFO2 => { base := 0x40070024 }
  | .TXN_HINFO3 => { base := 0x40070028 }
  | .TXN_HINFO4 => { base := 0x4007002c }
  | .TXN_CNT0 => { base := 0x40070030 }
  | .TXN_CNT1 => { base := 0x40070034 }
  | .TXN_CQ => { base := 0x40070040, nj := 16, sj := 4 }
  | .LDG_CTRL => { base := 0x40080000 }
  | .LDG_SEED => { base := 0x40080004 }
  | .LDG_STATUS => { base := 0x40080008 }
  | .LDG_COUNT => { base := 0x4008000c }
  | .LDG_BANK => { base := 0x40080010 }
  | .LDG_CMD => { base := 0x40080014 }
  | .LDG_CMDST => { base := 0x40080018 }
  | .LDG_OVF => { base := 0x4008001c }
  | .LDG_OVFST => { base := 0x40080020 }
  | .LDG_AGE_LO => { base := 0x40080028 }
  | .LDG_AGE_HI => { base := 0x4008002c }
  | .LDG_CNT0 => { base := 0x40080030 }
  | .LDG_CNT1 => { base := 0x40080034 }
  | .LDG_RDATA => { base := 0x40080040, nj := 16, sj := 4 }
  | .BRG_CTRL => { base := 0x40090000 }
  | .BRG_STATUS => { base := 0x40090004 }
  | .BRG_CAN_CFG => { base := 0x40090010, ni := 4, si := 0x20 }
  | .BRG_CAN_RADDR => { base := 0x40090014, ni := 4, si := 0x20 }
  | .BRG_CAN_RES0 => { base := 0x40090018, ni := 4, si := 0x20 }
  | .BRG_CAN_RES1 => { base := 0x4009001c, ni := 4, si := 0x20 }
  | .BRG_CAN_RES2 => { base := 0x40090020, ni := 4, si := 0x20 }
  | .BRG_CAN_CNT0 => { base := 0x40090024, ni := 4, si := 0x20 }
  | .BRG_CAN_CNT1 => { base := 0x40090028, ni := 4, si := 0x20 }
  | .BRG_POIDX => { base := 0x40090100 }
  | .BRG_PODATA => { base := 0x40090104 }
  | .BRG_PCAL => { base := 0x40090110 }
  | .BRG_PCAL_ST => { base := 0x40090114 }
  | .BRG_PCAL_R => { base := 0x40090120, nj := 8, sj := 4 }
  | .CAL_CTRL => { base := 0x401a0000 }
  | .CAL_CMD => { base := 0x401a0004 }
  | .CAL_STATUS => { base := 0x401a0008 }
  | .CAL_QUAL => { base := 0x401a000c }
  | .CAL_TIDX => { base := 0x401a0010 }
  | .CAL_TDATA => { base := 0x401a0014 }
  | .CAL_ERR => { base := 0x401a0018 }
  | .UHFS_SPST => { base := 0x4018008c }
  | .UHFS_CBANK => { base := 0x40180090 }
  | .RGU_ACTIVE => { base := 0x40190000 }
  | .RGU_STATUS => { base := 0x40190004 }
  | .RGU_SLOT => { base := 0x40190008 }
  | .RGU_CNT => { base := 0x4019000c }
  | .RGU_PRM => { base := 0x40190010, nj := 8, sj := 4 }
  | .RGU_CHIDX => { base := 0x40190030 }
  | .RGU_CHDATA => { base := 0x40190034 }
  | .RGU_ANTIDX => { base := 0x40190038 }
  | .RGU_ANTDATA => { base := 0x4019003c }
  | .RGU_FE => { base := 0x40190040, ni := 8, si := 0x4 }
  | .RGU_OCIDX => { base := 0x40190060 }
  | .RGU_OCDATA => { base := 0x40190064 }
  | .RGU_OCHOLD => { base := 0x40190068 }
  | .HFR_CTRL => { base := 0x40200000 }
  | .HFR_STATUS => { base := 0x40200004 }
  | .HFR_DRV => { base := 0x40200008 }
  | .HFR_MEAS => { base := 0x4020000c }
  | .HFR_TRIP => { base := 0x40200010 }
  | .HFR_RX => { base := 0x40200014 }
  | .HFR_QFLR => { base := 0x40200018 }
  | .HFR_MODE => { base := 0x40200020, nj := 4, sj := 4 }
  | .HFR_VCNT => { base := 0x40200040 }
  | .HFR_RPY_IDX => { base := 0x402000a0 }
  | .HFR_RPY_DATA => { base := 0x402000a4 }
  | .HFR_CW_CTRL => { base := 0x402000c0 }
  | .HFR_CW_THR => { base := 0x402000c4 }
  | .HFR_CW_BASE => { base := 0x402000c8 }
  | .HFR_CW_LAST => { base := 0x402000cc }
  | .HFR_CW_CNT => { base := 0x402000d0 }
  | .ACT_CTRL => { base := 0x40210000 }
  | .ACT_STATUS => { base := 0x40210004 }
  | .ACT_TXCFG => { base := 0x40210008 }
  | .ACT_LIMIT => { base := 0x4021000c }
  | .ACT_DUTY => { base := 0x40210010 }
  | .ACT_TRIP => { base := 0x40210014 }
  | .ACT_RX => { base := 0x40210018 }
  | .ACT_RPY_IDX => { base := 0x402100a0 }
  | .ACT_RPY_DATA => { base := 0x402100a4 }
  | .WKR_CTRL => { base := 0x40220000 }
  | .WKR_CODE => { base := 0x40220004 }
  | .WKR_433CFG => { base := 0x40220008 }
  | .WKR_24PW => { base := 0x4022000c }
  | .WKR_24SEQ => { base := 0x40220010 }
  | .WKR_STATUS => { base := 0x40220014 }
  | .WKR_CNT => { base := 0x40220018 }
  | .MSH_CTRL => { base := 0x40230000 }
  | .MSH_STATUS => { base := 0x40230004 }
  | .MSH_NET => { base := 0x40230008 }
  | .MSH_PHY => { base := 0x4023000c }
  | .MSH_SYNC => { base := 0x40230010 }
  | .MSH_SCAN => { base := 0x40230014 }
  | .MSH_ASN_LO => { base := 0x40230018 }
  | .MSH_ASN_HI => { base := 0x4023001c }
  | .MSH_DRIFT => { base := 0x40230020 }
  | .MSH_TSRC => { base := 0x40230024 }
  | .MSH_Q => { base := 0x40230028 }
  | .MSH_WAKE => { base := 0x4023002c }
  | .MSH_FCOUT => { base := 0x40230030 }
  | .MSH_KEYST => { base := 0x40230034 }
  | .MSH_EXT_LO => { base := 0x40230038 }
  | .MSH_EXT_HI => { base := 0x4023003c }
  | .MSH_HOP => { base := 0x40230040, nj := 4, sj := 4 }
  | .MSH_SF => { base := 0x40230050, nj := 4, sj := 4 }
  | .MSH_LIDX => { base := 0x40230060 }
  | .MSH_LDATA => { base := 0x40230064 }
  | .MSH_NIDX => { base := 0x40230070 }
  | .MSH_NDATA_W0 => { base := 0x40230074 }
  | .MSH_NDATA_W1 => { base := 0x40230078 }
  | .MSH_NDATA_W2 => { base := 0x4023007c }
  | .MSH_NDATA_W3 => { base := 0x40230080 }
  | .MSH_NDATA_W4 => { base := 0x40230084 }
  | .MSH_NDATA_W5 => { base := 0x40230088 }
  | .MSH_SIDX => { base := 0x40230090 }
  | .MSH_SDATA_W0 => { base := 0x40230094 }
  | .MSH_SDATA_W1 => { base := 0x40230098 }
  | .MSH_SDATA_W2 => { base := 0x4023009c }
  | .MSH_SDATA_W3 => { base := 0x402300a0 }
  | .MSH_CNT => { base := 0x402300b0, nj := 6, sj := 4 }
  | .SPE_CTRL => { base := 0x40240000, ni := 2, si := 0x10000 }
  | .SPE_STATUS => { base := 0x40240004, ni := 2, si := 0x10000 }
  | .SPE_QUAL => { base := 0x40240008, ni := 2, si := 0x10000 }
  | .SPE_MAC_LO => { base := 0x4024000c, ni := 2, si := 0x10000 }
  | .SPE_MAC_HI => { base := 0x40240010, ni := 2, si := 0x10000 }
  | .SPE_Q => { base := 0x40240014, ni := 2, si := 0x10000 }
  | .SPE_CNT => { base := 0x40240020, ni := 2, si := 0x10000, nj := 4, sj := 4 }
  | .RING_CTRL => { base := 0x40040000, ni := 8, si := 0x80 }
  | .RING_PRE => { base := 0x40040004, ni := 8, si := 0x80 }
  | .RING_CNT_W0 => { base := 0x40040008, ni := 8, si := 0x80 }
  | .RING_CNT_W1 => { base := 0x4004000c, ni := 8, si := 0x80 }
  | .RING_CMP_W0 => { base := 0x40040010, ni := 8, si := 0x80, nj := 4, sj := 8 }
  | .RING_CMP_W1 => { base := 0x40040014, ni := 8, si := 0x80, nj := 4, sj := 8 }
  | .RING_CMPST => { base := 0x40040030, ni := 8, si := 0x80 }
  | .RING_CAPCFG => { base := 0x40040034, ni := 8, si := 0x80 }
  | .RING_CAP_W0 => { base := 0x40040038, ni := 8, si := 0x80, nj := 2, sj := 8 }
  | .RING_CAP_W1 => { base := 0x4004003c, ni := 8, si := 0x80, nj := 2, sj := 8 }
  | .RING_CAPST => { base := 0x40040048, ni := 8, si := 0x80 }
  | .RING_SCH_W0 => { base := 0x4004004c, ni := 8, si := 0x80 }
  | .RING_SCH_W1 => { base := 0x40040050, ni := 8, si := 0x80 }
  | .RING_LCNT_W0 => { base := 0x40040054, ni := 8, si := 0x80 }
  | .RING_LCNT_W1 => { base := 0x40040058, ni := 8, si := 0x80 }
  | .RING_PPSCFG => { base := 0x40040400 }
  | .RING_PPSST => { base := 0x40040404 }
  | .RING_PPS_W0 => { base := 0x40040408 }
  | .RING_PPS_W1 => { base := 0x4004040c }
  | .RING_AT_W0 => { base := 0x40040410 }
  | .RING_AT_W1 => { base := 0x40040414 }
  | .AON_HW_W0 => { base := 0x40020100 }
  | .AON_HW_W1 => { base := 0x40020104 }
  | .AON_ATRATIO => { base := 0x40020108 }
  | .AON_ATCFG => { base := 0x4002010c }
  | .AON_ATST => { base := 0x40020110 }
  | .AON_ENT_W0 => { base := 0x40020114 }
  | .AON_ENT_W1 => { base := 0x40020118 }
  | .AON_ENT_W2 => { base := 0x4002011c }
  | .AON_ENT_W3 => { base := 0x40020120 }
  | .AON_HWCMP_W0 => { base := 0x40020124 }
  | .AON_HWCMP_W1 => { base := 0x40020128 }
  | .TRL_CH => { base := 0x40030000, nj := 64, sj := 4 }
  | .TRL_PIDX => { base := 0x40030100 }
  | .TRL_PDATA => { base := 0x40030104 }
  | .TRL_CIDX => { base := 0x40030108 }
  | .TRL_CMASK_LO => { base := 0x4003010c }
  | .TRL_CMASK_HI => { base := 0x40030110 }
  | .TRL_CSTAT => { base := 0x40030114 }
  | .TRL_SWPUB => { base := 0x40030118 }
  | .TRL_STATUS => { base := 0x4003011c }
  | .TRL_DROP => { base := 0x40030120 }
  | .QMX_Q_BASE => { base := 0x40050000, ni := 48, si := 0x20 }
  | .QMX_Q_EP => { base := 0x40050004, ni := 48, si := 0x20 }
  | .QMX_Q_CTRL => { base := 0x40050008, ni := 48, si := 0x20 }
  | .QMX_Q_CNT => { base := 0x4005000c, ni := 48, si := 0x20 }
  | .QMX_Q_STAT => { base := 0x40050010, ni := 48, si := 0x20 }
  | .QMX_Q_PUSH => { base := 0x40050014, ni := 48, si := 0x20 }
  | .QMX_Q_POP => { base := 0x40050018, ni := 48, si := 0x20 }
  | .PWR_CTRL => { base := 0x40010000 }
  | .PWR_STATUS => { base := 0x40010004 }
  | .PWR_POLICY => { base := 0x40010008 }
  | .PWR_WAKEEN => { base := 0x4001000c }
  | .PWR_IDLE0 => { base := 0x40010010 }
  | .PWR_IDLE1 => { base := 0x40010014 }
  | .PWR_DOM0 => { base := 0x40010018 }
  | .PWR_DOM1 => { base := 0x4001001c }
  | .PWR_GTEMP => { base := 0x40010020 }
  | .PWR_WT_LO => { base := 0x40010024 }
  | .PWR_WT_HI => { base := 0x40010028 }
  | .PWR_CNT => { base := 0x4001002c }
  | .AON_RET_SEL => { base := 0x40020000 }
  | .AON_RET_STATUS => { base := 0x40020004 }
  | .AON_WAKE_REC0 => { base := 0x40020008 }
  | .AON_WAKE_REC1 => { base := 0x4002000c }
  | .AON_WAKE_REC2 => { base := 0x40020010 }
  | .AON_WAKE_REC3 => { base := 0x40020014 }
  | .AON_PAPOL => { base := 0x40020018 }
  | .AON_REFR => { base := 0x4002001c }
  | .NVM_STATUS => { base := 0x40270000 }
  | .NVM_GIDX => { base := 0x40270004 }
  | .NVM_GEN0 => { base := 0x40270008 }
  | .NVM_GEN1 => { base := 0x4027000c }
  | .NVM_BOOT => { base := 0x40270010 }
  | .MGT_STATUS => { base := 0x40280000 }
  | .MGT_LOG_NEW => { base := 0x40280004 }
  | .MGT_LOG_OLD => { base := 0x40280008 }
  | .MGT_LOG_IDX => { base := 0x4028000c }
  | .MGT_LOG_CNT => { base := 0x40280010 }
  | .MGT_LOG_D => { base := 0x40280020, nj := 8, sj := 4 }
  | .LCS_STATE => { base := 0x40290000 }
  | .LCS_SERIAL => { base := 0x40290010, nj := 4, sj := 4 }
  | .SNS_TEMP => { base := 0x402a0000, nj := 6, sj := 4 }
  | .SNS_SUPPLY => { base := 0x402a0020 }
  | .SNS_TRNG => { base := 0x402a0024 }
  | .SNS_TRNG_ST => { base := 0x402a0028 }
  | .SYS_IDENT => { base := 0x40000000 }
  | .SYS_STRAP => { base := 0x40000004 }
  | .SYS_STEP => { base := 0x40000008 }
  | .SYS_ROLL => { base := 0x4000000c }
  | .SYS_CLK => { base := 0x40000018 }
  | .HLK_STATUS => { base := 0x40260000 }
  | .HLK_PCI_ID => { base := 0x40260004 }
  | .HLK_ERR => { base := 0x40260008 }
  | .HLK_ERRADDR => { base := 0x4026000c }
  | .HLK_IRQPEND => { base := 0x40260010 }
  | .HLK_IRQMASK => { base := 0x40260014 }
  | .HLK_DMA_CFG => { base := 0x40260100, ni := 16, si := 0x20 }
  | .HLK_DMA_BASE_LO => { base := 0x40260104, ni := 16, si := 0x20 }
  | .HLK_DMA_BASE_HI => { base := 0x40260108, ni := 16, si := 0x20 }
  | .HLK_DMA_SHD_LO => { base := 0x4026010c, ni := 16, si := 0x20 }
  | .HLK_DMA_SHD_HI => { base := 0x40260110, ni := 16, si := 0x20 }
  | .HLK_DMA_RD => { base := 0x40260114, ni := 16, si := 0x20 }
  | .HLK_DMA_WR => { base := 0x40260118, ni := 16, si := 0x20 }
  | .HLK_DMA_STAT => { base := 0x4026011c, ni := 16, si := 0x20 }
  | .PMX_PAD => { base := 0x402b0000 }
  | .UHF_RPY_D0 => { base := 0x40100140, ni := 9, si := 0x10000 }
  | .UHF_RPY_D1 => { base := 0x40100144, ni := 9, si := 0x10000 }
  | .UHF_RPY_D2 => { base := 0x40100148, ni := 9, si := 0x10000 }
  | .UHF_RPY_D3 => { base := 0x4010014c, ni := 9, si := 0x10000 }
  | .UHF_RPY_D4 => { base := 0x40100150, ni := 9, si := 0x10000 }
  | .UHF_RPY_D5 => { base := 0x40100154, ni := 9, si := 0x10000 }
  | .UHF_RPY_D6 => { base := 0x40100158, ni := 9, si := 0x10000 }
  | .UHF_RPY_D7 => { base := 0x4010015c, ni := 9, si := 0x10000 }
  | .HFR_RPY_D0 => { base := 0x40200080 }
  | .HFR_RPY_D1 => { base := 0x40200084 }
  | .HFR_RPY_D2 => { base := 0x40200088 }
  | .HFR_RPY_D3 => { base := 0x4020008c }
  | .HFR_RPY_D4 => { base := 0x40200090 }
  | .HFR_RPY_D5 => { base := 0x40200094 }
  | .HFR_RPY_D6 => { base := 0x40200098 }
  | .HFR_RPY_D7 => { base := 0x4020009c }
  | .ACT_RPY_D0 => { base := 0x40210080 }
  | .ACT_RPY_D1 => { base := 0x40210084 }
  | .ACT_RPY_D2 => { base := 0x40210088 }
  | .ACT_RPY_D3 => { base := 0x4021008c }
  | .ACT_RPY_D4 => { base := 0x40210090 }
  | .ACT_RPY_D5 => { base := 0x40210094 }
  | .ACT_RPY_D6 => { base := 0x40210098 }
  | .ACT_RPY_D7 => { base := 0x4021009c }

/-- The fields of each register, from the high bits down; reserved bits have no row and read 0 (R9). -/
def Reg.rows : Reg → List Row
  | .SYS_RESET_CAUSE =>
    [⟨19, 16, .ro, 0x0⟩, ⟨10, 10, .w1c, 0x0⟩, ⟨9, 9, .w1c, 0x0⟩, ⟨8, 8, .ro, 0x0⟩, ⟨7, 7, .ro, 0x0⟩,
     ⟨6, 6, .ro, 0x0⟩, ⟨5, 5, .ro, 0x0⟩, ⟨4, 4, .ro, 0x0⟩, ⟨3, 3, .ro, 0x0⟩, ⟨2, 2, .ro, 0x0⟩,
     ⟨1, 1, .ro, 0x0⟩, ⟨0, 0, .ro, 0x0⟩]
  | .SYS_RESET_REQ => [⟨31, 16, .wo, 0x0⟩, ⟨0, 0, .wo, 0x0⟩]
  | .UHF_CTRL => [⟨26, 24, .rw, 0x0⟩, ⟨18, 16, .rw, 0x0⟩, ⟨9, 8, .rw, 0x0⟩]
  | .UHF_STATUS =>
    [⟨31, 16, .ro, 0x0⟩, ⟨11, 8, .ro, 0x0⟩, ⟨7, 7, .ro, 0x0⟩, ⟨6, 6, .ro, 0x0⟩, ⟨5, 5, .ro, 0x0⟩,
     ⟨4, 4, .ro, 0x0⟩, ⟨3, 3, .ro, 0x0⟩, ⟨2, 0, .ro, 0x0⟩]
  | .UHF_PWR => [⟨28, 28, .rw, 0x1⟩, ⟨27, 16, .ro, 0x0⟩, ⟨8, 0, .rw, 0xc8⟩]
  | .UHF_FE =>
    [⟨31, 24, .rw, 0x5c⟩, ⟨23, 16, .rw, 0x78⟩, ⟨15, 8, .rw, 0x78⟩, ⟨7, 4, .rw, 0x2⟩, ⟨3, 3, .rw, 0x0⟩]
  | .UHF_ANT => [⟨31, 16, .rw, 0x1⟩, ⟨15, 8, .rw, 0x30⟩, ⟨3, 0, .rw, 0x0⟩]
  | .UHF_RAMP => [⟨27, 16, .rw, 0x4cd⟩, ⟨11, 0, .rw, 0x4cd⟩]
  | .UHF_TXW => [⟨23, 16, .rw, 0xff⟩, ⟨9, 0, .rw, 0x0⟩]
  | .UHF_DET => [⟨27, 16, .ro, 0x800⟩, ⟨11, 0, .ro, 0x800⟩]
  | .UHF_TRIP => [⟨31, 31, .wo, 0x0⟩, ⟨9, 0, .w1c, 0x0⟩]
  | .UHF_PROT => [⟨31, 24, .rw, 0x14⟩, ⟨23, 16, .rw, 0x4⟩, ⟨15, 8, .rw, 0x2⟩, ⟨7, 0, .rw, 0x18⟩]
  | .UHF_LKC_CTRL =>
    [⟨15, 8, .rw, 0xec⟩, ⟨5, 5, .rw, 0x1⟩, ⟨4, 4, .rw, 0x1⟩, ⟨3, 2, .rw, 0x2⟩, ⟨1, 0, .rw, 0x2⟩]
  | .UHF_LKC_TRIM => [⟨27, 16, .rw, 0x0⟩, ⟨11, 0, .rw, 0x0⟩]
  | .UHF_LKC_RESID => [⟨31, 31, .ro, 0x0⟩, ⟨30, 30, .ro, 0x0⟩, ⟨11, 0, .ro, 0x800⟩]
  | .UHF_LKC_CIDX => [⟨6, 0, .rw, 0x0⟩]
  | .UHF_LKC_CDATA => [⟨31, 31, .rw, 0x0⟩, ⟨27, 16, .rw, 0x0⟩, ⟨11, 0, .rw, 0x0⟩]
  | .UHF_MODP_A =>
    [⟨31, 30, .rw, 0x0⟩, ⟨29, 29, .rw, 0x0⟩, ⟨28, 28, .ro, 0x0⟩, ⟨22, 16, .rw, 0x0⟩, ⟨12, 0, .rw, 0x0⟩]
  | .UHF_MODP_B => [⟨28, 16, .rw, 0x0⟩, ⟨11, 0, .rw, 0x0⟩]
  | .UHF_MODP_C => [⟨27, 16, .rw, 0x0⟩, ⟨11, 0, .rw, 0x0⟩]
  | .UHFS_SPARE => [⟨25, 24, .rw, 0x0⟩, ⟨19, 16, .ro, 0xf⟩, ⟨15, 8, .rw, 0xff⟩, ⟨7, 0, .rw, 0x10⟩]
  | .UHFS_TAKE => [⟨8, 8, .wo, 0x0⟩, ⟨4, 4, .wo, 0x0⟩, ⟨3, 0, .wo, 0x0⟩]
  | .UHFS_SPSEL => [⟨7, 0, .ro, 0x0⟩]
  | .SYN_F_CTRL => [⟨8, 8, .wo, 0x0⟩, ⟨0, 0, .rw, 0x0⟩]
  | .SYN_F_FREQ => [⟨19, 0, .rw, 0xd1f60⟩]
  | .SYN_F_STATUS =>
    [⟨31, 16, .ro, 0x0⟩, ⟨15, 7, .ro, 0x0⟩, ⟨3, 3, .ro, 0x0⟩, ⟨2, 2, .ro, 0x0⟩, ⟨1, 1, .ro, 0x0⟩,
     ⟨0, 0, .ro, 0x0⟩]
  | .SYN_F_CAL => [⟨31, 24, .ro, 0x0⟩, ⟨15, 0, .ro, 0x0⟩]
  | .SYN_SHADOW =>
    [⟨18, 16, .ro, 0x0⟩, ⟨12, 12, .wo, 0x0⟩, ⟨8, 8, .wo, 0x0⟩, ⟨5, 4, .rw, 0x3⟩, ⟨1, 0, .rw, 0x0⟩]
  | .SYN_DRIFT => [⟨7, 0, .rwo, 0xa⟩]
  | .UHF_RX_CTRL =>
    [⟨31, 24, .rw, 0x9a⟩, ⟨23, 16, .rw, 0x18⟩, ⟨15, 12, .rw, 0xa⟩, ⟨11, 8, .rw, 0x8⟩, ⟨7, 4, .rw, 0xc⟩,
     ⟨3, 2, .rw, 0x0⟩, ⟨1, 0, .rw, 0x1⟩]
  | .UHF_RX_QFLR => [⟨31, 24, .rw, 0x3c⟩, ⟨23, 16, .rw, 0x28⟩, ⟨15, 8, .rw, 0x18⟩, ⟨7, 0, .rw, 0x0⟩]
  | .UHF_RX_STATUS =>
    [⟨31, 16, .ro, 0x0⟩, ⟨15, 15, .ro, 0x0⟩, ⟨14, 14, .ro, 0x0⟩, ⟨10, 8, .ro, 0x0⟩, ⟨0, 0, .ro, 0x0⟩]
  | .UHF_RX_NOISE => [⟨27, 16, .ro, 0x800⟩, ⟨3, 0, .ro, 0x0⟩]
  | .UHF_RX_VCLR => [⟨1, 1, .wo, 0x0⟩, ⟨0, 0, .wo, 0x0⟩]
  | .UHF_RX_CCNT => [⟨31, 16, .ro, 0x0⟩, ⟨15, 0, .ro, 0x0⟩]
  | .UHF_RX_VCNT0 => [⟨31, 16, .ro, 0x0⟩, ⟨15, 0, .ro, 0x0⟩]
  | .UHF_RX_VCNT1 => [⟨31, 16, .ro, 0x0⟩, ⟨15, 0, .ro, 0x0⟩]
  | .UHF_RX_VCNT2 => [⟨31, 16, .ro, 0x0⟩, ⟨15, 0, .ro, 0x0⟩]
  | .UHF_RPY_IDX => [⟨31, 31, .rw, 0x0⟩, ⟨7, 0, .rw, 0x0⟩]
  | .UHF_RPY_DATA => [⟨31, 0, .ro, 0x0⟩]
  | .UHF_CAP_CTRL =>
    [⟨31, 31, .wo, 0x0⟩, ⟨30, 30, .wo, 0x0⟩, ⟨26, 24, .rw, 0x0⟩, ⟨18, 16, .rw, 0x0⟩, ⟨13, 12, .rw, 0x0⟩,
     ⟨0, 0, .rw, 0x0⟩]
  | .UHF_CAP_STATUS => [⟨31, 28, .ro, 0xf⟩, ⟨19, 19, .ro, 0x0⟩, ⟨18, 16, .ro, 0x0⟩, ⟨15, 0, .ro, 0x0⟩]
  | .UHF_CAP_TAT_LO => [⟨31, 0, .ro, 0x0⟩]
  | .UHF_CAP_TAT_HI => [⟨31, 0, .ro, 0x0⟩]
  | .VAT_CTRL =>
    [⟨8, 8, .rw, 0x0⟩, ⟨5, 5, .wo, 0x0⟩, ⟨4, 4, .wo, 0x0⟩, ⟨3, 3, .wo, 0x0⟩, ⟨2, 2, .wo, 0x0⟩,
     ⟨1, 1, .wo, 0x0⟩, ⟨0, 0, .wo, 0x0⟩]
  | .VAT_STATUS =>
    [⟨27, 24, .ro, 0x0⟩, ⟨17, 17, .ro, 0x0⟩, ⟨16, 16, .ro, 0x0⟩, ⟨11, 8, .ro, 0x0⟩, ⟨2, 0, .ro, 0x0⟩]
  | .VAT_PC => [⟨17, 0, .ro, 0x0⟩]
  | .VAT_ENTRY => [⟨17, 0, .rwl, 0x0⟩]
  | .VAT_OC => [⟨2, 0, .rwl, 0x0⟩]
  | .VAT_BIND => [⟨4, 0, .ro, 0x1f⟩]
  | .VAT_WDOG => [⟨31, 16, .ro, 0x0⟩, ⟨15, 0, .rwl, 0x960⟩]
  | .VAT_FAULT => [⟨30, 24, .w1c, 0x0⟩, ⟨17, 0, .ro, 0x0⟩]
  | .VAT_SWAP => [⟨31, 31, .wo, 0x0⟩, ⟨30, 30, .wo, 0x0⟩, ⟨17, 0, .rwl, 0x0⟩]
  | .VAT_CLRID => [⟨31, 14, .ro, 0x0⟩, ⟨13, 0, .ro, 0x0⟩]
  | .VAT_LATE => [⟨31, 16, .ro, 0x0⟩, ⟨15, 0, .ro, 0x0⟩]
  | .VAT_ECC => [⟨15, 0, .ro, 0x0⟩]
  | .VAT_TMO => [⟨31, 0, .ro, 0x0⟩]
  | .VAT_TRIG => [⟨7, 4, .w1c, 0x0⟩, ⟨3, 0, .ro, 0x0⟩]
  | .VAT_G => [⟨31, 0, .rwl, 0x0⟩]
  | .VAT_RSTK => [⟨17, 0, .ro, 0x0⟩]
  | .VAT_FAT_LO => [⟨31, 0, .ro, 0x0⟩]
  | .VAT_FAT_HI => [⟨31, 0, .ro, 0x0⟩]
  | .VAT_SUMMARY => [⟨31, 16, .ro, 0x0⟩, ⟨15, 0, .ro, 0x0⟩]
  | .VAT_GSTART => [⟨15, 0, .wo, 0x0⟩]
  | .VAT_GSTOP => [⟨15, 0, .wo, 0x0⟩]
  | .VAT_ASTAT =>
    [⟨31, 16, .ro, 0x0⟩, ⟨15, 10, .ro, 0x0⟩, ⟨9, 9, .wo, 0x0⟩, ⟨8, 8, .wo, 0x0⟩, ⟨3, 3, .w1c, 0x0⟩,
     ⟨2, 2, .w1c, 0x0⟩]
  | .VAT_ACNT => [⟨31, 16, .ro, 0x0⟩, ⟨15, 0, .ro, 0x0⟩]
  | .VAT_GEN => [⟨3, 3, .ro, 0x0⟩, ⟨2, 0, .ro, 0x0⟩]
  | .VAT_HOPEN => [⟨8, 0, .ro, 0x0⟩]
  | .TXN_POOL => [⟨28, 16, .rw, 0x1500⟩, ⟨11, 0, .rw, 0xb00⟩]
  | .TXN_STATUS => [⟨31, 16, .ro, 0x0⟩, ⟨8, 0, .ro, 0x100⟩]
  | .TXN_POOLST => [⟨27, 16, .ro, 0xb00⟩, ⟨11, 0, .ro, 0xb00⟩]
  | .TXN_PEND => [⟨8, 0, .ro, 0x0⟩]
  | .TXN_HCMD => [⟨31, 31, .wo, 0x0⟩, ⟨30, 30, .wo, 0x0⟩, ⟨7, 0, .wo, 0x0⟩]
  | .TXN_HIDX => [⟨7, 0, .rw, 0x0⟩]
  | .TXN_HINFO0 => [⟨31, 30, .ro, 0x0⟩, ⟨27, 24, .ro, 0x0⟩, ⟨21, 16, .ro, 0x0⟩, ⟨15, 0, .ro, 0x0⟩]
  | .TXN_HINFO1 => [⟨31, 16, .ro, 0x0⟩, ⟨15, 0, .ro, 0x0⟩]
  | .TXN_HINFO2 => [⟨31, 0, .ro, 0x0⟩]
  | .TXN_HINFO3 => [⟨15, 0, .ro, 0x0⟩]
  | .TXN_HINFO4 => [⟨31, 0, .ro, 0x0⟩]
  | .TXN_CNT0 => [⟨31, 16, .ro, 0x0⟩, ⟨15, 0, .ro, 0x0⟩]
  | .TXN_CNT1 => [⟨31, 16, .ro, 0x0⟩, ⟨15, 0, .ro, 0x0⟩]
  | .TXN_CQ => [⟨31, 16, .rw, 0x0⟩, ⟨15, 15, .rw, 0x0⟩, ⟨5, 0, .rw, 0x0⟩]
  | .LDG_CTRL => [⟨0, 0, .rw, 0x1⟩]
  | .LDG_SEED => [⟨31, 0, .rw, 0x0⟩]
  | .LDG_STATUS => [⟨31, 16, .ro, 0x0⟩, ⟨1, 1, .ro, 0x0⟩, ⟨0, 0, .ro, 0x0⟩]
  | .LDG_COUNT => [⟨16, 0, .ro, 0x0⟩]
  | .LDG_BANK => [⟨31, 16, .ro, 0x0⟩, ⟨15, 0, .ro, 0x0⟩]
  | .LDG_CMD => [⟨31, 28, .wo, 0x0⟩, ⟨15, 0, .wo, 0x0⟩]
  | .LDG_CMDST => [⟨31, 31, .ro, 0x0⟩, ⟨27, 24, .ro, 0x0⟩, ⟨15, 0, .ro, 0x0⟩]
  | .LDG_OVF => [⟨28, 16, .rw, 0x1400⟩, ⟨11, 0, .rw, 0x80⟩]
  | .LDG_OVFST => [⟨11, 0, .ro, 0x0⟩]
  | .LDG_AGE_LO => [⟨31, 0, .rw, 0x0⟩]
  | .LDG_AGE_HI => [⟨31, 0, .rw, 0x0⟩]
  | .LDG_CNT0 => [⟨31, 16, .ro, 0x0⟩, ⟨15, 0, .ro, 0x0⟩]
  | .LDG_CNT1 => [⟨31, 0, .ro, 0x0⟩]
  | .LDG_RDATA => [⟨31, 0, .ro, 0x0⟩]
  | .BRG_CTRL => [⟨15, 8, .rw, 0x2⟩, ⟨2, 0, .rw, 0x2⟩]
  | .BRG_STATUS => [⟨31, 16, .ro, 0x0⟩, ⟨3, 0, .ro, 0x0⟩]
  | .BRG_CAN_CFG =>
    [⟨31, 31, .rw, 0x0⟩, ⟨30, 30, .rw, 0x0⟩, ⟨26, 24, .rw, 0x0⟩, ⟨9, 8, .ro, 0x0⟩, ⟨7, 0, .rw, 0x0⟩]
  | .BRG_CAN_RADDR => [⟨31, 31, .rw, 0x0⟩, ⟨27, 0, .rw, 0x10000⟩]
  | .BRG_CAN_RES0 => [⟨31, 16, .ro, 0x0⟩, ⟨15, 8, .ro, 0x0⟩, ⟨6, 4, .ro, 0x0⟩]
  | .BRG_CAN_RES1 => [⟨27, 16, .ro, 0x0⟩, ⟨11, 0, .ro, 0x0⟩]
  | .BRG_CAN_RES2 => [⟨27, 16, .ro, 0x0⟩, ⟨15, 8, .ro, 0x0⟩, ⟨7, 0, .ro, 0x0⟩]
  | .BRG_CAN_CNT0 => [⟨31, 16, .ro, 0x0⟩, ⟨15, 0, .ro, 0x0⟩]
  | .BRG_CAN_CNT1 => [⟨31, 16, .ro, 0x0⟩, ⟨15, 0, .ro, 0x0⟩]
  | .BRG_POIDX => [⟨10, 0, .rw, 0x0⟩]
  | .BRG_PODATA => [⟨31, 31, .rw, 0x0⟩, ⟨25, 16, .rw, 0x0⟩, ⟨9, 0, .rw, 0x0⟩]
  | .BRG_PCAL =>
    [⟨31, 31, .wo, 0x0⟩, ⟨30, 30, .wo, 0x0⟩, ⟨29, 28, .rw, 0x0⟩, ⟨27, 26, .rw, 0x0⟩, ⟨25, 23, .rw, 0x0⟩,
     ⟨22, 22, .rw, 0x0⟩, ⟨19, 12, .rw, 0x20⟩, ⟨11, 0, .rw, 0x0⟩]
  | .BRG_PCAL_ST => [⟨26, 24, .ro, 0x0⟩, ⟨23, 16, .ro, 0x0⟩, ⟨15, 0, .ro, 0x0⟩]
  | .BRG_PCAL_R => [⟨31, 31, .ro, 0x0⟩, ⟨25, 16, .ro, 0x0⟩, ⟨7, 0, .ro, 0x0⟩]
  | .CAL_CTRL => [⟨31, 24, .rwo, 0xa⟩, ⟨7, 4, .rw, 0x4⟩, ⟨3, 3, .rwo, 0x1⟩, ⟨2, 2, .rwo, 0x1⟩]
  | .CAL_CMD =>
    [⟨31, 31, .wo, 0x0⟩, ⟨30, 30, .wo, 0x0⟩, ⟨23, 20, .wo, 0x0⟩, ⟨15, 12, .wo, 0x0⟩, ⟨11, 8, .wo, 0x0⟩,
     ⟨2, 0, .wo, 0x0⟩]
  | .CAL_STATUS =>
    [⟨31, 31, .ro, 0x0⟩, ⟨30, 30, .ro, 0x0⟩, ⟨27, 24, .ro, 0x0⟩, ⟨23, 20, .ro, 0x0⟩, ⟨15, 0, .ro, 0x0⟩]
  | .CAL_QUAL => [⟨31, 24, .ro, 0x0⟩, ⟨23, 16, .ro, 0x0⟩, ⟨15, 8, .ro, 0x0⟩]
  | .CAL_TIDX => [⟨23, 20, .rw, 0x0⟩, ⟨15, 8, .rw, 0x0⟩, ⟨7, 0, .rw, 0x0⟩]
  | .CAL_TDATA => [⟨31, 31, .rw, 0x0⟩, ⟨23, 16, .ro, 0x0⟩, ⟨11, 0, .rw, 0x0⟩]
  | .CAL_ERR => [⟨15, 0, .ro, 0x0⟩]
  | .UHFS_SPST =>
    [⟨31, 16, .ro, 0x0⟩, ⟨15, 12, .ro, 0x0⟩, ⟨11, 8, .ro, 0xf⟩, ⟨7, 7, .ro, 0x0⟩, ⟨6, 6, .w1c, 0x0⟩,
     ⟨5, 3, .ro, 0x0⟩]
  | .UHFS_CBANK => [⟨2, 0, .rw, 0x0⟩]
  | .RGU_ACTIVE => [⟨31, 31, .ro, 0x0⟩, ⟨19, 16, .rwo, 0x0⟩, ⟨15, 0, .ro, 0x0⟩]
  | .RGU_STATUS =>
    [⟨31, 16, .ro, 0x0⟩, ⟨15, 12, .ro, 0x0⟩, ⟨11, 8, .ro, 0x0⟩, ⟨7, 7, .ro, 0x0⟩, ⟨6, 6, .ro, 0x0⟩]
  | .RGU_SLOT => [⟨7, 0, .rw, 0x0⟩]
  | .RGU_CNT => [⟨31, 16, .ro, 0x0⟩, ⟨15, 0, .ro, 0x0⟩]
  | .RGU_PRM => [⟨31, 0, .ro, 0x0⟩]
  | .RGU_CHIDX => [⟨5, 0, .rw, 0x0⟩]
  | .RGU_CHDATA => [⟨29, 20, .ro, 0x0⟩, ⟨19, 0, .ro, 0x0⟩]
  | .RGU_ANTIDX => [⟨6, 0, .rw, 0x0⟩]
  | .RGU_ANTDATA => [⟨31, 31, .ro, 0x0⟩, ⟨23, 12, .ro, 0x0⟩, ⟨11, 0, .ro, 0x0⟩]
  | .RGU_FE => [⟨31, 31, .ro, 0x0⟩, ⟨29, 24, .ro, 0x0⟩, ⟨15, 0, .ro, 0x0⟩]
  | .RGU_OCIDX => [⟨8, 6, .rw, 0x0⟩, ⟨5, 0, .rw, 0x0⟩]
  | .RGU_OCDATA => [⟨31, 0, .ro, 0x0⟩]
  | .RGU_OCHOLD => [⟨31, 31, .ro, 0x0⟩, ⟨15, 0, .ro, 0x0⟩]
  | .HFR_CTRL => [⟨18, 16, .rw, 0x0⟩]
  | .HFR_STATUS =>
    [⟨31, 16, .ro, 0x0⟩, ⟨7, 7, .ro, 0x0⟩, ⟨6, 6, .ro, 0x0⟩, ⟨5, 5, .ro, 0x0⟩, ⟨2, 0, .ro, 0x0⟩]
  | .HFR_DRV => [⟨24, 16, .rwl, 0x15e⟩, ⟨8, 0, .rw, 0xfa⟩]
  | .HFR_MEAS => [⟨24, 16, .ro, 0x0⟩, ⟨7, 0, .ro, 0x0⟩]
  | .HFR_TRIP => [⟨31, 31, .wo, 0x0⟩, ⟨5, 0, .w1c, 0x0⟩]
  | .HFR_RX => [⟨31, 24, .rw, 0x18⟩, ⟨15, 12, .rw, 0x8⟩, ⟨7, 6, .rw, 0x0⟩]
  | .HFR_QFLR => [⟨31, 24, .rw, 0x3c⟩, ⟨23, 16, .rw, 0x28⟩, ⟨15, 8, .rw, 0x18⟩, ⟨7, 0, .rw, 0x0⟩]
  | .HFR_MODE =>
    [⟨31, 28, .rw, 0x0⟩, ⟨26, 24, .rw, 0x0⟩, ⟨23, 23, .ro, 0x0⟩, ⟨22, 22, .rw, 0x0⟩, ⟨21, 21, .rw, 0x0⟩,
     ⟨20, 20, .rw, 0x0⟩, ⟨19, 19, .rw, 0x0⟩, ⟨14, 8, .rw, 0x0⟩]
  | .HFR_VCNT => [⟨31, 16, .ro, 0x0⟩, ⟨15, 0, .ro, 0x0⟩]
  | .HFR_RPY_IDX => [⟨31, 31, .rw, 0x0⟩, ⟨7, 0, .rw, 0x0⟩]
  | .HFR_RPY_DATA => [⟨31, 0, .ro, 0x0⟩]
  | .HFR_CW_CTRL =>
    [⟨31, 31, .rw, 0x0⟩, ⟨30, 30, .rw, 0x1⟩, ⟨29, 28, .rw, 0x1⟩, ⟨26, 16, .rw, 0x1f4⟩, ⟨8, 0, .rw, 0xc8⟩]
  | .HFR_CW_THR => [⟨31, 24, .rw, 0xc⟩, ⟨23, 16, .rw, 0x4⟩, ⟨7, 0, .rw, 0x2⟩]
  | .HFR_CW_BASE => [⟨27, 16, .rw, 0x0⟩, ⟨7, 0, .rw, 0x0⟩]
  | .HFR_CW_LAST => [⟨31, 31, .w1c, 0x0⟩, ⟨27, 16, .ro, 0x0⟩, ⟨7, 0, .ro, 0x0⟩]
  | .HFR_CW_CNT => [⟨31, 16, .ro, 0x0⟩, ⟨15, 8, .ro, 0x0⟩, ⟨7, 0, .ro, 0x0⟩]
  | .ACT_CTRL => [⟨18, 16, .rw, 0x0⟩]
  | .ACT_STATUS => [⟨31, 16, .ro, 0x0⟩, ⟨7, 7, .ro, 0x0⟩, ⟨6, 6, .ro, 0x0⟩, ⟨2, 0, .ro, 0x0⟩]
  | .ACT_TXCFG => [⟨4, 0, .rw, 0x1e⟩]
  | .ACT_LIMIT => [⟨20, 16, .rwl, 0x1e⟩, ⟨9, 0, .rwl, 0x64⟩]
  | .ACT_DUTY => [⟨31, 0, .ro, 0x0⟩]
  | .ACT_TRIP => [⟨31, 31, .wo, 0x0⟩, ⟨3, 0, .w1c, 0x0⟩]
  | .ACT_RX => [⟨31, 24, .rw, 0x18⟩, ⟨23, 16, .rw, 0x18⟩]
  | .ACT_RPY_IDX => [⟨31, 31, .rw, 0x0⟩, ⟨7, 0, .rw, 0x0⟩]
  | .ACT_RPY_DATA => [⟨31, 0, .ro, 0x0⟩]
  | .WKR_CTRL => [⟨1, 1, .rw, 0x0⟩, ⟨0, 0, .rw, 0x0⟩]
  | .WKR_CODE => [⟨31, 0, .rw, 0x0⟩]
  | .WKR_433CFG => [⟨15, 8, .rw, 0xa⟩, ⟨1, 0, .rw, 0x1⟩]
  | .WKR_24PW => [⟨27, 16, .rw, 0x148⟩, ⟨11, 0, .rw, 0xf6⟩]
  | .WKR_24SEQ => [⟨19, 16, .rw, 0x4⟩, ⟨11, 0, .rw, 0x290⟩]
  | .WKR_STATUS => [⟨2, 2, .ro, 0x1⟩, ⟨1, 1, .w1c, 0x0⟩, ⟨0, 0, .w1c, 0x0⟩]
  | .WKR_CNT => [⟨31, 16, .ro, 0x0⟩, ⟨15, 0, .ro, 0x0⟩]
  | .MSH_CTRL =>
    [⟨31, 31, .rw, 0x0⟩, ⟨30, 30, .rw, 0x0⟩, ⟨29, 29, .rw, 0x0⟩, ⟨28, 28, .wo, 0x0⟩, ⟨27, 27, .wo, 0x0⟩]
  | .MSH_STATUS => [⟨31, 16, .ro, 0x0⟩, ⟨11, 8, .ro, 0xf⟩, ⟨2, 0, .ro, 0x0⟩]
  | .MSH_NET => [⟨31, 16, .rw, 0x0⟩, ⟨15, 0, .rw, 0xfffe⟩]
  | .MSH_PHY =>
    [⟨31, 28, .rw, 0x6⟩, ⟨24, 24, .rw, 0x1⟩, ⟨23, 16, .rw, 0x4d⟩, ⟨15, 12, .rw, 0x6⟩, ⟨11, 10, .rw, 0x1⟩,
     ⟨7, 5, .rw, 0x5⟩, ⟨4, 0, .rw, 0x1e⟩]
  | .MSH_SYNC => [⟨31, 16, .rw, 0x7d0⟩, ⟨15, 0, .rw, 0xfa⟩]
  | .MSH_SCAN => [⟨31, 16, .rw, 0x258⟩, ⟨3, 0, .rw, 0xf⟩]
  | .MSH_ASN_LO => [⟨31, 0, .ro, 0x0⟩]
  | .MSH_ASN_HI => [⟨7, 0, .ro, 0x0⟩]
  | .MSH_DRIFT => [⟨31, 16, .ro, 0x0⟩, ⟨15, 0, .ro, 0x0⟩]
  | .MSH_TSRC =>
    [⟨31, 31, .ro, 0x0⟩, ⟨30, 30, .ro, 0x0⟩, ⟨29, 29, .ro, 0x0⟩, ⟨25, 24, .ro, 0x0⟩, ⟨21, 16, .ro, 0x0⟩,
     ⟨13, 8, .ro, 0x0⟩, ⟨5, 0, .ro, 0x0⟩]
  | .MSH_Q => [⟨13, 8, .rw, 0x0⟩, ⟨5, 0, .rw, 0x0⟩]
  | .MSH_WAKE =>
    [⟨31, 31, .wo, 0x0⟩, ⟨30, 30, .ro, 0x0⟩, ⟨27, 24, .rw, 0x4⟩, ⟨23, 20, .rw, 0x0⟩, ⟨19, 10, .rw, 0x148⟩,
     ⟨9, 0, .rw, 0x11f⟩]
  | .MSH_FCOUT => [⟨31, 0, .ro, 0x0⟩]
  | .MSH_KEYST => [⟨7, 4, .ro, 0x0⟩, ⟨1, 0, .ro, 0x0⟩]
  | .MSH_EXT_LO => [⟨31, 0, .ro, 0x0⟩]
  | .MSH_EXT_HI => [⟨31, 0, .ro, 0x0⟩]
  | .MSH_HOP => [⟨31, 24, .rw, 0xe⟩, ⟨23, 16, .rw, 0xd⟩, ⟨15, 8, .rw, 0xc⟩, ⟨7, 0, .rw, 0xb⟩]
  | .MSH_SF => [⟨31, 31, .rw, 0x0⟩, ⟨9, 0, .rw, 0x32⟩]
  | .MSH_LIDX => [⟨6, 0, .rw, 0x0⟩]
  | .MSH_LDATA =>
    [⟨31, 31, .rw, 0x0⟩, ⟨30, 29, .rw, 0x0⟩, ⟨28, 28, .rw, 0x0⟩, ⟨27, 27, .rw, 0x0⟩, ⟨26, 26, .rw, 0x0⟩,
     ⟨25, 25, .rw, 0x0⟩, ⟨24, 24, .rw, 0x0⟩, ⟨22, 16, .rw, 0x7f⟩, ⟨15, 6, .rw, 0x0⟩, ⟨3, 0, .rw, 0x0⟩]
  | .MSH_NIDX => [⟨5, 0, .rw, 0x0⟩]
  | .MSH_NDATA_W0 => [⟨31, 0, .ro, 0x0⟩]
  | .MSH_NDATA_W1 => [⟨31, 0, .ro, 0x0⟩]
  | .MSH_NDATA_W2 =>
    [⟨31, 31, .ro, 0x0⟩, ⟨30, 30, .ro, 0x0⟩, ⟨29, 29, .ro, 0x0⟩, ⟨28, 27, .ro, 0x0⟩, ⟨23, 20, .ro, 0x0⟩,
     ⟨15, 0, .ro, 0x0⟩]
  | .MSH_NDATA_W3 => [⟨31, 20, .ro, 0x0⟩, ⟨7, 0, .ro, 0x0⟩]
  | .MSH_NDATA_W4 => [⟨31, 0, .ro, 0x0⟩]
  | .MSH_NDATA_W5 => [⟨31, 16, .ro, 0x0⟩, ⟨15, 0, .ro, 0x0⟩]
  | .MSH_SIDX => [⟨4, 0, .rw, 0x0⟩]
  | .MSH_SDATA_W0 => [⟨31, 0, .ro, 0x0⟩]
  | .MSH_SDATA_W1 => [⟨31, 0, .ro, 0x0⟩]
  | .MSH_SDATA_W2 => [⟨31, 31, .ro, 0x0⟩, ⟨30, 28, .ro, 0x0⟩, ⟨27, 24, .ro, 0x0⟩, ⟨23, 12, .ro, 0x0⟩]
  | .MSH_SDATA_W3 => [⟨31, 16, .ro, 0x0⟩, ⟨15, 0, .ro, 0x0⟩]
  | .MSH_CNT => [⟨31, 16, .ro, 0x0⟩, ⟨15, 0, .ro, 0x0⟩]
  | .SPE_CTRL =>
    [⟨31, 31, .rw, 0x0⟩, ⟨30, 30, .rw, 0x0⟩, ⟨29, 28, .rw, 0x0⟩, ⟨27, 27, .rwl, 0x1⟩, ⟨26, 26, .rw, 0x0⟩,
     ⟨25, 25, .wo, 0x0⟩, ⟨24, 24, .wo, 0x0⟩, ⟨23, 16, .rw, 0x50⟩, ⟨15, 8, .rw, 0x40⟩]
  | .SPE_STATUS => [⟨31, 16, .ro, 0x0⟩, ⟨15, 15, .ro, 0x0⟩, ⟨14, 14, .ro, 0x0⟩, ⟨2, 0, .ro, 0x0⟩]
  | .SPE_QUAL => [⟨31, 24, .ro, 0x0⟩, ⟨23, 16, .ro, 0x0⟩, ⟨15, 8, .ro, 0x0⟩, ⟨2, 0, .ro, 0x0⟩]
  | .SPE_MAC_LO => [⟨31, 0, .rw, 0x0⟩]
  | .SPE_MAC_HI => [⟨15, 0, .rw, 0x0⟩]
  | .SPE_Q => [⟨13, 8, .rw, 0x0⟩, ⟨5, 0, .rw, 0x0⟩]
  | .SPE_CNT => [⟨31, 16, .ro, 0x0⟩, ⟨15, 0, .ro, 0x0⟩]
  | .RING_CTRL =>
    [⟨31, 31, .rw, 0x0⟩, ⟨27, 24, .rw, 0x0⟩, ⟨23, 20, .rw, 0x0⟩, ⟨19, 19, .rw, 0x0⟩, ⟨18, 18, .rw, 0x0⟩,
     ⟨12, 8, .rw, 0x0⟩]
  | .RING_PRE => [⟨31, 16, .rw, 0x1⟩, ⟨15, 0, .rw, 0x0⟩]
  | .RING_CNT_W0 => [⟨31, 0, .rw, 0x0⟩]
  | .RING_CNT_W1 => [⟨31, 0, .rw, 0x0⟩]
  | .RING_CMP_W0 => [⟨31, 0, .rw, 0x0⟩]
  | .RING_CMP_W1 => [⟨31, 0, .rw, 0x0⟩]
  | .RING_CMPST =>
    [⟨27, 24, .wo, 0x0⟩, ⟨19, 16, .rw, 0x0⟩, ⟨11, 8, .w1c, 0x0⟩, ⟨7, 4, .w1c, 0x0⟩, ⟨3, 0, .ro, 0x0⟩]
  | .RING_CAPCFG =>
    [⟨31, 28, .rw, 0x0⟩, ⟨27, 24, .rw, 0x0⟩, ⟨23, 23, .rw, 0x0⟩, ⟨22, 22, .rw, 0x0⟩, ⟨1, 1, .rw, 0x0⟩,
     ⟨0, 0, .rw, 0x0⟩]
  | .RING_CAP_W0 => [⟨31, 0, .ro, 0x0⟩]
  | .RING_CAP_W1 => [⟨31, 0, .ro, 0x0⟩]
  | .RING_CAPST =>
    [⟨31, 28, .ro, 0x0⟩, ⟨27, 24, .ro, 0x0⟩, ⟨16, 16, .w1c, 0x0⟩, ⟨9, 9, .w1c, 0x0⟩, ⟨8, 8, .w1c, 0x0⟩,
     ⟨1, 1, .ro, 0x0⟩, ⟨0, 0, .ro, 0x0⟩]
  | .RING_SCH_W0 => [⟨31, 0, .ro, 0x0⟩]
  | .RING_SCH_W1 => [⟨31, 0, .ro, 0x0⟩]
  | .RING_LCNT_W0 => [⟨31, 0, .ro, 0x0⟩]
  | .RING_LCNT_W1 => [⟨31, 0, .ro, 0x0⟩]
  | .RING_PPSCFG => [⟨31, 31, .rw, 0x0⟩, ⟨30, 30, .rw, 0x0⟩, ⟨15, 0, .rw, 0x600⟩]
  | .RING_PPSST => [⟨31, 30, .ro, 0x0⟩, ⟨23, 16, .ro, 0x0⟩, ⟨15, 0, .ro, 0x0⟩]
  | .RING_PPS_W0 => [⟨31, 0, .ro, 0x0⟩]
  | .RING_PPS_W1 => [⟨31, 0, .ro, 0x0⟩]
  | .RING_AT_W0 => [⟨31, 0, .ro, 0x0⟩]
  | .RING_AT_W1 => [⟨31, 0, .ro, 0x0⟩]
  | .AON_HW_W0 => [⟨31, 0, .ro, 0x0⟩]
  | .AON_HW_W1 => [⟨15, 0, .ro, 0x0⟩]
  | .AON_ATRATIO => [⟨31, 0, .rwo, 0x927c0000⟩]
  | .AON_ATCFG => [⟨31, 31, .ro, 0x0⟩, ⟨30, 20, .ro, 0x0⟩, ⟨19, 8, .rw, 0x64⟩, ⟨7, 0, .rw, 0x18⟩]
  | .AON_ATST => [⟨31, 31, .ro, 0x0⟩, ⟨30, 30, .ro, 0x0⟩, ⟨29, 0, .ro, 0x0⟩]
  | .AON_ENT_W0 => [⟨31, 0, .ro, 0x0⟩]
  | .AON_ENT_W1 => [⟨31, 0, .ro, 0x0⟩]
  | .AON_ENT_W2 => [⟨31, 0, .ro, 0x0⟩]
  | .AON_ENT_W3 => [⟨15, 0, .ro, 0x0⟩]
  | .AON_HWCMP_W0 => [⟨31, 0, .ro, 0x0⟩]
  | .AON_HWCMP_W1 => [⟨31, 31, .ro, 0x0⟩, ⟨30, 28, .ro, 0x0⟩, ⟨27, 26, .ro, 0x0⟩, ⟨15, 0, .ro, 0x0⟩]
  | .TRL_CH => [⟨31, 31, .w1c, 0x0⟩, ⟨30, 30, .w1c, 0x0⟩, ⟨8, 8, .rwo, 0x0⟩, ⟨2, 0, .rw, 0x1⟩]
  | .TRL_PIDX => [⟨7, 0, .rw, 0x0⟩]
  | .TRL_PDATA => [⟨31, 31, .rw, 0x0⟩, ⟨5, 0, .rw, 0x0⟩]
  | .TRL_CIDX => [⟨6, 0, .rw, 0x0⟩]
  | .TRL_CMASK_LO => [⟨31, 0, .rw, 0x0⟩]
  | .TRL_CMASK_HI => [⟨31, 0, .rw, 0x0⟩]
  | .TRL_CSTAT => [⟨31, 31, .wo, 0x0⟩, ⟨7, 4, .ro, 0x0⟩, ⟨1, 1, .w1c, 0x0⟩, ⟨0, 0, .ro, 0x0⟩]
  | .TRL_SWPUB => [⟨10, 8, .wo, 0x0⟩, ⟨5, 0, .wo, 0x0⟩]
  | .TRL_STATUS => [⟨31, 16, .ro, 0x0⟩]
  | .TRL_DROP => [⟨15, 0, .ro, 0x0⟩]
  | .QMX_Q_BASE => [⟨31, 31, .rw, 0x0⟩, ⟨28, 16, .rw, 0x0⟩, ⟨3, 0, .rw, 0x4⟩]
  | .QMX_Q_EP => [⟨28, 24, .rw, 0x1f⟩, ⟨20, 16, .rw, 0x1f⟩, ⟨15, 0, .rw, 0x3e8⟩]
  | .QMX_Q_CTRL => [⟨2, 2, .wo, 0x0⟩, ⟨1, 1, .wo, 0x0⟩, ⟨0, 0, .wo, 0x0⟩]
  | .QMX_Q_CNT => [⟨28, 16, .ro, 0x0⟩, ⟨12, 0, .ro, 0x0⟩]
  | .QMX_Q_STAT => [⟨31, 16, .ro, 0x0⟩, ⟨2, 2, .ro, 0x0⟩, ⟨1, 1, .w1c, 0x0⟩, ⟨0, 0, .w1c, 0x0⟩]
  | .QMX_Q_PUSH => [⟨31, 0, .wo, 0x0⟩]
  | .QMX_Q_POP => [⟨31, 0, .ro, 0x0⟩]
  | .PWR_CTRL => [⟨31, 31, .wo, 0x0⟩, ⟨30, 30, .wo, 0x0⟩, ⟨29, 28, .rw, 0x1⟩, ⟨0, 0, .rwl, 0x0⟩]
  | .PWR_STATUS => [⟨31, 16, .ro, 0x0⟩, ⟨9, 8, .ro, 0x0⟩, ⟨1, 0, .ro, 0x0⟩]
  | .PWR_POLICY => [⟨31, 30, .rw, 0x0⟩, ⟨15, 0, .rw, 0xea60⟩]
  | .PWR_WAKEEN => [⟨7, 0, .rw, 0x40⟩]
  | .PWR_IDLE0 => [⟨31, 24, .rw, 0xa⟩, ⟨23, 16, .rw, 0xa⟩, ⟨15, 8, .rw, 0xa⟩, ⟨7, 0, .rw, 0xa⟩]
  | .PWR_IDLE1 => [⟨31, 24, .rw, 0x64⟩, ⟨23, 16, .rw, 0x64⟩, ⟨15, 0, .rw, 0x3e8⟩]
  | .PWR_DOM0 => [⟨31, 16, .ro, 0x0⟩, ⟨8, 0, .ro, 0x0⟩]
  | .PWR_DOM1 => [⟨8, 4, .ro, 0x0⟩, ⟨3, 0, .ro, 0x0⟩]
  | .PWR_GTEMP => [⟨30, 24, .rw, 0xa⟩, ⟨15, 8, .rw, 0x69⟩, ⟨7, 0, .rw, 0xd8⟩]
  | .PWR_WT_LO => [⟨31, 0, .rw, 0x0⟩]
  | .PWR_WT_HI => [⟨31, 31, .rw, 0x0⟩, ⟨15, 0, .rw, 0x0⟩]
  | .PWR_CNT => [⟨31, 16, .ro, 0x0⟩, ⟨15, 0, .ro, 0x0⟩]
  | .AON_RET_SEL => [⟨15, 0, .rw, 0x0⟩]
  | .AON_RET_STATUS => [⟨31, 16, .ro, 0x0⟩, ⟨15, 0, .ro, 0x0⟩]
  | .AON_WAKE_REC0 => [⟨31, 31, .w1c, 0x0⟩, ⟨15, 8, .ro, 0x0⟩, ⟨3, 0, .ro, 0xf⟩]
  | .AON_WAKE_REC1 => [⟨31, 0, .ro, 0x0⟩]
  | .AON_WAKE_REC2 => [⟨15, 0, .ro, 0x0⟩]
  | .AON_WAKE_REC3 => [⟨31, 0, .ro, 0x0⟩]
  | .AON_PAPOL => [⟨7, 0, .ro, 0x0⟩]
  | .AON_REFR => [⟨7, 0, .ro, 0x80⟩]
  | .NVM_STATUS => [⟨31, 16, .ro, 0x0⟩, ⟨8, 8, .ro, 0x0⟩, ⟨7, 7, .ro, 0x0⟩, ⟨6, 4, .ro, 0x0⟩]
  | .NVM_GIDX => [⟨5, 5, .ro, 0x0⟩, ⟨4, 4, .ro, 0x0⟩, ⟨3, 3, .ro, 0x0⟩, ⟨2, 0, .rw, 0x0⟩]
  | .NVM_GEN0 => [⟨31, 0, .ro, 0x0⟩]
  | .NVM_GEN1 => [⟨31, 0, .ro, 0x0⟩]
  | .NVM_BOOT => [⟨31, 16, .ro, 0x0⟩, ⟨3, 3, .ro, 0x0⟩, ⟨2, 2, .ro, 0x0⟩, ⟨1, 1, .ro, 0x0⟩, ⟨0, 0, .ro, 0x0⟩]
  | .MGT_STATUS => [⟨31, 0, .ro, 0x0⟩]
  | .MGT_LOG_NEW => [⟨31, 0, .ro, 0x0⟩]
  | .MGT_LOG_OLD => [⟨31, 0, .ro, 0x0⟩]
  | .MGT_LOG_IDX => [⟨31, 0, .rw, 0x0⟩]
  | .MGT_LOG_CNT => [⟨31, 16, .ro, 0x0⟩, ⟨15, 0, .ro, 0x0⟩]
  | .MGT_LOG_D => [⟨31, 0, .ro, 0x0⟩]
  | .LCS_STATE => [⟨9, 9, .ro, 0x0⟩, ⟨8, 8, .ro, 0x0⟩, ⟨1, 0, .ro, 0x0⟩]
  | .LCS_SERIAL => [⟨31, 0, .ro, 0x0⟩]
  | .SNS_TEMP => [⟨27, 16, .ro, 0x800⟩, ⟨11, 0, .ro, 0x800⟩]
  | .SNS_SUPPLY => [⟨31, 16, .w1c, 0x0⟩, ⟨15, 0, .ro, 0x0⟩]
  | .SNS_TRNG => [⟨31, 0, .ro, 0x0⟩]
  | .SNS_TRNG_ST => [⟨31, 31, .ro, 0x0⟩, ⟨30, 30, .w1c, 0x0⟩, ⟨15, 0, .ro, 0x0⟩]
  | .SYS_IDENT => [⟨31, 16, .ro, 0x8490⟩, ⟨15, 8, .ro, 0x21⟩]
  | .SYS_STRAP => [⟨2, 2, .ro, 0x0⟩, ⟨1, 1, .ro, 0x0⟩, ⟨0, 0, .ro, 0x0⟩]
  | .SYS_STEP => [⟨28, 16, .ro, 0x0⟩, ⟨12, 0, .ro, 0x0⟩]
  | .SYS_ROLL => [⟨25, 16, .ro, 0x0⟩, ⟨9, 0, .ro, 0x0⟩]
  | .SYS_CLK => [⟨3, 3, .ro, 0x0⟩, ⟨2, 2, .ro, 0x0⟩, ⟨1, 1, .ro, 0x0⟩, ⟨0, 0, .ro, 0x0⟩]
  | .HLK_STATUS => [⟨3, 3, .ro, 0x0⟩, ⟨2, 2, .ro, 0x0⟩, ⟨1, 1, .ro, 0x0⟩, ⟨0, 0, .ro, 0x0⟩]
  | .HLK_PCI_ID => [⟨31, 16, .ro, 0x8490⟩, ⟨15, 0, .ro, 0x0⟩]
  | .HLK_ERR => [⟨31, 16, .w1c, 0x0⟩, ⟨15, 0, .ro, 0x0⟩]
  | .HLK_ERRADDR => [⟨31, 0, .ro, 0x0⟩]
  | .HLK_IRQPEND => [⟨31, 0, .w1c, 0x0⟩]
  | .HLK_IRQMASK => [⟨31, 0, .rw, 0x0⟩]
  | .HLK_DMA_CFG => [⟨31, 31, .rw, 0x0⟩, ⟨13, 8, .rw, 0x0⟩, ⟨3, 0, .rw, 0x4⟩]
  | .HLK_DMA_BASE_LO => [⟨31, 0, .rw, 0x0⟩]
  | .HLK_DMA_BASE_HI => [⟨31, 0, .rw, 0x0⟩]
  | .HLK_DMA_SHD_LO => [⟨31, 0, .rw, 0x0⟩]
  | .HLK_DMA_SHD_HI => [⟨31, 0, .rw, 0x0⟩]
  | .HLK_DMA_RD => [⟨31, 0, .rw, 0x0⟩]
  | .HLK_DMA_WR => [⟨31, 0, .ro, 0x0⟩]
  | .HLK_DMA_STAT => [⟨31, 16, .ro, 0x0⟩, ⟨0, 0, .ro, 0x0⟩]
  | .PMX_PAD => [⟨31, 30, .rw, 0x1⟩, ⟨29, 28, .rw, 0x1⟩, ⟨8, 8, .rw, 0x1⟩, ⟨7, 4, .rw, 0xf⟩]
  | .UHF_RPY_D0 =>
    [⟨31, 29, .ro, 0x0⟩, ⟨28, 27, .ro, 0x0⟩, ⟨26, 24, .ro, 0x0⟩, ⟨23, 23, .ro, 0x0⟩, ⟨22, 22, .ro, 0x0⟩,
     ⟨21, 21, .ro, 0x0⟩, ⟨20, 20, .ro, 0x0⟩, ⟨19, 19, .ro, 0x0⟩, ⟨18, 18, .ro, 0x0⟩, ⟨12, 0, .ro, 0x0⟩]
  | .UHF_RPY_D1 => [⟨31, 0, .ro, 0x0⟩]
  | .UHF_RPY_D2 => [⟨31, 0, .ro, 0x0⟩]
  | .UHF_RPY_D3 => [⟨31, 0, .ro, 0x0⟩]
  | .UHF_RPY_D4 => [⟨31, 20, .ro, 0x0⟩, ⟨19, 12, .ro, 0x0⟩, ⟨11, 8, .ro, 0x0⟩, ⟨7, 0, .ro, 0x0⟩]
  | .UHF_RPY_D5 => [⟨25, 16, .ro, 0x0⟩, ⟨15, 0, .ro, 0x0⟩]
  | .UHF_RPY_D6 => [⟨31, 0, .ro, 0x0⟩]
  | .UHF_RPY_D7 => [⟨31, 16, .ro, 0x0⟩, ⟨3, 0, .ro, 0x0⟩]
  | .HFR_RPY_D0 => [⟨31, 0, .ro, 0x0⟩]
  | .HFR_RPY_D1 => [⟨31, 0, .ro, 0x0⟩]
  | .HFR_RPY_D2 => [⟨31, 0, .ro, 0x0⟩]
  | .HFR_RPY_D3 => [⟨31, 0, .ro, 0x0⟩]
  | .HFR_RPY_D4 => [⟨31, 0, .ro, 0x0⟩]
  | .HFR_RPY_D5 => [⟨31, 0, .ro, 0x0⟩]
  | .HFR_RPY_D6 => [⟨31, 0, .ro, 0x0⟩]
  | .HFR_RPY_D7 => [⟨31, 0, .ro, 0x0⟩]
  | .ACT_RPY_D0 => [⟨31, 0, .ro, 0x0⟩]
  | .ACT_RPY_D1 => [⟨31, 0, .ro, 0x0⟩]
  | .ACT_RPY_D2 => [⟨31, 0, .ro, 0x0⟩]
  | .ACT_RPY_D3 => [⟨31, 0, .ro, 0x0⟩]
  | .ACT_RPY_D4 => [⟨31, 0, .ro, 0x0⟩]
  | .ACT_RPY_D5 => [⟨31, 0, .ro, 0x0⟩]
  | .ACT_RPY_D6 => [⟨31, 0, .ro, 0x0⟩]
  | .ACT_RPY_D7 => [⟨31, 0, .ro, 0x0⟩]

/-- Part 1 of the list of all registers. -/
def Reg.part1 : List Reg :=
  [.SYS_RESET_CAUSE, .SYS_RESET_REQ, .UHF_CTRL, .UHF_STATUS, .UHF_PWR, .UHF_FE, .UHF_ANT, .UHF_RAMP,
   .UHF_TXW, .UHF_DET, .UHF_TRIP, .UHF_PROT, .UHF_LKC_CTRL, .UHF_LKC_TRIM, .UHF_LKC_RESID, .UHF_LKC_CIDX,
   .UHF_LKC_CDATA, .UHF_MODP_A, .UHF_MODP_B, .UHF_MODP_C, .UHFS_SPARE, .UHFS_TAKE, .UHFS_SPSEL, .SYN_F_CTRL,
   .SYN_F_FREQ, .SYN_F_STATUS, .SYN_F_CAL, .SYN_SHADOW, .SYN_DRIFT, .UHF_RX_CTRL, .UHF_RX_QFLR,
   .UHF_RX_STATUS, .UHF_RX_NOISE, .UHF_RX_VCLR, .UHF_RX_CCNT, .UHF_RX_VCNT0, .UHF_RX_VCNT1, .UHF_RX_VCNT2,
   .UHF_RPY_IDX, .UHF_RPY_DATA, .UHF_CAP_CTRL, .UHF_CAP_STATUS, .UHF_CAP_TAT_LO, .UHF_CAP_TAT_HI, .VAT_CTRL,
   .VAT_STATUS, .VAT_PC, .VAT_ENTRY, .VAT_OC, .VAT_BIND, .VAT_WDOG, .VAT_FAULT, .VAT_SWAP, .VAT_CLRID,
   .VAT_LATE, .VAT_ECC, .VAT_TMO, .VAT_TRIG, .VAT_G, .VAT_RSTK]

/-- Part 2 of the list of all registers. -/
def Reg.part2 : List Reg :=
  [.VAT_FAT_LO, .VAT_FAT_HI, .VAT_SUMMARY, .VAT_GSTART, .VAT_GSTOP, .VAT_ASTAT, .VAT_ACNT, .VAT_GEN,
   .VAT_HOPEN, .TXN_POOL, .TXN_STATUS, .TXN_POOLST, .TXN_PEND, .TXN_HCMD, .TXN_HIDX, .TXN_HINFO0,
   .TXN_HINFO1, .TXN_HINFO2, .TXN_HINFO3, .TXN_HINFO4, .TXN_CNT0, .TXN_CNT1, .TXN_CQ, .LDG_CTRL, .LDG_SEED,
   .LDG_STATUS, .LDG_COUNT, .LDG_BANK, .LDG_CMD, .LDG_CMDST, .LDG_OVF, .LDG_OVFST, .LDG_AGE_LO, .LDG_AGE_HI,
   .LDG_CNT0, .LDG_CNT1, .LDG_RDATA, .BRG_CTRL, .BRG_STATUS, .BRG_CAN_CFG, .BRG_CAN_RADDR, .BRG_CAN_RES0,
   .BRG_CAN_RES1, .BRG_CAN_RES2, .BRG_CAN_CNT0, .BRG_CAN_CNT1, .BRG_POIDX, .BRG_PODATA, .BRG_PCAL,
   .BRG_PCAL_ST, .BRG_PCAL_R, .CAL_CTRL, .CAL_CMD, .CAL_STATUS, .CAL_QUAL, .CAL_TIDX, .CAL_TDATA, .CAL_ERR,
   .UHFS_SPST, .UHFS_CBANK]

/-- Part 3 of the list of all registers. -/
def Reg.part3 : List Reg :=
  [.RGU_ACTIVE, .RGU_STATUS, .RGU_SLOT, .RGU_CNT, .RGU_PRM, .RGU_CHIDX, .RGU_CHDATA, .RGU_ANTIDX,
   .RGU_ANTDATA, .RGU_FE, .RGU_OCIDX, .RGU_OCDATA, .RGU_OCHOLD, .HFR_CTRL, .HFR_STATUS, .HFR_DRV, .HFR_MEAS,
   .HFR_TRIP, .HFR_RX, .HFR_QFLR, .HFR_MODE, .HFR_VCNT, .HFR_RPY_IDX, .HFR_RPY_DATA, .HFR_CW_CTRL,
   .HFR_CW_THR, .HFR_CW_BASE, .HFR_CW_LAST, .HFR_CW_CNT, .ACT_CTRL, .ACT_STATUS, .ACT_TXCFG, .ACT_LIMIT,
   .ACT_DUTY, .ACT_TRIP, .ACT_RX, .ACT_RPY_IDX, .ACT_RPY_DATA, .WKR_CTRL, .WKR_CODE, .WKR_433CFG, .WKR_24PW,
   .WKR_24SEQ, .WKR_STATUS, .WKR_CNT, .MSH_CTRL, .MSH_STATUS, .MSH_NET, .MSH_PHY, .MSH_SYNC, .MSH_SCAN,
   .MSH_ASN_LO, .MSH_ASN_HI, .MSH_DRIFT, .MSH_TSRC, .MSH_Q, .MSH_WAKE, .MSH_FCOUT, .MSH_KEYST, .MSH_EXT_LO]

/-- Part 4 of the list of all registers. -/
def Reg.part4 : List Reg :=
  [.MSH_EXT_HI, .MSH_HOP, .MSH_SF, .MSH_LIDX, .MSH_LDATA, .MSH_NIDX, .MSH_NDATA_W0, .MSH_NDATA_W1,
   .MSH_NDATA_W2, .MSH_NDATA_W3, .MSH_NDATA_W4, .MSH_NDATA_W5, .MSH_SIDX, .MSH_SDATA_W0, .MSH_SDATA_W1,
   .MSH_SDATA_W2, .MSH_SDATA_W3, .MSH_CNT, .SPE_CTRL, .SPE_STATUS, .SPE_QUAL, .SPE_MAC_LO, .SPE_MAC_HI,
   .SPE_Q, .SPE_CNT, .RING_CTRL, .RING_PRE, .RING_CNT_W0, .RING_CNT_W1, .RING_CMP_W0, .RING_CMP_W1,
   .RING_CMPST, .RING_CAPCFG, .RING_CAP_W0, .RING_CAP_W1, .RING_CAPST, .RING_SCH_W0, .RING_SCH_W1,
   .RING_LCNT_W0, .RING_LCNT_W1, .RING_PPSCFG, .RING_PPSST, .RING_PPS_W0, .RING_PPS_W1, .RING_AT_W0,
   .RING_AT_W1, .AON_HW_W0, .AON_HW_W1, .AON_ATRATIO, .AON_ATCFG, .AON_ATST, .AON_ENT_W0, .AON_ENT_W1,
   .AON_ENT_W2, .AON_ENT_W3, .AON_HWCMP_W0, .AON_HWCMP_W1, .TRL_CH, .TRL_PIDX, .TRL_PDATA]

/-- Part 5 of the list of all registers. -/
def Reg.part5 : List Reg :=
  [.TRL_CIDX, .TRL_CMASK_LO, .TRL_CMASK_HI, .TRL_CSTAT, .TRL_SWPUB, .TRL_STATUS, .TRL_DROP, .QMX_Q_BASE,
   .QMX_Q_EP, .QMX_Q_CTRL, .QMX_Q_CNT, .QMX_Q_STAT, .QMX_Q_PUSH, .QMX_Q_POP, .PWR_CTRL, .PWR_STATUS,
   .PWR_POLICY, .PWR_WAKEEN, .PWR_IDLE0, .PWR_IDLE1, .PWR_DOM0, .PWR_DOM1, .PWR_GTEMP, .PWR_WT_LO,
   .PWR_WT_HI, .PWR_CNT, .AON_RET_SEL, .AON_RET_STATUS, .AON_WAKE_REC0, .AON_WAKE_REC1, .AON_WAKE_REC2,
   .AON_WAKE_REC3, .AON_PAPOL, .AON_REFR, .NVM_STATUS, .NVM_GIDX, .NVM_GEN0, .NVM_GEN1, .NVM_BOOT,
   .MGT_STATUS, .MGT_LOG_NEW, .MGT_LOG_OLD, .MGT_LOG_IDX, .MGT_LOG_CNT, .MGT_LOG_D, .LCS_STATE, .LCS_SERIAL,
   .SNS_TEMP, .SNS_SUPPLY, .SNS_TRNG, .SNS_TRNG_ST, .SYS_IDENT, .SYS_STRAP, .SYS_STEP, .SYS_ROLL, .SYS_CLK,
   .HLK_STATUS, .HLK_PCI_ID, .HLK_ERR, .HLK_ERRADDR]

/-- Part 6 of the list of all registers. -/
def Reg.part6 : List Reg :=
  [.HLK_IRQPEND, .HLK_IRQMASK, .HLK_DMA_CFG, .HLK_DMA_BASE_LO, .HLK_DMA_BASE_HI, .HLK_DMA_SHD_LO,
   .HLK_DMA_SHD_HI, .HLK_DMA_RD, .HLK_DMA_WR, .HLK_DMA_STAT, .PMX_PAD, .UHF_RPY_D0, .UHF_RPY_D1, .UHF_RPY_D2,
   .UHF_RPY_D3, .UHF_RPY_D4, .UHF_RPY_D5, .UHF_RPY_D6, .UHF_RPY_D7, .HFR_RPY_D0, .HFR_RPY_D1, .HFR_RPY_D2,
   .HFR_RPY_D3, .HFR_RPY_D4, .HFR_RPY_D5, .HFR_RPY_D6, .HFR_RPY_D7, .ACT_RPY_D0, .ACT_RPY_D1, .ACT_RPY_D2,
   .ACT_RPY_D3, .ACT_RPY_D4, .ACT_RPY_D5, .ACT_RPY_D6, .ACT_RPY_D7]

/-- Every register of the map. -/
def Reg.all : List Reg :=
  Reg.part1 ++ Reg.part2 ++ Reg.part3 ++ Reg.part4 ++ Reg.part5 ++ Reg.part6

/-! SYS_RESET_CAUSE: 01_system_view.md R30 -/
def SYS_RESET_CAUSE.DEV_COUNT : Fld := ⟨.SYS_RESET_CAUSE, 19, 16⟩
def SYS_RESET_CAUSE.HLK_RST : Fld := ⟨.SYS_RESET_CAUSE, 10, 10⟩
def SYS_RESET_CAUSE.RGR_RST : Fld := ⟨.SYS_RESET_CAUSE, 9, 9⟩
def SYS_RESET_CAUSE.LCS : Fld := ⟨.SYS_RESET_CAUSE, 8, 8⟩
def SYS_RESET_CAUSE.WAKE : Fld := ⟨.SYS_RESET_CAUSE, 7, 7⟩
def SYS_RESET_CAUSE.RGR_WDOG : Fld := ⟨.SYS_RESET_CAUSE, 6, 6⟩
def SYS_RESET_CAUSE.RGR_REQ : Fld := ⟨.SYS_RESET_CAUSE, 5, 5⟩
def SYS_RESET_CAUSE.HOST_REQ : Fld := ⟨.SYS_RESET_CAUSE, 4, 4⟩
def SYS_RESET_CAUSE.THERMAL : Fld := ⟨.SYS_RESET_CAUSE, 3, 3⟩
def SYS_RESET_CAUSE.BROWNOUT : Fld := ⟨.SYS_RESET_CAUSE, 2, 2⟩
def SYS_RESET_CAUSE.PIN : Fld := ⟨.SYS_RESET_CAUSE, 1, 1⟩
def SYS_RESET_CAUSE.POR : Fld := ⟨.SYS_RESET_CAUSE, 0, 0⟩
/-! SYS_RESET_REQ: 01_system_view.md R31 -/
def SYS_RESET_REQ.KEY : Fld := ⟨.SYS_RESET_REQ, 31, 16⟩
def SYS_RESET_REQ.DEVICE : Fld := ⟨.SYS_RESET_REQ, 0, 0⟩
/-! UHF_CTRL: 02_uhf_chains.md R62 -/
def UHF_CTRL.CHSLOT : Fld := ⟨.UHF_CTRL, 26, 24⟩
def UHF_CTRL.TARGET : Fld := ⟨.UHF_CTRL, 18, 16⟩
def UHF_CTRL.SYN_SEL : Fld := ⟨.UHF_CTRL, 9, 8⟩
/-! UHF_STATUS: 02_uhf_chains.md R62 -/
def UHF_STATUS.LAST_ERR : Fld := ⟨.UHF_STATUS, 31, 16⟩
def UHF_STATUS.PORT : Fld := ⟨.UHF_STATUS, 11, 8⟩
def UHF_STATUS.TRIPPED : Fld := ⟨.UHF_STATUS, 7, 7⟩
def UHF_STATUS.LOCK : Fld := ⟨.UHF_STATUS, 6, 6⟩
def UHF_STATUS.SETTLED : Fld := ⟨.UHF_STATUS, 5, 5⟩
def UHF_STATUS.PAEN : Fld := ⟨.UHF_STATUS, 4, 4⟩
def UHF_STATUS.GATE : Fld := ⟨.UHF_STATUS, 3, 3⟩
def UHF_STATUS.STATE : Fld := ⟨.UHF_STATUS, 2, 0⟩
/-! UHF_PWR: 02_uhf_chains.md R62 -/
def UHF_PWR.LOOP : Fld := ⟨.UHF_PWR, 28, 28⟩
def UHF_PWR.DRIVE : Fld := ⟨.UHF_PWR, 27, 16⟩
def UHF_PWR.SETPT : Fld := ⟨.UHF_PWR, 8, 0⟩
/-! UHF_FE: 02_uhf_chains.md R62 -/
def UHF_FE.PA_GAIN : Fld := ⟨.UHF_FE, 31, 24⟩
def UHF_FE.CPL_FWD : Fld := ⟨.UHF_FE, 23, 16⟩
def UHF_FE.CPL_REF : Fld := ⟨.UHF_FE, 15, 8⟩
def UHF_FE.PA_SETTLE : Fld := ⟨.UHF_FE, 7, 4⟩
def UHF_FE.PAEN_POL : Fld := ⟨.UHF_FE, 3, 3⟩
/-! UHF_ANT: 02_uhf_chains.md R62 -/
def UHF_ANT.FITTED : Fld := ⟨.UHF_ANT, 31, 16⟩
def UHF_ANT.SETTLE : Fld := ⟨.UHF_ANT, 15, 8⟩
def UHF_ANT.PORT : Fld := ⟨.UHF_ANT, 3, 0⟩
/-! UHF_RAMP: 02_uhf_chains.md R62 -/
def UHF_RAMP.RAMP_DN : Fld := ⟨.UHF_RAMP, 27, 16⟩
def UHF_RAMP.RAMP_UP : Fld := ⟨.UHF_RAMP, 11, 0⟩
/-! UHF_TXW: 02_uhf_chains.md R62 -/
def UHF_TXW.AMP : Fld := ⟨.UHF_TXW, 23, 16⟩
def UHF_TXW.PHASE : Fld := ⟨.UHF_TXW, 9, 0⟩
/-! UHF_DET: 02_uhf_chains.md R62 -/
def UHF_DET.FWD : Fld := ⟨.UHF_DET, 27, 16⟩
def UHF_DET.REFL : Fld := ⟨.UHF_DET, 11, 0⟩
/-! UHF_TRIP: 02_uhf_chains.md R62 -/
def UHF_TRIP.FORCE : Fld := ⟨.UHF_TRIP, 31, 31⟩
def UHF_TRIP.CAUSE : Fld := ⟨.UHF_TRIP, 9, 0⟩
/-! UHF_PROT: 02_uhf_chains.md R62 -/
def UHF_PROT.SHORT_HOLD : Fld := ⟨.UHF_PROT, 31, 24⟩
def UHF_PROT.SHORT_DB : Fld := ⟨.UHF_PROT, 23, 16⟩
def UHF_PROT.RL_HOLD : Fld := ⟨.UHF_PROT, 15, 8⟩
def UHF_PROT.RL_TRIP : Fld := ⟨.UHF_PROT, 7, 0⟩
/-! UHF_LKC_CTRL: 02_uhf_chains.md R62 -/
def UHF_LKC_CTRL.SAT_LIM : Fld := ⟨.UHF_LKC_CTRL, 15, 8⟩
def UHF_LKC_CTRL.CACHE : Fld := ⟨.UHF_LKC_CTRL, 5, 5⟩
def UHF_LKC_CTRL.FRZ_LSN : Fld := ⟨.UHF_LKC_CTRL, 4, 4⟩
def UHF_LKC_CTRL.BW : Fld := ⟨.UHF_LKC_CTRL, 3, 2⟩
def UHF_LKC_CTRL.MODE : Fld := ⟨.UHF_LKC_CTRL, 1, 0⟩
/-! UHF_LKC_TRIM: 02_uhf_chains.md R62 -/
def UHF_LKC_TRIM.TRIM_I : Fld := ⟨.UHF_LKC_TRIM, 27, 16⟩
def UHF_LKC_TRIM.TRIM_Q : Fld := ⟨.UHF_LKC_TRIM, 11, 0⟩
/-! UHF_LKC_RESID: 02_uhf_chains.md R62 -/
def UHF_LKC_RESID.CONV : Fld := ⟨.UHF_LKC_RESID, 31, 31⟩
def UHF_LKC_RESID.SAT : Fld := ⟨.UHF_LKC_RESID, 30, 30⟩
def UHF_LKC_RESID.RESID : Fld := ⟨.UHF_LKC_RESID, 11, 0⟩
/-! UHF_LKC_CIDX: 02_uhf_chains.md R62 -/
def UHF_LKC_CIDX.IDX : Fld := ⟨.UHF_LKC_CIDX, 6, 0⟩
/-! UHF_LKC_CDATA: 02_uhf_chains.md R62 -/
def UHF_LKC_CDATA.VALID : Fld := ⟨.UHF_LKC_CDATA, 31, 31⟩
def UHF_LKC_CDATA.C_I : Fld := ⟨.UHF_LKC_CDATA, 27, 16⟩
def UHF_LKC_CDATA.C_Q : Fld := ⟨.UHF_LKC_CDATA, 11, 0⟩
/-! UHF_MODP_A: 02_uhf_chains.md R62 -/
def UHF_MODP_A.MODE : Fld := ⟨.UHF_MODP_A, 31, 30⟩
def UHF_MODP_A.SB : Fld := ⟨.UHF_MODP_A, 29, 29⟩
def UHF_MODP_A.VALID : Fld := ⟨.UHF_MODP_A, 28, 28⟩
def UHF_MODP_A.DEPTH : Fld := ⟨.UHF_MODP_A, 22, 16⟩
def UHF_MODP_A.TARI : Fld := ⟨.UHF_MODP_A, 12, 0⟩
/-! UHF_MODP_B: 02_uhf_chains.md R62 -/
def UHF_MODP_B.DATA1 : Fld := ⟨.UHF_MODP_B, 28, 16⟩
def UHF_MODP_B.PW : Fld := ⟨.UHF_MODP_B, 11, 0⟩
/-! UHF_MODP_C: 02_uhf_chains.md R62 -/
def UHF_MODP_C.FALL : Fld := ⟨.UHF_MODP_C, 27, 16⟩
def UHF_MODP_C.RISE : Fld := ⟨.UHF_MODP_C, 11, 0⟩
/-! UHFS_SPARE: 02_uhf_chains.md R63 -/
def UHFS_SPARE.READINESS : Fld := ⟨.UHFS_SPARE, 25, 24⟩
def UHFS_SPARE.ATTACHED : Fld := ⟨.UHFS_SPARE, 19, 16⟩
def UHFS_SPARE.ELIGIBLE : Fld := ⟨.UHFS_SPARE, 15, 8⟩
def UHFS_SPARE.SW_SETTLE : Fld := ⟨.UHFS_SPARE, 7, 0⟩
/-! UHFS_TAKE: 02_uhf_chains.md R63 -/
def UHFS_TAKE.RELEASE : Fld := ⟨.UHFS_TAKE, 8, 8⟩
def UHFS_TAKE.GO : Fld := ⟨.UHFS_TAKE, 4, 4⟩
def UHFS_TAKE.CHAIN : Fld := ⟨.UHFS_TAKE, 3, 0⟩
/-! UHFS_SPSEL: 02_uhf_chains.md R63 -/
def UHFS_SPSEL.SEL : Fld := ⟨.UHFS_SPSEL, 7, 0⟩
/-! SYN_F_CTRL: 02_uhf_chains.md R64 -/
def SYN_F_CTRL.RECAL : Fld := ⟨.SYN_F_CTRL, 8, 8⟩
def SYN_F_CTRL.KEEP : Fld := ⟨.SYN_F_CTRL, 0, 0⟩
/-! SYN_F_FREQ: 02_uhf_chains.md R64 -/
def SYN_F_FREQ.FREQ_KHZ : Fld := ⟨.SYN_F_FREQ, 19, 0⟩
/-! SYN_F_STATUS: 02_uhf_chains.md R64 -/
def SYN_F_STATUS.LAST_ERR : Fld := ⟨.SYN_F_STATUS, 31, 16⟩
def SYN_F_STATUS.USERS : Fld := ⟨.SYN_F_STATUS, 15, 7⟩
def SYN_F_STATUS.SHADOWING : Fld := ⟨.SYN_F_STATUS, 3, 3⟩
def SYN_F_STATUS.CAL_BUSY : Fld := ⟨.SYN_F_STATUS, 2, 2⟩
def SYN_F_STATUS.CAL_OK : Fld := ⟨.SYN_F_STATUS, 1, 1⟩
def SYN_F_STATUS.LOCK : Fld := ⟨.SYN_F_STATUS, 0, 0⟩
/-! SYN_F_CAL: 02_uhf_chains.md R64 -/
def SYN_F_CAL.TCAL : Fld := ⟨.SYN_F_CAL, 31, 24⟩
def SYN_F_CAL.LOCK_TICKS : Fld := ⟨.SYN_F_CAL, 15, 0⟩
/-! SYN_SHADOW: 02_uhf_chains.md R64 -/
def SYN_SHADOW.STATE : Fld := ⟨.SYN_SHADOW, 18, 16⟩
def SYN_SHADOW.CANCEL : Fld := ⟨.SYN_SHADOW, 12, 12⟩
def SYN_SHADOW.GO : Fld := ⟨.SYN_SHADOW, 8, 8⟩
def SYN_SHADOW.DST : Fld := ⟨.SYN_SHADOW, 5, 4⟩
def SYN_SHADOW.SRC : Fld := ⟨.SYN_SHADOW, 1, 0⟩
/-! SYN_DRIFT: 02_uhf_chains.md R64 -/
def SYN_DRIFT.DT : Fld := ⟨.SYN_DRIFT, 7, 0⟩
/-! UHF_RX_CTRL: 03_reply_reception.md R90 -/
def UHF_RX_CTRL.PRE_THR : Fld := ⟨.UHF_RX_CTRL, 31, 24⟩
def UHF_RX_CTRL.EN_THR : Fld := ⟨.UHF_RX_CTRL, 23, 16⟩
def UHF_RX_CTRL.AGC_START : Fld := ⟨.UHF_RX_CTRL, 15, 12⟩
def UHF_RX_CTRL.AGC_FIX : Fld := ⟨.UHF_RX_CTRL, 11, 8⟩
def UHF_RX_CTRL.FT_WARN : Fld := ⟨.UHF_RX_CTRL, 7, 4⟩
def UHF_RX_CTRL.AGC : Fld := ⟨.UHF_RX_CTRL, 3, 2⟩
def UHF_RX_CTRL.LOWC_MAX : Fld := ⟨.UHF_RX_CTRL, 1, 0⟩
/-! UHF_RX_QFLR: 03_reply_reception.md R90 -/
def UHF_RX_QFLR.QF3 : Fld := ⟨.UHF_RX_QFLR, 31, 24⟩
def UHF_RX_QFLR.QF2 : Fld := ⟨.UHF_RX_QFLR, 23, 16⟩
def UHF_RX_QFLR.QF1 : Fld := ⟨.UHF_RX_QFLR, 15, 8⟩
def UHF_RX_QFLR.QF0 : Fld := ⟨.UHF_RX_QFLR, 7, 0⟩
/-! UHF_RX_STATUS: 03_reply_reception.md R90 -/
def UHF_RX_STATUS.SEQ : Fld := ⟨.UHF_RX_STATUS, 31, 16⟩
def UHF_RX_STATUS.WIN : Fld := ⟨.UHF_RX_STATUS, 15, 15⟩
def UHF_RX_STATUS.DECODING : Fld := ⟨.UHF_RX_STATUS, 14, 14⟩
def UHF_RX_STATUS.LAST_CLASS : Fld := ⟨.UHF_RX_STATUS, 10, 8⟩
def UHF_RX_STATUS.VIEW : Fld := ⟨.UHF_RX_STATUS, 0, 0⟩
/-! UHF_RX_NOISE: 03_reply_reception.md R90 -/
def UHF_RX_NOISE.NOISE : Fld := ⟨.UHF_RX_NOISE, 27, 16⟩
def UHF_RX_NOISE.GAIN : Fld := ⟨.UHF_RX_NOISE, 3, 0⟩
/-! UHF_RX_VCLR: 03_reply_reception.md R90 -/
def UHF_RX_VCLR.VIO : Fld := ⟨.UHF_RX_VCLR, 1, 1⟩
def UHF_RX_VCLR.CLS : Fld := ⟨.UHF_RX_VCLR, 0, 0⟩
/-! UHF_RX_CCNT: 03_reply_reception.md R90 -/
def UHF_RX_CCNT.CNT_HI : Fld := ⟨.UHF_RX_CCNT, 31, 16⟩
def UHF_RX_CCNT.CNT_LO : Fld := ⟨.UHF_RX_CCNT, 15, 0⟩
/-! UHF_RX_VCNT0: 03_reply_reception.md R90 -/
def UHF_RX_VCNT0.M_MISM : Fld := ⟨.UHF_RX_VCNT0, 31, 16⟩
def UHF_RX_VCNT0.FT_EDGE : Fld := ⟨.UHF_RX_VCNT0, 15, 0⟩
/-! UHF_RX_VCNT1: 03_reply_reception.md R90 -/
def UHF_RX_VCNT1.DRIFT : Fld := ⟨.UHF_RX_VCNT1, 31, 16⟩
def UHF_RX_VCNT1.LEN : Fld := ⟨.UHF_RX_VCNT1, 15, 0⟩
/-! UHF_RX_VCNT2: 03_reply_reception.md R90 -/
def UHF_RX_VCNT2.TRUNC : Fld := ⟨.UHF_RX_VCNT2, 31, 16⟩
def UHF_RX_VCNT2.PILOT : Fld := ⟨.UHF_RX_VCNT2, 15, 0⟩
/-! UHF_RPY_IDX: 03_reply_reception.md R90 -/
def UHF_RPY_IDX.FREEZE : Fld := ⟨.UHF_RPY_IDX, 31, 31⟩
def UHF_RPY_IDX.IDX : Fld := ⟨.UHF_RPY_IDX, 7, 0⟩
/-! UHF_RPY_DATA: 03_reply_reception.md R90 -/
def UHF_RPY_DATA.DATA : Fld := ⟨.UHF_RPY_DATA, 31, 0⟩
/-! UHF_CAP_CTRL: 03_reply_reception.md R90 -/
def UHF_CAP_CTRL.ARM : Fld := ⟨.UHF_CAP_CTRL, 31, 31⟩
def UHF_CAP_CTRL.ABORT : Fld := ⟨.UHF_CAP_CTRL, 30, 30⟩
def UHF_CAP_CTRL.PRE : Fld := ⟨.UHF_CAP_CTRL, 26, 24⟩
def UHF_CAP_CTRL.CMATCH : Fld := ⟨.UHF_CAP_CTRL, 18, 16⟩
def UHF_CAP_CTRL.TRIG : Fld := ⟨.UHF_CAP_CTRL, 13, 12⟩
def UHF_CAP_CTRL.MODE : Fld := ⟨.UHF_CAP_CTRL, 0, 0⟩
/-! UHF_CAP_STATUS: 03_reply_reception.md R90 -/
def UHF_CAP_STATUS.OWNER : Fld := ⟨.UHF_CAP_STATUS, 31, 28⟩
def UHF_CAP_STATUS.PRE_SHORT : Fld := ⟨.UHF_CAP_STATUS, 19, 19⟩
def UHF_CAP_STATUS.STATE : Fld := ⟨.UHF_CAP_STATUS, 18, 16⟩
def UHF_CAP_STATUS.TRIG_IDX : Fld := ⟨.UHF_CAP_STATUS, 15, 0⟩
/-! UHF_CAP_TAT_LO: 03_reply_reception.md R90 -/
def UHF_CAP_TAT_LO.TAT_LO : Fld := ⟨.UHF_CAP_TAT_LO, 31, 0⟩
/-! UHF_CAP_TAT_HI: 03_reply_reception.md R90 -/
def UHF_CAP_TAT_HI.TAT_HI : Fld := ⟨.UHF_CAP_TAT_HI, 31, 0⟩
/-! VAT_CTRL: 04_isrin_core.md R125 -/
def VAT_CTRL.STOP_AT_CLR : Fld := ⟨.VAT_CTRL, 8, 8⟩
def VAT_CTRL.CNT_CLR : Fld := ⟨.VAT_CTRL, 5, 5⟩
def VAT_CTRL.STEP : Fld := ⟨.VAT_CTRL, 4, 4⟩
def VAT_CTRL.RESUME : Fld := ⟨.VAT_CTRL, 3, 3⟩
def VAT_CTRL.DBG_HALT : Fld := ⟨.VAT_CTRL, 2, 2⟩
def VAT_CTRL.STOP : Fld := ⟨.VAT_CTRL, 1, 1⟩
def VAT_CTRL.START : Fld := ⟨.VAT_CTRL, 0, 0⟩
/-! VAT_STATUS: 04_isrin_core.md R125 -/
def VAT_STATUS.WAITON : Fld := ⟨.VAT_STATUS, 27, 24⟩
def VAT_STATUS.TMO_ARMED : Fld := ⟨.VAT_STATUS, 17, 17⟩
def VAT_STATUS.SWAP_PEND : Fld := ⟨.VAT_STATUS, 16, 16⟩
def VAT_STATUS.RDEPTH : Fld := ⟨.VAT_STATUS, 11, 8⟩
def VAT_STATUS.STATE : Fld := ⟨.VAT_STATUS, 2, 0⟩
/-! VAT_PC: 04_isrin_core.md R125 -/
def VAT_PC.PC : Fld := ⟨.VAT_PC, 17, 0⟩
/-! VAT_ENTRY: 04_isrin_core.md R125 -/
def VAT_ENTRY.ENTRY : Fld := ⟨.VAT_ENTRY, 17, 0⟩
/-! VAT_OC: 04_isrin_core.md R125 -/
def VAT_OC.OC : Fld := ⟨.VAT_OC, 2, 0⟩
/-! VAT_BIND: 04_isrin_core.md R125 -/
def VAT_BIND.PORT : Fld := ⟨.VAT_BIND, 4, 0⟩
/-! VAT_WDOG: 04_isrin_core.md R125 -/
def VAT_WDOG.REMAIN : Fld := ⟨.VAT_WDOG, 31, 16⟩
def VAT_WDOG.PERIOD : Fld := ⟨.VAT_WDOG, 15, 0⟩
/-! VAT_FAULT: 04_isrin_core.md R125 -/
def VAT_FAULT.FCAUSE : Fld := ⟨.VAT_FAULT, 30, 24⟩
def VAT_FAULT.FPC : Fld := ⟨.VAT_FAULT, 17, 0⟩
/-! VAT_SWAP: 04_isrin_core.md R125 -/
def VAT_SWAP.CANCEL : Fld := ⟨.VAT_SWAP, 31, 31⟩
def VAT_SWAP.ARM : Fld := ⟨.VAT_SWAP, 30, 30⟩
def VAT_SWAP.NEW_ENTRY : Fld := ⟨.VAT_SWAP, 17, 0⟩
/-! VAT_CLRID: 04_isrin_core.md R125 -/
def VAT_CLRID.COUNT : Fld := ⟨.VAT_CLRID, 31, 14⟩
def VAT_CLRID.ID : Fld := ⟨.VAT_CLRID, 13, 0⟩
/-! VAT_LATE: 04_isrin_core.md R125 -/
def VAT_LATE.LAST : Fld := ⟨.VAT_LATE, 31, 16⟩
def VAT_LATE.COUNT : Fld := ⟨.VAT_LATE, 15, 0⟩
/-! VAT_ECC: 04_isrin_core.md R125 -/
def VAT_ECC.CORR : Fld := ⟨.VAT_ECC, 15, 0⟩
/-! VAT_TMO: 04_isrin_core.md R125 -/
def VAT_TMO.VALUE : Fld := ⟨.VAT_TMO, 31, 0⟩
/-! VAT_TRIG: 04_isrin_core.md R125 -/
def VAT_TRIG.OVR : Fld := ⟨.VAT_TRIG, 7, 4⟩
def VAT_TRIG.PEND : Fld := ⟨.VAT_TRIG, 3, 0⟩
/-! VAT_G: 04_isrin_core.md R125 -/
def VAT_G.G : Fld := ⟨.VAT_G, 31, 0⟩
/-! VAT_RSTK: 04_isrin_core.md R125 -/
def VAT_RSTK.RET : Fld := ⟨.VAT_RSTK, 17, 0⟩
/-! VAT_FAT_LO: 04_isrin_core.md R125 -/
def VAT_FAT_LO.FAT_LO : Fld := ⟨.VAT_FAT_LO, 31, 0⟩
/-! VAT_FAT_HI: 04_isrin_core.md R125 -/
def VAT_FAT_HI.FAT_HI : Fld := ⟨.VAT_FAT_HI, 31, 0⟩
/-! VAT_SUMMARY: 04_isrin_core.md R125 -/
def VAT_SUMMARY.FAULTED : Fld := ⟨.VAT_SUMMARY, 31, 16⟩
def VAT_SUMMARY.ACTIVE : Fld := ⟨.VAT_SUMMARY, 15, 0⟩
/-! VAT_GSTART: 04_isrin_core.md R125 -/
def VAT_GSTART.MASK : Fld := ⟨.VAT_GSTART, 15, 0⟩
/-! VAT_GSTOP: 04_isrin_core.md R125 -/
def VAT_GSTOP.MASK : Fld := ⟨.VAT_GSTOP, 15, 0⟩
/-! VAT_ASTAT: 05_isrin_air_ledger.md R159 -/
def VAT_ASTAT.LAST_ERR : Fld := ⟨.VAT_ASTAT, 31, 16⟩
def VAT_ASTAT.LAST_OP : Fld := ⟨.VAT_ASTAT, 15, 10⟩
def VAT_ASTAT.UNBIND : Fld := ⟨.VAT_ASTAT, 9, 9⟩
def VAT_ASTAT.ACLR : Fld := ⟨.VAT_ASTAT, 8, 8⟩
def VAT_ASTAT.WLATE : Fld := ⟨.VAT_ASTAT, 3, 3⟩
def VAT_ASTAT.HELD : Fld := ⟨.VAT_ASTAT, 2, 2⟩
/-! VAT_ACNT: 05_isrin_air_ledger.md R159 -/
def VAT_ACNT.CUTS : Fld := ⟨.VAT_ACNT, 31, 16⟩
def VAT_ACNT.REFUSED : Fld := ⟨.VAT_ACNT, 15, 0⟩
/-! VAT_GEN: 05_isrin_air_ledger.md R159 -/
def VAT_GEN.GVALID : Fld := ⟨.VAT_GEN, 3, 3⟩
def VAT_GEN.GEN : Fld := ⟨.VAT_GEN, 2, 0⟩
/-! VAT_HOPEN: 05_isrin_air_ledger.md R159 -/
def VAT_HOPEN.OPEN : Fld := ⟨.VAT_HOPEN, 8, 0⟩
/-! TXN_POOL: 07_transactions_and_cellar.md R208 -/
def TXN_POOL.BASE : Fld := ⟨.TXN_POOL, 28, 16⟩
def TXN_POOL.SIZE : Fld := ⟨.TXN_POOL, 11, 0⟩
/-! TXN_STATUS: 07_transactions_and_cellar.md R208 -/
def TXN_STATUS.LAST_ERR : Fld := ⟨.TXN_STATUS, 31, 16⟩
def TXN_STATUS.FREE_H : Fld := ⟨.TXN_STATUS, 8, 0⟩
/-! TXN_POOLST: 07_transactions_and_cellar.md R208 -/
def TXN_POOLST.FREE_BLK : Fld := ⟨.TXN_POOLST, 27, 16⟩
def TXN_POOLST.LARGEST : Fld := ⟨.TXN_POOLST, 11, 0⟩
/-! TXN_PEND: 07_transactions_and_cellar.md R208 -/
def TXN_PEND.COUNT : Fld := ⟨.TXN_PEND, 8, 0⟩
/-! TXN_HCMD: 07_transactions_and_cellar.md R208 -/
def TXN_HCMD.FREE : Fld := ⟨.TXN_HCMD, 31, 31⟩
def TXN_HCMD.ABORT : Fld := ⟨.TXN_HCMD, 30, 30⟩
def TXN_HCMD.HANDLE : Fld := ⟨.TXN_HCMD, 7, 0⟩
/-! TXN_HIDX: 07_transactions_and_cellar.md R208 -/
def TXN_HIDX.HANDLE : Fld := ⟨.TXN_HIDX, 7, 0⟩
/-! TXN_HINFO0: 07_transactions_and_cellar.md R208 -/
def TXN_HINFO0.STATE : Fld := ⟨.TXN_HINFO0, 31, 30⟩
def TXN_HINFO0.VAT : Fld := ⟨.TXN_HINFO0, 27, 24⟩
def TXN_HINFO0.QUEUE : Fld := ⟨.TXN_HINFO0, 21, 16⟩
def TXN_HINFO0.STATUS : Fld := ⟨.TXN_HINFO0, 15, 0⟩
/-! TXN_HINFO1: 07_transactions_and_cellar.md R208 -/
def TXN_HINFO1.DECL : Fld := ⟨.TXN_HINFO1, 31, 16⟩
def TXN_HINFO1.FILL : Fld := ⟨.TXN_HINFO1, 15, 0⟩
/-! TXN_HINFO2: 07_transactions_and_cellar.md R208 -/
def TXN_HINFO2.ADDR : Fld := ⟨.TXN_HINFO2, 31, 0⟩
/-! TXN_HINFO3: 07_transactions_and_cellar.md R208 -/
def TXN_HINFO3.RECORD : Fld := ⟨.TXN_HINFO3, 15, 0⟩
/-! TXN_HINFO4: 07_transactions_and_cellar.md R208 -/
def TXN_HINFO4.TAG : Fld := ⟨.TXN_HINFO4, 31, 0⟩
/-! TXN_CNT0: 07_transactions_and_cellar.md R208 -/
def TXN_CNT0.NOROOM : Fld := ⟨.TXN_CNT0, 31, 16⟩
def TXN_CNT0.TOOSMALL : Fld := ⟨.TXN_CNT0, 15, 0⟩
/-! TXN_CNT1: 07_transactions_and_cellar.md R208 -/
def TXN_CNT1.PENDED : Fld := ⟨.TXN_CNT1, 31, 16⟩
def TXN_CNT1.WITHDRAWN : Fld := ⟨.TXN_CNT1, 15, 0⟩
/-! TXN_CQ: 07_transactions_and_cellar.md R208 -/
def TXN_CQ.VMASK : Fld := ⟨.TXN_CQ, 31, 16⟩
def TXN_CQ.EN : Fld := ⟨.TXN_CQ, 15, 15⟩
def TXN_CQ.QUEUE : Fld := ⟨.TXN_CQ, 5, 0⟩
/-! LDG_CTRL: 07_transactions_and_cellar.md R209 -/
def LDG_CTRL.RUN : Fld := ⟨.LDG_CTRL, 0, 0⟩
/-! LDG_SEED: 07_transactions_and_cellar.md R209 -/
def LDG_SEED.SEED : Fld := ⟨.LDG_SEED, 31, 0⟩
/-! LDG_STATUS: 07_transactions_and_cellar.md R209 -/
def LDG_STATUS.LAST_ERR : Fld := ⟨.LDG_STATUS, 31, 16⟩
def LDG_STATUS.READY : Fld := ⟨.LDG_STATUS, 1, 1⟩
def LDG_STATUS.STOPPED : Fld := ⟨.LDG_STATUS, 0, 0⟩
/-! LDG_COUNT: 07_transactions_and_cellar.md R209 -/
def LDG_COUNT.USED : Fld := ⟨.LDG_COUNT, 16, 0⟩
/-! LDG_BANK: 07_transactions_and_cellar.md R209 -/
def LDG_BANK.STALE : Fld := ⟨.LDG_BANK, 31, 16⟩
def LDG_BANK.RET : Fld := ⟨.LDG_BANK, 15, 0⟩
/-! LDG_CMD: 07_transactions_and_cellar.md R209 -/
def LDG_CMD.OP : Fld := ⟨.LDG_CMD, 31, 28⟩
def LDG_CMD.ARG : Fld := ⟨.LDG_CMD, 15, 0⟩
/-! LDG_CMDST: 07_transactions_and_cellar.md R209 -/
def LDG_CMDST.BUSY : Fld := ⟨.LDG_CMDST, 31, 31⟩
def LDG_CMDST.OP : Fld := ⟨.LDG_CMDST, 27, 24⟩
def LDG_CMDST.RESULT : Fld := ⟨.LDG_CMDST, 15, 0⟩
/-! LDG_OVF: 07_transactions_and_cellar.md R209 -/
def LDG_OVF.BASE : Fld := ⟨.LDG_OVF, 28, 16⟩
def LDG_OVF.SLOTS : Fld := ⟨.LDG_OVF, 11, 0⟩
/-! LDG_OVFST: 07_transactions_and_cellar.md R209 -/
def LDG_OVFST.USED : Fld := ⟨.LDG_OVFST, 11, 0⟩
/-! LDG_AGE_LO: 07_transactions_and_cellar.md R209 -/
def LDG_AGE_LO.AGE_LO : Fld := ⟨.LDG_AGE_LO, 31, 0⟩
/-! LDG_AGE_HI: 07_transactions_and_cellar.md R209 -/
def LDG_AGE_HI.AGE_HI : Fld := ⟨.LDG_AGE_HI, 31, 0⟩
/-! LDG_CNT0: 07_transactions_and_cellar.md R209 -/
def LDG_CNT0.NEW : Fld := ⟨.LDG_CNT0, 31, 16⟩
def LDG_CNT0.FULL : Fld := ⟨.LDG_CNT0, 15, 0⟩
/-! LDG_CNT1: 07_transactions_and_cellar.md R209 -/
def LDG_CNT1.SEEN : Fld := ⟨.LDG_CNT1, 31, 0⟩
/-! LDG_RDATA: 07_transactions_and_cellar.md R209 -/
def LDG_RDATA.DATA : Fld := ⟨.LDG_RDATA, 31, 0⟩
/-! BRG_CTRL: 08_canopy_and_bearing.md R230 -/
def BRG_CTRL.SEP : Fld := ⟨.BRG_CTRL, 15, 8⟩
def BRG_CTRL.MINMEM : Fld := ⟨.BRG_CTRL, 2, 0⟩
/-! BRG_STATUS: 08_canopy_and_bearing.md R230 -/
def BRG_STATUS.LAST_ERR : Fld := ⟨.BRG_STATUS, 31, 16⟩
def BRG_STATUS.BUSY : Fld := ⟨.BRG_STATUS, 3, 0⟩
/-! BRG_CAN_CFG: 08_canopy_and_bearing.md R230 -/
def BRG_CAN_CFG.EN : Fld := ⟨.BRG_CAN_CFG, 31, 31⟩
def BRG_CAN_CFG.TXCOMP : Fld := ⟨.BRG_CAN_CFG, 30, 30⟩
def BRG_CAN_CFG.REF : Fld := ⟨.BRG_CAN_CFG, 26, 24⟩
def BRG_CAN_CFG.SYN : Fld := ⟨.BRG_CAN_CFG, 9, 8⟩
def BRG_CAN_CFG.MEMBERS : Fld := ⟨.BRG_CAN_CFG, 7, 0⟩
/-! BRG_CAN_RADDR: 08_canopy_and_bearing.md R230 -/
def BRG_CAN_RADDR.WR : Fld := ⟨.BRG_CAN_RADDR, 31, 31⟩
def BRG_CAN_RADDR.ADDR : Fld := ⟨.BRG_CAN_RADDR, 27, 0⟩
/-! BRG_CAN_RES0: 08_canopy_and_bearing.md R230 -/
def BRG_CAN_RES0.SEQ : Fld := ⟨.BRG_CAN_RES0, 31, 16⟩
def BRG_CAN_RES0.USED : Fld := ⟨.BRG_CAN_RES0, 15, 8⟩
def BRG_CAN_RES0.PIVOT : Fld := ⟨.BRG_CAN_RES0, 6, 4⟩
/-! BRG_CAN_RES1: 08_canopy_and_bearing.md R230 -/
def BRG_CAN_RES1.BIN : Fld := ⟨.BRG_CAN_RES1, 27, 16⟩
def BRG_CAN_RES1.RUNNER : Fld := ⟨.BRG_CAN_RES1, 11, 0⟩
/-! BRG_CAN_RES2: 08_canopy_and_bearing.md R230 -/
def BRG_CAN_RES2.STEER : Fld := ⟨.BRG_CAN_RES2, 27, 16⟩
def BRG_CAN_RES2.SCORE : Fld := ⟨.BRG_CAN_RES2, 15, 8⟩
def BRG_CAN_RES2.RSCORE : Fld := ⟨.BRG_CAN_RES2, 7, 0⟩
/-! BRG_CAN_CNT0: 08_canopy_and_bearing.md R230 -/
def BRG_CAN_CNT0.MATCHES : Fld := ⟨.BRG_CAN_CNT0, 31, 16⟩
def BRG_CAN_CNT0.NOBEAR : Fld := ⟨.BRG_CAN_CNT0, 15, 0⟩
/-! BRG_CAN_CNT1: 08_canopy_and_bearing.md R230 -/
def BRG_CAN_CNT1.ABANDONED : Fld := ⟨.BRG_CAN_CNT1, 31, 16⟩
def BRG_CAN_CNT1.MISSED : Fld := ⟨.BRG_CAN_CNT1, 15, 0⟩
/-! BRG_POIDX: 08_canopy_and_bearing.md R230 -/
def BRG_POIDX.IDX : Fld := ⟨.BRG_POIDX, 10, 0⟩
/-! BRG_PODATA: 08_canopy_and_bearing.md R230 -/
def BRG_PODATA.VALID : Fld := ⟨.BRG_PODATA, 31, 31⟩
def BRG_PODATA.TX_OFF : Fld := ⟨.BRG_PODATA, 25, 16⟩
def BRG_PODATA.RX_OFF : Fld := ⟨.BRG_PODATA, 9, 0⟩
/-! BRG_PCAL: 08_canopy_and_bearing.md R230 -/
def BRG_PCAL.ARM : Fld := ⟨.BRG_PCAL, 31, 31⟩
def BRG_PCAL.ABORT : Fld := ⟨.BRG_PCAL, 30, 30⟩
def BRG_PCAL.MODE : Fld := ⟨.BRG_PCAL, 29, 28⟩
def BRG_PCAL.GROUP : Fld := ⟨.BRG_PCAL, 27, 26⟩
def BRG_PCAL.TXMEM : Fld := ⟨.BRG_PCAL, 25, 23⟩
def BRG_PCAL.WRITE : Fld := ⟨.BRG_PCAL, 22, 22⟩
def BRG_PCAL.N : Fld := ⟨.BRG_PCAL, 19, 12⟩
def BRG_PCAL.RBIN : Fld := ⟨.BRG_PCAL, 11, 0⟩
/-! BRG_PCAL_ST: 08_canopy_and_bearing.md R230 -/
def BRG_PCAL_ST.STATE : Fld := ⟨.BRG_PCAL_ST, 26, 24⟩
def BRG_PCAL_ST.COUNT : Fld := ⟨.BRG_PCAL_ST, 23, 16⟩
def BRG_PCAL_ST.RESULT : Fld := ⟨.BRG_PCAL_ST, 15, 0⟩
/-! BRG_PCAL_R: 08_canopy_and_bearing.md R230 -/
def BRG_PCAL_R.VALID : Fld := ⟨.BRG_PCAL_R, 31, 31⟩
def BRG_PCAL_R.MEAN : Fld := ⟨.BRG_PCAL_R, 25, 16⟩
def BRG_PCAL_R.SPREAD : Fld := ⟨.BRG_PCAL_R, 7, 0⟩
/-! CAL_CTRL: 09_calibration_and_spare.md R253 -/
def CAL_CTRL.DT : Fld := ⟨.CAL_CTRL, 31, 24⟩
def CAL_CTRL.VRL : Fld := ⟨.CAL_CTRL, 7, 4⟩
def CAL_CTRL.AUTO : Fld := ⟨.CAL_CTRL, 3, 3⟩
def CAL_CTRL.VIA_SPARE : Fld := ⟨.CAL_CTRL, 2, 2⟩
/-! CAL_CMD: 09_calibration_and_spare.md R253 -/
def CAL_CMD.GO : Fld := ⟨.CAL_CMD, 31, 31⟩
def CAL_CMD.ABORT : Fld := ⟨.CAL_CMD, 30, 30⟩
def CAL_CMD.UNIT : Fld := ⟨.CAL_CMD, 23, 20⟩
def CAL_CMD.OP : Fld := ⟨.CAL_CMD, 15, 12⟩
def CAL_CMD.PORT : Fld := ⟨.CAL_CMD, 11, 8⟩
def CAL_CMD.CHSLOT : Fld := ⟨.CAL_CMD, 2, 0⟩
/-! CAL_STATUS: 09_calibration_and_spare.md R253 -/
def CAL_STATUS.BUSY : Fld := ⟨.CAL_STATUS, 31, 31⟩
def CAL_STATUS.RETRIED : Fld := ⟨.CAL_STATUS, 30, 30⟩
def CAL_STATUS.OP : Fld := ⟨.CAL_STATUS, 27, 24⟩
def CAL_STATUS.UNIT : Fld := ⟨.CAL_STATUS, 23, 20⟩
def CAL_STATUS.RESULT : Fld := ⟨.CAL_STATUS, 15, 0⟩
/-! CAL_QUAL: 09_calibration_and_spare.md R253 -/
def CAL_QUAL.QUAL : Fld := ⟨.CAL_QUAL, 31, 24⟩
def CAL_QUAL.VR1 : Fld := ⟨.CAL_QUAL, 23, 16⟩
def CAL_QUAL.VR2 : Fld := ⟨.CAL_QUAL, 15, 8⟩
/-! CAL_TIDX: 09_calibration_and_spare.md R253 -/
def CAL_TIDX.UNIT : Fld := ⟨.CAL_TIDX, 23, 20⟩
def CAL_TIDX.KIND : Fld := ⟨.CAL_TIDX, 15, 8⟩
def CAL_TIDX.SUB : Fld := ⟨.CAL_TIDX, 7, 0⟩
/-! CAL_TDATA: 09_calibration_and_spare.md R253 -/
def CAL_TDATA.VALID : Fld := ⟨.CAL_TDATA, 31, 31⟩
def CAL_TDATA.QUAL : Fld := ⟨.CAL_TDATA, 23, 16⟩
def CAL_TDATA.VALUE : Fld := ⟨.CAL_TDATA, 11, 0⟩
/-! CAL_ERR: 09_calibration_and_spare.md R253 -/
def CAL_ERR.LAST_ERR : Fld := ⟨.CAL_ERR, 15, 0⟩
/-! UHFS_SPST: 09_calibration_and_spare.md R254 -/
def UHFS_SPST.GAP : Fld := ⟨.UHFS_SPST, 31, 16⟩
def UHFS_SPST.MISSED : Fld := ⟨.UHFS_SPST, 15, 12⟩
def UHFS_SPST.LASTCH : Fld := ⟨.UHFS_SPST, 11, 8⟩
def UHFS_SPST.RDY : Fld := ⟨.UHFS_SPST, 7, 7⟩
def UHFS_SPST.DCSTALE : Fld := ⟨.UHFS_SPST, 6, 6⟩
def UHFS_SPST.PHASE : Fld := ⟨.UHFS_SPST, 5, 3⟩
/-! UHFS_CBANK: 09_calibration_and_spare.md R254 -/
def UHFS_CBANK.BANK : Fld := ⟨.UHFS_CBANK, 2, 0⟩
/-! RGU_ACTIVE: 10_regulatory_and_dense_reading.md R270 -/
def RGU_ACTIVE.VALID : Fld := ⟨.RGU_ACTIVE, 31, 31⟩
def RGU_ACTIVE.PROF : Fld := ⟨.RGU_ACTIVE, 19, 16⟩
def RGU_ACTIVE.PERMIT : Fld := ⟨.RGU_ACTIVE, 15, 0⟩
/-! RGU_STATUS: 10_regulatory_and_dense_reading.md R270 -/
def RGU_STATUS.LAST_ERR : Fld := ⟨.RGU_STATUS, 31, 16⟩
def RGU_STATUS.LAST_REASON : Fld := ⟨.RGU_STATUS, 15, 12⟩
def RGU_STATUS.LAST_FE : Fld := ⟨.RGU_STATUS, 11, 8⟩
def RGU_STATUS.DESYNC : Fld := ⟨.RGU_STATUS, 7, 7⟩
def RGU_STATUS.LOCKED : Fld := ⟨.RGU_STATUS, 6, 6⟩
/-! RGU_SLOT: 10_regulatory_and_dense_reading.md R270 -/
def RGU_SLOT.FE : Fld := ⟨.RGU_SLOT, 7, 0⟩
/-! RGU_CNT: 10_regulatory_and_dense_reading.md R270 -/
def RGU_CNT.REFUSED : Fld := ⟨.RGU_CNT, 31, 16⟩
def RGU_CNT.ENDED : Fld := ⟨.RGU_CNT, 15, 0⟩
/-! RGU_PRM: 10_regulatory_and_dense_reading.md R270 -/
def RGU_PRM.WORD : Fld := ⟨.RGU_PRM, 31, 0⟩
/-! RGU_CHIDX: 10_regulatory_and_dense_reading.md R270 -/
def RGU_CHIDX.IDX : Fld := ⟨.RGU_CHIDX, 5, 0⟩
/-! RGU_CHDATA: 10_regulatory_and_dense_reading.md R270 -/
def RGU_CHDATA.LIMIT : Fld := ⟨.RGU_CHDATA, 29, 20⟩
def RGU_CHDATA.FREQ_KHZ : Fld := ⟨.RGU_CHDATA, 19, 0⟩
/-! RGU_ANTIDX: 10_regulatory_and_dense_reading.md R270 -/
def RGU_ANTIDX.IDX : Fld := ⟨.RGU_ANTIDX, 6, 0⟩
/-! RGU_ANTDATA: 10_regulatory_and_dense_reading.md R270 -/
def RGU_ANTDATA.DECL : Fld := ⟨.RGU_ANTDATA, 31, 31⟩
def RGU_ANTDATA.GAIN : Fld := ⟨.RGU_ANTDATA, 23, 12⟩
def RGU_ANTDATA.LOSS : Fld := ⟨.RGU_ANTDATA, 11, 0⟩
/-! RGU_FE: 10_regulatory_and_dense_reading.md R270 -/
def RGU_FE.ON : Fld := ⟨.RGU_FE, 31, 31⟩
def RGU_FE.CH : Fld := ⟨.RGU_FE, 29, 24⟩
def RGU_FE.ON_MS : Fld := ⟨.RGU_FE, 15, 0⟩
/-! RGU_OCIDX: 10_regulatory_and_dense_reading.md R270 -/
def RGU_OCIDX.FE : Fld := ⟨.RGU_OCIDX, 8, 6⟩
def RGU_OCIDX.CH : Fld := ⟨.RGU_OCIDX, 5, 0⟩
/-! RGU_OCDATA: 10_regulatory_and_dense_reading.md R270 -/
def RGU_OCDATA.OCC : Fld := ⟨.RGU_OCDATA, 31, 0⟩
/-! RGU_OCHOLD: 10_regulatory_and_dense_reading.md R270 -/
def RGU_OCHOLD.HOLD : Fld := ⟨.RGU_OCHOLD, 31, 31⟩
def RGU_OCHOLD.REMAIN : Fld := ⟨.RGU_OCHOLD, 15, 0⟩
/-! HFR_CTRL: 11_hf_and_card_watch.md R288 -/
def HFR_CTRL.TARGET : Fld := ⟨.HFR_CTRL, 18, 16⟩
/-! HFR_STATUS: 11_hf_and_card_watch.md R288 -/
def HFR_STATUS.LAST_ERR : Fld := ⟨.HFR_STATUS, 31, 16⟩
def HFR_STATUS.TRIPPED : Fld := ⟨.HFR_STATUS, 7, 7⟩
def HFR_STATUS.PLL_LOCK : Fld := ⟨.HFR_STATUS, 6, 6⟩
def HFR_STATUS.CW_PULSE : Fld := ⟨.HFR_STATUS, 5, 5⟩
def HFR_STATUS.STATE : Fld := ⟨.HFR_STATUS, 2, 0⟩
/-! HFR_DRV: 11_hf_and_card_watch.md R288 -/
def HFR_DRV.ILIM : Fld := ⟨.HFR_DRV, 24, 16⟩
def HFR_DRV.ITGT : Fld := ⟨.HFR_DRV, 8, 0⟩
/-! HFR_MEAS: 11_hf_and_card_watch.md R288 -/
def HFR_MEAS.IMEAS : Fld := ⟨.HFR_MEAS, 24, 16⟩
def HFR_MEAS.PHASE : Fld := ⟨.HFR_MEAS, 7, 0⟩
/-! HFR_TRIP: 11_hf_and_card_watch.md R288 -/
def HFR_TRIP.FORCE : Fld := ⟨.HFR_TRIP, 31, 31⟩
def HFR_TRIP.CAUSE : Fld := ⟨.HFR_TRIP, 5, 0⟩
/-! HFR_RX: 11_hf_and_card_watch.md R288 -/
def HFR_RX.EN_THR : Fld := ⟨.HFR_RX, 31, 24⟩
def HFR_RX.AGC_FIX : Fld := ⟨.HFR_RX, 15, 12⟩
def HFR_RX.AGC : Fld := ⟨.HFR_RX, 7, 6⟩
/-! HFR_QFLR: 11_hf_and_card_watch.md R288 -/
def HFR_QFLR.QF3 : Fld := ⟨.HFR_QFLR, 31, 24⟩
def HFR_QFLR.QF2 : Fld := ⟨.HFR_QFLR, 23, 16⟩
def HFR_QFLR.QF1 : Fld := ⟨.HFR_QFLR, 15, 8⟩
def HFR_QFLR.QF0 : Fld := ⟨.HFR_QFLR, 7, 0⟩
/-! HFR_MODE: 11_hf_and_card_watch.md R288 -/
def HFR_MODE.STD : Fld := ⟨.HFR_MODE, 31, 28⟩
def HFR_MODE.RATE : Fld := ⟨.HFR_MODE, 26, 24⟩
def HFR_MODE.VALID : Fld := ⟨.HFR_MODE, 23, 23⟩
def HFR_MODE.RXLOW : Fld := ⟨.HFR_MODE, 22, 22⟩
def HFR_MODE.DUALSC : Fld := ⟨.HFR_MODE, 21, 21⟩
def HFR_MODE.C256 : Fld := ⟨.HFR_MODE, 20, 20⟩
def HFR_MODE.PARITY : Fld := ⟨.HFR_MODE, 19, 19⟩
def HFR_MODE.DEPTH : Fld := ⟨.HFR_MODE, 14, 8⟩
/-! HFR_VCNT: 11_hf_and_card_watch.md R288 -/
def HFR_VCNT.COLL : Fld := ⟨.HFR_VCNT, 31, 16⟩
def HFR_VCNT.PARITY : Fld := ⟨.HFR_VCNT, 15, 0⟩
/-! HFR_RPY_IDX: 11_hf_and_card_watch.md R288 -/
def HFR_RPY_IDX.FREEZE : Fld := ⟨.HFR_RPY_IDX, 31, 31⟩
def HFR_RPY_IDX.IDX : Fld := ⟨.HFR_RPY_IDX, 7, 0⟩
/-! HFR_RPY_DATA: 11_hf_and_card_watch.md R288 -/
def HFR_RPY_DATA.DATA : Fld := ⟨.HFR_RPY_DATA, 31, 0⟩
/-! HFR_CW_CTRL: 11_hf_and_card_watch.md R288 -/
def HFR_CW_CTRL.EN : Fld := ⟨.HFR_CW_CTRL, 31, 31⟩
def HFR_CW_CTRL.TRACK : Fld := ⟨.HFR_CW_CTRL, 30, 30⟩
def HFR_CW_CTRL.DEBOUNCE : Fld := ⟨.HFR_CW_CTRL, 29, 28⟩
def HFR_CW_CTRL.INTERVAL : Fld := ⟨.HFR_CW_CTRL, 26, 16⟩
def HFR_CW_CTRL.CW_I : Fld := ⟨.HFR_CW_CTRL, 8, 0⟩
/-! HFR_CW_THR: 11_hf_and_card_watch.md R288 -/
def HFR_CW_THR.A_THR : Fld := ⟨.HFR_CW_THR, 31, 24⟩
def HFR_CW_THR.P_THR : Fld := ⟨.HFR_CW_THR, 23, 16⟩
def HFR_CW_THR.REARM : Fld := ⟨.HFR_CW_THR, 7, 0⟩
/-! HFR_CW_BASE: 11_hf_and_card_watch.md R288 -/
def HFR_CW_BASE.AMP : Fld := ⟨.HFR_CW_BASE, 27, 16⟩
def HFR_CW_BASE.PH : Fld := ⟨.HFR_CW_BASE, 7, 0⟩
/-! HFR_CW_LAST: 11_hf_and_card_watch.md R288 -/
def HFR_CW_LAST.DET : Fld := ⟨.HFR_CW_LAST, 31, 31⟩
def HFR_CW_LAST.AMP : Fld := ⟨.HFR_CW_LAST, 27, 16⟩
def HFR_CW_LAST.PH : Fld := ⟨.HFR_CW_LAST, 7, 0⟩
/-! HFR_CW_CNT: 11_hf_and_card_watch.md R288 -/
def HFR_CW_CNT.PULSES : Fld := ⟨.HFR_CW_CNT, 31, 16⟩
def HFR_CW_CNT.DETECT : Fld := ⟨.HFR_CW_CNT, 15, 8⟩
def HFR_CW_CNT.SKIPPED : Fld := ⟨.HFR_CW_CNT, 7, 0⟩
/-! ACT_CTRL: 12_active_link_and_wake.md R304 -/
def ACT_CTRL.TARGET : Fld := ⟨.ACT_CTRL, 18, 16⟩
/-! ACT_STATUS: 12_active_link_and_wake.md R304 -/
def ACT_STATUS.LAST_ERR : Fld := ⟨.ACT_STATUS, 31, 16⟩
def ACT_STATUS.TRIPPED : Fld := ⟨.ACT_STATUS, 7, 7⟩
def ACT_STATUS.LOCK : Fld := ⟨.ACT_STATUS, 6, 6⟩
def ACT_STATUS.STATE : Fld := ⟨.ACT_STATUS, 2, 0⟩
/-! ACT_TXCFG: 12_active_link_and_wake.md R304 -/
def ACT_TXCFG.LEVEL : Fld := ⟨.ACT_TXCFG, 4, 0⟩
/-! ACT_LIMIT: 12_active_link_and_wake.md R304 -/
def ACT_LIMIT.MAXP : Fld := ⟨.ACT_LIMIT, 20, 16⟩
def ACT_LIMIT.DUTY : Fld := ⟨.ACT_LIMIT, 9, 0⟩
/-! ACT_DUTY: 12_active_link_and_wake.md R304 -/
def ACT_DUTY.USED : Fld := ⟨.ACT_DUTY, 31, 0⟩
/-! ACT_TRIP: 12_active_link_and_wake.md R304 -/
def ACT_TRIP.FORCE : Fld := ⟨.ACT_TRIP, 31, 31⟩
def ACT_TRIP.CAUSE : Fld := ⟨.ACT_TRIP, 3, 0⟩
/-! ACT_RX: 12_active_link_and_wake.md R304 -/
def ACT_RX.EN_THR : Fld := ⟨.ACT_RX, 31, 24⟩
def ACT_RX.QF : Fld := ⟨.ACT_RX, 23, 16⟩
/-! ACT_RPY_IDX: 12_active_link_and_wake.md R304 -/
def ACT_RPY_IDX.FREEZE : Fld := ⟨.ACT_RPY_IDX, 31, 31⟩
def ACT_RPY_IDX.IDX : Fld := ⟨.ACT_RPY_IDX, 7, 0⟩
/-! ACT_RPY_DATA: 12_active_link_and_wake.md R304 -/
def ACT_RPY_DATA.DATA : Fld := ⟨.ACT_RPY_DATA, 31, 0⟩
/-! WKR_CTRL: 12_active_link_and_wake.md R305 -/
def WKR_CTRL.EN24 : Fld := ⟨.WKR_CTRL, 1, 1⟩
def WKR_CTRL.EN433 : Fld := ⟨.WKR_CTRL, 0, 0⟩
/-! WKR_CODE: 12_active_link_and_wake.md R305 -/
def WKR_CODE.CODE : Fld := ⟨.WKR_CODE, 31, 0⟩
/-! WKR_433CFG: 12_active_link_and_wake.md R305 -/
def WKR_433CFG.HOLDOFF : Fld := ⟨.WKR_433CFG, 15, 8⟩
def WKR_433CFG.ERRS : Fld := ⟨.WKR_433CFG, 1, 0⟩
/-! WKR_24PW: 12_active_link_and_wake.md R305 -/
def WKR_24PW.PW_MAX : Fld := ⟨.WKR_24PW, 27, 16⟩
def WKR_24PW.PW_MIN : Fld := ⟨.WKR_24PW, 11, 0⟩
/-! WKR_24SEQ: 12_active_link_and_wake.md R305 -/
def WKR_24SEQ.PCOUNT : Fld := ⟨.WKR_24SEQ, 19, 16⟩
def WKR_24SEQ.GAP_MAX : Fld := ⟨.WKR_24SEQ, 11, 0⟩
/-! WKR_STATUS: 12_active_link_and_wake.md R305 -/
def WKR_STATUS.CODE_BAD : Fld := ⟨.WKR_STATUS, 2, 2⟩
def WKR_STATUS.M24 : Fld := ⟨.WKR_STATUS, 1, 1⟩
def WKR_STATUS.M433 : Fld := ⟨.WKR_STATUS, 0, 0⟩
/-! WKR_CNT: 12_active_link_and_wake.md R305 -/
def WKR_CNT.C433 : Fld := ⟨.WKR_CNT, 31, 16⟩
def WKR_CNT.C24 : Fld := ⟨.WKR_CNT, 15, 0⟩
/-! MSH_CTRL: 13_oluon_mesh.md R331 -/
def MSH_CTRL.RUN : Fld := ⟨.MSH_CTRL, 31, 31⟩
def MSH_CTRL.ROOT : Fld := ⟨.MSH_CTRL, 30, 30⟩
def MSH_CTRL.ALIGN_PPS : Fld := ⟨.MSH_CTRL, 29, 29⟩
def MSH_CTRL.RESCAN : Fld := ⟨.MSH_CTRL, 28, 28⟩
def MSH_CTRL.CNT_CLR : Fld := ⟨.MSH_CTRL, 27, 27⟩
/-! MSH_STATUS: 13_oluon_mesh.md R331 -/
def MSH_STATUS.LAST_ERR : Fld := ⟨.MSH_STATUS, 31, 16⟩
def MSH_STATUS.RANK : Fld := ⟨.MSH_STATUS, 11, 8⟩
def MSH_STATUS.STATE : Fld := ⟨.MSH_STATUS, 2, 0⟩
/-! MSH_NET: 13_oluon_mesh.md R331 -/
def MSH_NET.PAN_ID : Fld := ⟨.MSH_NET, 31, 16⟩
def MSH_NET.SHORT : Fld := ⟨.MSH_NET, 15, 0⟩
/-! MSH_PHY: 13_oluon_mesh.md R331 -/
def MSH_PHY.FAST_MARGIN : Fld := ⟨.MSH_PHY, 31, 28⟩
def MSH_PHY.SF_AUTO : Fld := ⟨.MSH_PHY, 24, 24⟩
def MSH_PHY.FLOOR : Fld := ⟨.MSH_PHY, 23, 16⟩
def MSH_PHY.CAPM : Fld := ⟨.MSH_PHY, 15, 12⟩
def MSH_PHY.EB_SF : Fld := ⟨.MSH_PHY, 11, 10⟩
def MSH_PHY.GID : Fld := ⟨.MSH_PHY, 7, 5⟩
def MSH_PHY.TXP : Fld := ⟨.MSH_PHY, 4, 0⟩
/-! MSH_SYNC: 13_oluon_mesh.md R331 -/
def MSH_SYNC.GUARD_MAX : Fld := ⟨.MSH_SYNC, 31, 16⟩
def MSH_SYNC.GUARD_BASE : Fld := ⟨.MSH_SYNC, 15, 0⟩
/-! MSH_SCAN: 13_oluon_mesh.md R331 -/
def MSH_SCAN.SCAN_DWELL : Fld := ⟨.MSH_SCAN, 31, 16⟩
def MSH_SCAN.HOPLEN : Fld := ⟨.MSH_SCAN, 3, 0⟩
/-! MSH_ASN_LO: 13_oluon_mesh.md R331 -/
def MSH_ASN_LO.ASN_LO : Fld := ⟨.MSH_ASN_LO, 31, 0⟩
/-! MSH_ASN_HI: 13_oluon_mesh.md R331 -/
def MSH_ASN_HI.ASN_HI : Fld := ⟨.MSH_ASN_HI, 7, 0⟩
/-! MSH_DRIFT: 13_oluon_mesh.md R331 -/
def MSH_DRIFT.OFFSET : Fld := ⟨.MSH_DRIFT, 31, 16⟩
def MSH_DRIFT.D : Fld := ⟨.MSH_DRIFT, 15, 0⟩
/-! MSH_TSRC: 13_oluon_mesh.md R331 -/
def MSH_TSRC.CUR_V : Fld := ⟨.MSH_TSRC, 31, 31⟩
def MSH_TSRC.N1_V : Fld := ⟨.MSH_TSRC, 30, 30⟩
def MSH_TSRC.N2_V : Fld := ⟨.MSH_TSRC, 29, 29⟩
def MSH_TSRC.MISS : Fld := ⟨.MSH_TSRC, 25, 24⟩
def MSH_TSRC.N2 : Fld := ⟨.MSH_TSRC, 21, 16⟩
def MSH_TSRC.N1 : Fld := ⟨.MSH_TSRC, 13, 8⟩
def MSH_TSRC.CUR : Fld := ⟨.MSH_TSRC, 5, 0⟩
/-! MSH_Q: 13_oluon_mesh.md R331 -/
def MSH_Q.RXQ : Fld := ⟨.MSH_Q, 13, 8⟩
def MSH_Q.TXQ : Fld := ⟨.MSH_Q, 5, 0⟩
/-! MSH_WAKE: 13_oluon_mesh.md R331 -/
def MSH_WAKE.GO : Fld := ⟨.MSH_WAKE, 31, 31⟩
def MSH_WAKE.BUSY : Fld := ⟨.MSH_WAKE, 30, 30⟩
def MSH_WAKE.COUNT : Fld := ⟨.MSH_WAKE, 27, 24⟩
def MSH_WAKE.CH : Fld := ⟨.MSH_WAKE, 23, 20⟩
def MSH_WAKE.GAP : Fld := ⟨.MSH_WAKE, 19, 10⟩
def MSH_WAKE.PW : Fld := ⟨.MSH_WAKE, 9, 0⟩
/-! MSH_FCOUT: 13_oluon_mesh.md R331 -/
def MSH_FCOUT.FC : Fld := ⟨.MSH_FCOUT, 31, 0⟩
/-! MSH_KEYST: 13_oluon_mesh.md R331 -/
def MSH_KEYST.LOADED : Fld := ⟨.MSH_KEYST, 7, 4⟩
def MSH_KEYST.ACTIVE : Fld := ⟨.MSH_KEYST, 1, 0⟩
/-! MSH_EXT_LO: 13_oluon_mesh.md R331 -/
def MSH_EXT_LO.EXT_LO : Fld := ⟨.MSH_EXT_LO, 31, 0⟩
/-! MSH_EXT_HI: 13_oluon_mesh.md R331 -/
def MSH_EXT_HI.EXT_HI : Fld := ⟨.MSH_EXT_HI, 31, 0⟩
/-! MSH_HOP: 13_oluon_mesh.md R331 -/
def MSH_HOP.CH3 : Fld := ⟨.MSH_HOP, 31, 24⟩
def MSH_HOP.CH2 : Fld := ⟨.MSH_HOP, 23, 16⟩
def MSH_HOP.CH1 : Fld := ⟨.MSH_HOP, 15, 8⟩
def MSH_HOP.CH0 : Fld := ⟨.MSH_HOP, 7, 0⟩
/-! MSH_SF: 13_oluon_mesh.md R331 -/
def MSH_SF.EN : Fld := ⟨.MSH_SF, 31, 31⟩
def MSH_SF.LEN : Fld := ⟨.MSH_SF, 9, 0⟩
/-! MSH_LIDX: 13_oluon_mesh.md R331 -/
def MSH_LIDX.IDX : Fld := ⟨.MSH_LIDX, 6, 0⟩
/-! MSH_LDATA: 13_oluon_mesh.md R331 -/
def MSH_LDATA.VALID : Fld := ⟨.MSH_LDATA, 31, 31⟩
def MSH_LDATA.SFR : Fld := ⟨.MSH_LDATA, 30, 29⟩
def MSH_LDATA.TX : Fld := ⟨.MSH_LDATA, 28, 28⟩
def MSH_LDATA.RX : Fld := ⟨.MSH_LDATA, 27, 27⟩
def MSH_LDATA.SHARED : Fld := ⟨.MSH_LDATA, 26, 26⟩
def MSH_LDATA.TK : Fld := ⟨.MSH_LDATA, 25, 25⟩
def MSH_LDATA.ADV : Fld := ⟨.MSH_LDATA, 24, 24⟩
def MSH_LDATA.NBR : Fld := ⟨.MSH_LDATA, 22, 16⟩
def MSH_LDATA.SLOT : Fld := ⟨.MSH_LDATA, 15, 6⟩
def MSH_LDATA.CHOFS : Fld := ⟨.MSH_LDATA, 3, 0⟩
/-! MSH_NIDX: 13_oluon_mesh.md R331 -/
def MSH_NIDX.IDX : Fld := ⟨.MSH_NIDX, 5, 0⟩
/-! MSH_NDATA_W0: 13_oluon_mesh.md R331 -/
def MSH_NDATA_W0.EXT_LO : Fld := ⟨.MSH_NDATA_W0, 31, 0⟩
/-! MSH_NDATA_W1: 13_oluon_mesh.md R331 -/
def MSH_NDATA_W1.EXT_HI : Fld := ⟨.MSH_NDATA_W1, 31, 0⟩
/-! MSH_NDATA_W2: 13_oluon_mesh.md R331 -/
def MSH_NDATA_W2.VALID : Fld := ⟨.MSH_NDATA_W2, 31, 31⟩
def MSH_NDATA_W2.CAND : Fld := ⟨.MSH_NDATA_W2, 30, 30⟩
def MSH_NDATA_W2.LINKED : Fld := ⟨.MSH_NDATA_W2, 29, 29⟩
def MSH_NDATA_W2.SF : Fld := ⟨.MSH_NDATA_W2, 28, 27⟩
def MSH_NDATA_W2.RANK : Fld := ⟨.MSH_NDATA_W2, 23, 20⟩
def MSH_NDATA_W2.SHORT : Fld := ⟨.MSH_NDATA_W2, 15, 0⟩
/-! MSH_NDATA_W3: 13_oluon_mesh.md R331 -/
def MSH_NDATA_W3.RSSI : Fld := ⟨.MSH_NDATA_W3, 31, 20⟩
def MSH_NDATA_W3.DSN : Fld := ⟨.MSH_NDATA_W3, 7, 0⟩
/-! MSH_NDATA_W4: 13_oluon_mesh.md R331 -/
def MSH_NDATA_W4.FC : Fld := ⟨.MSH_NDATA_W4, 31, 0⟩
/-! MSH_NDATA_W5: 13_oluon_mesh.md R331 -/
def MSH_NDATA_W5.DUP : Fld := ⟨.MSH_NDATA_W5, 31, 16⟩
def MSH_NDATA_W5.REPLAY : Fld := ⟨.MSH_NDATA_W5, 15, 0⟩
/-! MSH_SIDX: 13_oluon_mesh.md R331 -/
def MSH_SIDX.IDX : Fld := ⟨.MSH_SIDX, 4, 0⟩
/-! MSH_SDATA_W0: 13_oluon_mesh.md R331 -/
def MSH_SDATA_W0.ADDR_LO : Fld := ⟨.MSH_SDATA_W0, 31, 0⟩
/-! MSH_SDATA_W1: 13_oluon_mesh.md R331 -/
def MSH_SDATA_W1.ADDR_HI : Fld := ⟨.MSH_SDATA_W1, 31, 0⟩
/-! MSH_SDATA_W2: 13_oluon_mesh.md R331 -/
def MSH_SDATA_W2.VALID : Fld := ⟨.MSH_SDATA_W2, 31, 31⟩
def MSH_SDATA_W2.KIND : Fld := ⟨.MSH_SDATA_W2, 30, 28⟩
def MSH_SDATA_W2.CH : Fld := ⟨.MSH_SDATA_W2, 27, 24⟩
def MSH_SDATA_W2.RSSI : Fld := ⟨.MSH_SDATA_W2, 23, 12⟩
/-! MSH_SDATA_W3: 13_oluon_mesh.md R331 -/
def MSH_SDATA_W3.PAN_ID : Fld := ⟨.MSH_SDATA_W3, 31, 16⟩
def MSH_SDATA_W3.COUNT : Fld := ⟨.MSH_SDATA_W3, 15, 0⟩
/-! MSH_CNT: 13_oluon_mesh.md R331 -/
def MSH_CNT.CNT_HI : Fld := ⟨.MSH_CNT, 31, 16⟩
def MSH_CNT.CNT_LO : Fld := ⟨.MSH_CNT, 15, 0⟩
/-! SPE_CTRL: 14_wired_pair_ports.md R340 -/
def SPE_CTRL.EN : Fld := ⟨.SPE_CTRL, 31, 31⟩
def SPE_CTRL.OLUON : Fld := ⟨.SPE_CTRL, 30, 30⟩
def SPE_CTRL.AMP : Fld := ⟨.SPE_CTRL, 29, 28⟩
def SPE_CTRL.ADV24 : Fld := ⟨.SPE_CTRL, 27, 27⟩
def SPE_CTRL.PROMISC : Fld := ⟨.SPE_CTRL, 26, 26⟩
def SPE_CTRL.CNT_CLR : Fld := ⟨.SPE_CTRL, 25, 25⟩
def SPE_CTRL.RETRAIN : Fld := ⟨.SPE_CTRL, 24, 24⟩
def SPE_CTRL.UP_SNR : Fld := ⟨.SPE_CTRL, 23, 16⟩
def SPE_CTRL.DOWN_SNR : Fld := ⟨.SPE_CTRL, 15, 8⟩
/-! SPE_STATUS: 14_wired_pair_ports.md R340 -/
def SPE_STATUS.LAST_ERR : Fld := ⟨.SPE_STATUS, 31, 16⟩
def SPE_STATUS.LINK : Fld := ⟨.SPE_STATUS, 15, 15⟩
def SPE_STATUS.AMP24 : Fld := ⟨.SPE_STATUS, 14, 14⟩
def SPE_STATUS.STATE : Fld := ⟨.SPE_STATUS, 2, 0⟩
/-! SPE_QUAL: 14_wired_pair_ports.md R340 -/
def SPE_QUAL.SNR : Fld := ⟨.SPE_QUAL, 31, 24⟩
def SPE_QUAL.EYE : Fld := ⟨.SPE_QUAL, 23, 16⟩
def SPE_QUAL.ECHO : Fld := ⟨.SPE_QUAL, 15, 8⟩
def SPE_QUAL.QUAL : Fld := ⟨.SPE_QUAL, 2, 0⟩
/-! SPE_MAC_LO: 14_wired_pair_ports.md R340 -/
def SPE_MAC_LO.ADDR_LO : Fld := ⟨.SPE_MAC_LO, 31, 0⟩
/-! SPE_MAC_HI: 14_wired_pair_ports.md R340 -/
def SPE_MAC_HI.ADDR_HI : Fld := ⟨.SPE_MAC_HI, 15, 0⟩
/-! SPE_Q: 14_wired_pair_ports.md R340 -/
def SPE_Q.RXQ : Fld := ⟨.SPE_Q, 13, 8⟩
def SPE_Q.TXQ : Fld := ⟨.SPE_Q, 5, 0⟩
/-! SPE_CNT: 14_wired_pair_ports.md R340 -/
def SPE_CNT.CNT_HI : Fld := ⟨.SPE_CNT, 31, 16⟩
def SPE_CNT.CNT_LO : Fld := ⟨.SPE_CNT, 15, 0⟩
/-! RING_CTRL: 15_time.md R357 -/
def RING_CTRL.EN : Fld := ⟨.RING_CTRL, 31, 31⟩
def RING_CTRL.SRC : Fld := ⟨.RING_CTRL, 27, 24⟩
def RING_CTRL.LNK : Fld := ⟨.RING_CTRL, 23, 20⟩
def RING_CTRL.LINK : Fld := ⟨.RING_CTRL, 19, 19⟩
def RING_CTRL.FREEZE : Fld := ⟨.RING_CTRL, 18, 18⟩
def RING_CTRL.FRZ_SRC : Fld := ⟨.RING_CTRL, 12, 8⟩
/-! RING_PRE: 15_time.md R357 -/
def RING_PRE.N : Fld := ⟨.RING_PRE, 31, 16⟩
def RING_PRE.F : Fld := ⟨.RING_PRE, 15, 0⟩
/-! RING_CNT_W0: 15_time.md R357 -/
def RING_CNT_W0.CNT_LO : Fld := ⟨.RING_CNT_W0, 31, 0⟩
/-! RING_CNT_W1: 15_time.md R357 -/
def RING_CNT_W1.CNT_HI : Fld := ⟨.RING_CNT_W1, 31, 0⟩
/-! RING_CMP_W0: 15_time.md R357 -/
def RING_CMP_W0.CMP_LO : Fld := ⟨.RING_CMP_W0, 31, 0⟩
/-! RING_CMP_W1: 15_time.md R357 -/
def RING_CMP_W1.CMP_HI : Fld := ⟨.RING_CMP_W1, 31, 0⟩
/-! RING_CMPST: 15_time.md R357 -/
def RING_CMPST.DISARM : Fld := ⟨.RING_CMPST, 27, 24⟩
def RING_CMPST.WAKE : Fld := ⟨.RING_CMPST, 19, 16⟩
def RING_CMPST.LATE : Fld := ⟨.RING_CMPST, 11, 8⟩
def RING_CMPST.FIRED : Fld := ⟨.RING_CMPST, 7, 4⟩
def RING_CMPST.ARMED : Fld := ⟨.RING_CMPST, 3, 0⟩
/-! RING_CAPCFG: 15_time.md R357 -/
def RING_CAPCFG.SEL1 : Fld := ⟨.RING_CAPCFG, 31, 28⟩
def RING_CAPCFG.SEL0 : Fld := ⟨.RING_CAPCFG, 27, 24⟩
def RING_CAPCFG.EDGE1 : Fld := ⟨.RING_CAPCFG, 23, 23⟩
def RING_CAPCFG.EDGE0 : Fld := ⟨.RING_CAPCFG, 22, 22⟩
def RING_CAPCFG.WIN1 : Fld := ⟨.RING_CAPCFG, 1, 1⟩
def RING_CAPCFG.WIN0 : Fld := ⟨.RING_CAPCFG, 0, 0⟩
/-! RING_CAP_W0: 15_time.md R357 -/
def RING_CAP_W0.CAP_LO : Fld := ⟨.RING_CAP_W0, 31, 0⟩
/-! RING_CAP_W1: 15_time.md R357 -/
def RING_CAP_W1.CAP_HI : Fld := ⟨.RING_CAP_W1, 31, 0⟩
/-! RING_CAPST: 15_time.md R357 -/
def RING_CAPST.DEPTH1 : Fld := ⟨.RING_CAPST, 31, 28⟩
def RING_CAPST.DEPTH0 : Fld := ⟨.RING_CAPST, 27, 24⟩
def RING_CAPST.SCHG : Fld := ⟨.RING_CAPST, 16, 16⟩
def RING_CAPST.OVF1 : Fld := ⟨.RING_CAPST, 9, 9⟩
def RING_CAPST.OVF0 : Fld := ⟨.RING_CAPST, 8, 8⟩
def RING_CAPST.INWIN1 : Fld := ⟨.RING_CAPST, 1, 1⟩
def RING_CAPST.INWIN0 : Fld := ⟨.RING_CAPST, 0, 0⟩
/-! RING_SCH_W0: 15_time.md R357 -/
def RING_SCH_W0.SCH_LO : Fld := ⟨.RING_SCH_W0, 31, 0⟩
/-! RING_SCH_W1: 15_time.md R357 -/
def RING_SCH_W1.SCH_HI : Fld := ⟨.RING_SCH_W1, 31, 0⟩
/-! RING_LCNT_W0: 15_time.md R357 -/
def RING_LCNT_W0.LCNT_LO : Fld := ⟨.RING_LCNT_W0, 31, 0⟩
/-! RING_LCNT_W1: 15_time.md R357 -/
def RING_LCNT_W1.LCNT_HI : Fld := ⟨.RING_LCNT_W1, 31, 0⟩
/-! RING_PPSCFG: 15_time.md R357 -/
def RING_PPSCFG.EN : Fld := ⟨.RING_PPSCFG, 31, 31⟩
def RING_PPSCFG.EDGE : Fld := ⟨.RING_PPSCFG, 30, 30⟩
def RING_PPSCFG.TOL : Fld := ⟨.RING_PPSCFG, 15, 0⟩
/-! RING_PPSST: 15_time.md R357 -/
def RING_PPSST.STATE : Fld := ⟨.RING_PPSST, 31, 30⟩
def RING_PPSST.GOOD : Fld := ⟨.RING_PPSST, 23, 16⟩
def RING_PPSST.ERR : Fld := ⟨.RING_PPSST, 15, 0⟩
/-! RING_PPS_W0: 15_time.md R357 -/
def RING_PPS_W0.PPS_LO : Fld := ⟨.RING_PPS_W0, 31, 0⟩
/-! RING_PPS_W1: 15_time.md R357 -/
def RING_PPS_W1.PPS_HI : Fld := ⟨.RING_PPS_W1, 31, 0⟩
/-! RING_AT_W0: 15_time.md R357 -/
def RING_AT_W0.AT_LO : Fld := ⟨.RING_AT_W0, 31, 0⟩
/-! RING_AT_W1: 15_time.md R357 -/
def RING_AT_W1.AT_HI : Fld := ⟨.RING_AT_W1, 31, 0⟩
/-! AON_HW_W0: 15_time.md R358 -/
def AON_HW_W0.HW_LO : Fld := ⟨.AON_HW_W0, 31, 0⟩
/-! AON_HW_W1: 15_time.md R358 -/
def AON_HW_W1.HW_HI : Fld := ⟨.AON_HW_W1, 15, 0⟩
/-! AON_ATRATIO: 15_time.md R358 -/
def AON_ATRATIO.RATIO : Fld := ⟨.AON_ATRATIO, 31, 0⟩
/-! AON_ATCFG: 15_time.md R358 -/
def AON_ATCFG.RVALID : Fld := ⟨.AON_ATCFG, 31, 31⟩
def AON_ATCFG.SD : Fld := ⟨.AON_ATCFG, 30, 20⟩
def AON_ATCFG.XDRIFT : Fld := ⟨.AON_ATCFG, 19, 8⟩
def AON_ATCFG.THR : Fld := ⟨.AON_ATCFG, 7, 0⟩
/-! AON_ATST: 15_time.md R358 -/
def AON_ATST.RESTORED : Fld := ⟨.AON_ATST, 31, 31⟩
def AON_ATST.UNCERTAIN : Fld := ⟨.AON_ATST, 30, 30⟩
def AON_ATST.UNC : Fld := ⟨.AON_ATST, 29, 0⟩
/-! AON_ENT_W0: 15_time.md R358 -/
def AON_ENT_W0.AT_LO : Fld := ⟨.AON_ENT_W0, 31, 0⟩
/-! AON_ENT_W1: 15_time.md R358 -/
def AON_ENT_W1.AT_HI : Fld := ⟨.AON_ENT_W1, 31, 0⟩
/-! AON_ENT_W2: 15_time.md R358 -/
def AON_ENT_W2.ANC_LO : Fld := ⟨.AON_ENT_W2, 31, 0⟩
/-! AON_ENT_W3: 15_time.md R358 -/
def AON_ENT_W3.ANC_HI : Fld := ⟨.AON_ENT_W3, 15, 0⟩
/-! AON_HWCMP_W0: 15_time.md R358 -/
def AON_HWCMP_W0.HWC_LO : Fld := ⟨.AON_HWCMP_W0, 31, 0⟩
/-! AON_HWCMP_W1: 15_time.md R358 -/
def AON_HWCMP_W1.VALID : Fld := ⟨.AON_HWCMP_W1, 31, 31⟩
def AON_HWCMP_W1.RING : Fld := ⟨.AON_HWCMP_W1, 30, 28⟩
def AON_HWCMP_W1.CMP : Fld := ⟨.AON_HWCMP_W1, 27, 26⟩
def AON_HWCMP_W1.HWC_HI : Fld := ⟨.AON_HWCMP_W1, 15, 0⟩
/-! TRL_CH: 16_trails_and_queues.md R379 -/
def TRL_CH.LOOP : Fld := ⟨.TRL_CH, 31, 31⟩
def TRL_CH.SEEN : Fld := ⟨.TRL_CH, 30, 30⟩
def TRL_CH.SECURE : Fld := ⟨.TRL_CH, 8, 8⟩
def TRL_CH.OWNER : Fld := ⟨.TRL_CH, 2, 0⟩
/-! TRL_PIDX: 16_trails_and_queues.md R379 -/
def TRL_PIDX.ID : Fld := ⟨.TRL_PIDX, 7, 0⟩
/-! TRL_PDATA: 16_trails_and_queues.md R379 -/
def TRL_PDATA.EN : Fld := ⟨.TRL_PDATA, 31, 31⟩
def TRL_PDATA.CH : Fld := ⟨.TRL_PDATA, 5, 0⟩
/-! TRL_CIDX: 16_trails_and_queues.md R379 -/
def TRL_CIDX.ID : Fld := ⟨.TRL_CIDX, 6, 0⟩
/-! TRL_CMASK_LO: 16_trails_and_queues.md R379 -/
def TRL_CMASK_LO.MASK : Fld := ⟨.TRL_CMASK_LO, 31, 0⟩
/-! TRL_CMASK_HI: 16_trails_and_queues.md R379 -/
def TRL_CMASK_HI.MASK : Fld := ⟨.TRL_CMASK_HI, 31, 0⟩
/-! TRL_CSTAT: 16_trails_and_queues.md R379 -/
def TRL_CSTAT.MCLR : Fld := ⟨.TRL_CSTAT, 31, 31⟩
def TRL_CSTAT.MERGE : Fld := ⟨.TRL_CSTAT, 7, 4⟩
def TRL_CSTAT.OVR : Fld := ⟨.TRL_CSTAT, 1, 1⟩
def TRL_CSTAT.PEND : Fld := ⟨.TRL_CSTAT, 0, 0⟩
/-! TRL_SWPUB: 16_trails_and_queues.md R379 -/
def TRL_SWPUB.GEN : Fld := ⟨.TRL_SWPUB, 10, 8⟩
def TRL_SWPUB.CH : Fld := ⟨.TRL_SWPUB, 5, 0⟩
/-! TRL_STATUS: 16_trails_and_queues.md R379 -/
def TRL_STATUS.LAST_ERR : Fld := ⟨.TRL_STATUS, 31, 16⟩
/-! TRL_DROP: 16_trails_and_queues.md R379 -/
def TRL_DROP.LOOPS : Fld := ⟨.TRL_DROP, 15, 0⟩
/-! QMX_Q_BASE: 16_trails_and_queues.md R380 -/
def QMX_Q_BASE.EN : Fld := ⟨.QMX_Q_BASE, 31, 31⟩
def QMX_Q_BASE.BASE : Fld := ⟨.QMX_Q_BASE, 28, 16⟩
def QMX_Q_BASE.LOG2SZ : Fld := ⟨.QMX_Q_BASE, 3, 0⟩
/-! QMX_Q_EP: 16_trails_and_queues.md R380 -/
def QMX_Q_EP.PROD : Fld := ⟨.QMX_Q_EP, 28, 24⟩
def QMX_Q_EP.CONS : Fld := ⟨.QMX_Q_EP, 20, 16⟩
def QMX_Q_EP.CEIL : Fld := ⟨.QMX_Q_EP, 15, 0⟩
/-! QMX_Q_CTRL: 16_trails_and_queues.md R380 -/
def QMX_Q_CTRL.REWIND : Fld := ⟨.QMX_Q_CTRL, 2, 2⟩
def QMX_Q_CTRL.MARK : Fld := ⟨.QMX_Q_CTRL, 1, 1⟩
def QMX_Q_CTRL.FLUSH : Fld := ⟨.QMX_Q_CTRL, 0, 0⟩
/-! QMX_Q_CNT: 16_trails_and_queues.md R380 -/
def QMX_Q_CNT.FREE : Fld := ⟨.QMX_Q_CNT, 28, 16⟩
def QMX_Q_CNT.FILL : Fld := ⟨.QMX_Q_CNT, 12, 0⟩
/-! QMX_Q_STAT: 16_trails_and_queues.md R380 -/
def QMX_Q_STAT.LAST : Fld := ⟨.QMX_Q_STAT, 31, 16⟩
def QMX_Q_STAT.MARKV : Fld := ⟨.QMX_Q_STAT, 2, 2⟩
def QMX_Q_STAT.PTRERR : Fld := ⟨.QMX_Q_STAT, 1, 1⟩
def QMX_Q_STAT.TORN : Fld := ⟨.QMX_Q_STAT, 0, 0⟩
/-! QMX_Q_PUSH: 16_trails_and_queues.md R380 -/
def QMX_Q_PUSH.DATA : Fld := ⟨.QMX_Q_PUSH, 31, 0⟩
/-! QMX_Q_POP: 16_trails_and_queues.md R380 -/
def QMX_Q_POP.DATA : Fld := ⟨.QMX_Q_POP, 31, 0⟩
/-! PWR_CTRL: 17_power_states.md R397 -/
def PWR_CTRL.ENTER : Fld := ⟨.PWR_CTRL, 31, 31⟩
def PWR_CTRL.CANCEL : Fld := ⟨.PWR_CTRL, 30, 30⟩
def PWR_CTRL.TARGET : Fld := ⟨.PWR_CTRL, 29, 28⟩
def PWR_CTRL.TEST : Fld := ⟨.PWR_CTRL, 0, 0⟩
/-! PWR_STATUS: 17_power_states.md R397 -/
def PWR_STATUS.LAST_ERR : Fld := ⟨.PWR_STATUS, 31, 16⟩
def PWR_STATUS.PHASE : Fld := ⟨.PWR_STATUS, 9, 8⟩
def PWR_STATUS.STATE : Fld := ⟨.PWR_STATUS, 1, 0⟩
/-! PWR_POLICY: 17_power_states.md R397 -/
def PWR_POLICY.AUTO : Fld := ⟨.PWR_POLICY, 31, 30⟩
def PWR_POLICY.DIDLE : Fld := ⟨.PWR_POLICY, 15, 0⟩
/-! PWR_WAKEEN: 17_power_states.md R397 -/
def PWR_WAKEEN.EN : Fld := ⟨.PWR_WAKEEN, 7, 0⟩
/-! PWR_IDLE0: 17_power_states.md R397 -/
def PWR_IDLE0.UHF : Fld := ⟨.PWR_IDLE0, 31, 24⟩
def PWR_IDLE0.SYN : Fld := ⟨.PWR_IDLE0, 23, 16⟩
def PWR_IDLE0.HFR : Fld := ⟨.PWR_IDLE0, 15, 8⟩
def PWR_IDLE0.ACT : Fld := ⟨.PWR_IDLE0, 7, 0⟩
/-! PWR_IDLE1: 17_power_states.md R397 -/
def PWR_IDLE1.MSH : Fld := ⟨.PWR_IDLE1, 31, 24⟩
def PWR_IDLE1.SPE : Fld := ⟨.PWR_IDLE1, 23, 16⟩
def PWR_IDLE1.CLR : Fld := ⟨.PWR_IDLE1, 15, 0⟩
/-! PWR_DOM0: 17_power_states.md R397 -/
def PWR_DOM0.CLR : Fld := ⟨.PWR_DOM0, 31, 16⟩
def PWR_DOM0.UHF : Fld := ⟨.PWR_DOM0, 8, 0⟩
/-! PWR_DOM1: 17_power_states.md R397 -/
def PWR_DOM1.UNITS : Fld := ⟨.PWR_DOM1, 8, 4⟩
def PWR_DOM1.SYN : Fld := ⟨.PWR_DOM1, 3, 0⟩
/-! PWR_GTEMP: 17_power_states.md R397 -/
def PWR_GTEMP.INTERVAL : Fld := ⟨.PWR_GTEMP, 30, 24⟩
def PWR_GTEMP.HI : Fld := ⟨.PWR_GTEMP, 15, 8⟩
def PWR_GTEMP.LO : Fld := ⟨.PWR_GTEMP, 7, 0⟩
/-! PWR_WT_LO: 17_power_states.md R397 -/
def PWR_WT_LO.WT_LO : Fld := ⟨.PWR_WT_LO, 31, 0⟩
/-! PWR_WT_HI: 17_power_states.md R397 -/
def PWR_WT_HI.EN : Fld := ⟨.PWR_WT_HI, 31, 31⟩
def PWR_WT_HI.WT_HI : Fld := ⟨.PWR_WT_HI, 15, 0⟩
/-! PWR_CNT: 17_power_states.md R397 -/
def PWR_CNT.ENTRIES : Fld := ⟨.PWR_CNT, 31, 16⟩
def PWR_CNT.CANCELS : Fld := ⟨.PWR_CNT, 15, 0⟩
/-! AON_RET_SEL: 17_power_states.md R398 -/
def AON_RET_SEL.BANKS : Fld := ⟨.AON_RET_SEL, 15, 0⟩
/-! AON_RET_STATUS: 17_power_states.md R398 -/
def AON_RET_STATUS.RETAINED : Fld := ⟨.AON_RET_STATUS, 31, 16⟩
def AON_RET_STATUS.FAILED : Fld := ⟨.AON_RET_STATUS, 15, 0⟩
/-! AON_WAKE_REC0: 17_power_states.md R398 -/
def AON_WAKE_REC0.VALID : Fld := ⟨.AON_WAKE_REC0, 31, 31⟩
def AON_WAKE_REC0.MASK : Fld := ⟨.AON_WAKE_REC0, 15, 8⟩
def AON_WAKE_REC0.SRC : Fld := ⟨.AON_WAKE_REC0, 3, 0⟩
/-! AON_WAKE_REC1: 17_power_states.md R398 -/
def AON_WAKE_REC1.HW_LO : Fld := ⟨.AON_WAKE_REC1, 31, 0⟩
/-! AON_WAKE_REC2: 17_power_states.md R398 -/
def AON_WAKE_REC2.HW_HI : Fld := ⟨.AON_WAKE_REC2, 15, 0⟩
/-! AON_WAKE_REC3: 17_power_states.md R398 -/
def AON_WAKE_REC3.DETAIL : Fld := ⟨.AON_WAKE_REC3, 31, 0⟩
/-! AON_PAPOL: 17_power_states.md R398 -/
def AON_PAPOL.POL : Fld := ⟨.AON_PAPOL, 7, 0⟩
/-! AON_REFR: 17_power_states.md R398 -/
def AON_REFR.INTERVAL : Fld := ⟨.AON_REFR, 7, 0⟩
/-! NVM_STATUS: 18_ranger_storage_lifecycle.md R420 -/
def NVM_STATUS.LAST_ERR : Fld := ⟨.NVM_STATUS, 31, 16⟩
def NVM_STATUS.BUSY : Fld := ⟨.NVM_STATUS, 8, 8⟩
def NVM_STATUS.OPEN : Fld := ⟨.NVM_STATUS, 7, 7⟩
def NVM_STATUS.REGION : Fld := ⟨.NVM_STATUS, 6, 4⟩
/-! NVM_GIDX: 18_ranger_storage_lifecycle.md R420 -/
def NVM_GIDX.CUR : Fld := ⟨.NVM_GIDX, 5, 5⟩
def NVM_GIDX.TORN1 : Fld := ⟨.NVM_GIDX, 4, 4⟩
def NVM_GIDX.TORN0 : Fld := ⟨.NVM_GIDX, 3, 3⟩
def NVM_GIDX.REGION : Fld := ⟨.NVM_GIDX, 2, 0⟩
/-! NVM_GEN0: 18_ranger_storage_lifecycle.md R420 -/
def NVM_GEN0.GEN : Fld := ⟨.NVM_GEN0, 31, 0⟩
/-! NVM_GEN1: 18_ranger_storage_lifecycle.md R420 -/
def NVM_GEN1.GEN : Fld := ⟨.NVM_GEN1, 31, 0⟩
/-! NVM_BOOT: 18_ranger_storage_lifecycle.md R420 -/
def NVM_BOOT.ROLLBACK : Fld := ⟨.NVM_BOOT, 31, 16⟩
def NVM_BOOT.RUNNING : Fld := ⟨.NVM_BOOT, 3, 3⟩
def NVM_BOOT.TRIED : Fld := ⟨.NVM_BOOT, 2, 2⟩
def NVM_BOOT.TRIAL : Fld := ⟨.NVM_BOOT, 1, 1⟩
def NVM_BOOT.PREF : Fld := ⟨.NVM_BOOT, 0, 0⟩
/-! MGT_STATUS: 18_ranger_storage_lifecycle.md R421 -/
def MGT_STATUS.VERSION : Fld := ⟨.MGT_STATUS, 31, 0⟩
/-! MGT_LOG_NEW: 18_ranger_storage_lifecycle.md R421 -/
def MGT_LOG_NEW.SEQ : Fld := ⟨.MGT_LOG_NEW, 31, 0⟩
/-! MGT_LOG_OLD: 18_ranger_storage_lifecycle.md R421 -/
def MGT_LOG_OLD.SEQ : Fld := ⟨.MGT_LOG_OLD, 31, 0⟩
/-! MGT_LOG_IDX: 18_ranger_storage_lifecycle.md R421 -/
def MGT_LOG_IDX.SEQ : Fld := ⟨.MGT_LOG_IDX, 31, 0⟩
/-! MGT_LOG_CNT: 18_ranger_storage_lifecycle.md R421 -/
def MGT_LOG_CNT.DROPPED : Fld := ⟨.MGT_LOG_CNT, 31, 16⟩
def MGT_LOG_CNT.ERRORS : Fld := ⟨.MGT_LOG_CNT, 15, 0⟩
/-! MGT_LOG_D: 18_ranger_storage_lifecycle.md R421 -/
def MGT_LOG_D.DATA : Fld := ⟨.MGT_LOG_D, 31, 0⟩
/-! LCS_STATE: 18_ranger_storage_lifecycle.md R422 -/
def LCS_STATE.DBG_OPEN : Fld := ⟨.LCS_STATE, 9, 9⟩
def LCS_STATE.ERASING : Fld := ⟨.LCS_STATE, 8, 8⟩
def LCS_STATE.STATE : Fld := ⟨.LCS_STATE, 1, 0⟩
/-! LCS_SERIAL: 18_ranger_storage_lifecycle.md R422 -/
def LCS_SERIAL.SERIAL : Fld := ⟨.LCS_SERIAL, 31, 0⟩
/-! SNS_TEMP: 18_ranger_storage_lifecycle.md R423 -/
def SNS_TEMP.T_ODD : Fld := ⟨.SNS_TEMP, 27, 16⟩
def SNS_TEMP.T_EVEN : Fld := ⟨.SNS_TEMP, 11, 0⟩
/-! SNS_SUPPLY: 18_ranger_storage_lifecycle.md R423 -/
def SNS_SUPPLY.LOW : Fld := ⟨.SNS_SUPPLY, 31, 16⟩
def SNS_SUPPLY.NOW : Fld := ⟨.SNS_SUPPLY, 15, 0⟩
/-! SNS_TRNG: 18_ranger_storage_lifecycle.md R423 -/
def SNS_TRNG.DATA : Fld := ⟨.SNS_TRNG, 31, 0⟩
/-! SNS_TRNG_ST: 18_ranger_storage_lifecycle.md R423 -/
def SNS_TRNG_ST.READY : Fld := ⟨.SNS_TRNG_ST, 31, 31⟩
def SNS_TRNG_ST.FAIL : Fld := ⟨.SNS_TRNG_ST, 30, 30⟩
def SNS_TRNG_ST.FAILS : Fld := ⟨.SNS_TRNG_ST, 15, 0⟩
/-! SYS_IDENT: 19_startup_and_host_link.md R443 -/
def SYS_IDENT.PART : Fld := ⟨.SYS_IDENT, 31, 16⟩
def SYS_IDENT.STEP : Fld := ⟨.SYS_IDENT, 15, 8⟩
/-! SYS_STRAP: 19_startup_and_host_link.md R443 -/
def SYS_STRAP.RCVRY : Fld := ⟨.SYS_STRAP, 2, 2⟩
def SYS_STRAP.QSPI4 : Fld := ⟨.SYS_STRAP, 1, 1⟩
def SYS_STRAP.HSEL : Fld := ⟨.SYS_STRAP, 0, 0⟩
/-! SYS_STEP: 19_startup_and_host_link.md R443 -/
def SYS_STEP.FAILED : Fld := ⟨.SYS_STEP, 28, 16⟩
def SYS_STEP.DONE : Fld := ⟨.SYS_STEP, 12, 0⟩
/-! SYS_ROLL: 19_startup_and_host_link.md R443 -/
def SYS_ROLL.MISSING : Fld := ⟨.SYS_ROLL, 25, 16⟩
def SYS_ROLL.PRESENT : Fld := ⟨.SYS_ROLL, 9, 0⟩
/-! SYS_CLK: 19_startup_and_host_link.md R443 -/
def SYS_CLK.HLK_LOCK : Fld := ⟨.SYS_CLK, 3, 3⟩
def SYS_CLK.SPE_LOCK : Fld := ⟨.SYS_CLK, 2, 2⟩
def SYS_CLK.HF_LOCK : Fld := ⟨.SYS_CLK, 1, 1⟩
def SYS_CLK.SYS_LOCK : Fld := ⟨.SYS_CLK, 0, 0⟩
/-! HLK_STATUS: 19_startup_and_host_link.md R444 -/
def HLK_STATUS.READY : Fld := ⟨.HLK_STATUS, 3, 3⟩
def HLK_STATUS.SPEED : Fld := ⟨.HLK_STATUS, 2, 2⟩
def HLK_STATUS.BME : Fld := ⟨.HLK_STATUS, 1, 1⟩
def HLK_STATUS.LINK : Fld := ⟨.HLK_STATUS, 0, 0⟩
/-! HLK_PCI_ID: 19_startup_and_host_link.md R444 -/
def HLK_PCI_ID.DEVICE : Fld := ⟨.HLK_PCI_ID, 31, 16⟩
def HLK_PCI_ID.VENDOR : Fld := ⟨.HLK_PCI_ID, 15, 0⟩
/-! HLK_ERR: 19_startup_and_host_link.md R444 -/
def HLK_ERR.CODE : Fld := ⟨.HLK_ERR, 31, 16⟩
def HLK_ERR.COUNT : Fld := ⟨.HLK_ERR, 15, 0⟩
/-! HLK_ERRADDR: 19_startup_and_host_link.md R444 -/
def HLK_ERRADDR.ADDR : Fld := ⟨.HLK_ERRADDR, 31, 0⟩
/-! HLK_IRQPEND: 19_startup_and_host_link.md R444 -/
def HLK_IRQPEND.PEND : Fld := ⟨.HLK_IRQPEND, 31, 0⟩
/-! HLK_IRQMASK: 19_startup_and_host_link.md R444 -/
def HLK_IRQMASK.MASK : Fld := ⟨.HLK_IRQMASK, 31, 0⟩
/-! HLK_DMA_CFG: 19_startup_and_host_link.md R444 -/
def HLK_DMA_CFG.EN : Fld := ⟨.HLK_DMA_CFG, 31, 31⟩
def HLK_DMA_CFG.QUEUE : Fld := ⟨.HLK_DMA_CFG, 13, 8⟩
def HLK_DMA_CFG.LOG2 : Fld := ⟨.HLK_DMA_CFG, 3, 0⟩
/-! HLK_DMA_BASE_LO: 19_startup_and_host_link.md R444 -/
def HLK_DMA_BASE_LO.ADDR : Fld := ⟨.HLK_DMA_BASE_LO, 31, 0⟩
/-! HLK_DMA_BASE_HI: 19_startup_and_host_link.md R444 -/
def HLK_DMA_BASE_HI.ADDR : Fld := ⟨.HLK_DMA_BASE_HI, 31, 0⟩
/-! HLK_DMA_SHD_LO: 19_startup_and_host_link.md R444 -/
def HLK_DMA_SHD_LO.ADDR : Fld := ⟨.HLK_DMA_SHD_LO, 31, 0⟩
/-! HLK_DMA_SHD_HI: 19_startup_and_host_link.md R444 -/
def HLK_DMA_SHD_HI.ADDR : Fld := ⟨.HLK_DMA_SHD_HI, 31, 0⟩
/-! HLK_DMA_RD: 19_startup_and_host_link.md R444 -/
def HLK_DMA_RD.RD : Fld := ⟨.HLK_DMA_RD, 31, 0⟩
/-! HLK_DMA_WR: 19_startup_and_host_link.md R444 -/
def HLK_DMA_WR.WR : Fld := ⟨.HLK_DMA_WR, 31, 0⟩
/-! HLK_DMA_STAT: 19_startup_and_host_link.md R444 -/
def HLK_DMA_STAT.LAST_ERR : Fld := ⟨.HLK_DMA_STAT, 31, 16⟩
def HLK_DMA_STAT.STOPPED : Fld := ⟨.HLK_DMA_STAT, 0, 0⟩
/-! PMX_PAD: 20_pins_and_electrical.md R460 -/
def PMX_PAD.FE_DRV : Fld := ⟨.PMX_PAD, 31, 30⟩
def PMX_PAD.SPI_DRV : Fld := ⟨.PMX_PAD, 29, 28⟩
def PMX_PAD.PPS_PD : Fld := ⟨.PMX_PAD, 8, 8⟩
def PMX_PAD.TCK_PD : Fld := ⟨.PMX_PAD, 7, 4⟩
/-! UHF_RPY_D0: 03_reply_reception.md R84 -/
def UHF_RPY_D0.CLASS : Fld := ⟨.UHF_RPY_D0, 31, 29⟩
def UHF_RPY_D0.M : Fld := ⟨.UHF_RPY_D0, 28, 27⟩
def UHF_RPY_D0.FHYP : Fld := ⟨.UHF_RPY_D0, 26, 24⟩
def UHF_RPY_D0.CRC_OK : Fld := ⟨.UHF_RPY_D0, 23, 23⟩
def UHF_RPY_D0.HDR : Fld := ⟨.UHF_RPY_D0, 22, 22⟩
def UHF_RPY_D0.MISM_M : Fld := ⟨.UHF_RPY_D0, 21, 21⟩
def UHF_RPY_D0.TRUNC : Fld := ⟨.UHF_RPY_D0, 20, 20⟩
def UHF_RPY_D0.CLIP : Fld := ⟨.UHF_RPY_D0, 19, 19⟩
def UHF_RPY_D0.PILOT_LONG : Fld := ⟨.UHF_RPY_D0, 18, 18⟩
def UHF_RPY_D0.LEN : Fld := ⟨.UHF_RPY_D0, 12, 0⟩
/-! UHF_RPY_D1: 03_reply_reception.md R84 -/
def UHF_RPY_D1.START_LO : Fld := ⟨.UHF_RPY_D1, 31, 0⟩
/-! UHF_RPY_D2: 03_reply_reception.md R84 -/
def UHF_RPY_D2.START_HI : Fld := ⟨.UHF_RPY_D2, 31, 0⟩
/-! UHF_RPY_D3: 03_reply_reception.md R84 -/
def UHF_RPY_D3.T1_MEAS : Fld := ⟨.UHF_RPY_D3, 31, 0⟩
/-! UHF_RPY_D4: 03_reply_reception.md R84 -/
def UHF_RPY_D4.RSSI : Fld := ⟨.UHF_RPY_D4, 31, 20⟩
def UHF_RPY_D4.SNR : Fld := ⟨.UHF_RPY_D4, 19, 12⟩
def UHF_RPY_D4.GAIN : Fld := ⟨.UHF_RPY_D4, 11, 8⟩
def UHF_RPY_D4.LOWC : Fld := ⟨.UHF_RPY_D4, 7, 0⟩
/-! UHF_RPY_D5: 03_reply_reception.md R84 -/
def UHF_RPY_D5.PHASE : Fld := ⟨.UHF_RPY_D5, 25, 16⟩
def UHF_RPY_D5.BLF_MEAS : Fld := ⟨.UHF_RPY_D5, 15, 0⟩
/-! UHF_RPY_D6: 03_reply_reception.md R84 -/
def UHF_RPY_D6.DUR : Fld := ⟨.UHF_RPY_D6, 31, 0⟩
/-! UHF_RPY_D7: 03_reply_reception.md R84 -/
def UHF_RPY_D7.SEQ : Fld := ⟨.UHF_RPY_D7, 31, 16⟩
def UHF_RPY_D7.CUTC : Fld := ⟨.UHF_RPY_D7, 3, 0⟩
/-! HFR_RPY_D0: 11_hf_and_card_watch.md R281 -/
def HFR_RPY_D0.W : Fld := ⟨.HFR_RPY_D0, 31, 0⟩
/-! HFR_RPY_D1: 11_hf_and_card_watch.md R281 -/
def HFR_RPY_D1.W : Fld := ⟨.HFR_RPY_D1, 31, 0⟩
/-! HFR_RPY_D2: 11_hf_and_card_watch.md R281 -/
def HFR_RPY_D2.W : Fld := ⟨.HFR_RPY_D2, 31, 0⟩
/-! HFR_RPY_D3: 11_hf_and_card_watch.md R281 -/
def HFR_RPY_D3.W : Fld := ⟨.HFR_RPY_D3, 31, 0⟩
/-! HFR_RPY_D4: 11_hf_and_card_watch.md R281 -/
def HFR_RPY_D4.W : Fld := ⟨.HFR_RPY_D4, 31, 0⟩
/-! HFR_RPY_D5: 11_hf_and_card_watch.md R281 -/
def HFR_RPY_D5.W : Fld := ⟨.HFR_RPY_D5, 31, 0⟩
/-! HFR_RPY_D6: 11_hf_and_card_watch.md R281 -/
def HFR_RPY_D6.W : Fld := ⟨.HFR_RPY_D6, 31, 0⟩
/-! HFR_RPY_D7: 11_hf_and_card_watch.md R281 -/
def HFR_RPY_D7.W : Fld := ⟨.HFR_RPY_D7, 31, 0⟩
/-! ACT_RPY_D0: 12_active_link_and_wake.md R297 -/
def ACT_RPY_D0.W : Fld := ⟨.ACT_RPY_D0, 31, 0⟩
/-! ACT_RPY_D1: 12_active_link_and_wake.md R297 -/
def ACT_RPY_D1.W : Fld := ⟨.ACT_RPY_D1, 31, 0⟩
/-! ACT_RPY_D2: 12_active_link_and_wake.md R297 -/
def ACT_RPY_D2.W : Fld := ⟨.ACT_RPY_D2, 31, 0⟩
/-! ACT_RPY_D3: 12_active_link_and_wake.md R297 -/
def ACT_RPY_D3.W : Fld := ⟨.ACT_RPY_D3, 31, 0⟩
/-! ACT_RPY_D4: 12_active_link_and_wake.md R297 -/
def ACT_RPY_D4.W : Fld := ⟨.ACT_RPY_D4, 31, 0⟩
/-! ACT_RPY_D5: 12_active_link_and_wake.md R297 -/
def ACT_RPY_D5.W : Fld := ⟨.ACT_RPY_D5, 31, 0⟩
/-! ACT_RPY_D6: 12_active_link_and_wake.md R297 -/
def ACT_RPY_D6.W : Fld := ⟨.ACT_RPY_D6, 31, 0⟩
/-! ACT_RPY_D7: 12_active_link_and_wake.md R297 -/
def ACT_RPY_D7.W : Fld := ⟨.ACT_RPY_D7, 31, 0⟩

end Sys2Proof.Machine
end

