-- ==== Sys2Proof/Machine/Store.lean ====
section
/-! DEFINITION. Sparse maps in one canonical form: an association list with its keys in the order of their rank, which
lists no value equal to the default of its key. Every unit of the device that has copies (chains, Vats, queues, …) and
the register file are held so. -/

namespace Sys2Proof.Machine

/-- The value at a key, or the key's default where the key is not listed. -/
def fget {κ α : Type} [DecidableEq κ] (dflt : κ → α) : List (κ × α) → κ → α
  | [], k => dflt k
  | (k', v) :: m, k => if k' = k then v else fget dflt m k

/-- The list without a key. -/
def fdel {κ α : Type} [DecidableEq κ] : List (κ × α) → κ → List (κ × α)
  | [], _ => []
  | (k', v) :: m, k => if k' = k then fdel m k else (k', v) :: fdel m k

/-- Insertion before the first key of a higher rank. -/
def fins {κ α : Type} (rank : κ → Nat) : List (κ × α) → κ → α → List (κ × α)
  | [], k, v => [(k, v)]
  | (k', v') :: m, k, v =>
    if rank k < rank k' then (k, v) :: (k', v') :: m else (k', v') :: fins rank m k v

/-- The map with one value changed; writing a key's default removes its entry. -/
def fset {κ α : Type} [DecidableEq κ] [DecidableEq α] (dflt : κ → α) (rank : κ → Nat)
    (m : List (κ × α)) (k : κ) (v : α) : List (κ × α) :=
  if v = dflt k then fdel m k else fins rank (fdel m k) k v

/-- A key of the register file: a field of a register table, the unit and the index within the unit. -/
structure RKey where
  f : Fld
  i : Nat
  j : Nat
deriving DecidableEq, Repr

/-- The place of a register field in the order of the register file. -/
def RKey.rank (k : RKey) : Nat :=
  ((k.f.r.ctorIdx * 32 + k.f.lo) * 65536 + k.i) * 16777216 + k.j

/-- The width of a field in bits. -/
def Fld.width (f : Fld) : Nat := f.hi + 1 - f.lo

/-- The reset value that a list of rows gives to the field at `lo` (0 where no row starts there). -/
def rowReset : List Row → Nat → Nat
  | [], _ => 0
  | r :: rs, lo => if r.lo = lo then r.reset else rowReset rs lo

/-- The reset value of a field: the register table's, with the tables' own exceptions: TRL_CHk for k = 56 to 63
(R359), the mailbox queues Q0 and Q1 (R368, R380), and MSH_HOP, whose channels count up from the register's own
number (R331). -/
def Fld.reset (f : Fld) (i j : Nat) : Nat :=
  match f with
  | ⟨.TRL_CH, _, 8⟩ => if 56 ≤ j then 1 else 0
  | ⟨.TRL_CH, _, 0⟩ => if 56 ≤ j then 0 else 1
  | ⟨.QMX_Q_BASE, _, 31⟩ => if i < 2 then 1 else 0
  | ⟨.QMX_Q_BASE, _, 16⟩ => if i = 0 then 0x13C0 else if i = 1 then 0x13D0 else 0
  | ⟨.QMX_Q_BASE, _, 0⟩ => if i < 2 then 8 else 4
  | ⟨.QMX_Q_EP, _, 24⟩ => if i = 0 then 0x10 else if i = 1 then 0x11 else 0x1F
  | ⟨.QMX_Q_EP, _, 16⟩ => if i = 0 then 0x11 else if i = 1 then 0x10 else 0x1F
  | ⟨.MSH_HOP, _, lo⟩ => rowReset (Reg.rows .MSH_HOP) lo + 4 * j
  | _ => rowReset f.r.rows f.lo

end Sys2Proof.Machine
end

