-- ==== Sys2Proof/Machine/Units.lean ====
section
/-! DEFINITION. What the units of the device hold beside the registers of the register map: transitions in progress,
waits, windows, queue pointers, engine requests. Every structure's default is its state after a device reset. -/

namespace Sys2Proof.Machine

/-- What a Vat in WAIT waits for (R94, R112, R115, R138 to R148, R156); a held instruction is one issued during a
switch-over (R147). Ticks are AT ticks. -/
inductive Wait where
  | none
  | waita (target : Nat) (ra rb : RegNo) (u : Bool)
  | waitt (input : Nat) (giveUp : Option Nat)
  | carryOn (named : Nat)
  | carryOff
  | txc (launch finish : Nat)
  | lsn (rd : RegNo)
  | ledger
  | qpop (rd ra : RegNo) (w q : Nat) (giveUp : Option Nat)
  | held (i : Isrin)
deriving DecidableEq, Repr

/-- The metadata of a sighting that LPUT and LTOUCH record (R149, R200): start AT, RSSI, front ends, and on a canopy
the group and the number of the window it comes from, whether that window's result is ready, and its bearing: bin,
runner-up, score (R222). -/
structure Sight where
  start : Nat
  rssi : Nat
  fe : Nat
  mask : Nat
  group : Option Nat
  window : Nat
  ready : Bool := false
  bear : Option (Nat × Nat × Nat) := none
deriving DecidableEq, Repr

/-- A Vat beside its registers (R91, R117, R129): the cycle at which its next instruction may issue, what it waits
for, the watchdog's count up to `wdFrom` and the tick it counts from, the cycle from which a pending swap acts (R111),
the latest sighting since the binding was made (R149), the cycle a running copy ends (R129), that a STEP is executing
(R123), the running hoop's index entry (R168), the PC of the instruction issued last (R95), that the watchdog has been
loaded since reset (R117), and the Vat cycle in which a STOP, a DBG_HALT or a fault took the Vat out of RUN or WAIT, with
whether that was RUN (R118, R120), the launch reference of a TXC that a switch-over holds (R147), and the Vat cycle plus one of the
latest START (R182). -/
structure VatX where
  ready : Nat := 0
  wait : Wait := .none
  wdCount : Nat := 0
  wdFrom : Nat := 0
  swapFrom : Nat := 0
  sight : Option Sight := none
  copyEnd : Nat := 0
  stepping : Bool := false
  hoop : Option Nat := none
  prevPc : Nat := 0
  wdOn : Bool := false
  left : Option (Nat × Bool) := none
  heldRef : Option Nat := none
  started : Nat := 0
deriving DecidableEq, Repr

/-- The parameters of a listen window (R66, R67, R171); all ticks are absolute. -/
structure Window where
  ref : Nat
  openAt : Nat
  close : Nat
  t1Min : Nat
  t1Max : Nat
  blf : Nat
  m : Nat
  trext : Bool
  strict : Bool
  lmode : Nat
  len : Nat
  crc16 : Bool
  qsel : Nat
  pre : Option PreambleObs := none
  vat : Option Nat := none
  group : Option Nat := none
deriving DecidableEq, Repr

/-- A chain, the HF port or the ACT port beside its registers (port codes 0 to 8, 9, 10): the timed transition in
progress (its goal state and end tick), the TARGET it moves to after a ramp-down (R44), the tick at which a trip ramp
has the gate closed (R42), the launch tick of the present carrier, the template in transmission, the end of the last
transmission and E_R of the latest classified reply of the present carrier (R66, R141), the weight in effect while a written one is held (R52, R212), the
tick the multiplexer has settled (R53), the tick since which the chain has been in RX on its frequency and port
(R259 check 8), the open listen window, the slot written last and its tick (R82), for HF and ACT the
slot viewed and the last SEQ, the TX_OFF in effect since the ramp-up (R212), whether the carrier is a calibration's
(R233), the port, channel slot and state that LKC puts back at its end (R232, R233), the bits a transmission sent,
CRC included, the reason for which the guard ends the carrier (R260), the setpoint (on ACT: the DUTY replaced) that a host
wrote with its tick (R268, R302), and for HF and ACT the levels that PWR wrote with their launch ticks (R276, R294) and the mode
profile of the transmission (R278); the nominal link frequency of the latest listen parameters (R65); of the capture unit the
samples written, the tick they are counted from, and those before the trigger (R88); the tick from which the tracking canceller
goes on from the trims in the register (R57); the number plus one of the detector reading that the register holds (R47); and the counters that the latest
classification incremented, each with its index (R87). HF and ACT hold in `target` the state they move to after the transition in progress. The
multiplexer has not settled right after reset (SETTLED reads 0). -/
structure ChX where
  goal : Option Nat := none
  due : Nat := 0
  target : Option Nat := none
  gateShut : Nat := 0
  launched : Nat := 0
  txOn : Bool := false
  txStart : Nat := 0
  txEnd : Nat := 0
  lastTx : Option Nat := none
  refE : Option Nat := none
  txwHold : Option (Nat × Nat) := none
  txwDone : Nat := 0
  settleAt : Nat := 768
  rxSince : Option Nat := none
  win : Option Window := none
  slot : Nat := 0
  slotTick : Nat := 0
  view : Nat := 0
  seq : Nat := 0
  txOff : Nat := 0
  byCal : Bool := false
  calBack : Option (Nat × Nat × Nat) := none
  sent : List Bool := []
  guarded : Option Nat := none
  hostSet : Option (Nat × Nat) := none
  levels : List (Nat × Nat) := []
  txProf : Nat := 0
  blf : Nat := 0
  capDone : Nat := 0
  capAt : Nat := 0
  capTrig : Nat := 0
  trackAt : Nat := 0
  detAt : Nat := 0
  bumped : List (Fld × Nat) := []
deriving DecidableEq, Repr

/-- A Vat's request to retune a synthesiser that passed R35 on its own (R36): the Vat, the frequency and channel slot of its
HOP, the CHSLOT values the HOP replaces (register unit and value), and LAST_ERR, LAST_OP and REFUSED of the Vat before it. -/
structure SynReq where
  vat : Nat
  khz : Nat
  slot : Nat
  was : List (Nat × Nat) := []
  err : Nat := 0
  op : Nat := 0
  refused : Nat := 0
deriving DecidableEq, Repr

/-- A synthesiser beside its registers: the Vat cycle at which the last requests reached it, the Vat requests of that cycle,
the frequency of a host write accepted in it (R36), and the tick of the last write (R33). -/
structure SynX where
  reqClk : Nat := 0
  reqs : List SynReq := []
  host : Option Nat := none
  tuneTick : Nat := 0
deriving DecidableEq, Repr

/-- A carrier interval charged to a front end (R261, R262): the channel and the ticks with the gate open. -/
structure Carr where
  ch : Nat
  from' : Nat
  upto : Nat
deriving DecidableEq, Repr

/-- The guard's account of a front end (R261 to R263): the present carrier's channel and whether the active profile has it
(not so for a carrier that a new profile ends for its channel), on-time counted before the
present gate opening and the tick of that opening, the intervals of the occupancy span, the channel of the previous
carrier, and per channel the tick its last carrier ended. -/
structure FeX where
  onSince : Option Nat := none
  counted : Nat := 0
  live : Bool := false
  ch : Nat := 0
  known : Bool := true
  past : List Carr := []
  prevCh : Option Nat := none
  ended : List (Nat × Nat) := []
deriving DecidableEq, Repr

/-- The guard beside its registers: the words of the active profile (header words 0 to 7, then two words for each
channel), the antenna declarations, and the tick of activation (R263). -/
structure RguX where
  since : Nat := 0
  hdr : List Nat := []
  chan : List (Nat × Nat) := []
  ant : List (Nat × Nat) := []
deriving DecidableEq, Repr

/-- The mirror of the mesh slot count in the AIR island (R317): an ASN with the tick of its boundary, the last slot
length, a pair that has arrived and is not yet due with the slot length from its boundary on, and whether pairs are missing
(so since a device reset). -/
structure AsnX where
  asn : Nat := 0
  tick : Nat := 0
  len : Nat := 1536000
  next : Option (Nat × Nat × Nat) := none
  missing : Bool := true
deriving DecidableEq, Repr

/-- A switch-over in progress (R246 to R250): front end, whether US takes it (else it returns to its chain), whether a
carrier is to be restored, whether it is planned, whether a carrier was on at its start, whether the chain stood in RX then, the tick of its start, the tick
at which SPSELn changes, the tick the switch has settled, the end tick of the single DC pass of a warm takeover, whether
such a pass is still to be made, the tick of its launch check, and whether the carrier has launched. -/
structure Switch where
  fe : Nat
  take : Bool
  restore : Bool
  planned : Bool
  hadCarrier : Bool
  wasRx : Bool := false
  start : Nat
  selAt : Nat
  settled : Nat
  dcDue : Option Nat
  needDc : Bool
  t4 : Option Nat
  launched : Bool
deriving DecidableEq, Repr

/-- The spare beside its registers: the switch-over in progress, the front end that US carries before and from the tick
`selAt` (R54), the planned takeover (front end, tick of GO) or release (tick) that waits, the tick of the last DC pass or of
the restore of its trims (R243), the chain an automatic recalibration takes over, and the chains whose automatic
recalibration is deferred, each with the tick of its retry (R241). -/
structure SpareX where
  sw : Option Switch := none
  was : Option Nat := none
  now : Option Nat := none
  selAt : Nat := 0
  waitTake : Option (Nat × Nat) := none
  waitRel : Option Nat := none
  dcTick : Option Nat := none
  auto : Option Nat := none
  deferred : List (Nat × Nat) := []
deriving DecidableEq, Repr

/-- What stood before a happening of one tick that another happening of the same tick may take back (R60, R251, R268): the
tick, the ports it acted on, the Vat with its record, and the register fields, ports and front ends it changed as they were. -/
structure Before where
  tick : Nat
  units : List Nat
  vat : Option (Nat × VatX) := none
  regs : List (RKey × Nat) := []
  chs : List (Nat × ChX) := []
  fes : List (Nat × FeX) := []
deriving DecidableEq, Repr

/-- A calibration running on a unit (R231 to R237): the operation, for RX_ALL the step reached (2 to 5), the attempt, the
first attempt's variance ratio, whether any window was repeated, the first failure of RX_ALL, the trims of the steps that
passed, and for LKC how far it is: 0 before the launch, 1 carrier on, 2 ramping down, with RESULT, QUAL and temperature; and
the tick of the start. -/
structure CalRun where
  op : Nat
  sub : Nat
  since : Nat := 0
  attempt : Nat := 1
  vr1 : Nat := 0
  vr2 : Nat := 0
  retried : Bool := false
  first : Nat := 0
  acc : List TrimVal := []
  stage : Nat := 0
  res : Nat := 0
  qual : Nat := 0
  temp : Nat := 0
deriving DecidableEq, Repr

/-- A match of the bearing matcher in progress (R216 to R220): the tick its scan is complete, the window it belongs to,
what it will report, and once that window is decided SEQ of its lead member's slot and the decision tick. -/
structure Match where
  ready : Nat
  window : Nat
  steer : Nat
  bin : Nat
  score : Nat
  runner : Nat
  rscore : Nat
  used : Nat
  pivot : Nat
  seq : Nat := 0
  dec : Nat := 0
deriving DecidableEq, Repr

/-- A canopy group beside its registers (R212 to R222): the STEER values that BEAM wrote since the BIND with their
ticks (newest first), the number of the latest window, whether it is open, its reference tick and members' validations
(member, tick, phase, offset-table entry), its members' decisions (member, class, SNR), whether its match was started
or found impossible, the match in progress, the lead member, the number of the window whose result is loaded, and
the group's decision tick. -/
structure GrpX where
  steers : List (Nat × Nat) := []
  window : Nat := 0
  opened : Bool := false
  ref : Nat := 0
  valid : List (Nat × Nat × Nat × Nat) := []
  decided : List (Nat × Nat × Nat) := []
  started : Bool := false
  run : Option Match := none
  lead : Option Nat := none
  loaded : Nat := 0
  decTick : Nat := 0
deriving DecidableEq, Repr

/-- A phase-reference measurement (R224 to R226): the tick of its arming or of the start of the present attempt, the
windows gathered as (member, value) lists, and the offset-table entries of the members in the first of them. -/
structure PcalX where
  since : Nat := 0
  gathered : List (List (Nat × Nat)) := []
  entries : List (Nat × Nat) := []
deriving DecidableEq, Repr

/-- A BIND or TOPEN of a Vat that a Vat of a lower number may still take the port or the handle from in the same Vat cycle
(R157): the cycle, the Vat, the port bound or the handle opened, what the Vat's binding or register `rd` held before and its sighting. -/
structure Won where
  clk : Nat
  vat : Nat
  what : Nat
  was : Nat
  rd : RegNo := 0
  sight : Option Sight := none
deriving DecidableEq, Repr

/-- A queue's pointers as absolute word counts (R369 to R376): words written, words of complete items, words read,
words whose space is free, the mark, the item its producer has in progress (payload words to come, and whether they
are discarded), the words of the item being read that are left, a stalled host read, the words a running QPUSH copy
keeps hidden until a cycle (R155), those a running QPOP copy keeps from being free until a cycle (R156), and the status items that a
unit owes and the queue has no room for yet (endpoint, TYPE, words; R327, R335). -/
structure QX where
  prod : Nat := 0
  vis : Nat := 0
  cons : Nat := 0
  freed : Nat := 0
  mark : Option Nat := none
  left : Option Nat := none
  drop : Bool := false
  rdLeft : Nat := 0
  stall : Option Nat := none
  hidden : Nat := 0
  shownAt : Nat := 0
  heldBack : Nat := 0
  freeAt : Nat := 0
  owed : List (Nat × Nat × List Nat) := []
deriving DecidableEq, Repr

/-- A ledger request in the engine's hands (R148, R201): the Vat, the cycle of its issue, the opcode, the register that
takes the record number, the key, the record number, the sighting it records, whether a canopy result was missed, and
the answer once served: outcome, status, record number. -/
structure LReq where
  vat : Nat
  at' : Nat
  op : Nat
  rd : RegNo
  key : List Bool := []
  recNo : Nat := 0
  sight : Option Sight := none
  bad : Bool := false
  ans : Option (Oc × Nat × Nat) := none
deriving DecidableEq, Repr

/-- The ledger engine beside its registers (R201 to R203): the requests not yet answered, the host command running
(operation, argument, AGE threshold), and what a stop or rebuild has been asked for: 0 serving, 1 stopping, 2 stopped,
3 rebuilding, and whether RUN = 1 was written while it stops. -/
structure LdgX where
  reqs : List LReq := []
  cmd : Option (Nat × Nat × Nat) := none
  phase : Nat := 0
  again : Bool := false
deriving DecidableEq, Repr

/-- An event in flight in the trails fabric (R360, R361): consumer, channel, generation, cycle published, heartwood then. -/
structure Flight where
  cons : Nat
  ch : Nat
  gen : Nat
  at' : Nat
  hw : Nat := 0
deriving DecidableEq, Repr

/-- The card watch beside its registers (R283, R284): consecutive deviating pulses, consecutive calm pulses, whether a
detection waits for its re-arm, the heartwood tick of the next pulse (0 before the first one since EN was set), and the pulse in
progress: the tick of its start, and the amplitude and phase that it will sample. -/
structure CwX where
  devs : Nat := 0
  calm : Nat := 0
  held : Bool := false
  due : Nat := 0
  pulse : Option (Nat × Nat × Nat) := none
deriving DecidableEq, Repr

/-- The wake receivers beside their registers (R299, R301): the AT tick and the heartwood tick up to which the hold-off of WR433
lasts, and those before which WR433 and WR24 are blanked by a transmission; for WR24 the start of that transmission, and the AT tick up
to which the one before it blanks. -/
structure WkrX where
  hold : Nat := 0
  holdHw : Nat := 0
  blank433 : Nat := 0
  blank433Hw : Nat := 0
  blank24 : Nat := 0
  blank24Hw : Nat := 0
  from24 : Nat := 0
  was24 : Nat := 0
deriving DecidableEq, Repr

/-- A log entry (R402): sequence number, heartwood, severity, block, instance, code, and the detail words stated. -/
structure LogEntry where
  seq : Nat
  hw : Nat
  sev : Nat
  block : Nat
  inst : Nat
  code : Nat
  detail : List Nat
deriving DecidableEq, Repr

/-- The event log (R402): the newest 512 entries in RAM, the MRAM ring of 2,048 with the number of entries ever written to it,
and the ticks of its writes of the last second. -/
structure LogX where
  next : Nat := 1
  ram : List LogEntry := []
  mram : List LogEntry := []
  written : Nat := 0
  rate : List Nat := []
deriving DecidableEq, Repr

/-- An entry to GLADE (target 1) or FALLOW (2) that has not passed the point of no return (R386, R388, R392): how far it is
(0 accepted, 1 signatures stored, 2 latched), LDG_CTRL.RUN at acceptance, the events of wake-source producers that
AON holds, oldest first (producer, generation), and the tick of its acceptance when it was an automatic one. -/
structure Entry where
  target : Nat
  stage : Nat := 0
  run : Bool := true
  held : List (Nat × Nat) := []
  auto : Option Nat := none
deriving DecidableEq, Repr

/-- What AON and PWR hold beside their registers (R364, R388 to R393): the entry in progress, the sleep state past the point
of no return, whether its domains are off, the register file as latched at step 4 of the entry, wakes that arrived before
the domains were off (source, detail, heartwood tick), the signatures of the retained banks, the banks with a missed refresh
interval, and the heartwood tick of the next temperature sample in GLADE. -/
structure PwrX where
  entry : Option Entry := none
  asleep : Option Nat := none
  off : Bool := false
  latch : List (RKey × Nat) := []
  wakes : List (Nat × Nat × Nat) := []
  sigs : List (Nat × Nat) := []
  missed : List Nat := []
  tempAt : Nat := 0
deriving DecidableEq, Repr

/-- The reset-cause latch and what else AON holds for resets (R29, R30, R391, R429): the causes since the first assertion as
bits of SYS_RESET_CAUSE, whether a device reset is asserted, whether a thermal reset holds it, the straps of the last
power-on or pin reset, the wake sources whose events wait for start-up step 9, that RECOVERY has not been ended, whether the
last release was that of a wake, the sleep state that the asserted reset ended with the heartwood tick of its end, that a failed step 2
holds the device in reset, and the tick at which step 9 ended (R424). Power-on reset is asserted in the first state. -/
structure RstX where
  causes : Nat := 1
  asserted : Bool := true
  hot : Bool := false
  straps : Nat := 0
  wakeMask : Option Nat := none
  recovering : Bool := false
  wasWake : Bool := false
  slept : Option (Nat × Nat) := none
  held : Bool := false
  step9 : Nat := 0
deriving DecidableEq, Repr

/-- A joint swap that waits for its Vats (R180): the hoop's index entry, the mask, the tick it gives up, the TAG, the
type of the command. -/
structure Joint where
  entry : Nat
  mask : Nat
  stopAt : Nat
  tag : Nat
  cmd : Nat
deriving DecidableEq, Repr

/-- A hoop load or swap as long as a Ranger reset may still take it back (R182): the tick at which it ends, the index entry made,
ENTRY of each Vat before it, SWAP_PEND, NEW_ENTRY and the cycle of each armed Vat before it, SEQ of its log entry, and the words
written to Q1 before and after its response. -/
structure LoadRun where
  upto : Nat
  entry : Option Nat := none
  ents : List (Nat × Nat) := []
  swaps : List (Nat × Nat × Nat × Nat) := []
  seq : Nat := 0
  q1 : Nat × Nat := (0, 0)
deriving DecidableEq, Repr

/-- The Ranger beside its registers (R182, R399, R400, R406, R411, R412, R417): whether the recovery service runs, whether the
island is in reset, whether JTAG halts it, the open region, the challenge it keeps, the tick from which the next random word is
ready, the tick the trial timer started, the tick of the last watchdog expiry, the RESTARTED cause, a joint swap, the latest
load, the words of RESTARTED while Q1 has no room for it, and the tick up to which the NVM controller writes. -/
structure RgrX where
  recovery : Bool := false
  down : Bool := false
  halted : Bool := false
  stage : Option Nat := none
  challenge : List Byte := []
  trngAt : Nat := 0
  trialFrom : Option Nat := none
  wdTick : Option Nat := none
  cause : Nat := 3
  joint : Option Joint := none
  load : Option LoadRun := none
  announce : Option (List Nat) := none
  busyTill : Nat := 0
deriving DecidableEq, Repr

/-- The host link beside its registers (R23, R430 to R440): the base address in BAR0, the Max_Read_Request_Size set (0 128, 1 256, 2 512
bytes), the subsystem IDs that the ROM loaded, MSI-X enable and function mask, the armed SPI reset, that HLK_LINK_DOWN was logged, the words the last host read returned, and the bytes the device has written to host memory. -/
structure HlkX where
  bar : Nat := 0
  maxRead : Nat := 2
  subsys : Nat := 0
  msixEn : Bool := false
  msixMask : Bool := false
  spiArmed : Bool := false
  downLogged : Bool := false
  read : List Nat := []
  host : List Host.Cell := []
deriving DecidableEq, Repr

/-- A ring timer beside its registers (R345 to R349): the count, φ, the staged high word of CNT, the armed compare values,
the two capture queues, oldest entry first, and the AT tick plus one of the latest change of source (R346). -/
structure RingX where
  cnt : Nat := 0
  phi : Nat := 0
  cntHi : Nat := 0
  cmp : List (Nat × Nat) := []
  cap0 : List Nat := []
  cap1 : List Nat := []
  switched : Nat := 0
deriving DecidableEq, Repr

/-- The PPS input (R353, R354): the last qualifying edge while the next one is judged by its interval, the AT of the last one
that qualified, and the tick of the last PPS_BAD entry plus one. -/
structure PpsX where
  last : Option Nat := none
  stamp : Nat := 0
  badLog : Nat := 0
deriving DecidableEq, Repr

/-- A neighbour beside its registers (R313, R321): the tick of its last authenticated frame on air, the tick its RANK IE was
received last, its time quality, and the short address it names as its parent. -/
structure NbrX where
  heard : Nat := 0
  onAir : Option Nat := none
  rankAt : Option Nat := none
  qual : Nat := 2
  parent : Nat := 0xFFFF
deriving DecidableEq, Repr

/-- A host transmit request the MAC holds (R312, R327): destination, TAG, acknowledgement, factor, payload, the
transmissions made, its frame counter and DSN once sent, and the shared links to let pass. -/
structure MTx where
  dst : Nat
  tag : Nat
  ack : Bool
  sf : Nat
  bytes : List Nat
  made : Nat := 0
  fc : Option Nat := none
  wait : Nat := 0
deriving DecidableEq, Repr

/-- A wake train (R328): the ticks it still lasts, as latched at its GO; whether it has started; whether it takes slots with active
links; and while it holds the radio the tick from which it does. -/
structure Train where
  left : Nat
  started : Bool := false
  all : Bool := false
  here : Option Nat := none
deriving DecidableEq, Repr

/-- The mesh MAC beside its registers (R310 to R328): its ASN with the AT tick of the slot's boundary, the fraction of a
tick carried (10⁻⁸ ticks), the correction to the next boundary, the tick of the last correction, the exponent of the
widened window, a beacon's ASN and boundary that DESYNC takes at the next boundary, the Oluon sub-IEs of the last frame sent with its security level, key index and NACK flag, neighbours and strangers (the tick a stranger was last heard), requests waiting, the request whose
acknowledgement is awaited, the announced key (index, ASN), the confirmed mark, a pending RESCAN, the channel scanned with the tick from which it is,
the wake train, start and end of the radio's last transmission, the frames from a wired port that wait for the end of their slot, the
log's
once-a-second state for each cause (code, tick plus one, count), whether a PPS edge has aligned the root, and the DSN. -/
structure MshX where
  asn : Nat := 0
  bound : Nat := 0
  frac : Int := 0
  adj : Int := 0
  corrAt : Option Nat := none
  widen : Nat := 0
  eb : Option (Nat × Nat) := none
  sent : List Nat := []
  sentLevel : Nat := 0
  sentKey : Nat := 0
  sentNack : Bool := false
  nbr : List (Nat × NbrX) := []
  str : List (Nat × Nat) := []
  txq : List MTx := []
  cur : Option MTx := none
  roll : Option (Nat × Nat) := none
  mark : Nat := 0
  rescan : Bool := false
  scanCh : Nat := 11
  dwellAt : Nat := 0
  train : Option Train := none
  txFrom : Nat := 0
  txEnd : Option Nat := none
  wire : List MshFrame := []
  logs : List (Nat × Nat × Nat) := []
  aligned : Bool := false
  dsn : Nat := 0
deriving DecidableEq, Repr

/-- A wired port beside its registers (R334 to R337): the host frame on the line (TAG, the bytes on it from preamble to FCS), the last
frame of the mesh that it carried, and the log's once-a-second state for each cause (cause, tick plus one, count), and the tick plus one of the
latest link loss (R338). -/
structure SpeX where
  tx : Option (Nat × List Byte) := none
  copy : List Nat := []
  logs : List (Nat × Nat × Nat) := []
  lostAt : Nat := 0
deriving DecidableEq, Repr

end Sys2Proof.Machine
end

