-- ==== Sys2Proof/Machine/State.lean ====
section
/-! DEFINITION. The state of the device as plain data, and the state after reset. -/

namespace Sys2Proof.Machine

/-- The reasons a meaning can stop with a fault. No meaning of this model raises one: a Vat's faults (R118) are a state
of the Vat, and every access that goes nowhere has the answer the spec gives it (R24, R433). Safe. -/
inductive Fault where
  /-- Raised by nobody; a placeholder that keeps the type inhabited. Safe. -/
  | unreachable
deriving DecidableEq, Repr

/-- The reasons a command can be refused. -/
inductive Refusal where
  /-- Raised by the arms of Dispatch.lean that have no meaning yet. Safe. -/
  | notModelled (mnemonic : String)
deriving DecidableEq, Repr

/-- The volatile device: time, the register file, memory, and what each unit holds beside its registers. `stws` are the words
stored by STW in the latest Vat cycle that had one, each with that cycle, the address and the Vat (R104); `bound` and `opened` the BINDs and TOPENs that took something in the latest Vat cycle that had one (R157),
`freeing` the latest host free of an open handle, with its cycle, the handle and the error before it (R157); `idle` the tick from
which each gatable domain has been idle (R382), `busyAt` that from which the device has (R387), `gated` the domain gated last with
the tick and the synthesiser's LOCK before it (R383), and `assigned` the producer whose TRL_PDATA entry was written last, with the Vat
cycle, EN and CH before it (R377). -/
structure Dev where
  clk : Nat := 0
  hw : Nat := 0
  fresh : Nat := 0
  regs : List (RKey × Nat) := []
  mem : List Host.Cell := []
  ecc : List (Nat × Bool) := []
  vat : List (Nat × VatX) := []
  stws : List (Nat × Nat × Nat) := []
  bound : List Won := []
  opened : List Won := []
  freeing : Option (Nat × Nat × Nat) := none
  ch : List (Nat × ChX) := []
  syn : List (Nat × SynX) := []
  shadowGo : Nat := 0
  fe : List (Nat × FeX) := []
  rgu : RguX := {}
  asn : AsnX := {}
  spare : SpareX := {}
  cal : List (Nat × CalRun) := []
  launched : List Before := []
  calGone : Option Before := none
  calCut : Option (Nat × Nat × CalRun) := none
  grp : List (Nat × GrpX) := []
  pcal : PcalX := {}
  q : List (Nat × QX) := []
  flights : List Flight := []
  txPend : List (Nat × Nat) := []
  ldg : LdgX := {}
  cgen : List (Nat × Nat) := []
  loopLog : List (Nat × Nat) := []
  cw : CwX := {}
  duty : List Nat := []
  wkr : WkrX := {}
  log : LogX := {}
  pwr : PwrX := {}
  rst : RstX := {}
  rgr : RgrX := {}
  hlk : HlkX := {}
  ring : List (Nat × RingX) := []
  pps : PpsX := {}
  msh : MshX := {}
  spe : List (Nat × SpeX) := []
  idle : List (Nat × Nat) := []
  busyAt : Nat := 0
  gated : Option (Nat × Nat × Nat) := none
  assigned : Option (Nat × Nat × Nat × Nat) := none
deriving DecidableEq, Repr

/-- What survives power loss (R404 to R418): the life-cycle fuses blown, the serial number and the digest of the vendor root
key in the eFuses with the Vendor ID and the subsystem IDs, the bytes of the MRAM (offsets in its window, the counters region among
them), and the keys of the key store with the KEY_ID of each, as its current slot and as its other slot holds them. -/
structure Nv where
  fuses : Nat := 0
  serial : Nat := 0
  vendor : Nat := 0
  subsys : Nat := 0
  rootDigest : List Byte := []
  mram : List Host.Cell := []
  keys : List (Nat × List Byte) := []
  keysWas : List (Nat × List Byte) := []
deriving DecidableEq, Repr

/-- The state of the block: the commands waiting, first in first out, the non-volatile part and the volatile device; and, for the rules
that order what falls in one moment, the commands of a tick that have run with the device before them (Ties.lean). -/
structure State where
  pending : List Instr
  nv : Nv
  dev : Dev
  same : Option (Dev × List Instr) := none
deriving DecidableEq, Repr

/-- The device right after reset: every register at the value its table gives, every unit at its default, no command
waiting. -/
def State.reset : State := { pending := [], nv := {}, dev := {} }

end Sys2Proof.Machine
end

