-- ==== Sys2Proof/Machine/Ops.lean ====
section
/-! DEFINITION. The named operations over the state: registers, memory, time, the event log, and the per-unit records. -/

namespace Sys2Proof.Machine

/-- A command's effect is on the volatile device alone: the queue and what is non-volatile stay as they are. -/
def State.on (f : Dev → Dev) (s : State) : Host.Outcome State Fault Refusal :=
  .next { s with dev := f s.dev }

/-! ### Registers (R7) -/

/-- The value of a register field: unit `i`, index `j` (0 where the register has none). -/
def Dev.get (d : Dev) (f : Fld) (i : Nat := 0) (j : Nat := 0) : Nat :=
  fget (fun k : RKey => k.f.reset k.i k.j) d.regs ⟨f, i, j⟩

/-- A register field set to a value, cut to the field's width. -/
def Dev.put (d : Dev) (f : Fld) (v : Nat) (i : Nat := 0) (j : Nat := 0) : Dev :=
  { d with regs := fset (fun k : RKey => k.f.reset k.i k.j) RKey.rank d.regs ⟨f, i, j⟩ (v % 2 ^ f.width) }

/-- A field incremented, saturating at its full width. -/
def Dev.inc (d : Dev) (f : Fld) (i : Nat := 0) (j : Nat := 0) : Dev :=
  d.put f (min (d.get f i j + 1) (2 ^ f.width - 1)) i j

/-- A field incremented, wrapping. -/
def Dev.incWrap (d : Dev) (f : Fld) (i : Nat := 0) (j : Nat := 0) : Dev :=
  d.put f (d.get f i j + 1) i j

/-- Whether a one-bit field is set. -/
def Dev.isSet (d : Dev) (f : Fld) (i : Nat := 0) (j : Nat := 0) : Bool := d.get f i j != 0

/-- Bit `n` of a number. -/
def bitOf (v n : Nat) : Bool := v / 2 ^ n % 2 == 1

/-- Bits [hi:lo] of a number. -/
def bitsOf (v hi lo : Nat) : Nat := v / 2 ^ lo % 2 ^ (hi + 1 - lo)

/-- A two's complement number of `w` bits as an integer. -/
def signedOf (w v : Nat) : Int := if v % 2 ^ w < 2 ^ (w - 1) then (v % 2 ^ w : Nat) else (v % 2 ^ w : Nat) - (2 ^ w : Nat)

/-- An integer as a two's complement number of `w` bits. -/
def toSigned (w : Nat) (v : Int) : Nat := (v % (2 ^ w : Nat)).toNat

/-! ### Memory (R23, R5: little-endian) -/

/-- What a byte of memory reads as while nothing has been written there: 0 (assumption: DESIGN CHOICE, the spec gives the
memories no reset value), but the vector control of an MSI-X table entry, whose mask bit is 1 in the standard layout that
R432 names (assumption: PRESUMED). -/
def memDefault (a : Nat) : Byte := if 0x40261000 ≤ a ∧ a < 0x40261200 ∧ a % 16 = 12 then 1 else 0

/-- One byte of memory. -/
def Dev.byte (d : Dev) (a : Nat) : Byte := fget memDefault d.mem a

/-- One byte written. -/
def Dev.setByte (d : Dev) (a : Nat) (b : Byte) : Dev :=
  { d with mem := fset memDefault id d.mem a b }

/-- A 32-bit word of memory, little-endian. -/
def Dev.word (d : Dev) (a : Nat) : Nat :=
  (d.byte a).toNat + 256 * ((d.byte (a + 1)).toNat + 256 * ((d.byte (a + 2)).toNat + 256 * (d.byte (a + 3)).toNat))

/-- A 32-bit word written, little-endian. -/
def Dev.setWord (d : Dev) (a : Nat) (v : Nat) : Dev :=
  (((d.setByte a (BitVec.ofNat 8 v)).setByte (a + 1) (BitVec.ofNat 8 (v / 256))).setByte (a + 2)
    (BitVec.ofNat 8 (v / 65536))).setByte (a + 3) (BitVec.ofNat 8 (v / 16777216))

/-- Consecutive words written. -/
def Dev.setWords (d : Dev) (a : Nat) : List Nat → Dev
  | [] => d
  | w :: ws => (d.setWord a w).setWords (a + 4) ws

/-- Consecutive bytes written. -/
def Dev.setBytes (d : Dev) (a : Nat) : List Byte → Dev
  | [] => d
  | b :: bs => (d.setByte a b).setBytes (a + 1) bs

/-- Consecutive words read. -/
def Dev.words (d : Dev) (a : Nat) : Nat → List Nat
  | 0 => []
  | n + 1 => d.word a :: d.words (a + 4) n

/-- Consecutive bytes read. -/
def Dev.bytes (d : Dev) (a : Nat) : Nat → List Byte
  | 0 => []
  | n + 1 => d.byte a :: d.bytes (a + 1) n

/-- The canonical form of memory: addresses strictly rising, no byte equal to what an unlisted address reads as. -/
def memWf : List Host.Cell → Bool
  | [] => true
  | [(a, b)] => b != memDefault a
  | (a, b) :: (a', b') :: m => b != memDefault a && decide (a < a') && memWf ((a', b') :: m)

/-- Data SRAM holds the word-aligned range of `n` words at byte address `a` (R103, R145, R149, R152, R155). -/
def sramWords (a n : Nat) : Bool := a % 4 == 0 && decide (0x100000 ≤ a) && decide (a + 4 * n ≤ 0x180000)

/-! ### The records of units -/

/-- The record of Vat `v`. -/
def Dev.vatx (d : Dev) (v : Nat) : VatX := fget (fun _ => {}) d.vat v
/-- The record of Vat `v` replaced. -/
def Dev.setVat (d : Dev) (v : Nat) (x : VatX) : Dev := { d with vat := fset (fun _ => {}) id d.vat v x }
/-- The record of port `c`: chain 0 to 7, US 8, HF 9, ACT 10. -/
def Dev.chx (d : Dev) (c : Nat) : ChX := fget (fun _ => {}) d.ch c
/-- The record of port `c` replaced. -/
def Dev.setCh (d : Dev) (c : Nat) (x : ChX) : Dev := { d with ch := fset (fun _ => {}) id d.ch c x }
/-- The record of synthesiser `m`. -/
def Dev.synx (d : Dev) (m : Nat) : SynX := fget (fun _ => {}) d.syn m
/-- The record of synthesiser `m` replaced. -/
def Dev.setSyn (d : Dev) (m : Nat) (x : SynX) : Dev := { d with syn := fset (fun _ => {}) id d.syn m x }
/-- The guard's account of front end `n`. -/
def Dev.fex (d : Dev) (n : Nat) : FeX := fget (fun _ => {}) d.fe n
/-- The guard's account of front end `n` replaced. -/
def Dev.setFe (d : Dev) (n : Nat) (x : FeX) : Dev := { d with fe := fset (fun _ => {}) id d.fe n x }
/-- The record of canopy group `k`. -/
def Dev.grpx (d : Dev) (k : Nat) : GrpX := fget (fun _ => {}) d.grp k
/-- The record of canopy group `k` replaced. -/
def Dev.setGrp (d : Dev) (k : Nat) (x : GrpX) : Dev := { d with grp := fset (fun _ => {}) id d.grp k x }
/-- The record of queue `q`. -/
def Dev.qx (d : Dev) (q : Nat) : QX := fget (fun _ => {}) d.q q
/-- The record of queue `q` replaced. -/
def Dev.setQ (d : Dev) (q : Nat) (x : QX) : Dev := { d with q := fset (fun _ => {}) id d.q q x }

/-! ### Time (R20, R112, R342) -/

/-- The present AT tick. -/
def Dev.tick (d : Dev) : Nat := d.clk / 2

/-- Time moved on to Vat cycle `c` (never back); heartwood counts the edges that fall in between. -/
def Dev.toClk (d : Dev) (c : Nat) : Dev :=
  if d.clk < c then
    { d with clk := c, hw := (d.hw + Config.heartwoodEdges d.hw (d.clk / 2) (c / 2)) % 2 ^ 48 }
  else d

/-- Time moved on to phase 0 of tick `t` (never back). -/
def Dev.toTick (d : Dev) (t : Nat) : Dev := d.toClk (2 * t)

/-- What happens as of tick `t`, done now: the device's time stays where it is. -/
def Dev.asOf (d : Dev) (t : Nat) (f : Dev → Dev) : Dev := { f (d.toTick t) with clk := d.clk, hw := d.hw }

/-- AT counts: no device reset is asserted and the device is not past an entry's point of no return (R341, R343). -/
def Dev.atCounts (d : Dev) : Bool := !d.rst.asserted && d.pwr.asleep.isNone

/-- An empty queue: AT advances by one tick while it counts; nothing else happens (assumption: DESIGN CHOICE). -/
def State.idle (s : State) : State :=
  if s.dev.atCounts then { s with dev := s.dev.toTick (s.dev.tick + 1) } else s

/-- Microseconds as AT ticks (153.6 ticks each), rounded to the nearest tick (assumption: DEDUCED). -/
def usTicks (us : Nat) : Nat := (us * 1536 + 5) / 10

/-- Milliseconds as AT ticks. -/
def msTicks (ms : Nat) : Nat := ms * 153600

/-- A free value, and the device with the next one to come. -/
def Dev.free (d : Dev) (f : Fld) (i : Nat := 0) (j : Nat := 0) : Dev :=
  { d with fresh := d.fresh + 1 }.put f (Config.freeValue d.fresh).toNat i j

/-! ### Conditions every unit asks -/

/-- The life-cycle state allows development accesses: MANUFACTURE or DEVELOP (R7, R462). While a device reset is asserted no
state has been read from the fuses yet (R414), and nothing is open. -/
def Dev.open' (d : Dev) : Bool := !d.rst.asserted && decide (d.get LCS_STATE.STATE < 2)

/-- An entry to GLADE or FALLOW runs, before its point of no return or past it: STATE reads ENTERING (R388). -/
def Dev.entering (d : Dev) : Bool := d.pwr.entry.isSome || d.pwr.asleep.isSome

/-- Island `k` answered the roll call (R19, R425). Before the roll call every island answers. -/
def Dev.present (d : Dev) (k : Nat) : Bool := !bitOf (d.get SYS_ROLL.MISSING) k

/-- The reading of a temperature sensor, once the Ranger reads them: a measurement, so a free value (R423). -/
def Dev.sensorTemp (d : Dev) (k : Nat) : Nat :=
  if d.rgr.down || !bitOf (d.get SYS_STEP.DONE) 2 then 0x800 else (Config.sensorTemp k d.tick).toNat

/-! ### The event log (R402) -/

/-- An entry appended to a ring that keeps the newest `n`. -/
def ringKeep (n : Nat) (l : List LogEntry) (e : LogEntry) : List LogEntry :=
  let l' := l ++ [e]
  l'.drop (l'.length - n)

/-- A log entry: SEV 2 and above also goes to the MRAM ring, at most 16 entries in any second; beyond that DROPPED counts. -/
def Dev.logSev (d : Dev) (sev block inst code : Nat) (detail : List Nat := []) : Dev :=
  let e : LogEntry := { seq := d.log.next % 2 ^ 32, hw := d.hw, sev, block, inst, code, detail }
  let l : LogX := { d.log with next := d.log.next + 1, ram := ringKeep 512 d.log.ram e }
  let rate : List Nat := l.rate.filter (fun t => decide (d.tick < t + msTicks 1000))
  if sev < 2 then { d with log := l }
  else if rate.length < 16 then
    { d with log := { l with mram := ringKeep 2048 l.mram e, written := l.written + 1, rate := rate ++ [d.tick] } }
  else { d with log := l }.inc MGT_LOG_CNT.DROPPED

/-- What an earlier chapter says is logged: SEV 2 (R402). -/
def Dev.logWarn (d : Dev) (block inst code : Nat) (detail : List Nat := []) : Dev :=
  d.logSev 2 block inst code detail

/-- A refusal of a host action: SEV 1 (R402). -/
def Dev.logRefusal (d : Dev) (block inst code : Nat) (detail : List Nat := []) : Dev :=
  d.logSev 1 block inst code detail

/-! ### The host link (R433) -/

/-- The words that a host read returns. -/
def Dev.answers (d : Dev) (ws : List Nat) : Dev := { d with hlk := { d.hlk with read := ws } }

/-- A host link error (R433): the code and the address of the first one since HLK_ERR was cleared, and the count. -/
def Dev.hlkErr (d : Dev) (code addr : Nat) : Dev :=
  let d := if d.get HLK_ERR.COUNT = 0 then (d.put HLK_ERR.CODE code).put HLK_ERRADDR.ADDR addr else d
  d.inc HLK_ERR.COUNT

/-- The code of a host link error for a missing island: the spec names none; it is one of the host link's group (R11). -/
def stIsland : Nat := Config.codeIn 0x08 40

/-- The units of island `k` can act: the island is there (R19), and the device is not past an entry's point of no return, from which
on unpowered domains are clamped to no request (R384). -/
def Dev.live (d : Dev) (k : Nat) : Bool := d.present k && d.pwr.asleep.isNone

/-- The idle timer of domain number `n` starts anew at tick `t` (R382). -/
def Dev.touchNo (d : Dev) (n t : Nat) : Dev := { d with idle := fset (fun _ => 0) id d.idle n t }

/-- A condition of an entry does not hold up to tick `t` (R386, R387). -/
def Dev.busyBy (d : Dev) (t : Nat) : Dev := { d with busyAt := max d.busyAt t }

/-- What happens in island `k`: nothing where it cannot act. -/
def State.onUnit (k : Nat) (f : Dev → Dev) (s : State) : Host.Outcome State Fault Refusal :=
  s.on (fun d => if d.live k then f d else d)

/-- A bit cleared. -/
def clearBit (x k : Nat) : Nat := if bitOf x k then x - 2 ^ k else x

/-- Bit `k` of a field set or cleared. -/
def Dev.putBit (d : Dev) (f : Fld) (k : Nat) (b : Bool) : Dev :=
  let x := clearBit (d.get f) k
  d.put f (x + if b then 2 ^ k else 0)

/-- A fold of a device operation over a list. -/
def Dev.each {α : Type} (d : Dev) (l : List α) (f : Dev → α → Dev) : Dev := l.foldl f d

end Sys2Proof.Machine
end

