-- ==== Sys2Proof/Machine/Trails.lean ====
section
/-! DEFINITION. Trails: publishing on a channel, the rights of channels, and what a consumer does with a trigger
(R359 to R366). -/

namespace Sys2Proof.Machine

/-! Producer IDs (table "Producers"). -/
/-- Producer of Vat faults. -/ def evVatFault (v : Nat) : Nat := v
/-- Producer of Vat swaps. -/ def evVatSwap (v : Nat) : Nat := 0x10 + v
/-- Producer of late WAITAs. -/ def evVatLate (v : Nat) : Nat := 0x20 + v
/-- Producer of chain trips. -/ def evUhfTrip (c : Nat) : Nat := 0x30 + c
/-- Producer of unlocks. -/ def evSynUnlock (m : Nat) : Nat := 0x39 + m
/-- Producer of shadow hand-overs. -/ def evSynShadow : Nat := 0x3D
/-- Producer of spare takeovers. -/ def evSpareTake : Nat := 0x3E
/-- Producer of spare releases. -/ def evSpareRelease : Nat := 0x3F
/-- Producer of calibration ends. -/ def evCalDone : Nat := 0x40
/-- Producer of phase-reference ends. -/ def evBrgPcal : Nat := 0x41
/-- Producer of guard refusals. -/ def evRguRefuse : Nat := 0x42
/-- Producer of guard endings. -/ def evRguEnd : Nat := 0x43
/-- Producer of profile activations. -/ def evRguProfile : Nat := 0x44
/-- Producer of posted completions. -/ def evTxnPosted : Nat := 0x45
/-- Producer of pended completions. -/ def evTxnPended : Nat := 0x46
/-- Producer of new records. -/ def evLdgNew : Nat := 0x47
/-- Producer of ledger commands. -/ def evLdgCmd : Nat := 0x48
/-- Producer of poisoned banks. -/ def evLdgStale : Nat := 0x49
/-- Producer of HF trips. -/ def evHfrTrip : Nat := 0x4A
/-- Producer of card detections. -/ def evHfrCard : Nat := 0x4B
/-- Producer of ACT trips. -/ def evActTrip : Nat := 0x4C
/-- Producer of WR433 matches. -/ def evWkr433 : Nat := 0x4D
/-- Producer of WR24 matches. -/ def evWkr24 : Nat := 0x4E
/-- Producer of time-source changes. -/ def evMshTsrc : Nat := 0x50
/-- Producer of desynchronisations. -/ def evMshDesync : Nat := 0x51
/-- Producer of synchronisations. -/ def evMshSync : Nat := 0x52
/-- Producer of joins. -/ def evMshJoined : Nat := 0x53
/-- Producer of strangers. -/ def evMshStranger : Nat := 0x54
/-- Producer of ended wake trains. -/ def evMshWakeDone : Nat := 0x55
/-- Producer of wired links up. -/ def evSpeUp (n : Nat) : Nat := 0x56 + 2 * n
/-- Producer of wired links down. -/ def evSpeDown (n : Nat) : Nat := 0x57 + 2 * n
/-- Producer of ring compares. -/ def evRingCmp (n k : Nat) : Nat := 0x60 + 4 * n + k
/-- Producer of capture overflows. -/ def evRingCapOvf (n : Nat) : Nat := 0x80 + n
/-- Producer of PPS lock. -/ def evPpsLock : Nat := 0x88
/-- Producer of PPS loss. -/ def evPpsLost : Nat := 0x89
/-- Producer of AT restores. -/ def evAtRestored : Nat := 0x8A
/-- Producer of queue pointer resets. -/ def evQmxPtr : Nat := 0x8B
/-- Producer of wakes. -/ def evPwrWake : Nat := 0x8C
/-- Producer of cancelled entries. -/ def evPwrCancel : Nat := 0x8D
/-- Producer of start-up steps, k from 1. -/ def evSysStep (k : Nat) : Nat := 0x8F + k

/-- A producer ID the table "Producers" lists (R365). -/
def producerListed (id : Nat) : Bool :=
  id < 0x4F || (0x50 ≤ id && id < 0x5A) || (0x60 ≤ id && id < 0x8E) || (0x90 ≤ id && id < 0x9D)

/-- A producer the table "Producers" marks AON (R364, R365). -/
def producerAon (id : Nat) : Bool := id == evHfrCard || id == evWkr433 || id == evWkr24

/-- A consumer ID the table "Consumers" lists (R366). -/
def consumerListed (id : Nat) : Bool := id < 0x7C

/-- Whether consumer `id` subscribes to channel `ch` (R360). -/
def Dev.subscribes (d : Dev) (id ch : Nat) : Bool :=
  if ch < 32 then bitOf (d.get TRL_CMASK_LO.MASK 0 id) ch else bitOf (d.get TRL_CMASK_HI.MASK 0 id) (ch - 32)

/-- Every consumer ID of the table "Consumers". -/
def consumerIds : List Nat := List.range 0x7C

/-- One more flight; events of several producers that fall on one channel in the same cycle are one event, with the
highest generation (R360). -/
def addFlight (f : Flight) : List Flight → List Flight
  | [] => [f]
  | g :: gs =>
    if g.cons = f.cons ∧ g.ch = f.ch ∧ g.at' = f.at' then { g with gen := max g.gen f.gen } :: gs
    else g :: addFlight f gs

/-- An event on channel `ch` at generation `gen` (R360, R362): generation 7 is dropped at its source with LOOP, LOOPS
and a TRL_LOOP log entry (block 0x03), the last at most once a second per channel. -/
def Dev.publishCh (d : Dev) (ch gen : Nat) : Dev :=
  if gen < 7 then
    let d := d.put TRL_CH.SEEN 1 0 ch
    let subs := consumerIds.filter (fun id => d.subscribes id ch)
    { d with flights := subs.foldl (fun fs id => addFlight ⟨id, ch, gen, d.clk, d.hw⟩ fs) d.flights }
  else
    let d := (d.put TRL_CH.LOOP 1 0 ch).inc TRL_DROP.LOOPS
    let last := fget (fun _ => 0) d.loopLog ch
    if last = 0 ∨ last + msTicks 1000 ≤ d.tick + 1 then
      { (d.logWarn 0x03 ch 0x0901) with loopLog := fset (fun _ => 0) id d.loopLog ch (d.tick + 1) }
    else d

/-- EN and CH that the TRL_PDATA entry of producer `id` had until it was written in this cycle (R377). -/
def Dev.entryWas (d : Dev) (id : Nat) : Option (Nat × Nat) :=
  (d.assigned.filter (fun a => a.1 == id && a.2.1 == d.clk)).map (fun a => a.2.2)

/-- An event of hardware producer `id` at generation `gen` goes to the channel its TRL_PDATA entry names while EN is 1
(R360). One of generation 7 in the cycle of a reassignment is dropped on the old channel (R377). -/
def Dev.deliverAs (d : Dev) (id gen : Nat) : Dev :=
  let p := if gen < 7 then none else d.entryWas id
  match p with
  | some (en, ch) => if en = 1 then d.publishCh ch gen else d
  | none => if d.isSet TRL_PDATA.EN 0 id then d.publishCh (d.get TRL_PDATA.CH 0 id) gen else d

/-- An event of hardware producer `id` that no task triggered: generation 0 (R360, R362). During an entry the AON latch takes
the events of wake-source producers in place of delivery (R388). -/
def Dev.publish (d : Dev) (id : Nat) : Dev :=
  match d.pwr.entry with
  | some e =>
    if producerAon id then { d with pwr := { d.pwr with entry := some { e with held := e.held ++ [(id, 0)] } } }
    else d.deliverAs id 0
  | none => d.deliverAs id 0

/-- The island a consumer belongs to: Vats and rings AIR, interrupts HLK, Ranger inputs RGR, wake consumers AON. -/
def consumerIsland (id : Nat) : Nat :=
  if id < 0x40 then 2 else if id < 0x60 then 4 else if id < 0x70 then 2 else if id < 0x78 then 1 else 0

/-- A trigger set at a consumer that keeps one pending trigger (R92, R363): a busy consumer sets OVR and keeps the highest
generation, as a merged trigger does (assumption: DEDUCED); a merged trigger
(several channels in one consumer cycle) increments MERGE, and its first 15 is logged. -/
def Dev.trigger (d : Dev) (id gen : Nat) (merged : Bool) : Dev :=
  let d := if merged then
      let d' := d.inc TRL_CSTAT.MERGE 0 id
      if d.get TRL_CSTAT.MERGE 0 id = 14 then d'.logWarn 0x03 id 0x0902 else d'
    else d
  if d.isSet TRL_CSTAT.PEND 0 id then
    let d := d.put TRL_CSTAT.OVR 1 0 id
    { d with cgen := fset (fun _ => 0) (fun k => k) d.cgen id (max gen (fget (fun _ => 0) d.cgen id)) }
  else
    let d := d.put TRL_CSTAT.PEND 1 0 id
    { d with cgen := fset (fun _ => 0) (fun k => k) d.cgen id gen }

/-- The pending trigger of a consumer and its generation are cleared when it is served. -/
def Dev.served (d : Dev) (id : Nat) : Dev :=
  { (d.put TRL_CSTAT.PEND 0 0 id) with cgen := fset (fun _ => 0) (fun k => k) d.cgen id 0 }

/-- Whether Vat `v` may publish on channel `ch` (R154, R359): the channel is OPEN and owned by the Vat's own group, the
host or the Ranger. -/
def Dev.vatMayPost (d : Dev) (v ch : Nat) : Bool :=
  !d.isSet TRL_CH.SECURE 0 ch &&
    (d.get TRL_CH.OWNER 0 ch < 2 || d.get TRL_CH.OWNER 0 ch == 4 + v / 4)

/-- Whether consumer `id` may subscribe to channel `ch` (R359, table "Channel rights"); `ranger` is who configures. -/
def Dev.maySubscribe (d : Dev) (ranger : Bool) (id ch : Nat) : Bool :=
  if d.isSet TRL_CH.SECURE 0 ch then ranger && decide (0x70 ≤ id)
  else if d.get TRL_CH.OWNER 0 ch < 2 then true
  else if id < 0x40 then d.get TRL_CH.OWNER 0 ch == 4 + id / 16 else true

end Sys2Proof.Machine
end

