-- ==== Sys2Proof/Machine/Queues.lean ====
section
/-! DEFINITION. The hardware queues: storage, pointers, items, flush, mark and rewind (R367 to R376). -/

namespace Sys2Proof.Machine

/-! Status codes of the queue group (R12, R158, R378). -/
/-- Q_MARK_LOST. -/ def stQMarkLost : Nat := 0x0501
/-- Q_TORN. -/ def stQTorn : Nat := 0x0502
/-- Q_PTR_MISMATCH. -/ def stQPtr : Nat := 0x0503
/-- Q_EMPTY_TIMEOUT. -/ def stQEmpty : Nat := 0x0504
/-- Q_FULL. -/ def stQFull : Nat := 0x0505
/-- Q_DENIED. -/ def stQDenied : Nat := 0x0506
/-- Q_CFG. -/ def stQCfg : Nat := 0x0507

/-! Endpoint codes (R380). -/
/-- The host. -/ def epHost : Nat := 0x10
/-- The Ranger. -/ def epRanger : Nat := 0x11
/-- The transaction engine. -/ def epTxn : Nat := 0x12
/-- The MSH MAC. -/ def epMsh : Nat := 0x13
/-- Wired port `n`. -/ def epSpe (n : Nat) : Nat := 0x14 + n

/-- A queue is enabled. -/
def Dev.qEn (d : Dev) (k : Nat) : Bool := d.isSet QMX_Q_BASE.EN k
/-- A queue's size in words. -/
def Dev.qSize (d : Dev) (k : Nat) : Nat := 2 ^ d.get QMX_Q_BASE.LOG2SZ k
/-- The byte address of a queue's storage (R368). -/
def Dev.qAddr (d : Dev) (k : Nat) : Nat := 0x100000 + 64 * d.get QMX_Q_BASE.BASE k
/-- The producer endpoint. -/
def Dev.qProd (d : Dev) (k : Nat) : Nat := d.get QMX_Q_EP.PROD k
/-- The consumer endpoint. -/
def Dev.qCons (d : Dev) (k : Nat) : Nat := d.get QMX_Q_EP.CONS k
/-- The words whose space is free: those a running QPOP copy has taken are not yet (R156). -/
def Dev.qFreed (d : Dev) (k : Nat) : Nat :=
  let x := d.qx k
  if d.clk < x.freeAt then x.freed - x.heldBack else x.freed
/-- The words of complete items: those of a running QPUSH copy are not yet visible (R155, R369). -/
def Dev.qVis (d : Dev) (k : Nat) : Nat :=
  let x := d.qx k
  if d.clk < x.shownAt then x.vis - x.hidden else x.vis
/-- Free words of a queue (R370). -/
def Dev.qFree (d : Dev) (k : Nat) : Nat := if d.isSet QMX_Q_BASE.EN k then d.qSize k - ((d.qx k).prod - d.qFreed k) else 0
/-- Visible words of a queue (R369, R370). -/
def Dev.qFill (d : Dev) (k : Nat) : Nat := d.qVis k - (d.qx k).cons
/-- An item waits for the consumer. -/
def Dev.qReady (d : Dev) (k : Nat) : Bool := decide ((d.qx k).cons < d.qVis k)
/-- A Vat's QPUSH copy into the queue is running. -/
def Dev.qCopying (d : Dev) (k : Nat) : Bool := decide (d.clk < (d.qx k).shownAt) && decide (0 < (d.qx k).hidden)

/-- An item's header word (R369). -/
def qHeader (type len : Nat) : Nat := 0x80000000 + type % 256 * 65536 + len % 65536

/-- The word of a queue's storage at an absolute position. -/
def Dev.qWord (d : Dev) (k pos : Nat) : Nat := d.word (d.qAddr k + 4 * (pos % d.qSize k))

/-- A mark the producer's pointer has reached is no longer valid (R376). -/
def Dev.qMarkCheck (d : Dev) (k : Nat) : Dev :=
  match (d.qx k).mark with
  | some m => if m + d.qSize k ≤ (d.qx k).prod then d.setQ k { d.qx k with mark := none } else d
  | none => d

/-- One word stored at the producer pointer. -/
def Dev.qStore (d : Dev) (k w : Nat) : Dev :=
  let p := (d.qx k).prod
  let d := d.setWord (d.qAddr k + 4 * (p % d.qSize k)) w
  (d.setQ k { d.qx k with prod := p + 1 }).qMarkCheck k

/-- Words stored one after another. -/
def Dev.qStoreAll (d : Dev) (k : Nat) : List Nat → Dev
  | [] => d
  | w :: ws => (d.qStore k w).qStoreAll k ws

/-- The host reads one word at the consumer pointer, the header of an item first (R371); the item's space is free when its
last word is read (R369). -/
def Dev.qHostTake (d : Dev) (k : Nat) : Dev :=
  let x := d.qx k
  let w := d.qWord k x.cons
  let n := if x.rdLeft = 0 then bitsOf w 15 0 else x.rdLeft - 1
  (d.setQ k { x with cons := x.cons + 1, rdLeft := n, stall := none,
                     freed := if n = 0 then x.cons + 1 else x.freed }).answers [w]

/-- The words written so far become visible as whole items; a host read that stalls on POP completes (R373). -/
def Dev.qComplete (d : Dev) (k : Nat) : Dev :=
  let d := d.setQ k { d.qx k with vis := (d.qx k).prod, left := none, drop := false }
  if (d.qx k).stall.isSome && decide ((d.qx k).cons < (d.qx k).vis) then d.qHostTake k else d

/-- A host read that stalls on POP completes where an item has become visible meanwhile (R373). -/
def Dev.qHostDue (d : Dev) (k : Nat) : Dev := if (d.qx k).stall.isSome && d.qReady k then d.qHostTake k else d

/-- A whole item of a Vat's QPUSH that becomes visible when its copy ends, at cycle `c` (R155, R369). -/
def Dev.qPushAt (d : Dev) (k type : Nat) (words : List Nat) (c : Nat) : Dev :=
  let d := d.qStoreAll k (qHeader type words.length :: words)
  d.setQ k { d.qx k with vis := (d.qx k).prod, left := none, drop := false, hidden := words.length + 1, shownAt := c }

/-- A whole item enters a queue (R369). The caller has checked the room. -/
def Dev.qPush (d : Dev) (k type : Nat) (words : List Nat) : Dev :=
  (d.qStoreAll k (qHeader type words.length :: words)).qComplete k

/-- A queue can take an item of `n` payload words from endpoint `ep` now. -/
def Dev.qTakes (d : Dev) (k ep n : Nat) : Bool :=
  k < 48 && d.qEn k && d.qProd k == ep && decide (n + 1 ≤ d.qFree k)

/-- The header of the oldest item. -/
def Dev.qHead (d : Dev) (k : Nat) : Nat := d.qWord k (d.qx k).cons

/-- The payload of the oldest item. -/
def Dev.qBody (d : Dev) (k : Nat) : List Nat :=
  (List.range (bitsOf (d.qHead k) 15 0)).map (fun i => d.qWord k ((d.qx k).cons + 1 + i))

/-- The oldest item is taken whole and its space freed (R369). -/
def Dev.qDrop (d : Dev) (k : Nat) : Dev :=
  let c := (d.qx k).cons + 1 + bitsOf (d.qHead k) 15 0
  d.setQ k { d.qx k with cons := c, freed := c }

/-- The items of a queue are discarded, a partial one torn, and the mark invalidated (R372, R375). The second component
tells whether an item was torn. -/
def Dev.qDiscard (d : Dev) (k : Nat) : Dev × Bool :=
  let x := d.qx k
  let torn := (x.left.isSome && !x.drop) || d.qCopying k
  (d.setQ k { x with prod := x.vis, cons := x.vis, freed := x.vis, mark := none, drop := x.left.isSome, rdLeft := 0,
                     hidden := 0, shownAt := 0, heldBack := 0, freeAt := 0 },
   torn)

/-- FLUSH (R375). -/
def Dev.qFlush (d : Dev) (k : Nat) : Dev :=
  let (d, torn) := d.qDiscard k
  if torn then (d.put QMX_Q_STAT.LAST stQTorn k).put QMX_Q_STAT.TORN 1 k else d.put QMX_Q_STAT.LAST 0 k

/-- Both pointers go to 0 and everything is discarded (R374): a partial item is torn. -/
def Dev.qReset (d : Dev) (k : Nat) : Dev :=
  let (d, torn) := d.qDiscard k
  let d := if torn then d.put QMX_Q_STAT.TORN 1 k else d
  d.setQ k { d.qx k with prod := 0, vis := 0, cons := 0, freed := 0 }

/-- The status items that units owe to a queue enter it, oldest first, as far as it has room. -/
def Dev.qPayAll (d : Dev) (k : Nat) : List (Nat × Nat × List Nat) → Dev
  | [] => d.setQ k { d.qx k with owed := [] }
  | (ep, type, ws) :: l =>
    if d.qTakes k ep ws.length then (d.qPush k type ws).qPayAll k l else d.setQ k { d.qx k with owed := (ep, type, ws) :: l }

/-- RESTARTED is posted on Q1 before any command is served, as soon as Q1 has room for it (R400). -/
def Dev.announced (d : Dev) : Dev :=
  match d.rgr.announce with
  | some ws =>
    if d.rgr.down = false ∧ d.qTakes 1 epRanger ws.length = true then
      let e := d.qPush 1 0xFF ws
      { e with rgr := { e.rgr with announce := none } }
    else d
  | none => d

/-- Space has come free in queue `k`: what is owed to it enters. -/
def Dev.qPay (d : Dev) (k : Nat) : Dev :=
  let d := if (d.qx k).owed.isEmpty then d else d.qPayAll k (d.qx k).owed
  if k = 1 then d.announced else d

/-- A status item that a unit owes for a request (R327, R335): it enters the queue, where needed once there is room for it. A queue
that is not enabled, or has another producer, takes none. -/
def Dev.qOwe (d : Dev) (k ep type : Nat) (words : List Nat) : Dev :=
  if d.qEn k && d.qProd k == ep then d.qPayAll k ((d.qx k).owed ++ [(ep, type, words)]) else d

/-- A delivery by a unit that is a producer: pushed where the queue takes it, else the device is unchanged and the
answer is false. -/
def Dev.qDeliver (d : Dev) (k ep type : Nat) (words : List Nat) : Dev × Bool :=
  if d.qTakes k ep words.length then (d.qPush k type words, true) else (d, false)

end Sys2Proof.Machine
end

