-- ==== Sys2Proof/Machine/Guard.lean ====
section
/-! DEFINITION. The regulatory guard: the active profile, the launch checks, the accounts of the front ends
(R255 to R268), and the mirror of the mesh slot count its slot-edge guards follow (R317). -/

namespace Sys2Proof.Machine

/-! ### Who carries a front end (R63, R250) -/

/-- The working chain whose front end US carries at tick `t`: the one before the last change of SPSELn, or the one from it on
(R54, R246). -/
def Dev.attachedAt (d : Dev) (t : Nat) : Option Nat := if t < d.spare.selAt then d.spare.was else d.spare.now

/-- The working chain whose front end US carries. -/
def Dev.attached (d : Dev) : Option Nat := d.attachedAt d.tick

/-- US carries `now` from tick `t` on (R54). -/
def Dev.setAttached (d : Dev) (now : Option Nat) (t : Nat) : Dev :=
  { d with spare := { d.spare with was := d.attached, now := now, selAt := t } }

/-- The front end that UHFS_SPARE.ATTACHED names at tick `t`: from the change of SPSELn in a takeover to the end of the
switch-over of a release (R63, R248, R249). -/
def Dev.namedFe (d : Dev) (t : Nat) : Option Nat :=
  if t < d.spare.selAt then d.spare.was
  else if d.get UHFS_SPARE.ATTACHED < 8 then some (d.get UHFS_SPARE.ATTACHED) else none

/-- The chain electronics (0 to 7, or 8 for US) that carry front end `n`. -/
def Dev.carrierOf (d : Dev) (n : Nat) : Nat := if d.attached = some n then 8 else n

/-- The front end that electronics `c` carry at tick `t`: none for an unattached US and for a detached working chain. -/
def Dev.feAt (d : Dev) (c t : Nat) : Option Nat :=
  if c = 8 then d.attachedAt t else if d.attachedAt t = some c then none else some c

/-- The front end that electronics `c` carry. -/
def Dev.feOf (d : Dev) (c : Nat) : Option Nat := d.feAt c d.tick

/-- The UHFn registers that set electronics `c` at tick `t`: US takes those of the chain that ATTACHED names, and its own while
it names none (R63). -/
def Dev.cfgAt (d : Dev) (c t : Nat) : Nat := if c = 8 then (d.namedFe t).getD 8 else c

/-- The UHFn registers that set electronics `c`. -/
def Dev.cfg (d : Dev) (c : Nat) : Nat := d.cfgAt c d.tick

/-- The synthesiser electronics `c` select (R34, R250). -/
def Dev.synOf (d : Dev) (c : Nat) : Nat := d.get UHF_CTRL.SYN_SEL (d.cfg c)

/-- The members of canopy group `k` as a list of chain numbers. -/
def Dev.members (d : Dev) (k : Nat) : List Nat :=
  (List.range 8).filter (fun n => bitOf (d.get BRG_CAN_CFG.MEMBERS k) n)

/-- Canopy group `k` is enabled. -/
def Dev.grpEn (d : Dev) (k : Nat) : Bool := d.isSet BRG_CAN_CFG.EN k

/-- Every Vat number. -/
def vatIds : List Nat := List.range 16

/-- The Vat bound to port code `p`. -/
def Dev.binder (d : Dev) (p : Nat) : Option Nat := vatIds.find? (fun v => d.get VAT_BIND.PORT v == p)

/-- The canopy group bound by a Vat that front end `n` is a member of. -/
def Dev.groupOf (d : Dev) (n : Nat) : Option Nat :=
  (List.range 4).find? (fun k => (d.binder (0x0C + k)).isSome && (d.members k).contains n)

/-- The Vat bound to front end `n`, alone or through a canopy (R132). -/
def Dev.feVat (d : Dev) (n : Nat) : Option Nat :=
  match d.binder n with
  | some v => some v
  | none => (d.groupOf n).bind (fun k => d.binder (0x0C + k))

/-- The Vat whose air instructions act on electronics `c`: that of its front end; for an unattached US the Vat bound
to UHFS; none for a detached chain (R146, R250). -/
def Dev.vatOf (d : Dev) (c : Nat) : Option Nat :=
  match d.feOf c with
  | some n => d.feVat n
  | none => if c = 8 then d.binder 8 else none

/-! ### The mirror of the mesh slot count (R317) -/

/-- The mirror's own boundaries passed at tick `t`. A pair that is not yet due stands for the boundary nearest to its own, at
which the count holds (R317, assumption: DEDUCED). -/
def AsnX.own (x : AsnX) (t : Nat) : Nat :=
  let k := (t - x.tick) / x.len
  match x.next with
  | some (_, tn, _) => min k ((tn - x.tick - x.len / 2) / x.len)
  | none => k

/-- The pair of the mirror that is due at tick `t`. -/
def AsnX.taken (x : AsnX) (t : Nat) : Option (Nat × Nat × Nat) := x.next.filter (fun p => decide (p.2.1 ≤ t))

/-- The ASN the mirror holds at tick `t`; 40 bits. -/
def AsnX.at' (x : AsnX) (t : Nat) : Nat :=
  match x.taken t with
  | some (a, tn, n) => (a + (t - tn) / n) % 2 ^ 40
  | none => (x.asn + x.own t) % 2 ^ 40

/-- The boundary that began the slot of tick `t`. -/
def AsnX.last (x : AsnX) (t : Nat) : Nat :=
  match x.taken t with
  | some (_, tn, n) => tn + (t - tn) / n * n
  | none => x.tick + x.own t * x.len

/-- The boundary that ends the slot of tick `t`. -/
def AsnX.following (x : AsnX) (t : Nat) : Nat :=
  match x.taken t with
  | some (_, _, n) => x.last t + n
  | none =>
    let b := x.last t + x.len
    match x.next with
    | some (_, tn, _) => if b + x.len / 2 ≤ tn then b else tn
    | none => b

/-- The mirror with a pair that is due taken in and its own boundaries counted (R317). -/
def AsnX.settle (x : AsnX) (t : Nat) : AsnX :=
  match x.taken t with
  | some (_, _, n) => { x with asn := x.at' t, tick := x.last t, len := n, next := none }
  | none => { x with asn := x.at' t, tick := x.last t }

/-- Tick `t` lies in a slot-edge guard [B − g, B + g) of a boundary of the mirror (R266). -/
def AsnX.inGuard (x : AsnX) (t g : Nat) : Bool := decide (t - x.last t < g) || decide (x.following t - t ≤ g)

/-- The MAC reports synchronised time to the AIR island (R317): pairs arrive and the MAC is in SYNC (state 2). -/
def Dev.meshSync (d : Dev) : Bool := !d.asn.missing && d.get MSH_STATUS.STATE == 2

/-! ### The active profile (R256 to R258) -/

/-- Word `k` of the active profile's header. -/
def Dev.hdr (d : Dev) (k : Nat) : Nat := d.rgu.hdr.getD k 0
/-- The number of channel entries used. -/
def Dev.nch (d : Dev) : Nat := bitsOf (d.hdr 0) 23 16
/-- The channel of frequency `khz` in the active profile. -/
def Dev.chanOf (d : Dev) (khz : Nat) : Option Nat :=
  (List.range d.nch).find? (fun c => bitsOf (d.rgu.chan.getD c (0, 0)).1 19 0 == khz)
/-- LIMIT of channel `c`, 0.1 dBm. -/
def Dev.limitOf (d : Dev) (c : Nat) : Nat := bitsOf (d.rgu.chan.getD c (0, 0)).2 9 0
/-- The antenna declaration of front end `n`, port `p`. -/
def Dev.antenna (d : Dev) (n p : Nat) : Nat := fget (fun _ => 0) d.rgu.ant (16 * n + p)

/-- The canopy back-off in 0.1 dB (table "Canopy back-off"). -/
def backoff (cmode n : Nat) : Nat :=
  if cmode = 1 then [0, 0, 31, 48, 61, 70, 78, 85, 91].getD n 0
  else if cmode = 2 then [0, 0, 61, 96, 121, 140, 156, 170, 181].getD n 0
  else 0

/-- The highest setpoint permitted on channel `c` from front end `n` through port `p` (R258). -/
def Dev.setptMax (d : Dev) (c n p : Nat) : Int :=
  let k : Int := if bitsOf (d.hdr 1) 31 30 = 1 then 21 else 0
  let a := d.antenna n p
  let b : Int := match d.groupOf n with
    | some g => backoff (bitsOf (d.hdr 1) 29 28) (d.members g).length
    | none => 0
  min ((d.limitOf c : Int) + k - signedOf 12 (bitsOf a 23 12) + bitsOf a 11 0 - b) 330

/-! ### Accounts (R261 to R263) -/

/-- The counted on-time of the present carrier of front end `n` at tick `t` (R261). -/
def Dev.onTime (d : Dev) (n t : Nat) : Nat :=
  let x := d.fex n
  x.counted + match x.onSince with | some t0 => t - t0 | none => 0

/-- The ticks an interval shares with [lo, hi). -/
def overlap (a b lo hi : Nat) : Nat := min b hi - max a lo

/-- The length of an occupancy sub-window in ticks (R262). -/
def Dev.occLen (d : Dev) : Nat := bitsOf (d.hdr 3) 31 16 * 960000

/-- The counted occupancy of front end `n` on channel `c` at tick `t`: the present sub-window and the 16 before it,
those before the profile's activation charged OCC_MAX ÷ 16 each (R262, R263). -/
def Dev.occupancy (d : Dev) (n c t : Nat) : Nat :=
  let w := d.occLen
  if w = 0 then 0 else
  let k := t / w
  let lo := (k - 16) * w
  let x := d.fex n
  let past := ((x.past.filter (fun r => r.ch == c)).map (fun r => overlap r.from' r.upto lo t)).sum
  let live := match x.onSince with
    | some t0 => if x.known ∧ x.ch = c then overlap (max t0 d.rgu.since) t lo t else 0
    | none => 0
  let charged := min 16 (d.rgu.since / w + 16 - k)
  past + live + charged * (bitsOf (d.hdr 3) 15 0 * 9600)

/-- The tick at which the hold of OFF_MIN ends for front end `n` on channel `c` (R259 check 6, R263). -/
def Dev.offHoldEnd (d : Dev) (n c : Nat) : Nat :=
  fget (fun _ => d.rgu.since) (d.fex n).ended c + msTicks (bitsOf (d.hdr 2) 15 0)

/-- Half the width of a slot-edge guard in ticks (R266). -/
def Dev.slotGuard (d : Dev) : Nat :=
  usTicks (if d.isSet RGU_STATUS.DESYNC then bitsOf (d.hdr 5) 15 0 else bitsOf (d.hdr 5) 31 16)

/-- Channel `c` may be used without mesh time (R256). -/
def Dev.unsyncOk (d : Dev) (c : Nat) : Bool := if c < 32 then bitOf (d.hdr 6) c else bitOf (d.hdr 7) (c - 32)

/-- Check 2 of the table "Launch checks" on a frequency: a channel of the profile, usable without mesh time where mesh
time is absent. -/
def Dev.chanCheck (d : Dev) (khz : Nat) : Option Nat :=
  (d.chanOf khz).filter (fun c => !d.isSet RGU_STATUS.DESYNC || d.unsyncOk c)

/-- An energy block of the listen time before a launch of front end `n` at tick `t` reached LBT_THR (R259): the highest level
the receiver heard is a free value. -/
def Dev.lbtHeard (d : Dev) (n t : Nat) : Bool := decide (signedOf 12 (bitsOf (d.hdr 4) 11 0) ≤ (Config.lbtLevel n t).toInt)

/-- The guard's checks of a launch of electronics `c` at tick `t` (R259, R463); a restored carrier is exempt from
checks 6, 7 and 8. The answer is the first failing reason code, 0 where the launch is permitted. -/
def Dev.launchCheck (d : Dev) (c t : Nat) (restored : Bool) : Nat :=
  let u := d.cfg c
  let khz := d.get SYN_F_FREQ.FREQ_KHZ (d.get UHF_CTRL.SYN_SEL u)
  let ramps := d.get UHF_RAMP.RAMP_UP u + d.get UHF_RAMP.RAMP_DN u
  let port := d.get UHF_ANT.PORT u
  if !d.isSet RGU_ACTIVE.VALID then 1
  else match d.chanCheck khz with
  | none => 2
  | some chn =>
    match d.feOf c with
    | none => 0
    | some n =>
      let x := d.fex n
      let on := if restored then d.onTime n t else 0
      if !bitOf (d.antenna n port) 31 then 3
      else if d.setptMax chn n port < (d.get UHF_PWR.SETPT u : Int) then 4
      else if msTicks (bitsOf (d.hdr 2) 31 16) ≤ on + ramps then 5
      else if !restored && decide (t < d.offHoldEnd n chn) then 6
      else if !restored && bitOf (d.hdr 1) 27 && x.prevCh == some chn then 7
      else if !restored && bitOf (d.hdr 1) 26 &&
          ((match (d.chx c).rxSince with
            | some t0 => decide (t < t0 + usTicks (bitsOf (d.hdr 4) 31 16))
            | none => true) || d.lbtHeard n t) then 8
      else if bitOf (d.hdr 1) 25 &&
          decide (msTicks (bitsOf (d.hdr 3) 15 0) < d.occupancy n chn t + ramps) then 9
      else if bitOf (d.get RGU_SLOT.FE) n && d.asn.inGuard t d.slotGuard then 10
      else 0

/-- The reason recorded, the refusal counted and EV_RGU_REFUSE published (R259). -/
def Dev.guardRefuse (d : Dev) (reason fe : Nat) : Dev :=
  (((d.put RGU_STATUS.LAST_REASON reason).put RGU_STATUS.LAST_FE fe).inc RGU_CNT.REFUSED).publish evRguRefuse

/-- A carrier ended by the guard: the reason recorded, counted, EV_RGU_END published (R260). -/
def Dev.guardEnd (d : Dev) (reason fe : Nat) : Dev :=
  (((d.put RGU_STATUS.LAST_REASON reason).put RGU_STATUS.LAST_FE fe).inc RGU_CNT.ENDED).publish evRguEnd

/-- Check 4 on a setpoint change during the carrier of electronics `c` (R260). An unattached US has no antenna to
check it against (R463). -/
def Dev.setptOk (d : Dev) (c setpt : Nat) : Bool :=
  match d.feOf c with
  | none => true
  | some n =>
    match d.chanOf (d.get SYN_F_FREQ.FREQ_KHZ (d.synOf c)) with
    | none => true
    | some chn => decide ((setpt : Int) ≤ d.setptMax chn n (d.get UHF_ANT.PORT (d.cfg c)))

/-- The gate feeding front end `n` opens at tick `t`: a new carrier starts its count, a restored one continues it. -/
def Dev.acctOpen (d : Dev) (n t : Nat) (restored : Bool) : Dev :=
  let x := d.fex n
  let chn := (d.chanOf (d.get SYN_F_FREQ.FREQ_KHZ (d.get UHF_CTRL.SYN_SEL n))).getD 0
  d.setFe n { x with onSince := some t, live := true, ch := chn, known := true, counted := if restored then x.counted else 0 }

/-- The gate feeding front end `n` closes at tick `t`: the ticks are charged to the channel. -/
def Dev.acctClose (d : Dev) (n t : Nat) : Dev :=
  let x := d.fex n
  match x.onSince with
  | none => d
  | some t0 =>
    let past := if x.known then x.past ++ [⟨x.ch, max t0 d.rgu.since, t⟩] else x.past
    d.setFe n { x with onSince := none, counted := x.counted + (t - t0), past := past }

/-- The carrier of front end `n` has ended for OFF_HOLD and HOP: no carrier is restored (R261). -/
def Dev.acctEnd (d : Dev) (n t : Nat) : Dev :=
  let x := d.fex n
  if x.live then
    let x := { x with live := false }
    d.setFe n (if x.known then { x with prevCh := some x.ch, ended := fset (fun _ => d.rgu.since) id x.ended x.ch t } else x)
  else d

end Sys2Proof.Machine
end

