-- ==== Sys2Proof/Machine/Canceller.lean ====
section
/-! DEFINITION. The states of a UHF chain, and its leakage canceller: what it tracks, what holds it, where it stands (R41, R57). -/

namespace Sys2Proof.Machine

/-! Chain states (R41). -/
/-- OFF. -/ def csOff : Nat := 0
/-- READY. -/ def csReady : Nat := 1
/-- RX. -/ def csRx : Nat := 2
/-- RAMP_UP. -/ def csUp : Nat := 3
/-- CARRIER. -/ def csCarrier : Nat := 4
/-- MOD; held in the record of the template, reported by STATE. -/ def csMod : Nat := 5
/-- RAMP_DOWN. -/ def csDown : Nat := 6
/-- TRIP. -/ def csTrip : Nat := 7

/-- The state of electronics `c`. A template in transmission shows as MOD at the read of STATE only. -/
def Dev.cst (d : Dev) (c : Nat) : Nat := d.get UHF_STATUS.STATE c

/-- The canceller of electronics `c` follows the leakage: TRACK mode, in CARRIER (R57). -/
def Dev.lkcTracks (d : Dev) (c : Nat) : Bool := d.cst c == csCarrier && d.get UHF_LKC_CTRL.MODE (d.cfg c) == 2

/-- The ticks at which the canceller of electronics `c` is held, from the first to before the second, the earlier one first: the
template in transmission, which has no end yet, and with FRZ_LSN = 1 the listen window (R57). -/
def Dev.lkcHolds (d : Dev) (c t : Nat) : List (Nat × Nat) :=
  let x := d.chx (d.cfg c)
  let tx := if x.txOn then [(x.txStart, t + 1)] else []
  let win := match x.win with
    | some w => if d.isSet UHF_LKC_CTRL.FRZ_LSN (d.cfg c) then [(w.openAt, w.close)] else []
    | none => []
  match tx, win with
  | [a], [b] => if b.1 < a.1 then [b, a] else [a, b]
  | _, _ => tx ++ win

/-- A trim of electronics `c` (0 in phase, 1 in quadrature) that stood at `v` at tick `t0` and tracked until tick `t`: a free value,
which starts from the one held (R57). -/
def trackOne (c k v t0 t : Nat) : Nat := if t ≤ t0 then v else (Config.lkcTrack c k v t0 t).toNat

/-- The same with the holds that fall in between: after each one tracking resumes from the held value. -/
def trackOver (c k v t0 t : Nat) : List (Nat × Nat) → Nat
  | [] => trackOne c k v t0 t
  | (a, b) :: l =>
    if t ≤ a then trackOne c k v t0 t
    else if t < b then trackOne c k v t0 a
    else trackOver c k (trackOne c k v t0 a) (max b t0) t l

/-- TRIM_I (0) or TRIM_Q (1) of electronics `c` at tick `t`: tracked from where it stood last, or held in the register. -/
def Dev.trimAt (d : Dev) (c k t : Nat) : Nat :=
  let v := d.get (if k = 0 then UHF_LKC_TRIM.TRIM_I else UHF_LKC_TRIM.TRIM_Q) c
  if d.lkcTracks c then trackOver c k v (d.chx c).trackAt t (d.lkcHolds c t) else v

/-- TRIM_I of electronics `c`. -/
def Dev.trimI (d : Dev) (c : Nat) : Nat := d.trimAt c 0 d.tick

/-- TRIM_Q of electronics `c`. -/
def Dev.trimQ (d : Dev) (c : Nat) : Nat := d.trimAt c 1 d.tick

/-- What holds the canceller of electronics `c`, or how it tracks, changes at tick `t`: the trims reached stand in the register and
tracking goes on from there. -/
def Dev.lkcFold (d : Dev) (c t : Nat) : Dev :=
  if d.lkcTracks c then
    let d' := (d.put UHF_LKC_TRIM.TRIM_I (d.trimAt c 0 t) c).put UHF_LKC_TRIM.TRIM_Q (d.trimAt c 1 t) c
    d'.setCh c { d.chx c with trackAt := t }
  else d

end Sys2Proof.Machine
end

