-- ==== Sys2Proof/Machine/Cosine.lean ====
section
/-! DEFINITION. The cosine table of the bearing matcher: C(x) = round(1,024 × cos(x × 360 / 1,024 °)) over the first
quarter turn, and its continuation over the whole turn (R218). -/

namespace Sys2Proof.Machine

/-- Values 0 to 31. -/
def cosPart0 : List Nat :=
  [1024, 1024, 1024, 1024, 1024, 1024, 1023, 1023, 1023, 1022, 1022, 1022, 1021, 1021, 1020, 1020, 1019, 1018,
   1018, 1017, 1016, 1016, 1015, 1014, 1013, 1012, 1011, 1010, 1009, 1008, 1007, 1006]

/-- Values 32 to 63. -/
def cosPart1 : List Nat :=
  [1004, 1003, 1002, 1000, 999, 998, 996, 995, 993, 992, 990, 989, 987, 985, 983, 982, 980, 978, 976, 974,
   972, 970, 968, 966, 964, 962, 960, 958, 955, 953, 951, 948]

/-- Values 64 to 95. -/
def cosPart2 : List Nat :=
  [946, 944, 941, 939, 936, 934, 931, 928, 926, 923, 920, 917, 915, 912, 909, 906, 903, 900, 897, 894, 891,
   888, 885, 882, 878, 875, 872, 868, 865, 862, 858, 855]

/-- Values 96 to 127. -/
def cosPart3 : List Nat :=
  [851, 848, 844, 841, 837, 834, 830, 826, 822, 819, 815, 811, 807, 803, 799, 796, 792, 788, 784, 779, 775,
   771, 767, 763, 759, 755, 750, 746, 742, 737, 733, 729]

/-- Values 128 to 159. -/
def cosPart4 : List Nat :=
  [724, 720, 715, 711, 706, 702, 697, 692, 688, 683, 678, 674, 669, 664, 659, 654, 650, 645, 640, 635, 630,
   625, 620, 615, 610, 605, 600, 595, 590, 584, 579, 574]

/-- Values 160 to 191. -/
def cosPart5 : List Nat :=
  [569, 564, 558, 553, 548, 543, 537, 532, 526, 521, 516, 510, 505, 499, 494, 488, 483, 477, 472, 466, 460,
   455, 449, 443, 438, 432, 426, 421, 415, 409, 403, 398]

/-- Values 192 to 223. -/
def cosPart6 : List Nat :=
  [392, 386, 380, 374, 369, 363, 357, 351, 345, 339, 333, 327, 321, 315, 309, 303, 297, 291, 285, 279, 273,
   267, 261, 255, 249, 243, 237, 230, 224, 218, 212, 206]

/-- Values 224 to 255. -/
def cosPart7 : List Nat :=
  [200, 194, 187, 181, 175, 169, 163, 156, 150, 144, 138, 132, 125, 119, 113, 107, 100, 94, 88, 82, 75, 69,
   63, 57, 50, 44, 38, 31, 25, 19, 13, 6]

/-- Values 256 to 256. -/
def cosPart8 : List Nat :=
  [0]

/-- The first quarter turn, 0 to 256. -/
def cosQuarter : List Nat :=
  cosPart0 ++ cosPart1 ++ cosPart2 ++ cosPart3 ++ cosPart4 ++ cosPart5 ++ cosPart6 ++ cosPart7 ++ cosPart8

/-- C(x) of R218 over the whole turn. -/
def cosTurn (x : Nat) : Int :=
  let x := x % 1024
  if x ≤ 256 then (cosQuarter.getD x 0 : Nat)
  else if x ≤ 512 then -(cosQuarter.getD (512 - x) 0 : Nat)
  else if x ≤ 768 then -(cosQuarter.getD (x - 512) 0 : Nat)
  else (cosQuarter.getD (1024 - x) 0 : Nat)

/-- The product of two complex numbers in 2^-80. -/
def cmul (a b : Int × Int) : Int × Int :=
  ((a.1 * b.1 - a.2 * b.2) / 2 ^ 80, (a.1 * b.2 + a.2 * b.1) / 2 ^ 80)

/-- The unit vector of an angle of `x` times 360 / 1,024 °, in 2^-80, over at most `fuel` bits of `x`: a power of that of one unit. -/
def unitPow : Nat → Nat → Int × Int
  | 0, _ => (2 ^ 80, 0)
  | fuel + 1, x =>
    let h := unitPow fuel (x / 2)
    let sq := cmul h h
    if x % 2 = 1 then cmul sq (1208903061927718747322595, 7417829378539895499670) else sq

/-- The unit vector of an angle, in 2^-64, its components as near as that allows. -/
def unitVec (x : Nat) : Int × Int :=
  let v := unitPow 10 (x % 1024)
  ((v.1 + 2 ^ 15) / 2 ^ 16, (v.2 + 2 ^ 15) / 2 ^ 16)

end Sys2Proof.Machine
end

