-- ==== Sys2Proof/Machine/VatCore.lean ====
section
/-! DEFINITION. A Vat's registers, outcome and release: what every Vat instruction shares (R91 to R101, R128, R130). -/

namespace Sys2Proof.Machine

/-- The value of an outcome class (R13). -/
def ocCode : Oc → Nat
  | .none => 0 | .one => 1 | .clash => 2 | .crcf => 3 | .early => 4 | .late => 5 | .weak => 6 | .cut => 7

/-! Vat states (R93). -/
/-- STOPPED. -/ def vsStopped : Nat := 0
/-- RUN. -/ def vsRun : Nat := 1
/-- WAIT. -/ def vsWait : Nat := 2
/-- HALTED. -/ def vsHalted : Nat := 3
/-- FAULT. -/ def vsFault : Nat := 4
/-- DEBUG. -/ def vsDebug : Nat := 5

/-! Opcodes of the outward instructions (R98), as VATn_ASTAT.LAST_OP shows them. -/
/-- BIND. -/ def opBind : Nat := 0x20
/-- HOP. -/ def opHop : Nat := 0x21
/-- PWR. -/ def opPwr : Nat := 0x22
/-- ANT. -/ def opAnt : Nat := 0x23
/-- CARRY. -/ def opCarry : Nat := 0x24
/-- TXC. -/ def opTxc : Nat := 0x25
/-- LSN. -/ def opLsn : Nat := 0x26
/-- BEAM. -/ def opBeam : Nat := 0x27
/-- RXB. -/ def opRxb : Nat := 0x28
/-- LPUT. -/ def opLput : Nat := 0x2C
/-- LGET. -/ def opLget : Nat := 0x2D
/-- LTOUCH. -/ def opLtouch : Nat := 0x2E
/-- TOPEN. -/ def opTopen : Nat := 0x30
/-- TPUT. -/ def opTput : Nat := 0x31
/-- TDONE. -/ def opTdone : Nat := 0x32
/-- TFAIL. -/ def opTfail : Nat := 0x33
/-- POST. -/ def opPost : Nat := 0x38
/-- QPUSH. -/ def opQpush : Nat := 0x39
/-- QPOP. -/ def opQpop : Nat := 0x3A

/-! Status codes of the air and radio group (R12, R61, R89, R158, R252, R269). -/
/-- SYN_TIMEOUT. -/ def stSynTimeout : Nat := 0x0110
/-- RGU_REFUSED. -/ def stRguRefused : Nat := 0x0111
/-- CHAIN_TRIP. -/ def stChainTrip : Nat := 0x0112
/-- SYN_UNLOCK. -/ def stSynUnlock : Nat := 0x0113
/-- SYN_BUSY. -/ def stSynBusy : Nat := 0x0114
/-- ANT_BUSY. -/ def stAntBusy : Nat := 0x0115
/-- PORT_ABSENT. -/ def stPortAbsent : Nat := 0x0116
/-- SYN_RANGE. -/ def stSynRange : Nat := 0x0117
/-- SHADOW_ABANDONED. -/ def stShadowAbandoned : Nat := 0x0118
/-- MOD_PARAM. -/ def stModParam : Nat := 0x0119
/-- SPARE_BUSY. -/ def stSpareBusy : Nat := 0x011A
/-- CAP_BUSY. -/ def stCapBusy : Nat := 0x011B
/-- LSN_PARAM. -/ def stLsnParam : Nat := 0x011C
/-- NOT_BOUND. -/ def stNotBound : Nat := 0x011D
/-- PORT_TAKEN. -/ def stPortTaken : Nat := 0x011E
/-- PORT_KIND. -/ def stPortKind : Nat := 0x011F
/-- CARRIER_ON. -/ def stCarrierOn : Nat := 0x0120
/-- LAUNCH_PASSED. -/ def stLaunchPassed : Nat := 0x0121
/-- NO_REF. -/ def stNoRef : Nat := 0x0122
/-- TBL_ABSENT. -/ def stTblAbsent : Nat := 0x0123
/-- VAT_OPERAND. -/ def stVatOperand : Nat := 0x0124
/-- NO_CARRIER. -/ def stNoCarrier : Nat := 0x0125
/-- CHAIN_OFF. -/ def stChainOff : Nat := 0x0126
/-- TAKEOVER. -/ def stTakeover : Nat := 0x0127
/-- TAKE_TIMEOUT. -/ def stTakeTimeout : Nat := 0x0129
/-- TAKE_BLOCKED. -/ def stTakeBlocked : Nat := 0x012A
/-- RGU_NOT_PERMITTED. -/ def stRguNotPermitted : Nat := 0x012B
/-- RGU_STORE_LOCKED. -/ def stRguStoreLocked : Nat := 0x012C

/-- The state of Vat `v`. -/
def Dev.vst (d : Dev) (v : Nat) : Nat := d.get VAT_STATUS.STATE v
/-- The state of Vat `v` as the registers and the other units see it: a Vat that executes a STEP is in DEBUG (R94, R123). -/
def Dev.vShown (d : Dev) (v : Nat) : Nat := if (d.vatx v).stepping then vsDebug else d.vst v
/-- A Vat is in RUN or WAIT. -/
def Dev.vActive (d : Dev) (v : Nat) : Bool := d.vst v == vsRun || d.vst v == vsWait
/-- A Vat's registers may be written (R124). -/
def Dev.vatWritable (d : Dev) (v : Nat) : Bool :=
  d.vst v == vsStopped || d.vst v == vsHalted || d.vst v == vsFault || d.vShown v == vsDebug
/-- General register `r` of Vat `v`, 32 bits (R91). -/
def Dev.gr (d : Dev) (v : Nat) (r : RegNo) : Nat := d.get VAT_G.G v r.toNat % 2 ^ 32
/-- General register `r` of Vat `v` written. -/
def Dev.setGr (d : Dev) (v : Nat) (r : RegNo) (x : Nat) : Dev := d.put VAT_G.G x v r.toNat
/-- The general register `k` after `r`, modulo 16. -/
def regPlus (r : RegNo) (k : Nat) : RegNo := BitVec.ofNat 4 (r.toNat + k)
/-- The PC of Vat `v`. -/
def Dev.pc (d : Dev) (v : Nat) : Nat := d.get VAT_PC.PC v
/-- The instruction in progress as VATn_PC shows it (R95): in RUN the one issued last while its cycles run, else the next to
issue. -/
def Dev.shownPc (d : Dev) (v : Nat) : Nat :=
  if d.vst v = vsRun ∧ d.clk < (d.vatx v).ready then (d.vatx v).prevPc else d.pc v
/-- The outcome class of Vat `v` set. -/
def Dev.setOc (d : Dev) (v : Nat) (oc : Oc) : Dev := d.put VAT_OC.OC (ocCode oc) v

/-- A wait in a TXC or LSN, whose watchdog is paused on ACT (R298). -/
def Wait.isFrame : Wait → Bool
  | .txc _ _ => true
  | .lsn _ => true
  | _ => false

/-- The watchdog of Vat `v` counts (R117): in RUN and WAIT, but not in a TXC or LSN on ACT (R298), nor while a Vat in DEBUG
executes a STEP (R123). -/
def Dev.wdRuns (d : Dev) (v : Nat) : Bool :=
  d.vActive v && !(d.vatx v).stepping && !((d.vatx v).wait.isFrame && d.get VAT_BIND.PORT v == 10)

/-- The watchdog's count of Vat `v` in ticks (R117). -/
def Dev.wdNow (d : Dev) (v : Nat) : Nat :=
  (d.vatx v).wdCount + if d.wdRuns v then d.tick - (d.vatx v).wdFrom else 0

/-- The tick at which the watchdog of Vat `v` expires if it runs on (R117); none where it is disabled or paused. -/
def Dev.wdDue (d : Dev) (v : Nat) : Option Nat :=
  let p := d.get VAT_WDOG.PERIOD v
  if p = 0 ∨ d.wdRuns v = false then none else some (max d.tick (d.vatx v).wdFrom + (p * 1024 - d.wdNow v))

/-- A STOP, a DBG_HALT or a fault took Vat `v` out of RUN or WAIT in the present Vat cycle (R118, R120). -/
def Dev.leftNow (d : Dev) (v : Nat) : Bool := ((d.vatx v).left.map (fun l => l.1)) == some d.clk

/-- The watchdog of Vat `v` expired in the present Vat cycle, in which another cause took the Vat out of RUN or WAIT
(R118, R120). -/
def Dev.wdExpired (d : Dev) (v : Nat) : Bool :=
  let p := d.get VAT_WDOG.PERIOD v
  d.leftNow v && decide (0 < p) && decide (p * 1024 + ((d.vatx v).wdFrom - d.tick) ≤ (d.vatx v).wdCount)

/-- Vat `v` leaves RUN or WAIT, or enters one, with the watchdog paused or counting accordingly (R117). -/
def Dev.setVst (d : Dev) (v st : Nat) : Dev :=
  let n := d.wdNow v
  let d := d.put VAT_STATUS.STATE st v
  d.setVat v { d.vatx v with wdCount := n, wdFrom := max d.tick (d.vatx v).wdFrom }

/-- The watchdog of Vat `v` reloaded, counting from tick `t` (R117). -/
def Dev.wdReload (d : Dev) (v t : Nat) : Dev :=
  d.setVat v { d.vatx v with wdCount := 0, wdFrom := t, wdOn := true }

/-- An instruction has finished: the next issues at cycle `c`; a Vat that executes a STEP returns to DEBUG (R94). -/
def Dev.finish (d : Dev) (v c : Nat) : Dev :=
  let x := d.vatx v
  let d := d.setVat v { x with wait := .none, ready := c, stepping := false, wdCount := d.wdNow v, wdFrom := max d.tick x.wdFrom }
  if x.stepping then d.setVst v vsDebug
  else if d.vst v = vsWait then d.setVst v vsRun else d

/-- The sequential end of an instruction of `len` words and `cycles` Vat cycles (R100, R101). -/
def Dev.seq (d : Dev) (v len cycles : Nat) : Dev :=
  (d.put VAT_PC.PC (d.pc v + len) v).finish v (d.clk + cycles)

/-- A blocking instruction starts to wait: the Vat is in WAIT with PC at it (R94, R95). -/
def Dev.block (d : Dev) (v : Nat) (w : Wait) : Dev :=
  let d := d.setVst v vsWait
  d.setVat v { d.vatx v with wait := w }

/-- A blocking one-word instruction is released: the next instruction issues at cycle `c` (R94). -/
def Dev.releaseAt (d : Dev) (v c : Nat) : Dev :=
  (d.put VAT_PC.PC (d.pc v + 1) v).finish v c

/-- The outcome of an instruction of the outward groups (R130): OC, and for a status other than 0x0000 LAST_ERR,
LAST_OP and the counter of its class. -/
def Dev.outcome (d : Dev) (v op : Nat) (oc : Oc) (st : Nat) : Dev :=
  let d := d.setOc v oc
  if st = 0 then d
  else
    let d := (d.put VAT_ASTAT.LAST_ERR st v).put VAT_ASTAT.LAST_OP op v
    match oc with
    | .cut => d.inc VAT_ACNT.CUTS v
    | .weak => d.inc VAT_ACNT.REFUSED v
    | .clash => d.inc VAT_ACNT.REFUSED v
    | _ => d

/-- A blocking air instruction ends at tick `t`: the next instruction issues in phase 0 of the tick after (R128). -/
def Dev.airEnd (d : Dev) (v op : Nat) (oc : Oc) (st t : Nat) : Dev :=
  (d.outcome v op oc st).releaseAt v (2 * (t + 1))

/-- The opcode of the air instruction a wait belongs to. -/
def Wait.op : Wait → Nat
  | .carryOn _ => opCarry
  | .carryOff => opCarry
  | .txc _ _ => opTxc
  | .lsn _ => opLsn
  | _ => 0

/-- The named tick of an air instruction that issues now (R128). -/
def Dev.named (d : Dev) : Nat := (d.clk + 1) / 2

end Sys2Proof.Machine
end

