-- ==== Sys2Proof/Machine/HoopMem.lean ====
section
/-! DEFINITION. A hoop in hoop memory: the hoop index, the section directory, and the tables a Vat's instructions refer
to (R160 to R176). -/

namespace Sys2Proof.Machine

/-- A word of hoop memory by word address. -/
def Dev.hw' (d : Dev) (w : Nat) : Nat := d.word (4 * w)

/-- The first word of hoop index entry `k` (R167). -/
def hoopIndex (k : Nat) : Nat := 0x3FF00 + 8 * k

/-- A hoop index entry: valid, load base, end. -/
def Dev.hoopEntry (d : Dev) (k : Nat) : Bool × Nat × Nat :=
  (bitOf (d.hw' (hoopIndex k)) 31, bitsOf (d.hw' (hoopIndex k)) 17 0, bitsOf (d.hw' (hoopIndex k + 1)) 17 0)

/-- The valid index entry whose span holds word `w` (R168). -/
def Dev.hoopAt (d : Dev) (w : Nat) : Option Nat :=
  (List.range 32).find? (fun k => (d.hoopEntry k).1 && decide ((d.hoopEntry k).2.1 ≤ w) && decide (w < (d.hoopEntry k).2.2))

/-- The load base of the hoop that a Vat with entry point `w` runs (R168). -/
def Dev.hoopBase (d : Dev) (w : Nat) : Option Nat := (d.hoopAt w).map (fun k => (d.hoopEntry k).2.1)

/-- A section: its first word, item count and length in words. -/
structure Section where
  start : Nat
  count : Nat
  length : Nat
deriving DecidableEq, Repr

/-- The section of a type in the hoop loaded at `base` (R162). -/
def Dev.sect (d : Dev) (base type : Nat) : Option Section :=
  let n := bitsOf (d.hw' (base + 5)) 31 16
  ((List.range (min n 16)).find? (fun k => bitsOf (d.hw' (base + 16 + 2 * k)) 31 24 == type)).map (fun k =>
    { start := base + bitsOf (d.hw' (base + 16 + 2 * k)) 17 0,
      count := bitsOf (d.hw' (base + 17 + 2 * k)) 31 18,
      length := bitsOf (d.hw' (base + 17 + 2 * k)) 17 0 })

/-- The section of a type in the hoop Vat `v` runs (R168). -/
def Dev.vsect (d : Dev) (v type : Nat) : Option Section := (d.vatx v).hoop.bind (fun b => d.sect b type)

/-- The first word of template `n` of a TXT (0x03) or LST (0x04) section (R169, R171). -/
def Dev.template (d : Dev) (v type n : Nat) : Option Nat :=
  (d.vsect v type).bind (fun s => if n < s.count then some (s.start + d.hw' (s.start + n)) else none)

/-- Entry `i` of hop table `t` (R172). -/
def Dev.hopEntry (d : Dev) (v t i : Nat) : Option Nat :=
  (d.vsect v 5).bind (fun s =>
    let off := d.hw' (s.start + t)
    if t < s.count ∧ off ≠ 0 ∧ i < bitsOf (d.hw' (s.start + off)) 10 0 then some (d.hw' (s.start + off + 1 + i)) else none)

/-- The first word of weight set `i` (R174). -/
def Dev.weightSet (d : Dev) (v i : Nat) : Option Nat :=
  (d.vsect v 7).bind (fun s => if i < s.count then some (s.start + 1 + 9 * i) else none)

/-- The number of steering tables of the hoop Vat `v` runs. -/
def Dev.steerCount (d : Dev) (v : Nat) : Nat := match d.vsect v 8 with | some s => s.count | none => 0

/-- The first word of steering table `t` (R175). -/
def Dev.steerTable (d : Dev) (v t : Nat) : Option Nat :=
  (d.vsect v 8).bind (fun s => if t < s.count then some (s.start + d.hw' (s.start + 1 + t)) else none)

/-- Bit `i` of a run of words packed most significant bit first (R83, R169). -/
def Dev.packedBit (d : Dev) (w i : Nat) : Bool := bitOf (d.hw' (w + i / 32)) (31 - i % 32)

/-- A template's bits. -/
def Dev.packedBits (d : Dev) (w n : Nat) : List Bool := (List.range n).map (d.packedBit w)

/-- One substitution (R170): template bits from `dst` become the named bits of a register, most significant first. -/
def substBits (bits : List Bool) (desc : Nat) (reg : Nat → Nat) : List Bool :=
  let r := reg (bitsOf desc 29 28)
  let lsb := bitsOf desc 27 23
  let len := bitsOf desc 22 18 + 1
  let dst := bitsOf desc 10 0
  bits.mapIdx (fun i b => if dst ≤ i ∧ i < dst + len then bitOf r (lsb + (dst + len - 1 - i)) else b)

/-- Every substitution in order. -/
def substAll (bits : List Bool) (reg : Nat → Nat) : List Nat → List Bool
  | [] => bits
  | s :: ss => substAll (substBits bits s reg) reg ss

/-- One step of a CRC of `w` bits, most significant bit first. -/
def crcStep (w poly : Nat) (c : Nat) (b : Bool) : Nat :=
  let top := bitOf c (w - 1)
  let c := c * 2 % 2 ^ w
  if top != b then Nat.xor c poly else c

/-- CRC-5 of R74: x⁵ + x³ + 1, preset 0b01001. -/
def crc5 (bits : List Bool) : Nat := bits.foldl (crcStep 5 0x09) 0x09

/-- The CRC-16 register of R74: x¹⁶ + x¹² + x⁵ + 1, preset 0xFFFF. -/
def crc16Reg (bits : List Bool) : Nat := bits.foldl (crcStep 16 0x1021) 0xFFFF

/-- A frame with its CRC-16 passes: the residue is 0x1D0F (R74). -/
def crc16Good (bits : List Bool) : Bool := crc16Reg bits == 0x1D0F

/-- A number as bits, most significant first. -/
def bitsMsb (w v : Nat) : List Bool := (List.range w).map (fun i => bitOf v (w - 1 - i))

/-- The CRC a transmit template inserts: kind 01 CRC-5, 10 CRC-16 sent complemented (R74, R169). -/
def crcBits (kind : Nat) (bits : List Bool) : List Bool :=
  if kind = 1 then bitsMsb 5 (crc5 bits) else if kind = 2 then bitsMsb 16 (0xFFFF - crc16Reg bits) else []

/-- Bits packed most significant bit first into words (R83). -/
def packWords (bits : List Bool) : List Nat :=
  (List.range ((bits.length + 31) / 32)).map (fun k =>
    ((List.range 32).map (fun i => if bits.getD (32 * k + i) false then 2 ^ (31 - i) else 0)).sum)

end Sys2Proof.Machine
end

