-- ==== Sys2Proof/Machine/Canopy.lean ====
section
/-! DEFINITION. The bearing matcher: the phase vector, the score, the result and its record, and the phase-reference
measurement (R210 to R228). -/

namespace Sys2Proof.Machine

/-- BRG_CFG. -/
def stBrgCfg : Nat := 0x0128

/-- The offset-table entry of front end `n` for its present carrier, port and CHSLOT (R223). -/
def Dev.offsetEntry (d : Dev) (n : Nat) : Nat :=
  n * 256 + (if d.carrierOf n = 8 then 128 else 0) + d.get UHF_ANT.PORT n * 8 + d.get UHF_CTRL.CHSLOT n

/-- The difference of two phases modulo a turn. -/
def phaseSub (a b : Nat) : Nat := (a + 1024 - b % 1024) % 1024

/-- The expected phase of chain `k` in bin `b` of the steering table at word `w` (R175). -/
def Dev.steerPh (d : Dev) (w b k : Nat) : Nat :=
  let x := d.hw' (w + 2 + 4 * b + k / 2)
  if k % 2 = 0 then bitsOf x 9 0 else bitsOf x 25 16

/-- The match weight of chain `k` in bin `b` (R175). -/
def Dev.steerWt (d : Dev) (w b k : Nat) : Nat :=
  let x := d.hw' (w + 2 + 4 * b + k / 2)
  if k % 2 = 0 then bitsOf x 15 10 else bitsOf x 31 26

/-- SCORE of bin `b` for the differences `ds` of the contributing members against the pivot (R218). -/
def Dev.binScore (d : Dev) (w b pivot : Nat) (ds : List (Nat × Nat)) : Nat :=
  let wt := (ds.map (fun kd => d.steerWt w b kd.1)).sum
  let s : Int := (ds.map (fun kd =>
    (d.steerWt w b kd.1 : Int) *
      cosTurn (phaseSub kd.2 (phaseSub (d.steerPh w b kd.1) (d.steerPh w b pivot))))).sum
  if wt = 0 then 0 else max 1 (Int.toNat (255 * s / (1024 * wt : Nat)))

/-- The bin of the highest score among bins `b` to `b + n - 1` that a filter admits; ties to the lower bin. -/
def bestBin (score : Nat → Nat) (ok : Nat → Bool) : Nat → Nat → Nat × Nat → Nat × Nat
  | 0, _, best => best
  | n + 1, b, best =>
    bestBin score ok n (b + 1) (if ok b && decide (best.2 < score b) then (b, score b) else best)

/-- |a − b|. -/
def absDiff (a b : Nat) : Nat := if a ≤ b then b - a else a - b

/-- BIN, SCORE, RUNNER and RSCORE over the whole table (R219). -/
def Dev.bestOf (d : Dev) (w bins pivot sep : Nat) (ds : List (Nat × Nat)) : Nat × Nat × Nat × Nat :=
  let sc := fun b => d.binScore w b pivot ds
  let (bin, score) := bestBin sc (fun _ => true) bins 0 (0, 0)
  let (run, rs) := bestBin sc (fun b => decide (sep < absDiff b bin)) bins 0 (bin, 0)
  (bin, score, run, rs)

/-- The result registers of group `k` loaded, and with WR = 1 the record written (R221). -/
def Dev.loadResult (d : Dev) (k seq used pivot bin runner steer score rscore : Nat) : Dev :=
  let d := ((d.put BRG_CAN_RES0.SEQ seq k).put BRG_CAN_RES0.USED used k).put BRG_CAN_RES0.PIVOT pivot k
  let d := (d.put BRG_CAN_RES1.BIN bin k).put BRG_CAN_RES1.RUNNER runner k
  let d := ((d.put BRG_CAN_RES2.STEER steer k).put BRG_CAN_RES2.SCORE score k).put BRG_CAN_RES2.RSCORE rscore k
  if d.isSet BRG_CAN_RADDR.WR k then
    d.setWords (d.get BRG_CAN_RADDR.ADDR k * 16)
      [seq * 65536 + used * 256 + pivot * 16, bin * 65536 + runner, steer * 65536 + score * 256 + rscore, 0]
  else d

/-- Steering value in force at a tick: the newest at or before it (R217, R228). -/
def steerAt (t : Nat) : List (Nat × Nat) → Option Nat
  | [] => none
  | (t', s) :: rest => if t' ≤ t then some s else steerAt t rest

/-- The STEER value the present window of group `k` uses: that of the weight set written last, 0xFFF for none (R174, R217). -/
def Dev.steerValue (d : Dev) (k : Nat) : Nat := (steerAt (d.grpx k).ref (d.grpx k).steers).getD 0xFFF

/-- The steering table of the present window of group `k`: its first word and number (R217). -/
def Dev.windowSteer (d : Dev) (k : Nat) : Option (Nat × Nat) :=
  (steerAt (d.grpx k).ref (d.grpx k).steers).bind (fun s =>
    if s = 0xFFF then none
    else (d.binder (0x0C + k)).bind (fun v => (d.steerTable v s).map (fun w => (w, s))))

/-- The members that contribute to a match that starts at tick `t` (R215, R216), with their corrected phases. -/
def Dev.contributors (d : Dev) (k t w : Nat) : List (Nat × Nat) :=
  let mem := bitsOf (d.hw' w) 23 16
  ((d.grpx k).valid.filter (fun x => decide (x.2.1 ≤ t) && bitOf mem x.1 && d.isSet BRG_PODATA.VALID 0 x.2.2.2)).map
    (fun x => (x.1, phaseSub x.2.2.1 (d.get BRG_PODATA.RX_OFF 0 x.2.2.2)))

/-- The pivot: REF when it contributes, else the lowest-numbered contributor (R215). -/
def Dev.pivotOf (d : Dev) (k : Nat) (cs : List (Nat × Nat)) : Nat :=
  let r := d.get BRG_CAN_CFG.REF k
  if cs.any (fun c => c.1 == r) then r else (cs.map (fun c => c.1)).foldl min 7

/-- A mask with the bits of a list of members. -/
def maskOf (l : List Nat) : Nat := (l.map (fun k => 2 ^ k)).sum

/-- The match of group `k` that starts at tick `t` (R215 to R220), or none where no match is made for the window. -/
def Dev.makeMatch (d : Dev) (k t : Nat) : Option Match :=
  (d.windowSteer k).bind (fun (w, s) =>
    let cs := d.contributors k t w
    if cs.length < max 2 (d.get BRG_CTRL.MINMEM) then none
    else
      let pv := d.pivotOf k cs
      let cp := ((cs.find? (fun c => c.1 == pv)).map (fun c => c.2)).getD 0
      let ds := (cs.filter (fun c => c.1 != pv)).map (fun c => (c.1, phaseSub c.2 cp))
      let bins := bitsOf (d.hw' w) 12 0
      let (bin, score, run, rs) := d.bestOf w bins pv (d.get BRG_CTRL.SEP) ds
      some { ready := t + (bins + 1) / 2 + 77, window := (d.grpx k).window, steer := s, bin := bin, score := score,
             runner := run, rscore := rs, used := maskOf (cs.map (fun c => c.1)), pivot := pv })

/-- The result of window `w` of group `k` is ready: a sighting of that window held by the bound Vat takes its bearing
(R222). -/
def Dev.sightReady (d : Dev) (k w bin runner score : Nat) : Dev :=
  match d.binder (0x0C + k) with
  | none => d
  | some v =>
    match (d.vatx v).sight with
    | some x =>
      if x.group = some k ∧ x.window = w then
        d.setVat v { d.vatx v with
          sight := some { x with ready := true, bear := if score = 0 then none else some (bin, runner, score) } }
      else d
    | none => d

/-- A match's result becomes ready: loaded, and counted by whether it carries a bearing (R219 to R221). -/
def Dev.matchLoad (d : Dev) (k : Nat) (m : Match) : Dev :=
  let d := d.loadResult k m.seq m.used m.pivot m.bin m.runner m.steer m.score m.rscore
  let d := if m.score = 0 then d.inc BRG_CAN_CNT0.NOBEAR k else d.inc BRG_CAN_CNT0.MATCHES k
  (d.setGrp k { d.grpx k with run := none, loaded := m.window }).sightReady k m.window m.bin m.runner m.score

/-- The rank of a member's class in forming the group's (R213): CUT first, then ONE, WEAK, EARLY, LATE, CRCF, CLASH,
NONE. -/
def classRank (c : Nat) : Nat :=
  if c = 7 then 8 else if c = 1 then 7 else if c = 6 then 6 else if c = 4 then 5 else if c = 5 then 4
  else if c = 3 then 3 else if c = 2 then 2 else 1

/-- The lead member of a window's decisions (R213): the highest class, then (CUT) REF or the lowest number, else the
highest SNR, then REF, then the lowest number. -/
def Dev.leadOf (d : Dev) (k : Nat) (ds : List (Nat × Nat × Nat)) : Nat × Nat × Nat :=
  let r := d.get BRG_CAN_CFG.REF k
  let better := fun (a b : Nat × Nat × Nat) =>
    if classRank a.2.1 != classRank b.2.1 then decide (classRank b.2.1 < classRank a.2.1)
    else if a.2.1 != 7 && a.2.2 != b.2.2 then decide (b.2.2 < a.2.2)
    else if a.1 == r then true else if b.1 == r then false else decide (a.1 < b.1)
  match ds with
  | [] => (r, 0, 0)
  | x :: xs => xs.foldl (fun b a => if better a b then a else b) x

/-! ### Phase-reference measurement (R224 to R226) -/

/-- The vector sum of the unit vectors of a list of angles, in 2^-64 (R224). -/
def vecSum (l : List Nat) : Int × Int := l.foldl (fun s x => (s.1 + (unitVec x).1, s.2 + (unitVec x).2)) (0, 0)

/-- The projection of a vector on an angle. -/
def vecProj (s : Int × Int) (m : Nat) : Int := s.1 * (unitVec m).1 + s.2 * (unitVec m).2

/-- The circular mean: the unit nearest the direction of the vector sum, that is, the angle with the greatest projection of it
(R224; of two as near the lower one: DESIGN CHOICE). -/
def circMean (l : List Nat) : Nat :=
  ((List.range 1024).foldl (fun (b : Nat × Int) m => if b.2 < vecProj (vecSum l) m then (m, vecProj (vecSum l) m) else b)
    (0, vecProj (vecSum l) 0)).1

/-- The integer square root, over at most `fuel` bit pairs. -/
def isqrt : Nat → Nat → Nat
  | 0, _ => 0
  | fuel + 1, n =>
    let r := 2 * isqrt fuel (n / 4)
    if (r + 1) * (r + 1) ≤ n then r + 1 else r

/-- The distance of two angles, 0 to 512. -/
def angDist (a b : Nat) : Nat := min (phaseSub a b) (phaseSub b a)

/-- The rms deviation from the mean in degrees, saturating at 255. -/
def circSpread (l : List Nat) (m : Nat) : Nat :=
  if l.isEmpty then 0
  else min 255 (isqrt 32 ((l.map (fun x => angDist x m ^ 2)).sum * 129600 / (1048576 * l.length)))

/-- The circular variance of a list of angles, 1 less the length of the mean vector (R225), in 2^-40. -/
def circVar (l : List Nat) : Nat :=
  let s := vecSum l
  let n := max 1 l.length
  (2 ^ 64 * n - isqrt 80 (s.1 * s.1 + s.2 * s.2).toNat + 2 ^ 23 * n) / (2 ^ 24 * n)

/-- The stationarity test of R225 on the windows of one member. -/
def circStable (l : List Nat) : Bool :=
  let a := l.take (l.length / 2)
  let b := l.drop (l.length / 2)
  decide (circVar a ≤ 4 * circVar b) && decide (circVar b ≤ 4 * circVar a) && decide (angDist (circMean a) (circMean b) ≤ 8)

/-- The values a measurement gathered for member `m`. -/
def pcalOf (g : List (List (Nat × Nat))) (m : Nat) : List Nat :=
  g.flatMap (fun w => (w.filter (fun x => x.1 == m)).map (fun x => x.2))

/-- A window of the measured group that contributes to a running measurement (R224): its class is ONE, every member
validated, and every member's port and CHSLOT are those of the first contributing window. -/
def Dev.pcalWindow (d : Dev) (k cls : Nat) : Dev :=
  let st := d.get BRG_PCAL_ST.STATE
  let g := d.grpx k
  let mem := d.members k
  let n := max 2 (d.get BRG_PCAL.N)
  let entries := g.valid.map (fun x => (x.1, x.2.2.2))
  if (st = 1 ∨ st = 2) ∧ d.get BRG_PCAL.GROUP = k ∧ cls = 1 ∧ d.pcal.since < d.tick ∧ d.pcal.gathered.length < n ∧
      mem.all (fun m => g.valid.any (fun x => x.1 == m)) = true ∧
      (d.pcal.entries = [] ∨ mem.all (fun m =>
        entries.any (fun e => e.1 == m && d.pcal.entries.any (fun f => f.1 == m && f.2 % 128 == e.2 % 128))) = true) then
    let ph := fun m => ((g.valid.find? (fun x => x.1 == m)).map (fun x => x.2.2.1)).getD 0
    let r := d.get BRG_CAN_CFG.REF k
    let w := if d.get BRG_PCAL.MODE = 1 then [(d.get BRG_PCAL.TXMEM, ph r)]
      else mem.map (fun m => (m, phaseSub (ph m) (ph r)))
    let d := { d with pcal := { d.pcal with gathered := d.pcal.gathered ++ [w],
                                            entries := if d.pcal.entries = [] then entries else d.pcal.entries } }
    d.put BRG_PCAL_ST.COUNT d.pcal.gathered.length
  else d

end Sys2Proof.Machine
end

