-- ==== Sys2Proof/Machine/Rx.lean ====
section
/-! DEFINITION. Reply reception: classification, reply slots, counters, and the end of a window towards the canopy
group and the Vat (R65 to R88, R142 to R144, R213, R214). -/

namespace Sys2Proof.Machine

/-- The outcome class of a code. -/
def ocOf (c : Nat) : Oc :=
  if c = 0 then .none else if c = 1 then .one else if c = 2 then .clash else if c = 3 then .crcf
  else if c = 4 then .early else if c = 5 then .late else if c = 6 then .weak else .cut

/-- The content of a reply descriptor (R84), SEQ apart. -/
structure Desc where
  cls : Nat := 0
  m : Nat := 0
  fhyp : Nat := 0
  crcOk : Bool := false
  hdr : Bool := false
  mism : Bool := false
  trunc : Bool := false
  clip : Bool := false
  pilot : Bool := false
  len : Nat := 0
  start : Nat := 0
  t1 : Nat := 0
  rssi : Nat := 0
  snr : Nat := 0
  gain : Nat := 0
  lowc : Nat := 0
  phase : Nat := 0
  blf : Nat := 0
  dur : Nat := 0
  cutc : Nat := 0
deriving DecidableEq, Repr

/-- A Bool as a bit. -/
def bit (b : Bool) : Nat := if b then 1 else 0

/-- Word `k` of the data of slot `s` of port `u`: 0 beyond LEN (R82, R145). -/
def Dev.slotData (d : Dev) (u s k : Nat) : Nat :=
  if k < (d.get UHF_RPY_D0.LEN u s + 31) / 32 then d.get UHF_RPY_DATA.DATA u (s * 144 + k) else 0

/-- Data words stored from word `k` of slot `s`. -/
def Dev.putData (d : Dev) (u s : Nat) : Nat → List Nat → Dev
  | _, [] => d
  | k, w :: ws => (d.put UHF_RPY_DATA.DATA w u (s * 144 + k)).putData u s (k + 1) ws

/-- A descriptor and its data written to slot `s` of port `u` (R83, R84). -/
def Dev.putSlot (d : Dev) (u s seq : Nat) (x : Desc) (words : List Nat) : Dev :=
  let d := ((d.put UHF_RPY_D0.CLASS x.cls u s).put UHF_RPY_D0.M x.m u s).put UHF_RPY_D0.FHYP x.fhyp u s
  let d := ((d.put UHF_RPY_D0.CRC_OK (bit x.crcOk) u s).put UHF_RPY_D0.HDR (bit x.hdr) u s).put UHF_RPY_D0.MISM_M (bit x.mism) u s
  let d := ((d.put UHF_RPY_D0.TRUNC (bit x.trunc) u s).put UHF_RPY_D0.CLIP (bit x.clip) u s).put UHF_RPY_D0.PILOT_LONG (bit x.pilot) u s
  let d := (d.put UHF_RPY_D0.LEN x.len u s).put UHF_RPY_D1.START_LO x.start u s
  let d := (d.put UHF_RPY_D2.START_HI (x.start / 2 ^ 32) u s).put UHF_RPY_D3.T1_MEAS x.t1 u s
  let d := ((d.put UHF_RPY_D4.RSSI x.rssi u s).put UHF_RPY_D4.SNR x.snr u s).put UHF_RPY_D4.GAIN x.gain u s
  let d := ((d.put UHF_RPY_D4.LOWC (min x.lowc 255) u s).put UHF_RPY_D5.PHASE x.phase u s).put UHF_RPY_D5.BLF_MEAS x.blf u s
  let d := ((d.put UHF_RPY_D6.DUR x.dur u s).put UHF_RPY_D7.SEQ seq u s).put UHF_RPY_D7.CUTC x.cutc u s
  d.putData u s 0 words

/-- The eight descriptor words of slot `s` of port `u` (R84). -/
def Dev.descWords (d : Dev) (u s : Nat) : List Nat :=
  let g := fun f => d.get f u s
  [g UHF_RPY_D0.CLASS * 2 ^ 29 + g UHF_RPY_D0.M * 2 ^ 27 + g UHF_RPY_D0.FHYP * 2 ^ 24 + g UHF_RPY_D0.CRC_OK * 2 ^ 23 +
     g UHF_RPY_D0.HDR * 2 ^ 22 + g UHF_RPY_D0.MISM_M * 2 ^ 21 + g UHF_RPY_D0.TRUNC * 2 ^ 20 +
     g UHF_RPY_D0.CLIP * 2 ^ 19 + g UHF_RPY_D0.PILOT_LONG * 2 ^ 18 + g UHF_RPY_D0.LEN,
   g UHF_RPY_D1.START_LO, g UHF_RPY_D2.START_HI, g UHF_RPY_D3.T1_MEAS,
   g UHF_RPY_D4.RSSI * 2 ^ 20 + g UHF_RPY_D4.SNR * 2 ^ 12 + g UHF_RPY_D4.GAIN * 2 ^ 8 + g UHF_RPY_D4.LOWC,
   g UHF_RPY_D5.PHASE * 2 ^ 16 + g UHF_RPY_D5.BLF_MEAS, g UHF_RPY_D6.DUR,
   g UHF_RPY_D7.SEQ * 2 ^ 16 + g UHF_RPY_D7.CUTC]

/-- The slot a classification writes (R82): the one not viewed. -/
def Dev.nextSlot (d : Dev) (u : Nat) : Nat := 1 - d.get UHF_RX_STATUS.VIEW u

/-- A counter incremented, which a clear of the same tick leaves at 1 (R87). -/
def Dev.count (d : Dev) (u : Nat) (f : Fld) (j : Nat) : Dev :=
  let d := d.inc f u j
  d.setCh u { d.chx u with bumped := (d.chx u).bumped ++ [(f, j)] }

/-- A violation counter incremented where its condition holds (R71, R72, R76). -/
def Dev.countIf (d : Dev) (c : Bool) (f : Fld) (u : Nat) : Dev := if c then d.count u f 0 else d

/-- A classification counted in its class (R87). -/
def Dev.countClass (d : Dev) (u cls : Nat) : Dev :=
  d.count u (if cls % 2 = 0 then UHF_RX_CCNT.CNT_LO else UHF_RX_CCNT.CNT_HI) (cls / 2)

/-- The counters of a tick are those of the latest classification only. -/
def Dev.countNew (d : Dev) (u : Nat) : Dev := d.setCh u { d.chx u with bumped := [] }

/-! ### The receive pipeline and the capture buffer (R65, R88) -/

/-- The decimation factor D of registers `u` (R65): floor(38,400 / (19.2 × BLF)) of the latest listen parameters, limited to 3 to 50;
BLF is held in 0.1 kHz. -/
def Dev.decimation (d : Dev) (u : Nat) : Nat := max 3 (min 50 (20000 / (d.chx u).blf))

/-- D of the samples that the capture unit of registers `u` writes; 0 in RAW mode. -/
def Dev.capRate (d : Dev) (u : Nat) : Nat := if d.get UHF_CAP_CTRL.MODE u = 0 then 0 else d.decimation u

/-- The AT ticks of a sample: 38.4 MS/s, or 38.4 / D MS/s. -/
def Dev.capTicks (d : Dev) (u : Nat) : Nat := 4 * max 1 (d.capRate u)

/-- The samples at which a RUNNING capture stops (R88). -/
def Dev.capLast (d : Dev) (u : Nat) : Nat := (d.chx u).capTrig + 8192 * (8 - d.get UHF_CAP_CTRL.PRE u)

/-- The samples written by tick `t`, since the ARM. -/
def Dev.capCount (d : Dev) (u t : Nat) : Nat :=
  let n := (d.chx u).capDone + (t - (d.chx u).capAt) / d.capTicks u
  if d.get UHF_CAP_STATUS.STATE u = 2 then min n (d.capLast u) else n

/-- The capture unit of registers `u` is ARMED or RUNNING. -/
def Dev.capOn (d : Dev) (u : Nat) : Bool := d.get UHF_CAP_STATUS.STATE u == 1 || d.get UHF_CAP_STATUS.STATE u == 2

/-- The owner of the capture buffer: the chain whose unit is ARMED or RUNNING. -/
def Dev.capOwner (d : Dev) : Option Nat := (List.range 9).find? d.capOn

/-- Samples written circularly from an index of the buffer. -/
def Dev.capStore (d : Dev) : Nat → List Word → Dev
  | _, [] => d
  | k, w :: ws => (d.setWord (0x300000 + 4 * (k % 65536)) w.toNat).capStore (k + 1) ws

/-- The samples up to the `n`-th since the ARM stand in the buffer, the latest 65,536 of them. What was sampled is a free value. -/
def Dev.capFill (d : Dev) (u n : Nat) : Dev :=
  let x := d.chx u
  let from' := max x.capDone (n - 65536)
  let at' := fun k => x.capAt + (k + 1 - x.capDone) * d.capTicks u
  let e := d.capStore from' ((List.range (n - from')).map (fun i => Config.capSample u (d.capRate u) (at' (from' + i))))
  e.setCh u { x with capDone := n, capAt := x.capAt + (n - x.capDone) * d.capTicks u }

/-- The buffer holds the samples that the capture unit in progress has written by now (R88). -/
def Dev.capSync (d : Dev) : Dev :=
  match d.capOwner with
  | some u => d.capFill u (d.capCount u d.tick)
  | none => d

/-- The word a Vat loads from address `a`: in the capture buffer with the samples written by now (R88, R103). -/
def Dev.loadWord (d : Dev) (a : Nat) : Nat := if a < 0x300000 then d.word a else d.capSync.word a

/-- New listen parameters take effect in the pipeline; a capture that runs counts its samples at the new rate from here on. -/
def Dev.setBlf (d : Dev) (u blf : Nat) : Dev :=
  let d := if d.capOn u then d.capFill u (d.capCount u d.tick) else d
  d.setCh u { d.chx u with blf := blf }

/-- A classified slot is stored (R79, R82): descriptor, data, SEQ, LAST_CLASS, view; the window closes. `e` is E_R of a
reply that serves as a reference for TXC REL (R141). -/
def Dev.classify (d : Dev) (u : Nat) (x : Desc) (bits : List Bool) (e : Option Nat) : Dev :=
  let d := d.lkcFold (if u < 8 then d.carrierOf u else u) d.tick
  let s := d.nextSlot u
  let seq := (d.get UHF_RX_STATUS.SEQ u + 1) % 65536
  let d := d.putSlot u s seq x (packWords bits)
  let d := ((d.put UHF_RX_STATUS.SEQ seq u).put UHF_RX_STATUS.LAST_CLASS x.cls u)
  let d := d.put UHF_RX_STATUS.DECODING 0 u
  let d := if d.isSet UHF_RPY_IDX.FREEZE u then d else d.put UHF_RX_STATUS.VIEW s u
  let d := d.setCh u { d.chx u with slot := s, slotTick := d.tick, win := none, refE := e }
  d.countClass u x.cls

/-- The first word a reply gives LSN's g[RD]: the first 32 stored bits for ONE, WEAK, CRCF, EARLY and LATE, else 0
(R142). -/
def Dev.lsnWord (d : Dev) (u s cls : Nat) : Nat :=
  if cls = 0 ∨ cls = 2 ∨ cls = 7 then 0 else d.slotData u s 0

/-- The waiting LSN of Vat `v` ends at tick `t` with a class, its first word and its status (R142, R144). -/
def Dev.lsnEnd (d : Dev) (v cls w st t : Nat) : Dev :=
  match (d.vatx v).wait with
  | .lsn rd => if d.vst v = vsWait then (d.setGr v rd w).airEnd v opLsn (ocOf cls) st t else d
  | _ => d

/-- The sighting metadata of Vat `v` taken from slot `s` of port `u` (R149, R214). -/
def Dev.latchSight (d : Dev) (v u s : Nat) (mask : Nat) (group : Option Nat) (window : Nat) : Dev :=
  let x : Sight := { start := d.get UHF_RPY_D1.START_LO u s + d.get UHF_RPY_D2.START_HI u s * 2 ^ 32,
                     rssi := d.get UHF_RPY_D4.RSSI u s, fe := u, mask := mask, group := group, window := window }
  let x := match group with
    | some k =>
      if (d.grpx k).loaded = window ∧ window ≠ 0 then
        { x with ready := true,
                 bear := if d.get BRG_CAN_RES2.SCORE k = 0 then none
                   else some (d.get BRG_CAN_RES1.BIN k, d.get BRG_CAN_RES1.RUNNER k, d.get BRG_CAN_RES2.SCORE k) }
      else x
    | none => x
  d.setVat v { d.vatx v with sight := some x }

/-- Every member of group `k` has decided (R213, R214, R216, R221): the lead member, the group's class for the Vat, the
sighting, a measurement's window, and the result of a window without a match: SCORE 0 and its SEQ, and 0 in USED, PIVOT, BIN, RUNNER
and RSCORE (assumption: DESIGN CHOICE, R221 gives a window without a match SCORE and SEQ alone). -/
def Dev.groupDecide (d : Dev) (k : Nat) : Dev :=
  let g := d.grpx k
  let lead := d.leadOf k g.decided
  let u := lead.1
  let cls := lead.2.1
  let s := (d.chx u).slot
  let t := max g.decTick d.tick
  let seq := d.get UHF_RPY_D7.SEQ u s
  let run := g.run.map (fun m => if m.window = g.window then { m with seq := seq, dec := t } else m)
  let d := d.setGrp k { g with opened := false, lead := some u, decTick := t, run := run }
  let d := d.pcalWindow k cls
  let d := match d.binder (0x0C + k) with
    | none => d
    | some v =>
      let d := if cls = 1 ∨ cls = 6 then d.latchSight v u s (maskOf (d.members k)) (some k) g.window else d
      d.lsnEnd v cls (d.lsnWord u s cls) (if cls = 7 then lead.2.2 else 0) t
  let mine := match g.run with | some m => m.window == g.window | none => false
  if cls = 7 ∨ mine = false then
    let d := if g.started ∧ mine = false then d else d.inc BRG_CAN_CNT0.NOBEAR k
    let d := d.loadResult k seq 0 0 0 0 (d.steerValue k) 0 0
    (d.setGrp k { d.grpx k with run := if mine then none else (d.grpx k).run, started := true, loaded := g.window }).sightReady
      k g.window 0 0 0
  else d

/-- A window of port `u` has been classified at tick `t`: the group or the bound Vat learns of it (R86, R142, R213). `snr` is
the SNR, or for CUT the status LSN reports. -/
def Dev.windowToldAt (d : Dev) (u : Nat) (w : Window) (cls snr t : Nat) : Dev :=
  match w.group with
  | some k =>
    let g := d.grpx k
    let d := d.setGrp k { g with decided := g.decided ++ [(u, cls, snr)], decTick := max g.decTick t }
    if (d.members k).all (fun m => (d.grpx k).decided.any (fun x => x.1 == m)) && g.opened then d.groupDecide k else d
  | none =>
    let s := (d.chx u).slot
    let d := match d.binder u with
      | some v => if cls = 1 ∨ cls = 6 then d.latchSight v u s (2 ^ u) none 0 else d
      | none => d
    match w.vat with
    | some v => d.lsnEnd v cls (d.lsnWord u s cls) (if cls = 7 then snr else 0) t
    | none => d

/-- The same at the present tick. -/
def Dev.windowTold (d : Dev) (u : Nat) (w : Window) (cls snr : Nat) : Dev := d.windowToldAt u w cls snr d.tick

/-- The counters of a reply that was taken on hypothesis `h` and measured with link frequency `blf` (R71, R72). -/
def Dev.countTaken (d : Dev) (u : Nat) (w : Window) (h : Hyp) (blf : Nat) : Dev :=
  let d := d.countIf (h.coding.toNat != w.m) UHF_RX_VCNT0.M_MISM u
  let d := d.countIf (h.pilotLong != w.trext) UHF_RX_VCNT2.PILOT u
  d.countIf (decide (d.get UHF_RX_CTRL.FT_WARN u * w.blf < absDiff blf w.blf * 100)) UHF_RX_VCNT0.FT_EDGE u

/-- A window that is open on port `u` is pre-empted, with effect at tick `t` (R78 to R80): class CUT with its cause; what was
measured before stays, CLIP and LOWC by measurements that nothing else brings. `st` is the status LSN reports (R144). -/
def Dev.cutWindowAt (d : Dev) (u cutc st t : Nat) : Dev :=
  match (d.chx u).win with
  | none => d
  | some w =>
    let d := d.countNew u
    let d := match w.pre.bind (fun p => (p.hyps.head?).map (fun h => (p, h))) with
      | some (p, h) => d.countTaken u w h p.blf.toNat
      | none => d
    let x : Desc := match w.pre with
      | none => { cls := 7, cutc := cutc }
      | some p =>
        let h := p.hyps.head?
        { cls := 7, cutc := cutc, m := (h.map (fun h => h.coding.toNat)).getD 0,
          fhyp := (h.map (fun h => h.fhyp.val)).getD 0,
          mism := (h.map (fun h => h.coding.toNat != w.m)).getD false,
          clip := Config.rxClip u t, lowc := Config.rxLowc u t,
          pilot := (h.map (fun h => h.pilotLong)).getD false, start := p.start % 2 ^ 64,
          t1 := toSigned 32 ((p.start : Int) - w.ref), rssi := p.rssi.toNat, snr := p.snr.toNat, gain := p.gain.toNat,
          phase := p.phase.toNat, blf := p.blf.toNat }
    (d.classify u x [] none).windowToldAt u w 7 st t

/-- A window that is open on port `u` is pre-empted now. -/
def Dev.cutWindow (d : Dev) (u cutc st : Nat) : Dev := d.cutWindowAt u cutc st d.tick

/-- The better of two hypotheses (R71): higher correlation, then the commanded coding, then the lower FHYP. -/
def betterHyp (m : Nat) (a b : Hyp) : Bool :=
  if a.corr != b.corr then decide (b.corr < a.corr)
  else if (a.coding.toNat == m) != (b.coding.toNat == m) then a.coding.toNat == m
  else decide (a.fhyp.val < b.fhyp.val)

/-- A hypothesis acquires a link frequency `blf` within 4 % of the nominal one about its centre (R70, R81). -/
def hypReach (nom blf : Nat) (h : Hyp) : Bool := decide (absDiff (100 * blf) ((84 + 8 * h.fhyp.val) * nom) ≤ 4 * nom)

/-- The hypothesis taken among those that reached the threshold (R70, R71). Two of equal correlation and equal FHYP, neither on the
commanded coding or differing in the pilot alone, have no further rule: the first of the list is taken (assumption: DESIGN
CHOICE). -/
def takeHyp (thr m : Nat) (hs : List Hyp) : Option Hyp :=
  match hs.filter (fun h => decide (thr ≤ h.corr)) with
  | [] => none
  | h :: t => some (t.foldl (fun b a => if betterHyp m a b then a else b) h)

/-- A number from bits, most significant first. -/
def natOfBits (bits : List Bool) : Nat := bits.foldl (fun n b => 2 * n + bit b) 0

/-- The expected length of a reply under its length mode (R75); OPEN has none. The second component is HDR. -/
def expectedLen (lmode len : Nat) (bits : List Bool) : Option Nat × Bool :=
  if lmode = 0 then (some len, false)
  else if lmode = 1 then (if bits.getD 0 false then (some 41, true) else (some len, false))
  else if lmode = 2 then
    let l := natOfBits (bits.take 5)
    let xi := bit (bits.getD 6 false)
    let xeb := if xi = 1 then bit (bits.getD 16 false) else 0
    (some (16 * (l + 1) + 16 * xi + 16 * xeb + 16), false)
  else (none, false)

/-- A window of UHF port `u` without a preamble has heard energy (R77). -/
def Dev.energyHeard (d : Dev) (u : Nat) (w : Window) (o : ReplyObs) : Bool :=
  decide (w.openAt < w.close) && d.get UHF_RX_NOISE.NOISE u != 0x800 && decide (d.get UHF_RX_CTRL.EN_THR u ≤ o.level)

/-- A reply that UHF port `u` acquired under hypothesis `h` is decodable (R71, R76). -/
def Dev.decodes (d : Dev) (u : Nat) (w : Window) (h : Hyp) (o : ReplyObs) : Bool :=
  !(w.strict && h.coding.toNat != w.m) && !(!w.crc16 && decide (d.get UHF_RX_CTRL.LOWC_MAX u < o.lowc))

/-- The decision tick of a window of UHF port `u` (R79). -/
def Dev.decideTick (d : Dev) (u : Nat) (w : Window) (o : ReplyObs) : Nat :=
  match w.pre.bind (fun p => p.hyps.head?) with
  | none => if d.energyHeard u w o then max w.close o.energyEnd + 384 else w.close + 384
  | some h => if d.decodes u w h o then max (o.eD + 384) o.eR else o.eD + 384

/-- A window of UHF port `u` reaches its decision (R75 to R79): the class by the table "Classification order", the
decision tick, the slot, the counters, and what the Vat or the group sees. -/
def Dev.uhfDecide (d : Dev) (u : Nat) (o : ReplyObs) : Dev :=
  match (d.chx u).win with
  | none => d
  | some w =>
    match w.pre.bind (fun p => (p.hyps.head?).map (fun h => (p, h))) with
    | none =>
      let cls := if d.energyHeard u w o then 2 else 0
      let d := d.toTick (d.decideTick u w o)
      ((d.countNew u).classify u { cls := cls } [] none).windowTold u w cls 0
    | some (p, h) =>
      let m := h.coding.toNat
      let mism := m != w.m
      let el := expectedLen w.lmode w.len o.bits
      let decodable := d.decodes u w h o
      let trunc := decide (4608 < o.bits.length)
      let bits := o.bits.take 4608
      let short := match el.1 with | some n => decide (o.bits.length ≠ n) || o.overrun | none => false
      let wrong := trunc || short
      let good := w.crc16 && crc16Good bits
      let cls :=
        if !decodable then 2
        else if p.start < w.t1Min then 4
        else if w.t1Max ≤ p.start then 5
        else if wrong || (w.crc16 && !good) then 3
        else if decide (o.snr.toNat < (if w.qsel = 0 then d.get UHF_RX_QFLR.QF0 u else if w.qsel = 1 then
            d.get UHF_RX_QFLR.QF1 u else if w.qsel = 2 then d.get UHF_RX_QFLR.QF2 u else d.get UHF_RX_QFLR.QF3 u)) then 6
        else 1
      let d := d.toTick (d.decideTick u w o)
      let d := (d.countNew u).countTaken u w h o.blf.toNat
      let d := d.countIf (decodable && o.drift) UHF_RX_VCNT1.DRIFT u
      let d := d.countIf wrong UHF_RX_VCNT1.LEN u
      let d := d.countIf trunc UHF_RX_VCNT2.TRUNC u
      let x : Desc :=
        { cls := cls, m := m, fhyp := h.fhyp.val, crcOk := decodable && good, hdr := el.2, mism := mism, trunc := trunc,
          clip := o.clip, pilot := h.pilotLong, len := bits.length, start := p.start % 2 ^ 64,
          t1 := toSigned 32 ((p.start : Int) - w.ref), rssi := o.rssi.toNat, snr := o.snr.toNat, gain := p.gain.toNat,
          lowc := o.lowc, phase := p.phase.toNat, blf := o.blf.toNat, dur := (o.eR - p.start) % 2 ^ 32 }
      let ref := if cls = 2 then none else some o.eR
      (d.classify u x bits ref).windowTold u w cls o.snr.toNat

/-- A preamble validates on UHF port `u` (R69 to R71, R73): the hypothesis taken, the gain held, decoding begun. Only a
start inside [open, close) is acquired, and the window takes one reply. -/
def Dev.uhfPreamble (d : Dev) (u : Nat) (o : PreambleObs) : Dev :=
  match (d.chx u).win with
  | none => d
  | some w =>
    match takeHyp (d.get UHF_RX_CTRL.PRE_THR u) w.m (o.hyps.filter (hypReach w.blf o.blf.toNat)) with
    | none => d
    | some h =>
      if w.pre.isNone ∧ w.openAt ≤ o.start ∧ o.start < w.close then
        let d := d.toTick o.tick
        let gain := if d.get UHF_RX_CTRL.AGC u = 1 then min 14 (d.get UHF_RX_CTRL.AGC_FIX u) else min 14 o.gain.toNat
        let p := { o with hyps := [h], gain := BitVec.ofNat 4 gain }
        let d := d.setCh u { d.chx u with win := some { w with pre := some p } }
        let d := (d.put UHF_RX_STATUS.DECODING 1 u).put UHF_RX_NOISE.GAIN gain u
        match w.group with
        | some k =>
          d.setGrp k { d.grpx k with valid := (d.grpx k).valid ++ [(u, d.tick, o.phase.toNat, d.offsetEntry u)] }
        | none => d
      else d

end Sys2Proof.Machine
end

