-- ==== Sys2Proof/Machine/Chain.lean ====
section
/-! DEFINITION. The radio states of a UHF chain: timed transitions, launch, ramps, trips, canceller and weights
(R41 to R59). Electronics are numbered 0 to 8 (8 is US); the registers that set them are those of `Dev.cfg`. -/

namespace Sys2Proof.Machine

/-- The TX gate of electronics `c` is open (R41): RAMP_UP to RAMP_DOWN, and the trip ramp until its end. -/
def Dev.gate (d : Dev) (c : Nat) : Bool :=
  (decide (csUp ≤ d.cst c) && decide (d.cst c ≤ csDown)) || decide (d.tick < (d.chx c).gateShut)

/-- A carrier is on and not ramping down: RAMP_UP, CARRIER or MOD. -/
def Dev.carrierOn (d : Dev) (c : Nat) : Bool := decide (csUp ≤ d.cst c) && decide (d.cst c ≤ csMod)

/-- What stands now, for a happening on the ports `units` that another one of this tick may take back: the fields `keys`, the
records of the ports, and the accounts of their front ends. -/
def Dev.before (d : Dev) (units : List Nat) (v : Option Nat) (keys : List RKey) : Before :=
  { tick := d.tick, units := units, vat := v.map (fun v => (v, d.vatx v)),
    regs := keys.map (fun k => (k, d.get k.f k.i k.j)),
    chs := (units ++ units.map d.cfg).map (fun c => (c, d.chx c)),
    fes := (units.filterMap d.feOf).map (fun n => (n, d.fex n)) }

/-- What a happening changed is put back. -/
def Dev.putBack (d : Dev) (b : Before) : Dev :=
  let d := match b.vat with
    | some (v, x) => d.setVat v x
    | none => d
  let d := b.regs.foldl (fun d r => d.put r.1.f r.2 r.1.i r.1.j) d
  let d := b.chs.foldl (fun d c => d.setCh c.1 c.2) d
  b.fes.foldl (fun d n => d.setFe n.1 n.2) d

/-- The register fields that a launch of electronics `c` writes. -/
def Dev.launchKeys (d : Dev) (c : Nat) : List RKey :=
  [⟨UHF_STATUS.STATE, c, 0⟩, ⟨UHF_LKC_TRIM.TRIM_I, c, 0⟩, ⟨UHF_LKC_TRIM.TRIM_Q, c, 0⟩, ⟨UHF_LKC_RESID.RESID, c, 0⟩,
    ⟨UHF_PWR.DRIVE, d.cfg c, 0⟩]

/-- The register fields that the end of a Vat's instruction writes. -/
def endKeys (v : Nat) : List RKey :=
  [⟨VAT_STATUS.STATE, v, 0⟩, ⟨VAT_PC.PC, v, 0⟩, ⟨VAT_OC.OC, v, 0⟩, ⟨VAT_ASTAT.LAST_ERR, v, 0⟩, ⟨VAT_ASTAT.LAST_OP, v, 0⟩,
    ⟨VAT_ACNT.CUTS, v, 0⟩, ⟨VAT_ACNT.REFUSED, v, 0⟩]

/-- A launch in this very tick that electronics `c` took part in is taken back: the Vat holds its CARRY again, LKC has no carrier
yet, a switch-over restores none yet (R60, R268). -/
def Dev.unlaunch (d : Dev) (c : Nat) : Dev :=
  match d.launched.find? (fun b => b.tick == d.tick && b.units.contains c) with
  | some b =>
    let e := d.putBack b
    { e with launched := d.launched.filter (fun x => x != b),
             cal := d.cal.map (fun x => if b.units.contains x.1 && x.2.op == 6 && x.2.stage == 1 then (x.1, { x.2 with stage := 0 }) else x),
             spare := { d.spare with sw := d.spare.sw.map (fun w =>
               if b.units.contains (if w.take then 8 else w.fe) then { w with launched := false } else w) } }
  | none => d

/-- A launch on electronics `c` at the present tick, kept for a happening of the tick that comes before it (R60, R268). -/
def Dev.keepLaunch (d : Dev) (b : Before) : Dev :=
  { d with launched := d.launched.filter (fun x => x.tick == d.tick) ++ [b] }

/-- The launches of this tick on any electronics of a list taken back. -/
def Dev.unlaunchs (d : Dev) (l : List Nat) : Dev := l.foldl (fun d c => d.unlaunch c) d

/-- The Vats whose CARRY launched in this tick. -/
def Dev.launchers (d : Dev) : List Nat :=
  (d.launched.filter (fun b => b.tick == d.tick)).filterMap (fun b => b.vat.map (fun x => x.1))

/-- The chain registers of a port code: a chain's own, UHFS's, or those of a group's members (R132). -/
def Dev.portRegs (d : Dev) (p : Nat) : List Nat :=
  if p ≤ 8 then [p] else if 0x0C ≤ p ∧ p ≤ 0x0F then d.members (p - 0x0C) else []

/-- The electronics a Vat bound to a port code acts on: whoever carries each front end (R146). An attached US is
reached through UHFn only. -/
def Dev.portUnits (d : Dev) (p : Nat) : List Nat :=
  if p = 8 then (if d.attached.isNone then [8] else []) else (d.portRegs p).map d.carrierOf

/-- The electronics Vat `v` acts on. -/
def Dev.vatUnits (d : Dev) (v : Nat) : List Nat := d.portUnits (d.get VAT_BIND.PORT v)

/-- Any electronics of a list has its TX gate open. -/
def Dev.anyGate (d : Dev) (l : List Nat) : Bool := l.any d.gate

/-- The READY-to-RX time of the chain registers `u` (R42): 5 µs + PA_SETTLE, values above 10 acting as 10. -/
def Dev.rxTime (d : Dev) (u : Nat) : Nat := usTicks (5 + min 10 (d.get UHF_FE.PA_SETTLE u))

/-- A timed transition of electronics `c` begins. -/
def Dev.chainTo (d : Dev) (c goal due : Nat) : Dev := d.setCh c { d.chx c with goal := some goal, due := due }

/-- The next transition of electronics `c` toward a TARGET, from tick `t` (R42). A transition in progress ends first. -/
def Dev.chainGo (d : Dev) (c target t : Nat) : Dev :=
  let d := d.setCh c { d.chx c with target := some target }
  let s := d.cst c
  if (d.chx c).goal.isSome then d
  else if s = csOff ∧ 1 ≤ target then d.chainTo c csReady (t + usTicks 35)
  else if s = csReady ∧ target = 2 then d.chainTo c csRx (t + d.rxTime (d.cfg c))
  else if s = csReady ∧ target = 0 then d.chainTo c csOff (t + 154)
  else if s = csRx ∧ target < 2 then d.chainTo c target (t + 154)
  else d.setCh c { d.chx c with target := none }

/-- The trim-cache place of electronics `c`: the register unit and the entry (R58, R244). -/
def Dev.cacheAt (d : Dev) (c port chslot : Nat) : Nat × Nat :=
  if c = 8 then (8, (d.attached.getD (d.get UHFS_CBANK.BANK)) * 128 + port * 8 + chslot) else (c, port * 8 + chslot)

/-- The trims a ramp-up starts from (R58, R244): a valid entry; for US on a front end else the chain's own valid entry;
else zero. With CACHE = 0 the present trims. -/
def Dev.cacheLoad (d : Dev) (c : Nat) : Dev :=
  let u := d.cfg c
  if d.isSet UHF_LKC_CTRL.CACHE u then
    let port := d.get UHF_ANT.PORT u
    let ch := d.get UHF_CTRL.CHSLOT u
    let (i, j) := d.cacheAt c port ch
    let (i, j) := if c = 8 ∧ u < 8 ∧ d.isSet UHF_LKC_CDATA.VALID i j = false then (u, port * 8 + ch) else (i, j)
    if d.isSet UHF_LKC_CDATA.VALID i j then
      (d.put UHF_LKC_TRIM.TRIM_I (d.get UHF_LKC_CDATA.C_I i j) c).put UHF_LKC_TRIM.TRIM_Q (d.get UHF_LKC_CDATA.C_Q i j) c
    else (d.put UHF_LKC_TRIM.TRIM_I 0 c).put UHF_LKC_TRIM.TRIM_Q 0 c
  else d

/-- The tick up to which electronics `c` have been in CARRIER: the present one, or the start of the template in transmission, from
which on they are in MOD. -/
def Dev.carrierTick (d : Dev) (c : Nat) : Nat :=
  let x := d.chx (d.cfg c)
  if x.txOn && decide (x.txStart ≤ d.tick) then x.txStart else d.tick

/-- The residual at the mixer input of electronics `c`: measured in CARRIER, a free value; 0x800 is no measurement. -/
def Dev.resid (d : Dev) (c : Nat) : Nat :=
  if d.cst c = csCarrier then (Config.lkcResid c (d.carrierTick c)).toNat
  else d.get UHF_LKC_RESID.RESID c

/-- Convergence (R59): a measured residual at or below −30 dBm. -/
def Dev.converged (d : Dev) (c : Nat) : Bool := d.resid c != 0x800 && decide (signedOf 12 (d.resid c) ≤ -300)

/-- A trim stands at full scale. -/
def Dev.trimSat (d : Dev) (c : Nat) : Bool := [0x7FF, 0x800].contains (d.trimI c) || [0x7FF, 0x800].contains (d.trimQ c)

/-- The canceller of electronics `c` stands still from here: its trims and residual are held as they are. -/
def Dev.lkcHold (d : Dev) (c : Nat) : Dev :=
  ((d.put UHF_LKC_TRIM.TRIM_I (d.trimI c) c).put UHF_LKC_TRIM.TRIM_Q (d.trimQ c) c).put UHF_LKC_RESID.RESID (d.resid c) c

/-- The trims of electronics `c` written into the cache entry of its port and channel slot, which is valid then. -/
def Dev.cacheWrite (d : Dev) (c : Nat) : Dev :=
  let u := d.cfg c
  let (i, j) := d.cacheAt c (d.get UHF_ANT.PORT u) (d.get UHF_CTRL.CHSLOT u)
  ((d.put UHF_LKC_CDATA.VALID 1 i j).put UHF_LKC_CDATA.C_I (d.trimI c) i j).put UHF_LKC_CDATA.C_Q (d.trimQ c) i j

/-- The write-back at a ramp-down (R58): only when CACHE is 1 and CONV reads 1 at its start. A calibration's carrier writes
none back: only one that passes changes its entry (R234 to R236). -/
def Dev.cacheStore (d : Dev) (c : Nat) : Dev :=
  if d.isSet UHF_LKC_CTRL.CACHE (d.cfg c) && d.converged c && !(d.chx c).byCal then d.cacheWrite c else d

/-- The drive of electronics `c` from setpoint and declared gain, −20.0 to +10.0 dBm (R47). The gain counts in 0.25 dB: an odd
one is taken as the next lower 0.1 dB (assumption: DESIGN CHOICE, the spec does not say how it is rounded). -/
def Dev.driveOf (d : Dev) (c : Nat) : Nat :=
  let u := d.cfg c
  toSigned 12 (max (-200) (min 100 ((d.get UHF_PWR.SETPT u : Int) - (d.get UHF_FE.PA_GAIN u * 5 : Nat) / 2)))

/-- The present drive of electronics `c` (R47): with LOOP = 1 in CARRIER what the loop has corrected it to, every 1 µs, a free
value that never exceeds +10.0 dBm; in MOD as it stood; else from setpoint and gain; once the ramp-down has begun, as it stood then. -/
def Dev.driveNow (d : Dev) (c : Nat) : Nat :=
  let u := d.cfg c
  if d.cst c = csCarrier ∧ d.isSet UHF_PWR.LOOP u = true then
    toSigned 12 (max (-200) (min 100 (Config.loopDrive u ((d.carrierTick c - (d.chx c).due) * 10 / 1536) (d.get UHF_PWR.SETPT u)).toInt))
  else if d.carrierOn c then d.driveOf c else d.get UHF_PWR.DRIVE u

/-- The power loop of electronics `c` holds the forward reading at the setpoint: LOOP = 1, the drive below its limit, and the
detector, CPL_FWD below the connector, within its range (R47). -/
def Dev.loopHolds (d : Dev) (c : Nat) : Bool :=
  let u := d.cfg c
  let det : Int := (d.get UHF_PWR.SETPT u : Int) - (d.get UHF_FE.CPL_FWD u * 5 : Nat) / 2
  d.isSet UHF_PWR.LOOP u && decide (signedOf 12 (d.driveNow c) < 100) && decide (-200 ≤ det) && decide (det ≤ 100)

/-- UHFn_DET of front end `u`, FWD (0) or REFL (1): below range with the gate closed; else the present 1 µs reading, a free value
but for one that OVERPOWER brought; in CARRIER with the loop in effect FWD is SETPT to within 0.5 dB (R47). -/
def Dev.detNow (d : Dev) (u k : Nat) : Nat :=
  let c := if u < 8 then d.carrierOf u else u
  let n := d.tick * 10 / 1536
  if d.gate c = false ∨ d.cfg c ≠ u then 0x800
  else if k = 0 ∧ (d.chx u).detAt = n + 1 then d.get UHF_DET.FWD u
  else
    let r := (Config.detReading u k n).toInt
    if k = 0 ∧ d.cst c = csCarrier ∧ d.loopHolds c = true then
      toSigned 12 (max ((d.get UHF_PWR.SETPT u : Int) - 5) (min ((d.get UHF_PWR.SETPT u : Int) + 5) r))
    else toSigned 12 r

/-- The drive and the canceller of electronics `c` are held as they stand: the carrier begins to end. -/
def Dev.carrierHold (d : Dev) (c : Nat) : Dev := (d.put UHF_PWR.DRIVE (d.driveNow c) (d.cfg c)).lkcHold c

/-- The angle that the phase rotator of electronics `c` turns by (R52, R212): PHASE, or the one in effect while a written weight is
held in MOD, plus the TX_OFF in effect since the ramp-up, which is 0 with TXCOMP = 0 and outside a bound group. -/
def Dev.rotator (d : Dev) (c : Nat) : Nat :=
  (((d.chx c).txwHold.map (fun w => w.2)).getD (d.get UHF_TXW.PHASE (d.cfg c)) + (d.chx c).txOff) % 1024

/-- The TX_OFF a ramp-up takes into effect (R212): that of the offset entry in a bound group with TXCOMP = 1, 0 for an
invalid entry or elsewhere. -/
def Dev.txOffOf (d : Dev) (c : Nat) : Nat :=
  match d.feOf c with
  | none => 0
  | some n =>
    match d.groupOf n with
    | some k =>
      if d.isSet BRG_CAN_CFG.TXCOMP k && d.isSet BRG_PODATA.VALID 0 (d.offsetEntry n) then
        d.get BRG_PODATA.TX_OFF 0 (d.offsetEntry n) else 0
    | none => 0

/-- The carrier of port registers `u` is over: what its transmissions and replies were no longer counts as a reference (R66,
R141). -/
def Dev.forgetTx (d : Dev) (u : Nat) : Dev := d.setCh u { d.chx u with lastTx := none, refE := none, txOn := false }

/-- A carrier launches on electronics `c` at tick `t` (R42, R45): RAMP_UP over RAMP_UP ticks, trims from the cache, the
front end's account open, no transmission and no reply of this carrier yet. -/
def Dev.launch (d : Dev) (c t : Nat) (restored byCal : Bool) : Dev :=
  let u := d.cfg c
  let d := (d.put UHF_STATUS.STATE csUp c).cacheLoad c
  let d := d.put UHF_LKC_RESID.RESID 0x800 c
  let d := d.put UHF_PWR.DRIVE (d.driveOf c) u
  let d := d.setCh c { d.chx c with goal := some csCarrier, due := t + d.get UHF_RAMP.RAMP_UP u, target := none, gateShut := 0,
                                    launched := t, rxSince := none, txOff := d.txOffOf c, byCal := byCal, guarded := none }
  let d := if restored then d.setCh u { d.chx u with txOn := false } else d.forgetTx u
  match d.feOf c with
  | some n => d.acctOpen n t restored
  | none => d

/-- The ramp-up is complete (R42): CARRIER, and the canceller tracks from the trims that the ramp-up loaded (R57). -/
def Dev.rampUpEnd (d : Dev) (c : Nat) : Dev :=
  let d := d.put UHF_STATUS.STATE csCarrier c
  d.setCh c { d.chx c with goal := none, trackAt := (d.chx c).due }

/-- A weight that was held or still in transition is complete (R52). -/
def Dev.txwSettle (d : Dev) (c : Nat) : Dev :=
  let x := d.chx c
  d.setCh c { x with txwHold := none, txwDone := 0 }

/-- The transmission on port registers `u` ends at tick `t`: the chain shows CARRIER again, and a weight held in MOD
takes effect (R42, R52). One that had not launched is no transmission of the carrier (R66). -/
def Dev.txStop (d : Dev) (u t : Nat) : Dev :=
  if (d.chx u).txOn then
    let c := if u < 8 then d.carrierOf u else u
    let d := d.lkcFold c t
    let d := d.setCh u { d.chx u with txOn := false, lastTx := if (d.chx u).txStart < t then some t else (d.chx u).lastTx }
    let y := d.chx c
    match y.txwHold with
    | some _ => d.setCh c { y with txwHold := none, txwDone := t + 1 + 256 }
    | none => d
  else d

/-- The carrier of electronics `c` starts to ramp down at tick `t`, over `len` ticks (R42, R51, R58, R260): a template
ends, drive and trims are held and written back. -/
def Dev.rampDownOver (d : Dev) (c t len : Nat) : Dev :=
  if d.carrierOn c then
    let d := ((d.carrierHold c).cacheStore c).txStop (d.cfg c) t
    (d.put UHF_STATUS.STATE csDown c).chainTo c csRx (t + len)
  else d

/-- The carrier of electronics `c` starts its ramp-down at tick `t` over RAMP_DN ticks. -/
def Dev.rampDown (d : Dev) (c t : Nat) : Dev := d.rampDownOver c t (d.get UHF_RAMP.RAMP_DN (d.cfg c))

/-- The gate of electronics `c` has closed at tick `t`: the front end's account is charged and, where no carrier is
restored, the carrier has ended (R261). -/
def Dev.gateClosed (d : Dev) (c t : Nat) (restore : Bool) : Dev :=
  let d := d.busyBy t
  match d.feAt c t with
  | some n => let d := d.acctClose n t; if restore then d else d.acctEnd n t
  | none => d

/-- A Vat that waits for the end of its CARRY OFF is released when every chain of its port has left its carrier (R138,
R139). -/
def Dev.carryOffEnd (d : Dev) (c t : Nat) : Dev :=
  match d.vatOf c with
  | some v =>
    if (d.vatx v).wait = .carryOff ∧ d.anyGate (d.vatUnits v) = false then d.airEnd v opCarry .one 0 t else d
  | none => d

/-- The air instruction in progress of Vat `v` ends with CUT at tick `t` (R44, R139, R140, R260): a held CARRY ON and a
TXC; a CARRY OFF ends with ONE (R138). A listen window ends by its own cut. -/
def Dev.vatCut (d : Dev) (v st t : Nat) : Dev :=
  match (d.vatx v).wait with
  | .carryOn _ => d.airEnd v opCarry .cut st t
  | .txc _ _ => d.airEnd v opTxc .cut st t
  | .carryOff => d.airEnd v opCarry .one 0 t
  | _ => d

/-- The same for the Vat, if any, that acts on electronics `c`; a template of a canopy ends on every member. -/
def Dev.unitCut (d : Dev) (c st t : Nat) : Dev :=
  match d.vatOf c with
  | some v =>
    let d := (d.portRegs (d.get VAT_BIND.PORT v)).foldl (fun d u => d.txStop u t) d
    d.vatCut v st t
  | none => d

/-- A carrier that the guard ended has its gate closed at tick `t` (R260, example "Dwell across a takeover"): the reason is
recorded, EV_RGU_END published, an open window is classed CUT, and the bound Vat's instruction in progress ends with CUT. -/
def Dev.guardClosed (d : Dev) (c t : Nat) : Dev :=
  match (d.chx c).guarded with
  | none => d
  | some reason =>
    let u := d.cfgAt c t
    let d := (d.setCh c { d.chx c with guarded := none }).guardEnd reason ((d.feAt c t).getD 8)
    (d.cutWindowAt u 4 stRguRefused t).unitCut c stRguRefused t

/-- The ramp-down is complete (R42, R52, R261): RX, the gate closed, incomplete weight changes complete, detectors
below range; a CARRY OFF ends, and a TARGET that caused the ramp-down is followed. -/
def Dev.rampDownEnd (d : Dev) (c : Nat) : Dev :=
  let t := (d.chx c).due
  let u := d.cfgAt c t
  let tg := (d.chx c).target
  let d := (d.put UHF_STATUS.STATE csRx c).gateClosed c t false
  let d := (d.setCh c { d.chx c with goal := none, target := none, gateShut := 0, rxSince := some t, byCal := false }).txwSettle c
  let d := ((d.carryOffEnd c t).guardClosed c t).forgetTx u
  match tg with
  | some g => d.chainGo c g t
  | none => d

/-- A timed transition of electronics `c` is complete (R42). -/
def Dev.chainDone (d : Dev) (c : Nat) : Dev :=
  let x := d.chx c
  match x.goal with
  | none => d
  | some g =>
    if g = csCarrier then d.rampUpEnd c
    else if d.cst c = csDown then d.rampDownEnd c
    else
      let d := (d.put UHF_STATUS.STATE g c).touchNo c x.due
      let d := d.setCh c { x with goal := none, target := none, rxSince := if g = csRx then some x.due else none }
      match x.target with
      | some tg => if tg = g then d else d.chainGo c tg x.due
      | none => d

/-- A transition of electronics `c` whose end tick has come is complete before anything else happens to the chain. -/
def Dev.chainSync (d : Dev) (c : Nat) : Dev :=
  if (d.chx c).goal.isSome && decide ((d.chx c).due ≤ d.tick) then d.chainDone c else d

/-- Every chain of a list brought up to the present tick. -/
def Dev.chainSyncs (d : Dev) (l : List Nat) : Dev := l.foldl (fun d c => d.chainSync c) d

/-! Trip causes (table "Trip causes"), as masks. -/
/-- SYN_UNL, SUPPLY and LO_FAIL close the gate unramped (R42). -/
def tripUnramped : Nat := 0x160
/-- TEMP, SUPPLY, LO_FAIL and HOST trip a chain in READY and RX too (R55). -/
def tripQuiet : Nat := 0x1B0
/-- The causes of kind CHAIN (R56). -/
def tripChainKind : Nat := 0x3B8
/-- SYN_UNL. -/
def tripSynUnl : Nat := 0x040
/-- HOST. -/
def tripHost : Nat := 0x080

/-- The causes that trip electronics `c` in its present state (R55): every one while its gate is open, in the trip ramp too. -/
def Dev.tripMask (d : Dev) (c causes : Nat) : Nat :=
  if d.gate c then causes
  else if d.cst c = csReady ∨ d.cst c = csRx then Nat.land causes tripQuiet else 0

/-- Electronics `c` are in the ramp of a trip: entered, with the gate still open (R42). -/
def Dev.tripRamps (d : Dev) (c : Nat) : Bool := d.cst c == csTrip && decide (d.tick < (d.chx c).gateShut)

/-- A front end's account closed for tick `old` in advance, whose gate closes at tick `t` instead (R261). -/
def Dev.acctTrim (d : Dev) (n old t : Nat) : Dev :=
  let x := d.fex n
  let past := x.past.map (fun r => if r.upto = old then { r with upto := max r.from' t } else r)
  d.setFe n { x with counted := x.counted - (old - t), past := past,
                     ended := x.ended.map (fun e => if e.2 = old then (e.1, t) else e) }

/-- Electronics `c` enter TRIP now for causes that apply (R42, R55): cause bits, the gate closed with the trip ramp or
unramped, EV_UHF_TRIP. `restore` is whether a carrier will be restored on the front end; the transmissions of a front end that
US carries are not those of its detached chain (R250). While the ramp runs the gate is
open, and STATE, GATE and PAEN read as in a ramp-down (assumption: DEDUCED from the gate column of the table "Chain states"). -/
def Dev.enterTrip (d : Dev) (c causes : Nat) (restore : Bool) : Dev :=
  let open' := d.gate c
  let t := d.tick
  let shut := t + (if Nat.land causes tripUnramped != 0 then 16 else 154)
  let d := if d.carrierOn c then d.carrierHold c else d
  let own := c == 8 || d.feOf c == some c
  let d := if own then d.txStop (d.cfg c) t else d
  let d := if own && !restore then d.forgetTx (d.cfg c) else d
  let d := d.put UHF_TRIP.CAUSE (Nat.lor (d.get UHF_TRIP.CAUSE c) causes) c
  let d := d.put UHF_STATUS.STATE csTrip c
  let d := d.setCh c { d.chx c with goal := none, target := none, rxSince := none, byCal := false, guarded := none,
                                    gateShut := if open' then shut else 0 }
  let d := d.txwSettle c
  let d := if open' then d.gateClosed c shut restore else d
  d.publish (evUhfTrip c)

/-- A further cause detected while electronics `c` are in the ramp of a trip (R55): its bit and the event; one that closes the
gate unramped does so within 16 ticks (R42). A way out of TRIP that the clearing of the causes before it began is closed again. -/
def Dev.tripMore (d : Dev) (c causes : Nat) : Dev :=
  let d := d.setCh c { d.chx c with goal := none, target := none }
  let d := (d.put UHF_TRIP.CAUSE (Nat.lor (d.get UHF_TRIP.CAUSE c) causes) c).publish (evUhfTrip c)
  let old := (d.chx c).gateShut
  let t := d.tick + 16
  if Nat.land causes tripUnramped != 0 ∧ t < old then
    let d := match d.feAt c old with
      | some n => d.acctTrim n old t
      | none => d
    d.setCh c { d.chx c with gateShut := t }
  else d

end Sys2Proof.Machine
end

