-- ==== Sys2Proof/Machine/Port.lean ====
section
/-! DEFINITION. The HF port (port code 9) and the ACT port (10): states, field and frames, reply slots and
classification (R271 to R298). -/

namespace Sys2Proof.Machine

/-- HF_TRIP. -/ def stHfTrip : Nat := 0x012D
/-- HF_MODE. -/ def stHfMode : Nat := 0x012E
/-- ACT_TRIP. -/ def stActTrip : Nat := 0x012F
/-- ACT_DUTY. -/ def stActDuty : Nat := 0x0130

/-- The STATE field of port 9 (HF) or 10 (ACT). A frame in transmission is held in the port's record. -/
def portStateFld (p : Nat) : Fld := if p = 9 then HFR_STATUS.STATE else ACT_STATUS.STATE
/-- The state of a port: 0 OFF, 1 READY, 2 FIELD or RX, 4 TRIP. -/
def Dev.pst (d : Dev) (p : Nat) : Nat := d.get (portStateFld p)
/-- The status that replaces CHAIN_TRIP on a port (R276, R294). -/
def portTripSt (p : Nat) : Nat := if p = 9 then stHfTrip else stActTrip
/-- The island of a port: 5 HFR, 6 ACT. -/
def portIsland (p : Nat) : Nat := if p = 9 then 5 else 6

/-- Descriptor word `k` of a port (R281, R297). -/
def rpyFld (p k : Nat) : Fld :=
  if p = 9 then
    if k = 0 then HFR_RPY_D0.W else if k = 1 then HFR_RPY_D1.W else if k = 2 then HFR_RPY_D2.W
    else if k = 3 then HFR_RPY_D3.W else if k = 4 then HFR_RPY_D4.W else if k = 5 then HFR_RPY_D5.W
    else if k = 6 then HFR_RPY_D6.W else HFR_RPY_D7.W
  else
    if k = 0 then ACT_RPY_D0.W else if k = 1 then ACT_RPY_D1.W else if k = 2 then ACT_RPY_D2.W
    else if k = 3 then ACT_RPY_D3.W else if k = 4 then ACT_RPY_D4.W else if k = 5 then ACT_RPY_D5.W
    else if k = 6 then ACT_RPY_D6.W else ACT_RPY_D7.W

/-- The data field of a port's reply slots. -/
def rpyData (p : Nat) : Fld := if p = 9 then HFR_RPY_DATA.DATA else ACT_RPY_DATA.DATA
/-- The FREEZE field of a port. -/
def rpyFreeze (p : Nat) : Fld := if p = 9 then HFR_RPY_IDX.FREEZE else ACT_RPY_IDX.FREEZE

/-- Word `k` of the data of slot `s` of a port: 0 beyond LEN. -/
def Dev.portData (d : Dev) (p s k : Nat) : Nat :=
  if k < (bitsOf (d.get (rpyFld p 0) 0 s) 12 0 + 31) / 32 then d.get (rpyData p) 0 (s * 144 + k) else 0

/-- The descriptor words of slot `s` of a port. -/
def Dev.portDesc (d : Dev) (p s : Nat) : List Nat := (List.range 8).map (fun k => d.get (rpyFld p k) 0 s)

/-- Values put in consecutive indices of a field. -/
def Dev.putRun (d : Dev) (f : Fld) (i : Nat) : Nat → List Nat → Dev
  | _, [] => d
  | j, v :: vs => (d.put f v i j).putRun f i (j + 1) vs

/-- The eight words of a descriptor put in slot `s`. -/
def Dev.putPortDesc (d : Dev) (p s : Nat) (ws : List Nat) : Dev :=
  (List.range 8).foldl (fun d k => d.put (rpyFld p k) (ws.getD k 0) 0 s) d

/-- A classified reply of a port is stored (R281, R297, as R82 and R83): the window closes, the bound Vat's LSN ends,
a ONE or WEAK becomes its sighting. `words` are descriptor words 0 to 6 and CUTC. -/
def Dev.portClassify (d : Dev) (p cls : Nat) (words : List Nat) (cutc : Nat) (bits : List Bool) (e : Option Nat)
    (st : Nat) : Dev :=
  let x := d.chx p
  let s := if d.isSet (rpyFreeze p) then 1 - x.view else 1 - x.slot
  let seq := (x.seq + 1) % 65536
  let d := d.putPortDesc p s (words ++ [seq * 65536 + cutc])
  let d := d.putRun (rpyData p) 0 (s * 144) (packWords bits)
  let d := d.setCh p { x with slot := s, slotTick := d.tick, seq := seq, win := none, refE := e,
                              view := if d.isSet (rpyFreeze p) then x.view else s }
  match d.binder p with
  | none => d
  | some v =>
    let sg : Sight := { start := d.get (rpyFld p 1) 0 s + d.get (rpyFld p 2) 0 s * 2 ^ 32,
                        rssi := bitsOf (d.get (rpyFld p 4) 0 s) 31 20, fe := p, mask := 0, group := none, window := 0 }
    let d := if cls = 1 ∨ cls = 6 then d.setVat v { d.vatx v with sight := some sg } else d
    let w := if cls = 0 ∨ cls = 2 ∨ cls = 7 then 0 else d.portData p s 0
    match x.win with
    | some wn => if wn.vat = some v then d.lsnEnd v cls w st d.tick else d
    | none => d

/-- Descriptor word 0 before a preamble's own bits: the class, and on HF the mode profile used (R281). -/
def portWord0 (p cls : Nat) (w : Window) : Nat := cls * 2 ^ 29 + if p = 9 then w.m % 4 * 2 ^ 27 else 0

/-- An open window of a port is cut (R280, R296). Whether the receiver had been at full scale by then is a measurement. -/
def Dev.portCut (d : Dev) (p cutc st : Nat) : Dev :=
  match (d.chx p).win with
  | none => d
  | some w =>
    let w0 := portWord0 p 7 w
    let pre := match w.pre with
      | some o => [w0 + bit (Config.rxClip p d.tick) * 2 ^ 22, o.start % 2 ^ 32, o.start / 2 ^ 32 % 2 ^ 32, toSigned 32 ((o.start : Int) - w.ref),
          o.rssi.toNat * 2 ^ 20 + o.snr.toNat * 2 ^ 12 + o.gain.toNat * 2 ^ 8, 0, 0]
      | none => [w0, 0, 0, 0, 0, 0, 0]
    d.portClassify p 7 pre cutc [] none st

/-- A preamble or start of frame validates on a port: the gain is held, a step of 0 to 14 (R73, R279, R296). -/
def Dev.portPreamble (d : Dev) (p : Nat) (o : PreambleObs) : Dev :=
  match (d.chx p).win with
  | none => d
  | some w =>
    if w.pre.isNone ∧ w.openAt ≤ o.start ∧ o.start < w.close then
      let gain := if p = 9 ∧ d.get HFR_RX.AGC = 1 then min 14 (d.get HFR_RX.AGC_FIX) else min 14 o.gain.toNat
      (d.toTick o.tick).setCh p { d.chx p with win := some { w with pre := some { o with gain := BitVec.ofNat 4 gain } } }
    else d

/-- The quality floor of a port's listen template (R279, R296). -/
def Dev.portFloor (d : Dev) (p qsel : Nat) : Nat :=
  if p = 9 then
    if qsel = 0 then d.get HFR_QFLR.QF0 else if qsel = 1 then d.get HFR_QFLR.QF1
    else if qsel = 2 then d.get HFR_QFLR.QF2 else d.get HFR_QFLR.QF3
  else if qsel = 0 then 0 else d.get ACT_RX.QF

/-- The 16 bits of a CRC with x¹⁶ + x¹² + x⁵ + 1 over the bits in the order they are on the air, in the order they are sent: the
highest power first, which is the low byte first where bytes go least significant bit first (R289). -/
def crcTail (preset : Nat) (inv : Bool) (bits : List Bool) : List Bool :=
  (bitsMsb 16 (bits.foldl (crcStep 16 0x1021) preset)).map (fun b => b != inv)

/-- Received bits end with the CRC of the bits before it. -/
def crcHolds (preset : Nat) (inv : Bool) (bits : List Bool) : Bool :=
  decide (16 ≤ bits.length) && crcTail preset inv (bits.take (bits.length - 16)) == bits.drop (bits.length - 16)

/-- Preset and inversion of the CRC of HF mode profile `k` (R278: CRC_A, CRC_B, the ISO/IEC 15693 CRC, the ISO/IEC 18092 CRC at 212
and 424 kbit/s; assumption: PRESUMED, the spec names these CRCs and does not restate them); the preset's bit 15 is the one of the highest power. -/
def Dev.hfCrc (d : Dev) (k : Nat) : Nat × Bool :=
  let std := d.get HFR_MODE.STD 0 k
  if std = 0 ∨ (std = 3 ∧ d.get HFR_MODE.RATE 0 k = 0) then (0xC6C6, false)
  else if std = 3 then (0, false)
  else (0xFFFF, true)

/-- Preset and inversion of the CRC of a port: on ACT the CRC-16 of R289. -/
def Dev.portCrc (d : Dev) (p k : Nat) : Nat × Bool := if p = 9 then d.hfCrc k else (0, false)

/-- Whether parity and collisions exist in HF mode profile `k`: STD 0 and STD 3 at RATE 0 (R271, R280). -/
def Dev.hfMiller (d : Dev) (k : Nat) : Bool :=
  (d.get HFR_MODE.STD 0 k == 0 || d.get HFR_MODE.STD 0 k == 3) && d.get HFR_MODE.RATE 0 k == 0

/-- The bits at the positions of a list set: a collided bit is stored as 1 (R280). -/
def setBits (bits : List Bool) (pos : List Nat) : List Bool := pos.foldl (fun l k => l.set k true) bits

/-- A window of a port reaches its decision (R280, R296, R79). -/
def Dev.portDecide (d : Dev) (p : Nat) (o : ReplyObs) : Dev :=
  match (d.chx p).win with
  | none => d
  | some w =>
    let thr := if p = 9 then d.get HFR_RX.EN_THR else d.get ACT_RX.EN_THR
    match w.pre with
    | none =>
      let energy := decide (w.openAt < w.close) && decide (thr ≤ o.level)
      let cls := if energy then 2 else 0
      let d := d.toTick (if energy then max w.close o.energyEnd + 384 else w.close + 384)
      d.portClassify p cls [portWord0 p cls w, 0, 0, 0, 0, 0, 0] 0 [] none 0
    | some pr =>
      let hits := if p = 9 ∧ d.hfMiller w.m = true then o.collisions.filter (fun k => decide (k < o.bits.length)) else []
      let coll := hits != []
      let parity := o.parityErr && (p == 10 || (d.isSet HFR_MODE.PARITY 0 w.m && d.hfMiller w.m))
      let clash := o.violation || coll
      let trunc := decide (4608 < o.bits.length)
      let bits := (setBits o.bits hits).take 4608
      let wrong := trunc || (w.lmode = 0 && (decide (o.bits.length ≠ w.len) || o.overrun))
      let good := w.crc16 && crcHolds (d.portCrc p w.m).1 (d.portCrc p w.m).2 (setBits o.bits hits)
      let cls :=
        if clash then 2
        else if pr.start < w.t1Min then 4
        else if w.t1Max ≤ pr.start then 5
        else if wrong || parity || (w.crc16 && !good) then 3
        else if o.snr.toNat < d.portFloor p w.qsel then 6
        else 1
      let d := d.toTick (if clash then o.eD + 384 else max (o.eD + 384) o.eR)
      let d := if p = 9 then
          let d := if coll then d.inc HFR_VCNT.COLL else d
          if parity then d.inc HFR_VCNT.PARITY else d
        else d
      let w0 := portWord0 p cls w + bit (coll || (p == 10 && o.violation)) * 2 ^ 26 + bit parity * 2 ^ 25 + bit good * 2 ^ 24 +
        bit trunc * 2 ^ 23 + bit o.clip * 2 ^ 22 + bits.length
      let w5 := if p = 9 then hits.foldl min (hits.headD 0) % 8192 else o.fofs.toNat
      let words := [w0, pr.start % 2 ^ 32, pr.start / 2 ^ 32 % 2 ^ 32, toSigned 32 ((pr.start : Int) - w.ref),
        o.rssi.toNat * 2 ^ 20 + o.snr.toNat * 2 ^ 12 + pr.gain.toNat * 2 ^ 8, w5, (o.eR - pr.start) % 2 ^ 32]
      d.portClassify p cls words 0 bits (if cls = 2 then none else some o.eR) 0

/-- The duty account of ACT in ticks: the present sub-window and the 16 before it (R292). -/
def Dev.dutySum (d : Dev) : Nat := (d.duty.take 17).sum

/-- The ticks that the frame in transmission on ACT is still to send from tick `t` on; they are charged already. -/
def Dev.dutyAhead (d : Dev) (t : Nat) : Nat :=
  let x := d.chx 10
  if x.txOn then x.txEnd - max t x.txStart else 0

/-- Ticks charged to (or, with `minus`, taken back from) the present duty sub-window. -/
def Dev.dutyCharge (d : Dev) (n : Nat) (minus : Bool) : Dev :=
  { d with duty := match d.duty with
      | [] => if minus then [] else [n]
      | x :: xs => (if minus then x - n else x + n) :: xs }

/-- The level that PWR wrote last with a launch tick up to `t` takes effect (R276, R294): the driver current in mA, or the output
level, never above MAXP (R292). -/
def Dev.portLevels (d : Dev) (p t : Nat) : Dev :=
  let x := d.chx p
  match (x.levels.filter (fun l => decide (l.2 ≤ t))).getLast? with
  | none => d
  | some l =>
    let d := d.setCh p { x with levels := x.levels.filter (fun l => !decide (l.2 ≤ t)) }
    if p = 9 then d.put HFR_DRV.ITGT l.1 else d.put ACT_TXCFG.LEVEL (min l.1 (d.get ACT_LIMIT.MAXP))

/-- WR433 is blanked up to 2 ms after a transmission of ACT that ends at tick `t` (R301); in heartwood ticks 2 ms are 65.5. -/
def Dev.blank433 (d : Dev) (t : Nat) : Dev :=
  { d with wkr := { d.wkr with blank433 := t + msTicks 2 + 1, blank433Hw := d.hw + 67 } }

/-- A frame in transmission on a port ends at tick `t` before its end (R282, R291): ACT is charged for what it sent. One that had not
launched leaves the end of the transmission before it as it was (R66). -/
def Dev.portTxAbort (d : Dev) (p t : Nat) : Dev :=
  let x := d.chx p
  if x.txOn then
    let d := if p = 10 then (d.dutyCharge (x.txEnd - max t x.txStart) true).busyBy t else d
    let d := if p = 10 ∧ x.txStart < t then d.blank433 t else d
    (d.setCh p { x with txOn := false, lastTx := if x.txStart < t then some t else x.lastTx,
                        txEnd := if t ≤ x.txStart then 0 else min x.txEnd t }).portLevels p t
  else d

/-- The field or receiver of a port is off: READY, nothing of this carrier remains (R272, R290). -/
def Dev.portReady (d : Dev) (p : Nat) : Dev :=
  let d := d.put (portStateFld p) 1
  let d := if p = 9 then d.put HFR_MEAS.IMEAS 0 else d.put ACT_STATUS.LOCK 0
  let d := (d.busyBy d.tick).touchNo p d.tick
  d.setCh p { d.chx p with goal := none, lastTx := none, refE := none }

/-- The field or receiver of a port goes off at tick `t` at once (R273, R282, R291). -/
def Dev.portOff (d : Dev) (p t : Nat) : Dev :=
  if d.pst p = 2 then (d.portTxAbort p t).portReady p else d

/-- The time a port takes from OFF or TRIP to READY: 20 µs HF, 25 µs ACT (R272, R290). -/
def portReadyTime (p : Nat) : Nat := if p = 9 then usTicks 20 else usTicks 25

/-- The time from the tick at which a port goes off to READY: the HF field is below 1 % 2 µs later; ACT is READY at the tick
(R272, R290, R294). -/
def portOffTime (p : Nat) : Nat := if p = 9 then usTicks 2 else 0

/-- A port takes its commands: FIELD or RX, and not on its way out of it. -/
def Dev.portOn (d : Dev) (p : Nat) : Bool := d.pst p == 2 && (d.chx p).goal != some 5

/-- A port in OFF, or on its way there, is to go to READY from tick `t` on (R272, R290). -/
def Dev.portWake (d : Dev) (p t : Nat) : Dev :=
  let x := d.chx p
  if d.pst p = 0 ∧ x.goal.isNone then d.setCh p { x with goal := some 1, due := t + portReadyTime p }
  else if x.goal = some 0 then d.setCh p { x with target := some 1 }
  else if x.goal = some 5 ∨ x.goal = some 1 then d.setCh p { x with target := none }
  else d

/-- One transition of a port is complete when its end tick has come (R272, R290): the way out of FIELD or RX (goal 5), the way to
OFF (0), the way to READY with the PLL locked (1); the state held in `target` follows. -/
def Dev.portStep (d : Dev) (p : Nat) : Dev :=
  let x := d.chx p
  if x.goal = some 5 ∧ x.due + portOffTime p ≤ d.tick then
    let d := d.portReady p
    if x.target = some 0 then
      d.setCh p { d.chx p with goal := some 0, due := x.due + portOffTime p + usTicks 1, target := none }
    else d
  else if x.goal = some 0 ∧ x.due ≤ d.tick then
    let d := d.put (portStateFld p) 0
    let d := if p = 9 then d.put HFR_STATUS.PLL_LOCK 0 else d
    if x.target = some 1 then d.setCh p { x with goal := some 1, due := x.due + portReadyTime p, target := none }
    else d.setCh p { x with goal := none }
  else if x.goal = some 1 ∧ x.due ≤ d.tick ∧ d.pst p ≠ 2 then
    let d := (d.put (portStateFld p) 1).touchNo p x.due
    let d := if p = 9 then d.put HFR_STATUS.PLL_LOCK 1 else d
    if x.target = some 0 then d.setCh p { x with goal := some 0, due := x.due + usTicks 1, target := none }
    else d.setCh p { x with goal := none }
  else d

/-- A port with everything done that its end tick has come for: the levels of PWR, held while a frame is sent, and up to three
transitions in a row. -/
def Dev.portSync (d : Dev) (p : Nat) : Dev :=
  let x := d.chx p
  let d := d.portLevels p (if x.txOn ∧ x.txStart ≤ d.tick then x.txStart else d.tick)
  (((d.portStep p).portStep p).portStep p)

/-- The tick from which a port is READY, where it is on its way there; else 0. -/
def Dev.portReadyAt (d : Dev) (p : Nat) : Nat :=
  let x := d.chx p
  if x.goal = some 1 then x.due
  else if x.goal = some 0 then x.due + portReadyTime p
  else if x.goal = some 5 then x.due + portOffTime p
  else 0

end Sys2Proof.Machine
end

