-- ==== Sys2Proof/Machine/Access.lean ====
section
/-! DEFINITION. Accesses: the power domain that one reaches, what it wakes, the idle timers it restarts, and a host's access to a
register (R19, R42, R272, R290, R382, R383, R387, R388). -/

namespace Sys2Proof.Machine

/-- The number of a domain among the idle timers. -/
def domNo : Domain → Nat
  | .uhf c => c.val
  | .hfr => 9
  | .act => 10
  | .syn m => 11 + m.val
  | .msh => 15
  | .spe n => 16 + n.val
  | .clr k => 18 + k.val

/-- The island of a domain (R15, R381). -/
def domainIsland : Domain → Nat
  | .uhf _ => 2
  | .syn _ => 2
  | .hfr => 5
  | .act => 6
  | .msh => 7
  | .spe n => 8 + n.val
  | .clr _ => 3

/-- The gatable domain that register `r` of unit `i` lies in (table "Block register bases"). -/
def regDomain (r : Reg) (i : Nat) : Option Domain :=
  let p := r.place
  let b := (p.base + p.si * i) / 0x10000 - 0x4000
  if 0x10 ≤ b ∧ b ≤ 0x18 then some (.uhf (Fin.ofNat 9 (b - 0x10)))
  else if b = 0xA ∧ p.ni = 4 then some (.syn (Fin.ofNat 4 i))
  else if b = 0x20 then some .hfr
  else if b = 0x21 then some .act
  else if b = 0x23 then some .msh
  else if b = 0x24 ∨ b = 0x25 then some (.spe (Fin.ofNat 2 (b - 0x24)))
  else none

/-- The idle timer of a domain starts anew: an access has reached it, or its idle condition has begun to hold (R382). -/
def Dev.touch (d : Dev) (dom : Domain) : Dev := d.touchNo (domNo dom) d.tick

/-- The tick from which a domain has been idle. -/
def Dev.idleFrom (d : Dev) (dom : Domain) : Nat := fget (fun _ => 0) d.idle (domNo dom)

/-- The device idle timer starts anew (R387, R392). -/
def Dev.busyNow (d : Dev) : Dev := { d with busyAt := d.tick }

/-- A domain gets power: it is ready within its maximum stall (R383); a chain and the HF and ACT ports go to READY (R42, R272,
R290). -/
def Dev.gateOn (d : Dev) (dom : Domain) : Dev :=
  match dom with
  | .uhf c =>
    if (d.cst c.val = csOff ∧ (d.chx c.val).goal.isNone) ∨ (d.chx c.val).goal = some csOff then d.chainGo c.val 1 d.tick else d
  | .syn m => d.putBit PWR_DOM1.SYN m.val true
  | .hfr => d.portWake 9 d.tick
  | .act => d.portWake 10 d.tick
  | .msh => d.putBit PWR_DOM1.UNITS 2 true
  | .spe n => d.putBit PWR_DOM1.UNITS (3 + n.val) true
  | .clr k => d.putBit PWR_DOM0.CLR k.val true

/-- A gating of the present tick does not take place (R383, R395): the domain is as it was. -/
def Dev.ungate (d : Dev) (dom : Domain) (lock : Nat) : Dev :=
  match dom with
  | .uhf c => d.setCh c.val { d.chx c.val with goal := none, target := none }
  | .syn m => (d.put SYN_F_STATUS.LOCK lock m.val).gateOn dom
  | .hfr => d.setCh 9 { d.chx 9 with goal := none, target := none }
  | .act => d.setCh 10 { d.chx 10 with goal := none, target := none }
  | _ => d.gateOn dom

/-- An access reaches a domain (R383): a gated one wakes, one whose idle timer expires in the same tick is not gated, and the timer
starts anew. The stall of the access is not modelled: it is served at once (assumption: DESIGN CHOICE). -/
def Dev.reaches (d : Dev) (dom : Domain) : Dev :=
  match d.gated with
  | some (n, t, lock) =>
    if n = domNo dom ∧ t = d.tick then ({ d with gated := none }.ungate dom lock).touch dom else (d.gateOn dom).touch dom
  | none => (d.gateOn dom).touch dom

/-- An access to register `r` of unit `i` reaches its domain. -/
def Dev.reachReg (d : Dev) (r : Reg) (i : Nat) : Dev :=
  match regDomain r i with
  | some dom => d.reaches dom
  | none => d

/-- An access arrives at register `r` of unit `i`: it reaches the register's domain, and a host's restarts the device idle timer. -/
def Dev.accessed (d : Dev) (r : Reg) (i : Nat) (by' : Writer := .host) : Dev :=
  (if by' = .host then d.busyNow else d).reachReg r i

/-- An access that ends with an error: a host link error when the host made it (R19, R24, R433). -/
def Dev.busErr (d : Dev) (by' : Writer) (code a : Nat) : Dev := if by' = .host then d.hlkErr code a else d

/-- A write or read of register `r` of unit `i`, index `j`, in island `k`, that has a command of its own: an island that roll call
found missing answers with an error, which ends the access as a host link error and changes nothing else (R19); past an entry's
point of no return the host link is down and nothing arrives (R388). -/
def State.onIsland (k : Nat) (r : Reg) (i : Nat) (f : Dev → Dev) (s : State) (j : Nat := 0)
    (by' : Writer := .host) :
    Host.Outcome State Fault Refusal :=
  s.on (fun d =>
    if d.live k then f (d.accessed r i by')
    else if d.pwr.asleep.isSome then d
    else d.busErr by' stIsland (r.place.base + r.place.si * i + r.place.sj * j))

end Sys2Proof.Machine
end

