-- ==== Sys2Proof/Machine/Operands.lean ====
section
/-! DEFINITION. The operand forms of the Isrin instructions: sign-extended and zero-extended immediates, shift amounts,
byte addresses, register pairs, and the operand chosen by I (R102, R103, R112, R126). -/

namespace Sys2Proof.Machine

/-- A sum modulo 2^32 (R102). -/
def add32 (a b : Nat) : Nat := (a + b) % 2 ^ 32

/-- A difference modulo 2^32 (R102). -/
def sub32 (a b : Nat) : Nat := (a + 2 ^ 32 - b % 2 ^ 32) % 2 ^ 32

/-- sext(IMM) as a 32-bit word (R102). -/
def sextImm (imm : Imm) : Nat := (imm.signExtend 32).toNat

/-- The shift of SHL and SHR: IMM[4:0] when IMM[13] is 1, g[RB][4:0] when it is 0 (R102). -/
def shiftBy (imm : Imm) (rb : Nat) : Nat := if imm.getLsbD 13 then imm.toNat % 32 else rb % 32

/-- SHL: zeros in (R102). -/
def shl32 (a s : Nat) : Nat := a * 2 ^ s % 2 ^ 32

/-- SHR: zeros in, or sign copies when IMM[12] = 1 (R102). -/
def shr32 (arith : Bool) (a s : Nat) : Nat :=
  if arith && bitOf a 31 then a / 2 ^ s + (2 ^ 32 - 2 ^ (32 - s)) else a / 2 ^ s

/-- The byte address g[RA] + sext(IMM) × 4 of LDW and STW, a 32-bit sum (R102). -/
def memAddr (ra : Nat) (imm : Imm) : Nat := add32 ra (sextImm imm * 4 % 2 ^ 32)

/-- An LDW reaches a word of hoop memory, Data SRAM or the capture buffer (R103). -/
def ldwReach (a : Nat) : Bool :=
  a % 4 == 0 && (decide (a < 0x180000) || (decide (0x300000 ≤ a) && decide (a < 0x340000)))

/-- An STW reaches a word of Data SRAM (R103). -/
def stwReach (a : Nat) : Bool := a % 4 == 0 && decide (0x100000 ≤ a) && decide (a < 0x180000)

/-- The register pair g[r + 1]:g[r] as a 64-bit number. -/
def Dev.grPair (d : Dev) (v : Nat) (r : RegNo) : Nat := d.gr v r + 2 ^ 32 * d.gr v (regPlus r 1)

/-- A register pair written with a 64-bit number. -/
def Dev.setGrPair (d : Dev) (v : Nat) (r : RegNo) (x : Nat) : Dev :=
  (d.setGr v r (x % 2 ^ 32)).setGr v (regPlus r 1) (x / 2 ^ 32 % 2 ^ 32)

/-- The operand of an instruction marked with I: from IMM, or the low `w` bits of g[RA] (R126). -/
def Dev.chosen (d : Dev) (v : Nat) (i : Bool) (ra : RegNo) (imm w : Nat) : Nat := if i then imm else d.gr v ra % 2 ^ w

end Sys2Proof.Machine
end

