-- ==== Sys2Proof/Machine/Flags.lean ====
section
/-! DEFINITION. How the core instructions compute the outcome class, the only flag a Vat has (R13, R102, R107, R112,
R114, R115). -/

namespace Sys2Proof.Machine

/-- TST: NONE when the tested value is 0, else ONE; IMM = 0 tests the whole register (R102). -/
def tstOc (ra : Nat) (imm : Imm) : Oc :=
  if (if imm = 0 then ra else Nat.land ra imm.toNat) = 0 then .none else .one

/-- WAITA is on time when (Tg − ti) mod 2^64 lies in 1 to 2^63 − 1 (R112). -/
def waitaAhead (tg ti : Nat) : Nat := (tg + 2 ^ 64 - ti % 2 ^ 64) % 2 ^ 64

/-- Whether a WAITA of that distance is on time. -/
def waitaOnTime (ahead : Nat) : Bool := decide (1 ≤ ahead) && decide (ahead < 2 ^ 63)

/-- The lateness (ti + 1 − Tg), saturating at 0xFFFF (R112). -/
def lateness (ahead : Nat) : Nat := min ((2 ^ 64 - ahead) % 2 ^ 64 + 1) 0xFFFF

/-- STAMP of the ASN: ONE with synchronised time, else WEAK (R114). -/
def stampAsnOc (sync : Bool) : Oc := if sync then .one else .weak

/-- WAITT that consumes a trigger (R115). -/
def waittOc (ovr : Bool) : Oc := if ovr then .clash else .one

/-- The index of a DSP (R107). -/
def dspIndex (mode ra k oc : Nat) : Nat :=
  if mode = 0 then oc else if mode = 1 then ra % 2 ^ k else ra % 16 * 8 + oc

end Sys2Proof.Machine
end

