-- ==== Sys2Proof/Machine/Scalar.lean ====
section
/-! DEFINITION. A Vat's faults and stops, the fetch of an instruction, and the scalar instructions (R94 to R105, R117 to
R119). -/

namespace Sys2Proof.Machine

/-! Fault causes as bits of VATn_FAULT.FCAUSE (R118). -/
/-- DISPATCH. -/ def fcDispatch : Nat := 0x40
/-- PC_RANGE. -/ def fcPcRange : Nat := 0x20
/-- ACCESS. -/ def fcAccess : Nat := 0x10
/-- RSTACK. -/ def fcRstack : Nat := 0x08
/-- WDOG. -/ def fcWdog : Nat := 0x04
/-- HOOP_ECC. -/ def fcHoopEcc : Nat := 0x02
/-- ILLEGAL. -/ def fcIllegal : Nat := 0x01

/-- The open windows of a port's registers no longer have a Vat that receives their class (R96). -/
def Dev.dropListener (d : Dev) (u : Nat) : Dev :=
  match (d.chx u).win with
  | some w => d.setCh u { d.chx u with win := some { w with vat := none } }
  | none => d

/-- What leaving RUN or WAIT does to the bound port (R96): every chain with its gate open ramps down from the tick after,
the HF field switches off (R282), the ACT transmitter too, open windows run on without a receiver. -/
def Dev.portStop (d : Dev) (v t : Nat) : Dev :=
  let p := d.get VAT_BIND.PORT v
  if p = 9 then (d.portOff p t).dropListener p
  else if p = 10 then (d.portTxAbort p t).dropListener p
  else ((d.vatUnits v).foldl (fun d c => d.rampDown c t) d |> fun d => (d.portRegs p).foldl (fun d u => d.dropListener u) d)

/-- Vat `v` leaves RUN or WAIT for a state in which it does not execute (R94, R95, R96): what it waited for is
abandoned with PC at that instruction. It does so at cycle `c`. -/
def Dev.vatLeave (d : Dev) (v st c : Nat) : Dev :=
  let n := { d with clk := max d.clk c }.wdNow v
  let d := d.put VAT_STATUS.STATE st v
  let d := (d.setVat v { d.vatx v with wait := .none, stepping := false, wdCount := n, wdFrom := max d.clk c / 2 }).busyBy (c / 2)
  d.portStop v (c / 2 + 1)

/-- A fault of Vat `v` at the instruction at `pc` (R119): cause bits, that of a watchdog which expires by then among them
(R118), FPC, the tick of detection, the event, the log entry, and FAULT. -/
def Dev.vatFaultAt (d : Dev) (v cause pc : Nat) : Dev :=
  let t := d.tick
  let run := d.vst v == vsRun
  let cause := if (d.wdDue v).any (fun w => decide (w ≤ t)) then Nat.lor cause fcWdog else cause
  let d := d.put VAT_FAULT.FCAUSE (Nat.lor (d.get VAT_FAULT.FCAUSE v) cause) v
  let d := ((d.put VAT_FAULT.FPC pc v).put VAT_FAT_LO.FAT_LO t v).put VAT_FAT_HI.FAT_HI (t / 2 ^ 32) v
  let d := d.vatLeave v vsFault d.clk
  let d := d.setVat v { d.vatx v with left := some (d.clk, run) }
  (d.publish (evVatFault v)).logWarn 0x06 v Config.vatFaultCode [cause * 2 ^ 24, pc, t % 2 ^ 32, t / 2 ^ 32 % 2 ^ 32]

/-- A fault of Vat `v` at the instruction that PC names (R119). -/
def Dev.vatFault (d : Dev) (v cause : Nat) : Dev := d.vatFaultAt v cause (d.pc v)

/-- The ECC mark of a word of hoop memory: none, or some with whether the error is uncorrectable (R105). -/
def Dev.eccOf (d : Dev) (w : Nat) : Option Bool := (d.ecc.find? (fun e => e.1 == w)).map (fun e => e.2)

/-- A correctable error of hoop-memory word `w` that Vat `v` reads is counted (R105). -/
def Dev.eccCount (d : Dev) (v w : Nat) : Dev := if d.eccOf w = some false then d.inc VAT_ECC.CORR v else d

/-- A read of hoop-memory word `w` by Vat `v` (R105): a correctable error is counted, an uncorrectable one faults and
the rest does not happen. -/
def Dev.hoopRead (d : Dev) (v w : Nat) (f : Dev → Dev) : Dev :=
  match d.eccOf w with
  | none => f d
  | some false => f (d.inc VAT_ECC.CORR v)
  | some true => d.vatFault v fcHoopEcc

/-- The fetch of an instruction of `len` words at PC (R101, R105): an extension fetch or, where the instruction advances
sequentially, an advance past word 0x3FFFF faults before it has any effect, and so does an uncorrectable error in a word
that exists. All causes of the cycle set their bits (R118): beside PC_RANGE also ILLEGAL, ACCESS and HOOP_ECC where the instruction
itself raises them; what an instruction with an uncorrectable error is, is not known. -/
def Dev.fetch (d : Dev) (v len : Nat) (advances : Bool) (f : Dev → Dev) : Dev :=
  let pc := d.pc v
  let ws := (List.range' pc len).filter (fun w => decide (w ≤ 0x3FFFF))
  let d := ws.foldl (fun d w => d.eccCount v w) d
  let range := 0x3FFFF < pc + (len - 1) ∨ (advances = true ∧ 0x3FFFF < pc + len)
  let bad := ws.any (fun w => d.eccOf w == some true)
  let own := if bad then fcHoopEcc
    else if (f d).vst v = vsFault then Nat.land ((f d).get VAT_FAULT.FCAUSE v) (fcIllegal + fcAccess + fcHoopEcc) else 0
  if range ∨ bad = true then d.vatFault v ((if range then fcPcRange else 0) + own) else f d

/-- The end of an instruction that set PC itself. -/
def Dev.jumped (d : Dev) (v target cycles : Nat) : Dev := (d.put VAT_PC.PC target v).finish v (d.clk + cycles)

/-! ### Scalar instructions (R102, R103). Each acts on the device at its issue cycle. -/

/-- NOP idles for IMM + 1 cycles. -/
def Dev.doNop (d : Dev) (v : Nat) (imm : Imm) : Dev := d.seq v 1 (imm.toNat + 1)
/-- g[RD] ← sext(IMM). -/
def Dev.doLdi (d : Dev) (v : Nat) (rd : RegNo) (imm : Imm) : Dev := (d.setGr v rd (sextImm imm)).seq v 1 1
/-- g[RD] ← extension word. -/
def Dev.doLdx (d : Dev) (v : Nat) (rd : RegNo) (ext : Word) : Dev := (d.setGr v rd ext.toNat).seq v 2 2
/-- g[RD] ← g[RA]. -/
def Dev.doMov (d : Dev) (v : Nat) (rd ra : RegNo) : Dev := (d.setGr v rd (d.gr v ra)).seq v 1 1
/-- g[RD] ← g[RA] + g[RB]. -/
def Dev.doAdd (d : Dev) (v : Nat) (rd ra rb : RegNo) : Dev := (d.setGr v rd (add32 (d.gr v ra) (d.gr v rb))).seq v 1 1
/-- g[RD] ← g[RA] + sext(IMM). -/
def Dev.doAddi (d : Dev) (v : Nat) (rd ra : RegNo) (imm : Imm) : Dev :=
  (d.setGr v rd (add32 (d.gr v ra) (sextImm imm))).seq v 1 1
/-- g[RD] ← g[RA] − g[RB]. -/
def Dev.doSub (d : Dev) (v : Nat) (rd ra rb : RegNo) : Dev := (d.setGr v rd (sub32 (d.gr v ra) (d.gr v rb))).seq v 1 1
/-- g[RD] ← g[RA] AND g[RB]. -/
def Dev.doAnd (d : Dev) (v : Nat) (rd ra rb : RegNo) : Dev :=
  (d.setGr v rd (Nat.land (d.gr v ra) (d.gr v rb))).seq v 1 1
/-- g[RD] ← g[RA] OR g[RB]. -/
def Dev.doOr (d : Dev) (v : Nat) (rd ra rb : RegNo) : Dev :=
  (d.setGr v rd (Nat.lor (d.gr v ra) (d.gr v rb))).seq v 1 1
/-- g[RD] ← g[RA] XOR g[RB]. -/
def Dev.doXor (d : Dev) (v : Nat) (rd ra rb : RegNo) : Dev :=
  (d.setGr v rd (Nat.xor (d.gr v ra) (d.gr v rb))).seq v 1 1
/-- g[RD] ← g[RA] shifted left. -/
def Dev.doShl (d : Dev) (v : Nat) (rd ra rb : RegNo) (imm : Imm) : Dev :=
  (d.setGr v rd (shl32 (d.gr v ra) (shiftBy imm (d.gr v rb)))).seq v 1 1
/-- g[RD] ← g[RA] shifted right, logically or arithmetically. -/
def Dev.doShr (d : Dev) (v : Nat) (rd ra rb : RegNo) (imm : Imm) : Dev :=
  (d.setGr v rd (shr32 (imm.getLsbD 12) (d.gr v ra) (shiftBy imm (d.gr v rb)))).seq v 1 1
/-- g[RD] ← the word at g[RA] + sext(IMM) × 4; the ACCESS fault outside the windows, HOOP_ECC in hoop memory. -/
def Dev.doLdw (d : Dev) (v : Nat) (rd ra : RegNo) (imm : Imm) : Dev :=
  let a := memAddr (d.gr v ra) imm
  if ldwReach a then
    let take := fun (d : Dev) => (d.setGr v rd (d.loadWord a)).seq v 1 4
    if a < 0x100000 then d.hoopRead v (a / 4) take else take d
  else d.vatFault v fcAccess
/-- The word at `a` stored by Vat `v` in the present cycle (R104): where a Vat of a higher number stores to it in the same
cycle, that Vat's value remains. -/
def Dev.stwWord (d : Dev) (v a x : Nat) : Dev :=
  let now := d.stws.filter (fun s => s.1 == d.clk)
  let d := if now.any (fun s => s.2.1 == a && decide (v < s.2.2)) then d else d.setWord a x
  { d with stws := now ++ [(d.clk, a, v)] }

/-- The word at g[RA] + sext(IMM) × 4 ← g[RB]; the ACCESS fault outside Data SRAM. -/
def Dev.doStw (d : Dev) (v : Nat) (ra rb : RegNo) (imm : Imm) : Dev :=
  let a := memAddr (d.gr v ra) imm
  if stwReach a then (d.stwWord v a (d.gr v rb)).seq v 1 2 else d.vatFault v fcAccess
/-- OC ← NONE or ONE by a test under a mask. -/
def Dev.doTst (d : Dev) (v : Nat) (ra : RegNo) (imm : Imm) : Dev := (d.setOc v (tstOc (d.gr v ra) imm)).seq v 1 1
/-- HALTED after one cycle; the carriers of the bound port ramp down (R94, R96). A STEP that executes it ends in HALTED too, and one
that executes a CLR with STOP_AT_CLR in STOPPED (assumption: DESIGN CHOICE, the table of R94 has both STEP from DEBUG to DEBUG and
HALT to HALTED). -/
def Dev.doHalt (d : Dev) (v : Nat) : Dev :=
  let d := d.put VAT_PC.PC (d.pc v + 1) v
  d.vatLeave v vsHalted (d.clk + 1)
/-- An illegal encoding (R99, R127): the ILLEGAL fault. -/
def Dev.doIllegal (d : Dev) (v : Nat) : Dev := d.vatFault v fcIllegal

end Sys2Proof.Machine
end

