-- ==== Sys2Proof/Machine/Flow.lean ====
section
/-! DEFINITION. Flow and dispatch: JMP, CALL, RET, DSP and CLR, with the hoop swap (R106 to R111). -/

namespace Sys2Proof.Machine

/-- An address pushed on the return stack of Vat `v`; a full stack raises RSTACK before any state changes (R106). -/
def Dev.pushRet (d : Dev) (v ret : Nat) (f : Dev → Dev) : Dev :=
  let n := d.get VAT_STATUS.RDEPTH v
  if 8 ≤ n then d.vatFault v fcRstack
  else f ((d.put VAT_RSTK.RET ret v n).put VAT_STATUS.RDEPTH (n + 1) v)

/-- JMP (R106). -/
def Dev.doJmp (d : Dev) (v : Nat) (ext : Word) : Dev := d.jumped v (ext.toNat % 2 ^ 18) 2

/-- CALL: the address of the word after the extension word is pushed (R106). With the extension word at word 0x3FFFF that
address wraps to 0 and nothing faults: the spec does not say (assumption: DESIGN CHOICE; the same in a DSP entry of kind
CALL). -/
def Dev.doCall (d : Dev) (v : Nat) (ext : Word) : Dev :=
  d.pushRet v ((d.pc v + 2) % 2 ^ 18) (fun d => d.jumped v (ext.toNat % 2 ^ 18) 2)

/-- RET: the newest return address becomes PC (R106). -/
def Dev.doRet (d : Dev) (v : Nat) : Dev :=
  let n := d.get VAT_STATUS.RDEPTH v
  if n = 0 then d.vatFault v fcRstack
  else (d.put VAT_STATUS.RDEPTH (n - 1) v).jumped v (d.get VAT_RSTK.RET v (n - 1)) 2

/-- NEWQ written to g[RA][3:0] where the entry's WQ is 1 and the mode is QOC (R108). -/
def Dev.writeQ (d : Dev) (v : Nat) (ra : RegNo) (mode entry : Nat) : Dev :=
  if mode = 2 ∧ bitOf entry 29 then d.setGr v ra (d.gr v ra / 16 * 16 + bitsOf entry 27 24) else d

/-- What DSP does with the entry it read (R108). -/
def Dev.dispatch (d : Dev) (v : Nat) (ra : RegNo) (mode entry : Nat) : Dev :=
  let target := bitsOf entry 17 0
  let kind := bitsOf entry 31 30
  if kind = 0 then (d.writeQ v ra mode entry).jumped v target 4
  else if kind = 1 then
    d.pushRet v ((d.pc v + 2) % 2 ^ 18) (fun d => (d.writeQ v ra mode entry).jumped v target 4)
  else if kind = 2 then
    if 0x3FFFF < d.pc v + 2 then d.vatFault v fcPcRange else (d.writeQ v ra mode entry).jumped v (d.pc v + 2) 4
  else d.vatFault v fcDispatch

/-- DSP (R107): the index by MODE, the entry at word B + I wrapping in 18 bits; MODE 11 and REG with K outside 1 to 8 are
illegal (R99). -/
def Dev.doDsp (d : Dev) (v : Nat) (ra : RegNo) (mode : BitVec 2) (k : BitVec 4) (ext : Word) : Dev :=
  if mode = 3 ∨ (mode = 1 ∧ (k = 0 ∨ 8 < k.toNat)) then d.doIllegal v
  else
    let w := (ext.toNat + dspIndex mode.toNat (d.gr v ra) k.toNat (d.get VAT_OC.OC v)) % 2 ^ 18
    d.hoopRead v w (fun d => d.dispatch v ra mode.toNat (d.hw' w))

/-- The running hoop of Vat `v` determined anew from its entry point (R168). -/
def Dev.findHoop (d : Dev) (v : Nat) : Dev :=
  d.setVat v { d.vatx v with hoop := d.hoopBase (d.get VAT_ENTRY.ENTRY v) }

/-- The return stack emptied, the timeout disarmed, OC set to NONE (R110, R121), and no trigger consumed since (R154). -/
def Dev.freshStart (d : Dev) (v : Nat) : Dev :=
  let d := ((d.put VAT_STATUS.RDEPTH 0 v).put VAT_STATUS.TMO_ARMED 0 v).setOc v .none
  (d.put VAT_GEN.GVALID 0 v).put VAT_GEN.GEN 0 v

/-- A pending swap applies to ENTRY (R110, R121). -/
def Dev.takeSwap (d : Dev) (v : Nat) : Dev :=
  (d.put VAT_ENTRY.ENTRY (d.get VAT_SWAP.NEW_ENTRY v) v).put VAT_STATUS.SWAP_PEND 0 v

/-- A swap at a clearing (R110): published and logged. -/
def Dev.swapHoop (d : Dev) (v : Nat) : Dev :=
  let d := ((d.takeSwap v).freshStart v).findHoop v
  let d := d.put VAT_PC.PC (d.get VAT_ENTRY.ENTRY v) v
  (d.publish (evVatSwap v)).logWarn 0x06 v Config.vatSwapCode [d.get VAT_ENTRY.ENTRY v]

/-- A swap is pending and was made so in an earlier cycle (R111). -/
def Dev.swapDue (d : Dev) (v : Nat) : Bool :=
  d.isSet VAT_STATUS.SWAP_PEND v && decide ((d.vatx v).swapFrom ≤ d.clk)

/-- CLR (R109): ID and COUNT recorded, the watchdog reloaded, then the swap, then STOP_AT_CLR. -/
def Dev.doClr (d : Dev) (v : Nat) (imm : Imm) : Dev :=
  if d.swapDue v = false ∧ 0x3FFFF < d.pc v + 1 then d.vatFault v fcPcRange
  else
    let d := (d.put VAT_CLRID.ID imm.toNat v).incWrap VAT_CLRID.COUNT v
    let d := ((d.wdReload v d.tick).put VAT_GEN.GVALID 0 v).put VAT_GEN.GEN 0 v
    let (d, cycles) := if d.swapDue v then (d.swapHoop v, 4) else (d.put VAT_PC.PC (d.pc v + 1) v, 1)
    if d.isSet VAT_CTRL.STOP_AT_CLR v then d.vatLeave v vsStopped (d.clk + cycles)
    else d.finish v (d.clk + cycles)

end Sys2Proof.Machine
end

