-- ==== Sys2Proof/Machine/TimeOps.lean ====
section
/-! DEFINITION. The time instructions: WAITA, STAMP, WAITT and TMO, with the releases of waits (R112 to R116). -/

namespace Sys2Proof.Machine

/-- The release of a WAITA (R112, R113): OC, and the pair advanced from the target where U = 1. -/
def Dev.waitaAdvance (d : Dev) (v : Nat) (ra rb : RegNo) (u : Bool) (tg : Nat) (oc : Oc) : Dev :=
  let d' := d.setOc v oc
  if u then d'.setGrPair v ra (tg + d.gr v rb) else d'

/-- WAITA (R112): on time it waits; late it releases at the next tick, counts and publishes. RA odd is illegal (R99). -/
def Dev.doWaita (d : Dev) (v : Nat) (ra rb : RegNo) (u : Bool) : Dev :=
  if ra.getLsbD 0 then d.doIllegal v
  else
    let tg := d.grPair v ra
    let ahead := waitaAhead tg d.tick
    if waitaOnTime ahead then d.block v (.waita (d.tick + ahead) ra rb u)
    else
      let d := d.waitaAdvance v ra rb u tg .late
      let d := (d.inc VAT_LATE.COUNT v).put VAT_LATE.LAST (lateness ahead) v
      let d := d.publish (evVatLate v)
      d.releaseAt v (2 * (d.tick + 1))

/-- The watchdog of Vat `v` expires (R117): the WDOG fault at its tick, at the instruction in progress. -/
def Dev.wdogFault (d : Dev) (v t : Nat) : Dev := let d := d.toTick t; d.vatFaultAt v fcWdog (d.shownPc v)

/-- The target tick of a waiting WAITA arrives (R112): a watchdog that expires by then raises its fault and the release
does not happen (R120). -/
def Dev.waitaRelease (d : Dev) (v : Nat) : Dev :=
  match (d.vatx v).wait with
  | .waita target ra rb u =>
    match (d.wdDue v).filter (fun t => decide (t ≤ target)) with
    | some t => d.wdogFault v t
    | none =>
    let d := d.toTick target
    (d.waitaAdvance v ra rb u (d.grPair v ra) .one).releaseAt v (2 * target)
  | _ => d

/-- STAMP (R114): the AT, or the mirrored ASN. RD odd and SRC 10, 11 are illegal (R99). -/
def Dev.doStamp (d : Dev) (v : Nat) (rd : RegNo) (src : BitVec 2) : Dev :=
  if rd.getLsbD 0 ∨ 2 ≤ src.toNat then d.doIllegal v
  else if src = 0 then ((d.setGrPair v rd d.tick).setOc v .one).seq v 1 1
  else ((d.setGrPair v rd (d.asn.at' d.tick)).setOc v (stampAsnOc d.meshSync)).seq v 1 1

/-- The consumer ID of task input `input` of Vat `v` (R366). -/
def taskInput (v input : Nat) : Nat := 4 * v + input

/-- A trigger of task input `input` is consumed (R115, R154): OC, the overrun flag, and the generation. -/
def Dev.consumeTrigger (d : Dev) (v input : Nat) : Dev :=
  let id := taskInput v input
  let ovr := d.isSet TRL_CSTAT.OVR 0 id
  let gen := fget (fun _ => 0) d.cgen id
  let d := ((d.served id).put TRL_CSTAT.OVR 0 0 id).setOc v (waittOc ovr)
  (d.put VAT_GEN.GVALID 1 v).put VAT_GEN.GEN gen v

/-- The tick at which an armed timeout of value `x` gives up from issue tick `t` (R116). -/
def Dev.giveUpAt (d : Dev) (v : Nat) : Option Nat :=
  if d.isSet VAT_STATUS.TMO_ARMED v then some (d.tick + d.get VAT_TMO.VALUE v) else none

/-- A timeout of value 0 is armed: the instruction polls (R116). -/
def Dev.polls (d : Dev) (v : Nat) : Bool := d.isSet VAT_STATUS.TMO_ARMED v && d.get VAT_TMO.VALUE v == 0

/-- WAITT (R115, R116): a pending trigger is consumed in 2 cycles; else it waits, or polls with a timeout of 0. -/
def Dev.doWaitt (d : Dev) (v : Nat) (input : BitVec 2) : Dev :=
  let give := d.giveUpAt v
  let poll := d.polls v
  let d := d.put VAT_STATUS.TMO_ARMED 0 v
  if d.isSet TRL_CSTAT.PEND 0 (taskInput v input.toNat) then (d.consumeTrigger v input.toNat).seq v 1 2
  else if poll then (d.setOc v .none).seq v 1 2
  else d.block v (.waitt input.toNat give)

/-- A trigger is visible at the task input a Vat waits on (R115): it is released 2 cycles later. -/
def Dev.waittRelease (d : Dev) (v : Nat) : Dev :=
  match (d.vatx v).wait with
  | .waitt input _ =>
    if d.isSet TRL_CSTAT.PEND 0 (taskInput v input) then (d.consumeTrigger v input).releaseAt v (d.clk + 2) else d
  | _ => d

/-- TMO arms the timeout with g[RB] (R116). -/
def Dev.doTmo (d : Dev) (v : Nat) (rb : RegNo) : Dev :=
  ((d.put VAT_TMO.VALUE (d.gr v rb) v).put VAT_STATUS.TMO_ARMED 1 v).seq v 1 1

end Sys2Proof.Machine
end

