-- ==== Sys2Proof/Machine/Txn.lean ====
section
/-! DEFINITION. The transaction engine: handles, the result pool, completions and the pending list; TOPEN, TPUT, TDONE and
TFAIL (R151 to R153, R184 to R195). A handle's fields are those of TXN_HINFO0 to 4, indexed by the handle. -/

namespace Sys2Proof.Machine

/-- TXN_NOROOM. -/ def stTxnNoroom : Nat := 0x0201
/-- TXN_DEST_TOO_SMALL. -/ def stTxnTooSmall : Nat := 0x0202
/-- LDG_BANK_STALE. -/ def stLdgStale : Nat := 0x0203
/-- TXN_HANDLE. -/ def stTxnHandle : Nat := 0x0204
/-- TXN_FAILED. -/ def stTxnFailed : Nat := 0x0205
/-- LDG_NO_RECORD. -/ def stLdgNoRecord : Nat := 0x0206
/-- LDG_FULL. -/ def stLdgFull : Nat := 0x0207
/-- LDG_STOPPED. -/ def stLdgStopped : Nat := 0x0208
/-- TXN_ABORTED. -/ def stTxnAborted : Nat := 0x0209
/-- TXN_POOL_CFG. -/ def stTxnPoolCfg : Nat := 0x020A
/-- LDG_CMD_BUSY. -/ def stLdgCmdBusy : Nat := 0x020B
/-- LDG_CMD_ARG. -/ def stLdgCmdArg : Nat := 0x020C

/-- The state of a handle (R184): 0 FREE, 1 OPEN, 2 PENDING, 3 POSTED. -/
def Dev.hst (d : Dev) (h : Nat) : Nat := d.get TXN_HINFO0.STATE 0 h
/-- Every handle. -/
def handles : List Nat := List.range 256
/-- The lowest-numbered FREE handle (R184). -/
def Dev.freeHandle (d : Dev) : Option Nat := handles.find? (fun h => d.hst h == 0)
/-- The number of FREE handles. -/
def Dev.freeHandles (d : Dev) : Nat := (handles.filter (fun h => d.hst h == 0)).length

/-! ### The result pool (R185, R186), in blocks of 64 bytes -/

/-- Blocks of a declared size in words. -/
def blocksOf (words : Nat) : Nat := (words + 15) / 16
/-- The reservations: first block from 0x0010_0000 and length. -/
def Dev.resvs (d : Dev) : List (Nat × Nat) :=
  (handles.filter (fun h => d.hst h != 0 && d.get TXN_HINFO1.DECL 0 h != 0)).map
    (fun h => ((d.get TXN_HINFO2.ADDR 0 h - 0x100000) / 64, blocksOf (d.get TXN_HINFO1.DECL 0 h)))
/-- The pool's first block. -/
def Dev.poolLo (d : Dev) : Nat := d.get TXN_POOL.BASE
/-- The block after the pool. -/
def Dev.poolHi (d : Dev) : Nat := d.get TXN_POOL.BASE + d.get TXN_POOL.SIZE
/-- A run of `n` blocks from `s` lies in the pool and meets no reservation. -/
def runFits (rs : List (Nat × Nat)) (lo hi n s : Nat) : Bool :=
  decide (lo ≤ s) && decide (s + n ≤ hi) && rs.all (fun r => decide (s + n ≤ r.1) || decide (r.1 + r.2 ≤ s))
/-- The places a lowest free run can start at: the pool's start and the ends of reservations. -/
def runStarts (rs : List (Nat × Nat)) (lo : Nat) : List Nat := lo :: rs.map (fun r => r.1 + r.2)
/-- The lowest-addressed free run of `n` blocks (R186). -/
def Dev.lowestRun (d : Dev) (n : Nat) : Option Nat :=
  let rs := d.resvs
  ((runStarts rs d.poolLo).filter (runFits rs d.poolLo d.poolHi n)).min?
/-- TXN_POOLST.FREE_BLK. -/
def Dev.freeBlocks (d : Dev) : Nat := d.get TXN_POOL.SIZE - (d.resvs.map (fun r => r.2)).sum
/-- TXN_POOLST.LARGEST: the longest free run. -/
def Dev.largestRun (d : Dev) : Nat :=
  let rs := d.resvs
  let next := fun s => ((rs.filter (fun r => decide (s ≤ r.1))).map (fun r => r.1)).foldl min d.poolHi
  (((runStarts rs d.poolLo).filter (runFits rs d.poolLo d.poolHi 1)).map (fun s => next s - s)).foldl max 0

/-! ### Completion queues and completions (R188 to R191) -/

/-- Queue `q` is a completion queue that Vat `v` may feed (R189), and enabled (R372). -/
def Dev.mayFeed (d : Dev) (v q : Nat) : Bool :=
  decide (2 ≤ q) && decide (q < 48) && d.qEn q &&
    (List.range 16).any (fun k => d.isSet TXN_CQ.EN 0 k && d.get TXN_CQ.QUEUE 0 k == q && bitOf (d.get TXN_CQ.VMASK 0 k) v)

/-- The completion item of a handle, its header apart (R188); `at'` is the closing AT. -/
def Dev.completion (d : Dev) (h at' : Nat) : List Nat :=
  [h * 2 ^ 24 + d.get TXN_HINFO0.STATUS 0 h, d.get TXN_HINFO3.RECORD 0 h, at' % 2 ^ 32, at' / 2 ^ 32 % 2 ^ 32,
   d.get TXN_HINFO2.ADDR 0 h, d.get TXN_HINFO1.FILL 0 h, d.get TXN_HINFO4.TAG 0 h]

/-- The queue of a handle's completion has room: enabled, fed by the engine, 8 free words (R190). -/
def Dev.hasRoom (d : Dev) (q : Nat) : Bool := d.qTakes q epTxn 7

/-- The completion of handle `h` written to queue storage: POSTED, EV_TXN_POSTED (R191). -/
def Dev.postHandle (d : Dev) (h at' : Nat) : Dev :=
  let d := d.qPush (d.get TXN_HINFO0.QUEUE 0 h) 0xC1 (d.completion h at')
  (d.put TXN_HINFO0.STATE 3 0 h).publish evTxnPosted

/-- Handle `h` closes with a status (R153, R190): posted, or pended behind earlier completions of its queue. The second
component tells whether it was posted. -/
def Dev.closeHandle (d : Dev) (h st : Nat) : Dev × Bool :=
  let at' := d.tick
  let q := d.get TXN_HINFO0.QUEUE 0 h
  let v := d.get TXN_HINFO0.VAT 0 h
  let d := (d.put TXN_HINFO0.STATUS st 0 h).put VAT_HOPEN.OPEN (d.get VAT_HOPEN.OPEN v - 1) v
  if d.hasRoom q && !(d.txPend.any (fun p => d.get TXN_HINFO0.QUEUE 0 p.1 == q)) then (d.postHandle h at', true)
  else
    let d := (d.put TXN_HINFO0.STATE 2 0 h).inc TXN_CNT1.PENDED
    ({ d with txPend := d.txPend ++ [(h, at')] }.publish evTxnPended, false)

/-- The oldest pending completion of queue `q` moves into storage while room remains (R191); at most `n` moves. -/
def Dev.moveRun (d : Dev) (q : Nat) : Nat → Dev
  | 0 => d
  | n + 1 =>
    match d.txPend.find? (fun p => d.get TXN_HINFO0.QUEUE 0 p.1 == q) with
    | none => d
    | some p =>
      if d.hasRoom q then
        ({ d with txPend := d.txPend.filter (fun x => x.1 != p.1) }.postHandle p.1 p.2).moveRun q n
      else d

/-! ### The latest reply slot of a bound port (R145, R152) -/

/-- The register unit of the slot RXB copies on port code `p`: the chain's, or the lead member's of a canopy (R214). Before any
window since the binding there is no lead member: the spec names none, the model takes the group's REF chain (assumption: DESIGN
CHOICE, R145). -/
def Dev.slotUnit (d : Dev) (p : Nat) : Nat :=
  if 0x0C ≤ p ∧ p ≤ 0x0F then (d.grpx (p - 0x0C)).lead.getD (d.get BRG_CAN_CFG.REF (p - 0x0C)) else p

/-- Data word `k` of the latest classified slot of port code `p`. An unbound Vat has none: the spec does not say what TPUT then
appends, the model appends words of 0 (assumption: DESIGN CHOICE, R152). -/
def Dev.slotWord (d : Dev) (p k : Nat) : Nat :=
  if p = 0x1F then 0
  else if p = 9 ∨ p = 10 then d.portData p (d.chx p).slot k
  else d.slotData (d.slotUnit p) (d.chx (d.slotUnit p)).slot k

/-- The eight descriptor words of the latest classified slot of port code `p`. -/
def Dev.slotDesc (d : Dev) (p : Nat) : List Nat :=
  if p = 9 ∨ p = 10 then d.portDesc p (d.chx p).slot else d.descWords (d.slotUnit p) (d.chx (d.slotUnit p)).slot

/-- Data words 0 to `w` − 1 of the latest classified slot. -/
def Dev.slotWords (d : Dev) (p w : Nat) : List Nat := (List.range w).map (d.slotWord p)

/-! ### The instructions -/

/-- An outward instruction of `len` words ends after `cycles` with an outcome and a status (R126, R130). -/
def Dev.ended (d : Dev) (v op : Nat) (oc : Oc) (st len cycles : Nat) : Dev := (d.outcome v op oc st).seq v len cycles

/-- A handle and `n` blocks are free (R186). -/
def Dev.opens (d : Dev) (n : Nat) : Bool := d.freeHandle.isSome && (n == 0 || (d.lowestRun n).isSome)

/-- A TOPEN of the present cycle ends as if it had found no space. -/
def Dev.unopen (d : Dev) (o : Won) : Dev :=
  let e := ((d.put TXN_HINFO0.STATE 0 0 o.what).put TXN_HINFO2.ADDR 0 0 o.what).put VAT_HOPEN.OPEN
    (d.get VAT_HOPEN.OPEN o.vat - 1) o.vat
  { ((e.setGr o.vat o.rd o.was).inc TXN_CNT0.NOROOM).outcome o.vat opTopen .weak stTxnNoroom with
    opened := d.opened.filter (fun x => x != o) }

/-- TOPENs taken back one after another until a handle and `n` blocks are free; none where they never are. -/
def Dev.unopens (d : Dev) (n : Nat) : List Won → Option Dev
  | [] => none
  | o :: os => if (d.unopen o).opens n then some (d.unopen o) else (d.unopen o).unopens n os

/-- The TOPENs of Vats of a higher number than `v` in the present cycle give way to Vat `v`, which finds no space or handle without
them (R157), the latest first. -/
def Dev.openTake (d : Dev) (v n : Nat) : Dev :=
  if d.opens n then d
  else (d.unopens n ((d.opened.filter (fun o => o.clk == d.clk && decide (v < o.vat))).reverse)).getD d

/-- TOPEN (R151, R186): refusals in the order Q_DENIED, TXN_DEST_TOO_SMALL, TXN_NOROOM; a queue above 47 is illegal
(R127). -/
def Dev.doTopen (d : Dev) (v : Nat) (rd ra rb : RegNo) (queue : BitVec 6) (ext : Word) : Dev :=
  if 48 ≤ queue.toNat then d.doIllegal v
  else
    let size := d.gr v rb % 65536
    let n := blocksOf size
    if d.mayFeed v queue.toNat = false then d.ended v opTopen .clash stQDenied 2 4
    else if 16 * d.get TXN_POOL.SIZE < size then
      ((d.inc TXN_CNT0.TOOSMALL).logWarn 0x07 0 stTxnTooSmall [v, size, d.get TXN_POOL.SIZE]).ended v opTopen .clash
        stTxnTooSmall 2 4
    else
      let d := d.openTake v n
      match d.freeHandle, (if n = 0 then some 0 else d.lowestRun n) with
      | some h, some b =>
        let d := { d with opened := d.opened.filter (fun (x : Won) => x.clk == d.clk) ++
          [({ clk := d.clk, vat := v, what := h, was := d.gr v rd, rd := rd } : Won)] }
        let d := ((d.put TXN_HINFO0.STATE 1 0 h).put TXN_HINFO0.VAT v 0 h).put TXN_HINFO0.QUEUE queue.toNat 0 h
        let d := ((d.put TXN_HINFO0.STATUS 0 0 h).put TXN_HINFO1.DECL size 0 h).put TXN_HINFO1.FILL 0 0 h
        let d := d.put TXN_HINFO2.ADDR (if n = 0 then 0 else 0x100000 + 64 * b) 0 h
        let d := (d.put TXN_HINFO3.RECORD (d.gr v ra % 65536) 0 h).put TXN_HINFO4.TAG ext.toNat 0 h
        let d := d.inc VAT_HOPEN.OPEN v
        (d.setGr v rd h).ended v opTopen .one 0 2 4
      | _, _ => (d.inc TXN_CNT0.NOROOM).ended v opTopen .weak stTxnNoroom 2 4

/-- Vat `v` may use handle number `h` (R151). -/
def Dev.ownsHandle (d : Dev) (v h : Nat) : Bool :=
  decide (h < 256) && d.hst h == 1 && d.get TXN_HINFO0.VAT 0 h == v

/-- TPUT (R152, R187): the source is checked, then the handle, then the room; W = 0 and SRC = 1 with W above 144 are
illegal (R127). A STOP during a refused TPUT waits for its cycles like one during a copy (assumption: DESIGN CHOICE, R129). -/
def Dev.doTput (d : Dev) (v : Nat) (ra rb : RegNo) (src : Bool) (w : BitVec 8) : Dev :=
  let n := w.toNat
  if n = 0 ∨ (src = true ∧ 144 < n) then d.doIllegal v
  else
    let cyc := 4 + (n + 1) / 2
    let h := d.gr v ra
    let d := d.setVat v { d.vatx v with copyEnd := d.clk + cyc }
    if src = false ∧ sramWords (d.gr v rb) n = false then d.ended v opTput .clash stVatOperand 1 cyc
    else if d.ownsHandle v h = false then d.ended v opTput .clash stTxnHandle 1 cyc
    else
      let fill := d.get TXN_HINFO1.FILL 0 h
      if d.get TXN_HINFO1.DECL 0 h < fill + n then d.ended v opTput .clash stTxnTooSmall 1 cyc
      else
        let ws := if src then d.slotWords (d.get VAT_BIND.PORT v) n else d.words (d.gr v rb) n
        let d := d.setWords (d.get TXN_HINFO2.ADDR 0 h + 4 * fill) ws
        (d.put TXN_HINFO1.FILL (fill + n) 0 h).ended v opTput .one 0 1 cyc

/-- A refused host action on the block. -/
def Dev.txnErr (d : Dev) (st : Nat) : Dev := d.put TXN_STATUS.LAST_ERR st

/-- A closed handle and its blocks return; it has no address any more (R208), and a pending completion is withdrawn (R192). -/
def Dev.freeClosed (d : Dev) (h : Nat) : Dev :=
  let d := d.put TXN_HINFO2.ADDR 0 0 h
  if d.hst h = 2 then
    let d := (d.inc TXN_CNT1.WITHDRAWN).put TXN_HINFO0.STATE 0 0 h
    { d with txPend := d.txPend.filter (fun x => x.1 != h) }
  else d.put TXN_HINFO0.STATE 0 0 h

/-- The host frees handle `h` (R192); an open one is refused, but a closing by its Vat in the same cycle comes first (R157). -/
def Dev.hostFree (d : Dev) (h : Nat) : Dev :=
  if d.hst h = 2 ∨ d.hst h = 3 then d.freeClosed h
  else { d with freeing := some (d.clk, h, d.get TXN_STATUS.LAST_ERR) }.txnErr stTxnHandle

/-- A closing of handle `h` in the cycle in which the host freed it: the free releases a closed handle (R157). -/
def Dev.freeAfter (d : Dev) (h : Nat) : Dev :=
  match d.freeing with
  | some (c, k, err) => if c = d.clk ∧ k = h then ({ d with freeing := none }.txnErr err).freeClosed h else d
  | none => d

/-- A Vat's closing of a handle (R153). -/
def Dev.closeBy (d : Dev) (v op h st : Nat) : Dev :=
  if d.ownsHandle v h then
    let (d, posted) := d.closeHandle h st
    (d.freeAfter h).ended v op (if posted then .one else .none) 0 1 4
  else d.ended v op .clash stTxnHandle 1 4

/-- TDONE (R153). -/
def Dev.doTdone (d : Dev) (v : Nat) (ra : RegNo) : Dev := d.closeBy v opTdone (d.gr v ra) 0

/-- TFAIL: a zero status is recorded as TXN_FAILED (R153). -/
def Dev.doTfail (d : Dev) (v : Nat) (ra rb : RegNo) : Dev :=
  let st := d.gr v rb % 65536
  d.closeBy v opTfail (d.gr v ra) (if st = 0 then stTxnFailed else st)

/-! ### The host's part (R192, R185, R191) -/

/-- A write of TXN_HCMD.FREE (R192). -/
def aloneTxnFree (h : BitVec 8) (s : State) : Host.Outcome State Fault Refusal := s.onIsland 2 .TXN_HCMD 0 (fun d => d.hostFree h.toNat)

/-- A write of TXN_HCMD.ABORT closes an OPEN handle with TXN_ABORTED (R192). -/
def aloneTxnAbort (h : BitVec 8) (s : State) : Host.Outcome State Fault Refusal :=
  s.onIsland 2 .TXN_HCMD 0 (fun d => if d.hst h.toNat = 1 then (d.closeHandle h.toNat stTxnAborted).1 else d.txnErr stTxnHandle)

/-- A write of TXN_POOL is applied when every handle is FREE and the values meet the limits (R185). -/
def aloneTxnPoolWrite (value : Word) (s : State) : Host.Outcome State Fault Refusal :=
  s.onIsland 2 .TXN_POOL 0 (fun d =>
    let base := bitsOf value.toNat 28 16
    let size := bitsOf value.toNat 11 0
    if handles.all (fun h => d.hst h == 0) ∧ 64 ≤ size ∧ size ≤ 3072 ∧ base + size ≤ 8192 then
      (d.put TXN_POOL.BASE base).put TXN_POOL.SIZE size
    else d.txnErr stTxnPoolCfg)

/-- A completion queue has gained room: its pending completions move into it in order (R191). -/
def execPendingMove (q : QueueNo) (s : State) : Host.Outcome State Fault Refusal :=
  s.onUnit 2 (fun d => d.moveRun q.val 256)

end Sys2Proof.Machine
end

