-- ==== Sys2Proof/Machine/EventOps.lean ====
section
/-! DEFINITION. POST, QPUSH and QPOP, with the release of a waiting QPOP and the armed timeout (R116, R154 to R157). -/

namespace Sys2Proof.Machine

/-- TRL_LOOP. -/ def stTrlLoop : Nat := 0x0901
/-- TRL_DENIED. -/ def stTrlDenied : Nat := 0x0903

/-- POST (R154, R362): the channel's rights; the generation after that of the trigger consumed last; an event at
generation 7 is dropped. -/
def Dev.doPost (d : Dev) (v : Nat) (ch : BitVec 6) : Dev :=
  if d.vatMayPost v ch.toNat = false then d.ended v opPost .clash stTrlDenied 1 2
  else
    let gen := if d.isSet VAT_GEN.GVALID v then d.get VAT_GEN.GEN v + 1 else 0
    let d := d.publishCh ch.toNat gen
    if gen < 7 then d.ended v opPost .one 0 1 2 else d.ended v opPost .weak stTrlLoop 1 2

/-- QPUSH (R155, R369, R371): refusals in the order Q_DENIED, VAT_OPERAND, Q_FULL; the item becomes visible when the copy
ends; a queue above 47 is illegal (R127). An address that is not a multiple of 4, and with W = 0 one outside the Data SRAM, are
out of range as well (assumption: DESIGN CHOICE, R155 says 'out of range' alone); a STOP during a refused QPUSH waits for its
cycles like one during a copy (assumption: DESIGN CHOICE, R129). -/
def Dev.doQpush (d : Dev) (v : Nat) (ra rb : RegNo) (w : BitVec 8) (queue : BitVec 6) : Dev :=
  let q := queue.toNat
  let n := w.toNat
  let cyc := 4 + (n + 2) / 2
  if 48 ≤ q then d.doIllegal v
  else
    let d := d.setVat v { d.vatx v with copyEnd := d.clk + cyc }
    if d.qEn q = false ∨ d.qProd q ≠ v then d.ended v opQpush .clash stQDenied 1 cyc
    else if sramWords (d.gr v ra) n = false ∨ d.qSize q < n + 1 then d.ended v opQpush .clash stVatOperand 1 cyc
    else if d.qFree q < n + 1 then d.ended v opQpush .weak stQFull 1 cyc
    else
      ((d.qHostDue q).qPushAt q (d.gr v rb % 256) (d.words (d.gr v ra) n) (d.clk + cyc)).ended v opQpush .one 0 1 cyc

/-- The oldest item of queue `q` is taken by Vat `v` (R156): header to g[RD], up to `w` words copied, the space held until
the copy ends. The next instruction issues then. -/
def Dev.qpopItem (d : Dev) (v : Nat) (rd ra : RegNo) (w q : Nat) : Dev :=
  let cyc := 4 + (w + 1) / 2
  let header := d.qHead q
  let len := bitsOf header 15 0
  let d := d.setWords (d.gr v ra) ((d.qBody q).take w)
  let d := d.qDrop q
  let d := d.setQ q { d.qx q with heldBack := len + 1, freeAt := d.clk + cyc }
  let d := (d.setGr v rd header).outcome v opQpop (if w < len then .crcf else .one) 0
  let d := d.setVat v { d.vatx v with copyEnd := d.clk + cyc }
  d.releaseAt v (d.clk + cyc)

/-- QPOP (R156, R116): refusals, then the oldest item, else the wait; a timeout of 0 polls. The address as for QPUSH (assumption:
DESIGN CHOICE). -/
def Dev.doQpop (d : Dev) (v : Nat) (rd ra : RegNo) (w : BitVec 8) (queue : BitVec 6) : Dev :=
  let q := queue.toNat
  let n := w.toNat
  let cyc := 4 + (n + 1) / 2
  if 48 ≤ q then d.doIllegal v
  else
    let give := d.giveUpAt v
    let poll := d.polls v
    let d := d.put VAT_STATUS.TMO_ARMED 0 v
    if d.qEn q = false ∨ d.qCons q ≠ v then d.ended v opQpop .clash stQDenied 1 cyc
    else if sramWords (d.gr v ra) n = false then d.ended v opQpop .clash stVatOperand 1 cyc
    else if d.qReady q then d.qpopItem v rd ra n q
    else if poll then (d.setGr v rd 0).ended v opQpop .none stQEmpty 1 2
    else d.block v (.qpop rd ra n q give)

/-- An item becomes visible for a waiting QPOP, in the cycle in which its producer's copy ends (R156). -/
def Dev.qpopTake (d : Dev) (v : Nat) : Dev :=
  match (d.vatx v).wait with
  | .qpop rd ra w q _ =>
    let d := if d.qCopying q then d.toClk (d.qx q).shownAt else d
    if d.qReady q then d.qpopItem v rd ra w q else d
  | _ => d

/-- The armed timeout of a blocked WAITT or QPOP expires (R116, R156): a trigger or an item that is visible in the same
cycle is taken (R120, R157); else OC is NONE, and an empty QPOP ends with Q_EMPTY_TIMEOUT and g[RD] 0. -/
def Dev.vatTimeout (d : Dev) (v : Nat) : Dev :=
  match (d.vatx v).wait with
  | .waitt input (some t) =>
    let d := d.toTick t
    if d.isSet TRL_CSTAT.PEND 0 (taskInput v input) then (d.consumeTrigger v input).releaseAt v (d.clk + 2)
    else (d.setOc v .none).releaseAt v (2 * t)
  | .qpop rd ra w q (some t) =>
    let d := d.toTick t
    if d.qReady q then d.qpopItem v rd ra w q
    else ((d.setGr v rd 0).outcome v opQpop .none stQEmpty).releaseAt v (2 * t)
  | _ => d

/-- A Vat that waits in QPOP on queue `q` ends with an outcome (R156, R372). -/
def Dev.qpopEnd (d : Dev) (q : Nat) (oc : Oc) (st : Nat) : Dev :=
  vatIds.foldl (fun d v =>
    match (d.vatx v).wait with
    | .qpop _ _ _ q' _ => if q' = q then (d.outcome v opQpop oc st).releaseAt v (d.clk + 1) else d
    | _ => d) d

/-- A running QPUSH copy into queue `q` is torn (R155): the Vat's outcome is CUT with Q_TORN. -/
def Dev.qpushTorn (d : Dev) (q : Nat) : Dev :=
  if d.qCopying q && decide (d.qProd q < 16) then d.outcome (d.qProd q) opQpush .cut stQTorn else d

end Sys2Proof.Machine
end

