-- ==== Sys2Proof/Machine/Ledger.lean ====
section
/-! DEFINITION. The ledger engine: records in the Cellar, hash and probe set, the ledger instructions, the host's commands,
stop and rebuild (R148 to R150, R196 to R206, R222). -/

namespace Sys2Proof.Machine

/-! ### Records (R196) -/

/-- The byte address of the Cellar. -/
def cellar : Nat := 0x04000000
/-- Word `k` of record `r`. -/
def Dev.recWord (d : Dev) (r k : Nat) : Nat := d.word (cellar + 64 * r + 4 * k)
/-- Word `k` of record `r` written. -/
def Dev.setRec (d : Dev) (r k v : Nat) : Dev := d.setWord (cellar + 64 * r + 4 * k) v
/-- VALID of record `r`. -/
def Dev.recValid (d : Dev) (r : Nat) : Bool := bitOf (d.recWord r 8) 31
/-- Bank `b` is poisoned (R205). -/
def Dev.stale (d : Dev) (b : Nat) : Bool := bitOf (d.get LDG_BANK.STALE) b
/-- The records in use, read from the cells of memory that hold VALID. -/
def Dev.validRecs (d : Dev) : List Nat :=
  d.mem.filterMap (fun c =>
    if cellar ≤ c.1 ∧ c.1 < cellar + 0x400000 ∧ (c.1 - cellar) % 64 = 35 ∧ c.2.getLsbD 7 then some ((c.1 - cellar) / 64)
    else none)
/-- The overflow slots in use: those of the records in use whose OVF is 1 (R197, R202). -/
def Dev.ovfUsed (d : Dev) : List Nat :=
  (d.validRecs.filter (fun r => bitOf (d.recWord r 8) 30)).map (fun r => bitsOf (d.recWord r 14) 11 0)
/-- The lowest free overflow slot (R200). -/
def Dev.ovfFree (d : Dev) : Option Nat :=
  let used := d.ovfUsed
  (List.range (d.get LDG_OVF.SLOTS)).find? (fun k => !used.contains k)
/-- The byte address of an overflow slot (R197). -/
def Dev.ovfAddr (d : Dev) (k : Nat) : Nat := 0x100000 + 64 * d.get LDG_OVF.BASE + 128 * k
/-- LDG_COUNT and LDG_OVFST brought up to the Cellar's content (R203, R206, R209). -/
def Dev.recount (d : Dev) : Dev :=
  (d.put LDG_COUNT.USED ((d.validRecs.filter (fun r => !d.stale (r / 4096))).length)).put LDG_OVFST.USED d.ovfUsed.length

/-! ### Hash and probe set (R197 to R199) -/

/-- One step of 64-bit FNV-1a. -/
def fnvStep (h b : Nat) : Nat := Nat.xor h b * 0x100000001B3 % 2 ^ 64
/-- Bits packed most significant bit first into bytes, unused low bits 0. -/
def packBytes (bits : List Bool) : List Nat :=
  (List.range ((bits.length + 7) / 8)).map (fun k =>
    ((List.range 8).map (fun i => if bits.getD (8 * k + i) false then 2 ^ (7 - i) else 0)).sum)
/-- The hash of a key under a seed (R198). -/
def keyHash (seed : Nat) (key : List Bool) : Nat :=
  (packBytes key ++ [key.length / 256, key.length % 256]).foldl fnvStep (Nat.xor 0xCBF29CE484222325 seed)
/-- A list of words padded with zeros to `n`. -/
def padWords (n : Nat) (ws : List Nat) : List Nat := (List.range n).map (fun k => ws.getD k 0)
/-- The KEY field of a key (R197): inline, or the digest H1 to H4, high words first. -/
def keyField (seed : Nat) (key : List Bool) : List Nat :=
  if key.length ≤ 256 then padWords 8 (packWords key)
  else ([1, 2, 3, 4].map (fun i => keyHash (Nat.xor seed i) key)).flatMap (fun h => [h / 2 ^ 32, h % 2 ^ 32])
/-- The records of a hash's probe set in probe order (R199). -/
def probeSet (h : Nat) : List Nat :=
  (List.range 4).flatMap (fun i =>
    (List.range 8).map (fun j => bitsOf h 15 12 * 4096 + 8 * ((bitsOf h 11 3 + i) % 512) + j))
/-- A key matches record `r` (R199). -/
def Dev.recMatch (d : Dev) (r h : Nat) (key : List Bool) (field : List Nat) : Bool :=
  let w8 := d.recWord r 8
  bitOf w8 31 && d.recWord r 9 == h / 2 ^ 32 && bitsOf w8 26 16 == key.length &&
    d.words (cellar + 64 * r) 8 == field &&
    (!bitOf w8 30 || d.words (d.ovfAddr (bitsOf (d.recWord r 14) 11 0)) ((key.length + 31) / 32) == packWords key)

/-! ### Updates (R200) -/

/-- The sighting a request records: AT, RSSI, mask; zeros without one (R149). -/
def sightVals (s : Option Sight) : Nat × Nat × Nat :=
  match s with
  | some x => (x.start, x.rssi, x.mask % 256)
  | none => (0, 0, 0)

/-- The bearing of a sighting whose result is ready (R222). -/
def sightBear (s : Option Sight) : Option (Nat × Nat × Nat) := s.bind (fun x => if x.ready then x.bear else none)

/-- A canopy sighting recorded without a bearing because its result was not ready is counted (R222). -/
def Dev.countMissed (d : Dev) (s : Option Sight) : Dev :=
  match s with
  | some x => match x.group with
    | some k => if x.ready then d else d.inc BRG_CAN_CNT1.MISSED k
    | none => d
  | none => d

/-- Word 15 of a record from a bearing (R196). -/
def bearWord (b : Nat × Nat × Nat) : Nat := b.1 % 4096 * 2 ^ 20 + b.2.1 % 4096 * 2 ^ 8 + b.2.2 % 256

/-- A new record written (R200). -/
def Dev.newRec (d : Dev) (r h : Nat) (key : List Bool) (field : List Nat) (slot : Option Nat) (s : Option Sight) : Dev :=
  let (at', rssi, mask) := sightVals s
  let d := match slot with
    | some k => d.setWords (d.ovfAddr k) (padWords 32 (packWords key))
    | none => d
  let ws := field ++
    [2 ^ 31 + bit slot.isSome * 2 ^ 30 + key.length * 2 ^ 16 + 1, h / 2 ^ 32, at' % 2 ^ 32, at' / 2 ^ 32 % 2 ^ 32,
     at' % 2 ^ 32, at' / 2 ^ 32 % 2 ^ 32, mask * 2 ^ 24 + rssi * 2 ^ 12 + slot.getD 0,
     match sightBear s with | some b => bearWord b | none => 0]
  (d.setWords (cellar + 64 * r) ws).countMissed s

/-- An existing record's last-sighting fields updated (R200). -/
def Dev.touchRec (d : Dev) (r : Nat) (s : Option Sight) : Dev :=
  let (at', rssi, mask) := sightVals s
  let w8 := d.recWord r 8
  let w14 := d.recWord r 14
  let best := if signedOf 12 (bitsOf w14 23 12) < signedOf 12 rssi then rssi else bitsOf w14 23 12
  let d := d.setRec r 8 (w8 - w8 % 65536 + min 0xFFFF (w8 % 65536 + 1))
  let d := (d.setRec r 12 (at' % 2 ^ 32)).setRec r 13 (at' / 2 ^ 32 % 2 ^ 32)
  let d := d.setRec r 14 (Nat.lor (bitsOf w14 31 24) mask * 2 ^ 24 + best * 2 ^ 12 + bitsOf w14 11 0)
  let d := match sightBear s with
    | some b => d.setRec r 15 (bearWord b)
    | none => d
  d.countMissed s

/-- No record number results (R150). -/
def noRecord : Nat := 0xFFFFFFFF

/-- LPUT served (R150, R199, R200). -/
def Dev.servePut (d : Dev) (q : LReq) : Dev × (Oc × Nat × Nat) :=
  let seed := d.get LDG_SEED.SEED
  let h := keyHash seed q.key
  let field := keyField seed q.key
  if d.stale (bitsOf h 15 12) then (d, .cut, stLdgStale, noRecord)
  else
    match (probeSet h).find? (fun r => d.recMatch r h q.key field) with
    | some r => ((d.touchRec r q.sight).incWrap LDG_CNT1.SEEN, .none, 0, r)
    | none =>
      let slot := if q.key.length ≤ 256 then some 0 else d.ovfFree
      match (probeSet h).find? (fun r => !d.recValid r), slot with
      | some r, some k =>
        let d := d.newRec r h q.key field (if q.key.length ≤ 256 then none else some k) q.sight
        (((d.inc LDG_CNT0.NEW).recount).publish evLdgNew, .one, 0, r)
      | _, _ => (d.inc LDG_CNT0.FULL, .weak, stLdgFull, noRecord)

/-- LGET served (R150). -/
def Dev.serveGet (d : Dev) (q : LReq) : Oc × Nat × Nat :=
  let seed := d.get LDG_SEED.SEED
  let h := keyHash seed q.key
  if d.stale (bitsOf h 15 12) then (.cut, stLdgStale, noRecord)
  else
    match (probeSet h).find? (fun r => d.recMatch r h q.key (keyField seed q.key)) with
    | some r => (.one, 0, r)
    | none => (.none, 0, noRecord)

/-- LTOUCH served (R150). -/
def Dev.serveTouch (d : Dev) (q : LReq) : Dev × (Oc × Nat × Nat) :=
  if 65535 < q.recNo then (d, .clash, stLdgNoRecord, noRecord)
  else if d.stale (q.recNo / 4096) then (d, .cut, stLdgStale, noRecord)
  else if d.recValid q.recNo then (d.touchRec q.recNo q.sight, .one, 0, q.recNo)
  else (d, .clash, stLdgNoRecord, noRecord)

/-- The bank that a request touches: that of its key (R199), or of its record number. -/
def Dev.reqBank (d : Dev) (q : LReq) : Nat :=
  if q.op = opLtouch then q.recNo / 4096 else bitsOf (keyHash (d.get LDG_SEED.SEED) q.key) 15 12

/-- An access reaches Cellar bank `k`, which leaves its self-refresh (R382, R383). -/
def Dev.reachBank (d : Dev) (k : Nat) : Dev := if k < 16 then d.reaches (.clr (Fin.ofNat 16 k)) else d

/-- The engine serves a request as a whole (R201): an invalid operand, a missing island, a stopped engine, else the
operation. -/
def Dev.serve (d : Dev) (q : LReq) : Dev × (Oc × Nat × Nat) :=
  if q.bad then (d, .clash, stVatOperand, noRecord)
  else if d.present 3 = false then (d, .cut, stPortKind, noRecord)
  else if d.isSet LDG_STATUS.READY = false then (d, .cut, stLdgStopped, noRecord)
  else
    let d := d.reachBank (d.reqBank q)
    if q.op = opLput then d.servePut q
    else if q.op = opLget then (d, d.serveGet q)
    else d.serveTouch q

/-- The requests up to and including that of Vat `v` served in the engine's order (R201). -/
def Dev.serveTo (d : Dev) (v : Nat) : List LReq → Dev × List LReq
  | [] => (d, [])
  | q :: qs =>
    let (d, q) := if q.ans.isSome then (d, q) else
      let r := d.serve q
      (r.1, { q with ans := some r.2 })
    if q.vat = v then (d, q :: qs)
    else
      let r := d.serveTo v qs
      (r.1, q :: r.2)

/-- A request enters the engine's list in the order of arrival, then of Vat number (R201). -/
def addReq (q : LReq) : List LReq → List LReq
  | [] => [q]
  | x :: xs => if q.at' < x.at' ∨ (q.at' = x.at' ∧ q.vat < x.vat) then q :: x :: xs else x :: addReq q xs

/-- An earlier request of Vat `v`, which the Vat no longer waits for, is served and its answer discarded (R150). -/
def Dev.serveOld (d : Dev) (v : Nat) : Dev :=
  if d.ldg.reqs.any (fun x => x.vat == v) then
    let r := d.serveTo v d.ldg.reqs
    { r.1 with ldg := { r.1.ldg with reqs := r.2.filter (fun x => x.vat != v) } }
  else d

/-- A ledger instruction puts its Vat in WAIT with its request at the engine (R148). -/
def Dev.request (d : Dev) (v : Nat) (q : LReq) : Dev :=
  let d := d.serveOld v
  ({ d with ldg := { d.ldg with reqs := addReq q d.ldg.reqs } }).block v .ledger

/-! ### The instructions (R148 to R150) -/

/-- The key operand (R149): bits from bit `off` of the word at an address, counted from bit 31. -/
def Dev.keyBits (d : Dev) (a n off : Nat) : List Bool :=
  (List.range n).map (fun i => bitOf (d.word (a + 4 * ((off + i) / 32))) (31 - (off + i) % 32))

/-- The request of LPUT and LGET. -/
def Dev.keyReq (d : Dev) (v op : Nat) (rd ra rb : RegNo) (off : BitVec 5) (sight : Option Sight) : LReq :=
  let a := d.gr v ra
  let n := d.gr v rb % 2048
  let bad := decide (n = 0) || decide (1024 < n) || !sramWords a ((off.toNat + n + 31) / 32)
  { vat := v, at' := d.clk, op := op, rd := rd, key := if bad then [] else d.keyBits a n off.toNat, sight := sight,
    bad := bad }

/-- LPUT. -/
def Dev.doLput (d : Dev) (v : Nat) (rd ra rb : RegNo) (off : BitVec 5) : Dev :=
  d.request v (d.keyReq v opLput rd ra rb off (d.vatx v).sight)
/-- LGET. -/
def Dev.doLget (d : Dev) (v : Nat) (rd ra rb : RegNo) (off : BitVec 5) : Dev :=
  d.request v (d.keyReq v opLget rd ra rb off none)
/-- LTOUCH; it has no RD (R126). -/
def Dev.doLtouch (d : Dev) (v : Nat) (ra : RegNo) : Dev :=
  d.request v { vat := v, at' := d.clk, op := opLtouch, rd := 0, recNo := d.gr v ra, sight := (d.vatx v).sight }

/-- The engine's answer for Vat `v` (R148, R150): delivered when the Vat still waits, else discarded. -/
def Dev.ledgerAnswer (d : Dev) (v : Nat) : Dev :=
  if d.ldg.reqs.any (fun q => q.vat == v) then
    let (d, reqs) := d.serveTo v d.ldg.reqs
    match reqs.find? (fun q => q.vat == v) with
    | none => d
    | some q =>
      let d := { d with ldg := { d.ldg with reqs := reqs.filter (fun x => x.vat != v) } }
      match q.ans, (d.vatx v).wait with
      | some (oc, st, r), .ledger =>
        let d := if q.op = opLtouch then d else d.setGr v q.rd r
        (d.outcome v q.op oc st).releaseAt v d.clk
      | _, _ => d
  else d

/-! ### The host's part (R197, R198, R202, R203) -/

/-- A refused host action on the block. -/
def Dev.ldgErr (d : Dev) (st : Nat) : Dev := d.put LDG_STATUS.LAST_ERR st

/-- Every request that waits at the engine is served, in its order (R201). -/
def Dev.serveAll (d : Dev) : Dev :=
  match d.ldg.reqs.getLast? with
  | some q =>
    let r := d.serveTo q.vat d.ldg.reqs
    { r.1 with ldg := { r.1.ldg with reqs := r.2 } }
  | none => d

/-- A command starts (R202): BUSY and OP; the argument is kept until its end, and with it AGE's threshold, of CLEAR_BANK the
stale marks before it. It is ignored during an entry to GLADE or FALLOW (R388). The Vats' requests that wait come before a host
command, so that CLEAR_BANK treats its bank as poisoned only after them (R201). -/
def Dev.ldgStart (d : Dev) (op arg : Nat) : Dev :=
  if d.entering then d
  else if d.isSet LDG_CMDST.BUSY then d.ldgErr stLdgCmdBusy
  else
    let thr := if op = 3 then d.get LDG_BANK.STALE else d.get LDG_AGE_LO.AGE_LO + 2 ^ 32 * d.get LDG_AGE_HI.AGE_HI
    let d := (d.put LDG_CMDST.BUSY 1).put LDG_CMDST.OP op
    let d := { d with ldg := { d.ldg with cmd := some (op, arg, thr) } }
    if op = 3 ∧ arg < 16 ∧ d.isSet LDG_STATUS.READY then
      let d := d.serveAll
      (d.put LDG_BANK.STALE (Nat.lor (d.get LDG_BANK.STALE) (2 ^ arg))).recount
    else d

/-- The memory of `n` bytes from `a` zeroed. -/
def Dev.zero (d : Dev) (a n : Nat) : Dev :=
  { d with mem := d.mem.filter (fun c => decide (c.1 < a) || decide (a + n ≤ c.1)) }

/-- A record deleted: VALID cleared, so that its overflow slot is free (R202). -/
def Dev.delRec (d : Dev) (r : Nat) : Dev := d.setRec r 8 (d.recWord r 8 % 2 ^ 31)

/-- A CLEAR_BANK that ends before its action no longer treats its bank as poisoned (R202). -/
def Dev.ldgUnstale (d : Dev) (op arg was : Nat) : Dev :=
  if op = 3 ∧ arg < 16 ∧ bitOf was arg = false then
    (d.put LDG_BANK.STALE (clearBit (d.get LDG_BANK.STALE) arg)).recount
  else d

/-- A write of LDG_CMD with an OP that the table does not list starts nothing; while BUSY is 1 it is refused like any (R202). -/
def Dev.ldgUnlisted (d : Dev) : Dev :=
  if d.entering = false ∧ d.isSet LDG_CMDST.BUSY = true then d.ldgErr stLdgCmdBusy else d

/-- The banks that a command touches. -/
def cmdBanks (op arg : Nat) : List Nat :=
  if op = 1 ∨ op = 2 then [arg / 4096] else if op = 3 then [arg] else List.range 16

/-- The action of a command and its RESULT (R202). A command other than CLEAR_ALL whose action comes while the engine does not
serve ends with LDG_STOPPED, in the rebuild after RUN = 1 as well (assumption: DESIGN CHOICE, R202 names RUN = 0 alone). -/
def Dev.ldgAct (d : Dev) (op arg thr : Nat) : Dev × Nat :=
  if op = 5 then
    (((d.zero cellar 0x400000).put LDG_BANK.STALE 0).recount, 0)
  else if d.isSet LDG_STATUS.READY = false then (d.ldgUnstale op arg thr, stLdgStopped)
  else if op = 1 then
    if d.stale (arg / 4096) then (d, stLdgStale)
    else (d.putRun LDG_RDATA.DATA 0 0 (d.words (cellar + 64 * arg) 16), 0)
  else if op = 2 then
    if d.stale (arg / 4096) then (d, stLdgStale) else ((d.delRec arg).recount, 0)
  else if op = 3 then
    if 16 ≤ arg then (d, stLdgCmdArg)
    else (((d.zero (cellar + 0x40000 * arg) 0x40000).put LDG_BANK.STALE (clearBit (d.get LDG_BANK.STALE) arg)).recount, 0)
  else
    let old := d.validRecs.filter (fun r =>
      !d.stale (r / 4096) && decide (d.recWord r 12 + 2 ^ 32 * d.recWord r 13 < thr))
    ((old.foldl (fun d r => d.delRec r) d).recount, 0)

/-- The command in progress ends with a RESULT (R202). -/
def Dev.ldgEnd (d : Dev) (result : Nat) : Dev :=
  let d := (d.put LDG_CMDST.BUSY 0).put LDG_CMDST.RESULT result
  ({ d with ldg := { d.ldg with cmd := none } }.busyBy d.tick).publish evLdgCmd

/-- Command READ (R202). -/
def execLdgRead (arg : BitVec 16) (s : State) : Host.Outcome State Fault Refusal := s.onIsland 3 .LDG_CMD 0 (fun d => d.ldgStart 1 arg.toNat)
/-- Command DELETE (R202). -/
def execLdgDelete (arg : BitVec 16) (s : State) : Host.Outcome State Fault Refusal := s.onIsland 3 .LDG_CMD 0 (fun d => d.ldgStart 2 arg.toNat)
/-- Command CLEAR_BANK (R202). -/
def execClearBank (arg : BitVec 16) (s : State) : Host.Outcome State Fault Refusal := s.onIsland 3 .LDG_CMD 0 (fun d => d.ldgStart 3 arg.toNat)
/-- Command AGE (R202). -/
def execAge (s : State) : Host.Outcome State Fault Refusal := s.onIsland 3 .LDG_CMD 0 (fun d => d.ldgStart 4 0)
/-- Command CLEAR_ALL (R202). -/
def execClearAll (s : State) : Host.Outcome State Fault Refusal := s.onIsland 3 .LDG_CMD 0 (fun d => d.ldgStart 5 0)

/-- The running command acts and ends (R202), after the Vats' requests that wait (R201). -/
def Dev.ldgDone (d : Dev) : Dev :=
  match d.ldg.cmd with
  | some (op, arg, thr) =>
    let r := ((cmdBanks op arg).foldl (fun d k => d.reachBank k) d.serveAll).ldgAct op arg thr
    r.1.ldgEnd r.2
  | none => d

/-- The running command acts and ends (R202). -/
def execLdgCmdDone (s : State) : Host.Outcome State Fault Refusal := s.onUnit 3 (fun d => d.ldgDone)

/-- LDG_CTRL.RUN takes a value (R203). -/
def Dev.ldgRun (d : Dev) (run : Bool) : Dev :=
  let d := d.put LDG_CTRL.RUN (bit run)
  if run then
    if d.ldg.phase = 2 then { d with ldg := { d.ldg with phase := 3 } }.put LDG_STATUS.STOPPED 0
    else if d.ldg.phase = 1 then { d with ldg := { d.ldg with again := true } }
    else d
  else if d.ldg.phase = 2 then d
  else
    let d := match d.ldg.reqs with
      | q :: _ =>
        let r := d.serveTo q.vat d.ldg.reqs
        { r.1 with ldg := { r.1.ldg with reqs := r.2 } }
      | [] => d
    { d with ldg := { d.ldg with phase := 1, again := false } }.put LDG_STATUS.READY 0

/-- A write of LDG_CTRL.RUN (R203), ignored during an entry to GLADE or FALLOW (R388). -/
def execLdgRunWrite (run : Bool) (s : State) : Host.Outcome State Fault Refusal :=
  s.onIsland 3 .LDG_CTRL 0 (fun d => if d.entering then d else d.ldgRun run)

/-- The engine has finished and stops, or goes straight into the rebuild (R203); a host command that has not ended is
ended with LDG_STOPPED. -/
def execLdgStopDone (s : State) : Host.Outcome State Fault Refusal :=
  s.onUnit 3 (fun d =>
    if d.ldg.phase = 1 then
      let d := match d.ldg.cmd with
        | some (op, arg, was) => if op = 5 then d else (d.ldgUnstale op arg was).ldgEnd stLdgStopped
        | none => d
      if d.ldg.again then { d with ldg := { d.ldg with phase := 3, again := false } }
      else { d with ldg := { d.ldg with phase := 2 } }.put LDG_STATUS.STOPPED 1
    else d)

/-- The rebuild ends and the engine serves again (R203). -/
def execLdgRebuildDone (s : State) : Host.Outcome State Fault Refusal :=
  s.onUnit 3 (fun d =>
    if d.ldg.phase = 3 then ({ d with ldg := { d.ldg with phase := 0 } }.recount).put LDG_STATUS.READY 1 else d)

/-- A write of LDG_SEED, ignored while RUN is 1 (R198). -/
def execLdgSeedWrite (seed : Word) (s : State) : Host.Outcome State Fault Refusal :=
  s.onIsland 3 .LDG_SEED 0 (fun d => if d.isSet LDG_CTRL.RUN then d else d.put LDG_SEED.SEED seed.toNat)

/-- A write of LDG_OVF: only while RUN is 0 and no slot is in use, within the Data SRAM (R197). -/
def execLdgOvfWrite (value : Word) (s : State) : Host.Outcome State Fault Refusal :=
  s.onIsland 3 .LDG_OVF 0 (fun d =>
    let base := bitsOf value.toNat 28 16
    let slots := bitsOf value.toNat 11 0
    if d.isSet LDG_CTRL.RUN = false ∧ d.ovfUsed = [] ∧ base + 2 * slots ≤ 8192 then
      (d.put LDG_OVF.BASE base).put LDG_OVF.SLOTS slots
    else d.ldgErr stLdgCmdArg)

end Sys2Proof.Machine
end

