-- ==== Sys2Proof/Machine/Nvm.lean ====
section
/-! DEFINITION. The non-volatile memory: words, the counters region, two-slot regions and their commits (R404 to R407). -/

namespace Sys2Proof.Machine

/-- One byte of the MRAM by its offset; what nothing has written reads 0 (assumption: DESIGN CHOICE). -/
def Nv.byte (n : Nv) (a : Nat) : Byte := fget memDefault n.mram a

/-- One byte written. -/
def Nv.setByte (n : Nv) (a : Nat) (b : Byte) : Nv := { n with mram := fset memDefault id n.mram a b }

/-- A 32-bit word, little-endian. -/
def Nv.word (n : Nv) (a : Nat) : Nat :=
  (n.byte a).toNat + 256 * ((n.byte (a + 1)).toNat + 256 * ((n.byte (a + 2)).toNat + 256 * (n.byte (a + 3)).toNat))

/-- A 32-bit word written, little-endian. -/
def Nv.setWord (n : Nv) (a v : Nat) : Nv :=
  (((n.setByte a (BitVec.ofNat 8 v)).setByte (a + 1) (BitVec.ofNat 8 (v / 256))).setByte (a + 2)
    (BitVec.ofNat 8 (v / 65536))).setByte (a + 3) (BitVec.ofNat 8 (v / 16777216))

/-- Consecutive bytes. -/
def Nv.bytes (n : Nv) (a : Nat) : Nat → List Byte
  | 0 => []
  | k + 1 => n.byte a :: n.bytes (a + 1) k

/-- Consecutive bytes written. -/
def Nv.setBytes (n : Nv) (a : Nat) : List Byte → Nv
  | [] => n
  | b :: bs => (n.setByte a b).setBytes (a + 1) bs

/-- Consecutive words written. -/
def Nv.setWords (n : Nv) (a : Nat) : List Nat → Nv
  | [] => n
  | w :: ws => (n.setWord a w).setWords (a + 4) ws

/-! ### Counters (R407) -/

/-- The offset of the counters region. -/
def ctrBase : Nat := 0x1AA000
/-- The generation word of a slot of a region. -/ def ctrGen (region slot : Nat) : Nat := ctrBase + 8 * region + 4 * slot
/-- BOOT: [0] preferred slot, [1] trial, [2] tried. -/ def ctrBoot : Nat := ctrBase + 0x40
/-- ROLLBACK. -/ def ctrRollback : Nat := ctrBase + 0x44
/-- FCMARK. -/ def ctrFcMark : Nat := ctrBase + 0x48
/-- EPOCH. -/ def ctrEpoch : Nat := ctrBase + 0x4C
/-- ERASE. -/ def ctrErase : Nat := ctrBase + 0x50

/-! ### Two-slot regions (R404 to R406) -/

/-- The size of a slot of a region (0 the hoop store, 1 calibration, 2 configuration, 3 regulatory, 4 keys). -/
def slotSize (region : Nat) : Nat := if region = 0 then 0x60000 else if region = 4 then 0x1000 else 0x4000

/-- The offset of a slot of a region. -/
def slotBase (region slot : Nat) : Nat :=
  match region with
  | 0 => if slot = 0 then 0x0C0000 else 0x120000
  | 1 => if slot = 0 then 0x180000 else 0x184000
  | 2 => if slot = 0 then 0x188000 else 0x18C000
  | 3 => if slot = 0 then 0x190000 else 0x1A6000
  | _ => if slot = 0 then 0x194000 else 0x195000

/-- One bit of the CRC-32 of IEEE 802.3, least significant bit first. -/
def crc32Bit (c : Nat) : Nat := if c % 2 = 1 then Nat.xor (c / 2) 0xEDB88320 else c / 2

/-- One byte of the CRC-32. -/
def crc32Byte (c b : Nat) : Nat :=
  crc32Bit (crc32Bit (crc32Bit (crc32Bit (crc32Bit (crc32Bit (crc32Bit (crc32Bit (Nat.xor c b))))))))

/-- The CRC-32 of a run of bytes. -/
def crc32Bytes (bs : List Byte) : Nat := Nat.xor (bs.foldl (fun c b => crc32Byte c b.toNat) 0xFFFFFFFF) 0xFFFFFFFF

/-- A 32-bit word as four bytes, least significant first. -/
def wordBytes (w : Nat) : List Byte :=
  [BitVec.ofNat 8 w, BitVec.ofNat 8 (w / 256), BitVec.ofNat 8 (w / 65536), BitVec.ofNat 8 (w / 16777216)]

/-- The generation of a slot. -/
def Nv.gen (n : Nv) (region slot : Nat) : Nat := n.word (ctrGen region slot)

/-- The CRC-32 that a slot must end with: its bytes but for the last word, then its generation (R405). -/
def Nv.slotCrc (n : Nv) (region slot : Nat) : Nat :=
  crc32Bytes (n.bytes (slotBase region slot) (slotSize region - 4) ++ wordBytes (n.gen region slot))

/-- The entries of the key store that a slot of it holds (R409): the one of the higher generation holds the current entries. -/
def Nv.keysIn (n : Nv) (slot : Nat) : List (Nat × List Byte) :=
  if n.gen 4 slot < n.gen 4 (1 - slot) then n.keysWas else n.keys

/-- What the MRAM window shows of a key-store slot at an offset in it: private keys and mesh keys are not shown (R409), and how the
public entries lie there is not laid out. -/
def Nv.keyByte (n : Nv) (slot off : Nat) : Byte :=
  if n.gen 4 slot = 0 then 0 else Config.keyStoreByte ((n.keysIn slot).filter (fun e => decide (e.1 < 10) || e.1 == 33)) off

/-- A slot is valid: generation not 0 and the CRC matches (R405). A commit of the key store writes entries, generation and CRC in one
step, so that the CRC of a slot of it that has a generation matches. -/
def Nv.slotValid (n : Nv) (region slot : Nat) : Bool :=
  n.gen region slot != 0 &&
    (region == 4 || n.slotCrc region slot == n.word (slotBase region slot + slotSize region - 4))

/-- The current slot of a region: the valid one with the higher generation; none when the region is empty. -/
def Nv.current (n : Nv) (region : Nat) : Option Nat :=
  match n.slotValid region 0, n.slotValid region 1 with
  | false, false => none
  | true, false => some 0
  | false, true => some 1
  | true, true => some (if n.gen region 0 < n.gen region 1 then 1 else 0)

/-- The slot an open works on: the one that is not current (slot 0 when the region is empty). -/
def Nv.target (n : Nv) (region : Nat) : Nat :=
  match n.current region with
  | some 0 => 1
  | _ => 0

/-- STAGE_OPEN of R406: the target's generation, then the copy of the current slot, or zeros, all but the last word. -/
def Nv.stageOpen (n : Nv) (region : Nat) : Nv :=
  let t := n.target region
  match n.current region with
  | some c =>
    (n.setWord (ctrGen region t) (n.gen region c + 1)).setBytes (slotBase region t)
      (n.bytes (slotBase region c) (slotSize region - 4))
  | none =>
    (n.setWord (ctrGen region t) 1).setBytes (slotBase region t) (List.replicate (slotSize region - 4) 0)

/-- STORE of R406: the CRC-32 as the last word of the slot opened. -/
def Nv.store (n : Nv) (region slot : Nat) : Nv :=
  n.setWord (slotBase region slot + slotSize region - 4) (n.slotCrc region slot)

/-- The offset of the current slot of a region. -/
def Nv.currentBase (n : Nv) (region : Nat) : Option Nat := (n.current region).map (slotBase region)

end Sys2Proof.Machine
end

