-- ==== Sys2Proof/Machine/Syn.lean ====
section
/-! DEFINITION. The synthesisers: their users, a retune and its refusals, the arbitration of one cycle, lock (R33 to R40,
R211), and the port of an external multiplexer (R53). -/

namespace Sys2Proof.Machine

/-- CAL_DISTURBED. -/ def stCalDisturbed : Nat := 0x0301
/-- CAL_NO_LOAD. -/ def stCalNoLoad : Nat := 0x0302
/-- CAL_OUT_OF_RANGE. -/ def stCalRange : Nat := 0x0303
/-- CAL_BUSY. -/ def stCalBusy : Nat := 0x0304
/-- CAL_ABORTED. -/ def stCalAborted : Nat := 0x0305

/-- Every chain's electronics: U0 to U7 and US. -/
def chainIds : List Nat := List.range 9

/-- The chains that select synthesiser `m` (R34). -/
def Dev.synUsers (d : Dev) (m : Nat) : List Nat := chainIds.filter (fun c => d.synOf c == m)

/-- Synthesiser `m` reports LOCK. -/
def Dev.locked (d : Dev) (m : Nat) : Bool := d.isSet SYN_F_STATUS.LOCK m

/-- A shadow hand-over runs: TUNING, WAITING or RECAL (R39). -/
def Dev.shadowRuns (d : Dev) : Bool := decide (1 ≤ d.get SYN_SHADOW.STATE) && decide (d.get SYN_SHADOW.STATE ≤ 3)

/-- `m` is the destination of a running hand-over (R35). -/
def Dev.shadowDst (d : Dev) (m : Nat) : Bool := d.shadowRuns && d.get SYN_SHADOW.DST == m

/-- `m` is source or destination of a running hand-over (R38). -/
def Dev.shadowing (d : Dev) (m : Nat) : Bool :=
  d.shadowRuns && (d.get SYN_SHADOW.DST == m || d.get SYN_SHADOW.SRC == m)

/-- The calibration running on a unit. -/
def Dev.calOf (d : Dev) (unit : Nat) : Option CalRun := (d.cal.find? (fun c => c.1 == unit)).map (fun c => c.2)

/-- A recalibration of synthesiser `m` runs. -/
def Dev.synCal (d : Dev) (m : Nat) : Bool := (d.calOf (9 + m)).isSome

/-- A status recorded for synthesiser `m`. -/
def Dev.synErr (d : Dev) (m st : Nat) : Dev := d.put SYN_F_STATUS.LAST_ERR st m

/-- The check of a retune on its own (R35): 0, or the refusal. -/
def Dev.retuneCheck (d : Dev) (m khz : Nat) : Nat :=
  if khz < 860000 ∨ 960000 < khz then stSynRange
  else if d.anyGate (d.synUsers m) || d.shadowDst m then stSynBusy else 0

/-- Synthesiser `m` is put to use, or an access reaches it: it has power, a gating of this tick does not take place, and its idle timer
starts anew (R382, R383). -/
def Dev.synPower (d : Dev) (m : Nat) : Dev :=
  let off := d.gated.map (fun g => g.1) == some (11 + m)
  ({ d.putBit PWR_DOM1.SYN m true with gated := if off then none else d.gated }).touchNo (11 + m) d.tick

/-- A frequency written to synthesiser `m` (R33, R34): LOCK reads 0 and every chain that selects it starts anew on its
frequency. A write of the frequency already set does so too (assumption: DESIGN CHOICE, R35 does not tell it apart). -/
def Dev.tuneSyn (d : Dev) (m khz : Nat) : Dev :=
  let d := ((d.synPower m).put SYN_F_FREQ.FREQ_KHZ khz m).put SYN_F_STATUS.LOCK 0 m
  let d := d.setSyn m { d.synx m with tuneTick := d.tick }
  (d.synUsers m).foldl (fun d c =>
    d.setCh c { d.chx c with rxSince := (d.chx c).rxSince.map (fun _ => d.tick) }) d

/-- An accepted retune (R39 step 3): while a hand-over tunes or waits, one of SRC is applied to DST too. -/
def Dev.retune (d : Dev) (m khz : Nat) : Dev :=
  let st := d.get SYN_SHADOW.STATE
  let d' := d.tuneSyn m khz
  if (st = 1 ∨ st = 2) ∧ d.get SYN_SHADOW.SRC = m then
    (d'.tuneSyn (d.get SYN_SHADOW.DST) khz).put SYN_SHADOW.STATE 1
  else d'

/-- The Vat requests that reached synthesiser `m` in this Vat cycle (R36). -/
def Dev.synReqs (d : Dev) (m : Nat) : List SynReq :=
  let x := d.synx m
  if x.reqClk = d.clk then x.reqs else []

/-- The frequency of a host write that synthesiser `m` accepted in this Vat cycle. -/
def Dev.synHost (d : Dev) (m : Nat) : Option Nat :=
  let x := d.synx m
  if x.reqClk = d.clk then x.host else none

/-- The request of the lowest-numbered Vat (R36). -/
def firstReq : List SynReq → Option SynReq
  | [] => none
  | r :: rs =>
    match firstReq rs with
    | some q => if q.vat < r.vat then some q else some r
    | none => some r

/-- A HOP that gives way to that of a lower-numbered Vat of its cycle: it ends with SYN_BUSY, and its CHSLOT is not written
(R36). -/
def Dev.hopUndone (d : Dev) (r : SynReq) : Dev :=
  r.was.foldl (fun d s => d.put UHF_CTRL.CHSLOT s.2 s.1) (d.outcome r.vat opHop .weak stSynBusy)

/-- A HOP that was refused for one of another Vat, and whose frequency wins after all: accepted (R36). -/
def Dev.hopRedone (d : Dev) (r : SynReq) : Dev :=
  let d := r.was.foldl (fun d s => d.put UHF_CTRL.CHSLOT r.slot s.1) (d.setOc r.vat .one)
  ((d.put VAT_ASTAT.LAST_ERR r.err r.vat).put VAT_ASTAT.LAST_OP r.op r.vat).put VAT_ACNT.REFUSED r.refused r.vat

/-- A HOP of this cycle once frequency `win` has taken the place of `old`. -/
def Dev.hopSettled (d : Dev) (old win : Nat) (r : SynReq) : Dev :=
  if r.khz = win then d.hopRedone r else if r.khz = old then d.hopUndone r else d

/-- A Vat's retune of synthesiser `m` that reaches it now, to act at tick `t` (R35, R36). Requests of one Vat cycle that pass
R35 are compared: those for the frequency that the lowest-numbered Vat asks are accepted, the others refused, and a host
write of the cycle stands only where it names that frequency. A CARRY of another Vat that launches in the tick comes after
the retune (R60). The status is 0 where the retune is accepted. -/
def Dev.vatRetune (d : Dev) (m t : Nat) (r : SynReq) : Dev × Nat :=
  let d' := if t = d.tick then d.unlaunchs (d.synUsers m) else d
  let st := d'.retuneCheck m r.khz
  if st != 0 then (d.synErr m st, st)
  else
    let d := d'
    let rs := d.synReqs m
    let host := d.synHost m
    let win := ((firstReq (r :: rs)).getD r).khz
    let old := (firstReq rs).map (fun q => q.khz)
    let d := if old = some win then d
      else
        let d := match old with
          | some k => rs.foldl (fun (e : Dev) q => e.hopSettled k win q) d
          | none => d
        let d := d.retune m win
        d.setSyn m { d.synx m with tuneTick := t }
    let d := d.setSyn m { d.synx m with reqClk := d.clk, reqs := r :: rs, host := host.filter (fun k => k == win) }
    let lost := (r :: rs).any (fun q => q.khz != win) || host.any (fun k => k != win)
    (if lost then d.synErr m stSynBusy else d, if r.khz = win then 0 else stSynBusy)

/-- A host write of SYN_Fm_FREQ, resolved after the Vat requests of its cycle (R35, R36). A CARRY that launched in this tick has
not launched where the write is accepted (R60). -/
def aloneSynFreqWrite (m : Fin 4) (freq : BitVec 20) (s : State) : Host.Outcome State Fault Refusal :=
  s.onIsland 2 .SYN_F_FREQ m.val (fun d =>
    let m := m.val
    let st := (d.unlaunchs (d.synUsers m)).retuneCheck m freq.toNat
    if st != 0 then d.synErr m st
    else
      match firstReq (d.synReqs m) with
      | some q => if q.khz = freq.toNat then d else d.synErr m stSynBusy
      | none =>
        let d := (d.unlaunchs (d.synUsers m)).retune m freq.toNat
        d.setSyn m { d.synx m with reqClk := d.clk, reqs := [], host := some freq.toNat })

/-- A port driven on the multiplexer of chain registers `u` at tick `t` (R53): SETTLED reads 0 for SETTLE × 16 ticks. -/
def Dev.drivePort (d : Dev) (u port t : Nat) : Dev :=
  if d.get UHF_ANT.PORT u = port then d
  else
    let d := d.put UHF_ANT.PORT port u
    let d := d.setCh u { d.chx u with settleAt := t + 16 * d.get UHF_ANT.SETTLE u }
    let c := if u < 8 then d.carrierOf u else u
    d.setCh c { d.chx c with rxSince := (d.chx c).rxSince.map (fun _ => t) }

/-- The antenna port of chain registers `u` has settled. -/
def Dev.settledAt (d : Dev) (u t : Nat) : Bool := decide ((d.chx u).settleAt ≤ t)

/-- Whether a chain that begins to move to RX has arrived there. -/
def Dev.inRx (d : Dev) (c : Nat) : Bool := d.cst c == csRx && (d.chx c).goal.isNone

end Sys2Proof.Machine
end

