-- ==== Sys2Proof/Machine/Cal.lean ====
section
/-! DEFINITION. Calibrations: availability, the start, the end of an attempt, the ending, aborts, LKC's carrier, and the
recalibration of synthesisers with the shadow hand-over (R38 to R40, R231 to R241). -/

namespace Sys2Proof.Machine

/-- The run of a unit replaced. -/
def Dev.setCal (d : Dev) (unit : Nat) (r : CalRun) : Dev := { d with cal := fins id (fdel d.cal unit) unit r }
/-- No calibration runs on a unit any more: its domain and the device have been busy up to now (R382, R387). -/
def Dev.delCal (d : Dev) (unit : Nat) : Dev :=
  let d := { d with cal := fdel d.cal unit }.busyBy d.tick
  if unit ≤ 8 then d.touchNo unit d.tick
  else if unit ≤ 12 then d.touchNo (unit + 2) d.tick
  else if unit = 13 then d.touchNo 9 d.tick else d

/-! ### What calibrations there are (R231) -/

/-- The table "Calibrations" lists the combination of OP and UNIT. -/
def calListed (op unit : Nat) : Bool :=
  if op = 1 then decide (9 ≤ unit) && decide (unit ≤ 12)
  else if 2 ≤ op ∧ op ≤ 7 then decide (unit ≤ 8)
  else if op = 8 then unit == 14
  else if op = 9 then unit == 13
  else false

/-- The trims an operation sets: kind and sub-index (tables "Calibrations", "Trim kinds"). -/
def opTrims (op : Nat) : List (Nat × Nat) :=
  if op = 1 then [(0x10, 0), (0x11, 0)]
  else if op = 2 then (List.range 15).map (fun s => (1, s)) ++ (List.range 15).map (fun s => (2, s))
  else if op = 3 then [(9, 0)]
  else if op = 4 then [(3, 0), (4, 0)]
  else if op = 5 then [(5, 0), (6, 0), (7, 0), (8, 0)]
  else if op = 9 then [(0x20, 0), (0x21, 0)]
  else []

/-- The table "Trim kinds" lists a combination of UNIT, KIND and SUB. -/
def trimListed (unit kind sub : Nat) : Bool :=
  if kind = 1 ∨ kind = 2 then decide (unit ≤ 8) && decide (sub ≤ 14)
  else if 3 ≤ kind ∧ kind ≤ 9 then decide (unit ≤ 8) && sub == 0
  else if kind = 0x10 ∨ kind = 0x11 then decide (9 ≤ unit) && decide (unit ≤ 12) && sub == 0
  else if kind = 0x20 ∨ kind = 0x21 then unit == 13 && sub == 0
  else if kind = 0x3F then decide (unit ≤ 13) && sub == 0
  else false

/-- The index of a trim in the register file. -/
def trimIdx (unit kind sub : Nat) : Nat := unit * 65536 + kind * 256 + sub
/-- TCAL as a trim kind. -/
def kindTcal : Nat := 0x3F
/-- A trim is valid (R243). -/
def Dev.trimValid (d : Dev) (unit kind sub : Nat) : Bool := d.isSet CAL_TDATA.VALID 0 (trimIdx unit kind sub)

/-- The width of a trim and whether it is signed (column Width of the table "Trim kinds"). -/
def trimWidth (kind : Nat) : Nat × Bool :=
  if kind = 1 ∨ kind = 2 ∨ kind = 7 ∨ kind = 8 then (10, true)
  else if 3 ≤ kind ∧ kind ≤ 6 then (8, true)
  else if kind = 9 ∨ kind = 0x10 then (6, false)
  else if kind = 0x11 ∨ kind = 0x20 then (8, false)
  else if kind = 0x3F then (12, true)
  else (12, false)

/-- A trim's value as VALUE shows it: cut to its width, right-aligned, two's complement where it is signed (R253). -/
def trimValue (kind value : Nat) : Nat :=
  let w := trimWidth kind
  if w.2 then toSigned 12 (signedOf w.1 value) else value % 2 ^ w.1

/-- A trim written with VALID and the QUAL of its calibration (R237). -/
def Dev.putTrim (d : Dev) (unit kind sub value qual : Nat) : Dev :=
  let j := trimIdx unit kind sub
  ((d.put CAL_TDATA.VALUE (trimValue kind value) 0 j).put CAL_TDATA.VALID 1 0 j).put CAL_TDATA.QUAL qual 0 j

/-! ### Availability (R232) -/

/-- A switch-over on front end `n` runs. -/
def Dev.switching (d : Dev) (n : Nat) : Bool :=
  match d.spare.sw with
  | some w => w.fe == n
  | none => false

/-- A unit's state is READY or RX. -/
def Dev.readyOrRx (d : Dev) (c : Nat) : Bool := d.cst c == csReady || d.cst c == csRx

/-- A unit is available for an operation (R232; for HFREF HF Reader's own words). -/
def Dev.calAvailable (d : Dev) (op unit : Nat) : Bool :=
  (d.calOf unit).isNone &&
    (if unit < 8 then
      !d.switching unit &&
        (if op = 6 then d.readyOrRx unit && (d.feVat unit).isNone && d.attached != some unit
         else d.attached == some unit || (d.readyOrRx unit && (d.feVat unit).isNone))
    else if unit = 8 then
      d.spare.sw.isNone && d.readyOrRx 8 &&
        (match d.attached with
         | none => (d.binder 8).isNone
         | some n => op == 6 && (d.feVat n).isNone)
    else if unit ≤ 12 then (d.synUsers (unit - 9)).isEmpty && !d.shadowing (unit - 9)
    else if unit = 13 then
      (d.portSync 9).pst 9 == 1 && (d.portSync 9).portReadyAt 9 == 0 && (d.binder 9).isNone &&
        (match d.cw.pulse with | some (t, _, _) => decide (t + usTicks 12 ≤ d.tick) | none => true)
    else true)

/-! ### The ending (R237) and what follows it -/

/-- A release of front end `n` is asked for (R249): refused, or waiting with chain `n` brought to RX. The answer is 0 or
the refusal. -/
def Dev.askRelease (d : Dev) : Dev × Nat :=
  match d.attached, d.spare.sw, d.spare.waitRel with
  | some n, none, none =>
    if d.cst n = csTrip then (d, stTakeBlocked)
    else
      let d := { d with spare := { d.spare with waitRel := some d.tick } }
      let d := d.put UHFS_SPST.PHASE 4
      (d.chainGo n 2 d.tick, 0)
  | none, none, _ => (d, stSpareBusy)
  | none, some w, _ => (d, if w.take then stSpareBusy else stTakeBlocked)
  | some _, _, _ => (d, stTakeBlocked)

/-- After its calibration a chain returns to its port, channel slot and state (R232, R233): once its gate is closed. One still on
its way from READY to RX goes back when it has arrived there; one that has tripped stays in TRIP. -/
def Dev.calReturn (d : Dev) (c : Nat) : Dev :=
  match (d.chx c).calBack with
  | none => d
  | some (port, ch, st) =>
    if d.gate c then d
    else
      let u := d.cfg c
      let d := d.setCh c { d.chx c with calBack := none }
      let d := (d.drivePort u port (d.tick + 1)).put UHF_CTRL.CHSLOT ch u
      if st = csReady ∧ d.cst c ≠ csTrip then d.chainGo c csReady d.tick else d

/-- While unattached, idle and not bound, US goes to the state that READINESS gives (R242). -/
def Dev.usByReadiness (d : Dev) : Dev :=
  if d.attached.isNone && d.spare.sw.isNone && d.spare.waitTake.isNone && (d.binder 8).isNone && !d.gate 8 &&
      d.cst 8 != csTrip && (d.calOf 8).isNone then d.chainGo 8 (min 2 (d.get UHFS_SPARE.READINESS)) d.tick
  else d

/-- A synthesiser's recalibration has ended (R38, R39 step 5): CAL_OK, TCAL, LOCK; a hand-over in RECAL is DONE. -/
def Dev.synCalEnd (d : Dev) (m : Nat) (ok : Bool) (temp : Nat) : Dev :=
  let d := (d.put SYN_F_STATUS.CAL_OK (bit ok) m).put SYN_F_STATUS.LOCK 1 m
  let d := if ok then d.put SYN_F_CAL.TCAL temp m else d
  if d.get SYN_SHADOW.STATE = 3 ∧ d.get SYN_SHADOW.SRC = m then (d.put SYN_SHADOW.STATE 4).publish evSynShadow else d

/-- A hand-over ends without a swap (R39): FAILED, and its destination is free again. -/
def Dev.shadowGiveUp (d : Dev) : Dev :=
  ((d.put SYN_SHADOW.STATE 5).touchNo (11 + d.get SYN_SHADOW.DST) d.tick).publish evSynShadow

/-- A calibration of a unit ends with a RESULT (R237): the reports, the event, the log, and what the unit does then. -/
def Dev.calEnd (d : Dev) (unit : Nat) (r : CalRun) (res qual temp : Nat) : Dev :=
  let d := d.delCal unit
  let d := (d.put CAL_STATUS.RESULT res).put CAL_STATUS.RETRIED (bit r.retried)
  let d := ((d.put CAL_QUAL.QUAL (min 255 qual)).put CAL_QUAL.VR1 (min 255 r.vr1)).put CAL_QUAL.VR2 (min 255 r.vr2)
  let d := d.publish evCalDone
  let d := if res = 0 then d else d.logWarn 0x1A unit res [qual, r.vr1, r.vr2]
  let d := if unit ≤ 8 then d.calReturn unit
    else if unit ≤ 12 then d.synCalEnd (unit - 9) (res == 0) temp else d
  let d := if unit = 8 then d.usByReadiness else d
  match d.spare.auto with
  | some n => if n = unit ∧ d.attached = some n then
      ({ d with spare := { d.spare with auto := none } }.askRelease).1 else d
  | none => d

/-- An LKC carrier's gate has closed: the calibration ends. One that passed writes its cache entry and the unit's TCAL (R233,
R237). -/
def Dev.lkcDone (d : Dev) (c : Nat) (r : CalRun) : Dev :=
  let d := if r.res = 0 then (d.cacheWrite c).putTrim c kindTcal 0 r.temp r.qual else d
  d.calEnd c r r.res r.qual 0

/-- A calibration that ramped its carrier down is over; the unit returns to its port and state (R232, R233). -/
def Dev.calRampDone (d : Dev) (c : Nat) : Dev :=
  match d.calOf c with
  | some r => if r.op = 6 ∧ r.stage = 2 then d.lkcDone c r else d.calReturn c
  | none => d.calReturn c

/-- A timed transition of electronics `c` whose end tick has come is complete, and with the ramp-down of LKC's carrier LKC (R233):
what ended at an earlier tick than the present one ended then. -/
def Dev.chainSettle (d : Dev) (c : Nat) : Dev :=
  let down := d.cst c == csDown
  let e := d.chainSync c
  if down && e.cst c != csDown then e.calRampDone c else e

/-- Every chain of a list brought up to the present tick. -/
def Dev.chainSettles (d : Dev) (l : List Nat) : Dev := l.foldl (fun d c => d.chainSettle c) d

/-- The calibration on a unit is aborted now (R234): no trim changes; an LKC carrier ramps down over RAMP_DN. -/
def Dev.calAbort (d : Dev) (unit : Nat) : Dev :=
  match d.calOf unit with
  | none => d
  | some r =>
    let d := if r.op = 6 then d.rampDown unit d.tick else d
    d.calEnd unit r stCalAborted r.qual 0

/-- The calibrations of the units of a port are aborted (R132, R234). -/
def Dev.calAborts (d : Dev) (units : List Nat) : Dev := units.foldl (fun d u => d.calAbort u) d

/-- A trip of a chain whose LKC search runs ends it with CHAIN_TRIP (R233). -/
def Dev.calTrip (d : Dev) (c : Nat) : Dev :=
  match d.calOf c with
  | some r => if r.op = 6 then d.calEnd c r stChainTrip r.qual 0 else d
  | none => d

/-! ### The start (R231 to R233) -/

/-- LKC launches its carrier when the chain is in RX, the port settled and the synthesiser locked (R233, R45): the guard
checks it as a CARRY. -/
def Dev.lkcTry (d : Dev) (c : Nat) : Dev :=
  match d.calOf c with
  | none => d
  | some r =>
    if r.op = 6 ∧ r.stage = 0 ∧ d.inRx c = true ∧ d.settledAt (d.cfg c) d.tick = true ∧ d.locked (d.synOf c) = true then
      let reason := d.launchCheck c d.tick false
      if reason = 0 then
        ((d.setCal c { r with stage := 1 }).launch c d.tick false true).keepLaunch (d.before [c] none (d.launchKeys c))
      else (d.guardRefuse reason ((d.feOf c).getD 8)).calEnd c r stRguRefused 0 0
    else d

/-- A calibration begins on an available unit (R231, R237). -/
def Dev.calBegin (d : Dev) (unit op port ch : Nat) : Dev :=
  let d := d.setCal unit { op := op, sub := if op = 7 then 2 else op, since := d.tick }
  let d := (d.put CAL_STATUS.OP op).put CAL_STATUS.UNIT unit
  if op = 1 then (d.synPower (unit - 9)).put SYN_F_STATUS.LOCK 0 (unit - 9)
  else if op = 6 then
    let u := d.cfg unit
    let d := d.setCh unit { d.chx unit with calBack := some (d.get UHF_ANT.PORT u, d.get UHF_CTRL.CHSLOT u, d.cst unit) }
    let d := (d.drivePort u port (d.tick + 1)).put UHF_CTRL.CHSLOT ch u
    (if d.cst unit = csReady then d.chainGo unit 2 d.tick else d).lkcTry unit
  else d

/-- A start is asked for (R231, R232): the refusal, or 0. -/
def Dev.calStart (d : Dev) (unit op port ch : Nat) : Dev × Nat :=
  if calListed op unit = false then (d, stCalRange)
  else if d.calAvailable op unit = false then (d, stCalBusy)
  else (d.calBegin unit op port ch, 0)

/-- The register fields that the start of a calibration on `unit` writes. -/
def Dev.goKeys (d : Dev) (unit : Nat) : List RKey :=
  [⟨CAL_STATUS.OP, 0, 0⟩, ⟨CAL_STATUS.UNIT, 0, 0⟩] ++
    if unit ≤ 8 then [⟨UHF_ANT.PORT, d.cfg unit, 0⟩, ⟨UHF_CTRL.CHSLOT, d.cfg unit, 0⟩] ++ d.launchKeys unit else []

/-- A write of CAL_CMD with GO (R231, R232): a refusal sets CAL_ERR only. What stood before is kept, for a BIND of the same
tick (R251). -/
def execCalGo (unit op port : BitVec 4) (chslot : BitVec 3) (s : State) : Host.Outcome State Fault Refusal :=
  s.onIsland 2 .CAL_CMD 0 (fun d =>
    if d.entering then d
    else
      let u := unit.toNat
      let r := d.calStart u op.toNat port.toNat chslot.toNat
      if r.2 = 0 then { r.1 with calGone := some { d.before (if u ≤ 8 then [u] else []) none (d.goKeys u) with units := [u] } }
      else r.1.put CAL_ERR.LAST_ERR r.2)

/-- A calibration that GO started on `unit` in this very tick has not begun: a BIND comes before it, and the command ends with
CAL_BUSY (R251). -/
def Dev.calUnstart (d : Dev) (unit : Nat) : Dev :=
  match d.calGone with
  | some b =>
    if b.tick = d.tick ∧ b.units = [unit] ∧ (d.calOf unit).isSome = true then
      { (d.putBack b).delCal unit with calGone := none }.put CAL_ERR.LAST_ERR stCalBusy
    else d
  | none => d

/-- A write of CAL_CMD with ABORT (R234). The run it ends is kept, for an end of the same tick (R251); an LKC whose gate has
closed by now has ended. -/
def execCalAbort (unit : BitVec 4) (s : State) : Host.Outcome State Fault Refusal :=
  s.onIsland 2 .CAL_CMD 0 (fun d =>
    let d := if unit.toNat ≤ 8 then d.chainSettle unit.toNat else d
    match d.calOf unit.toNat with
    | some r => { d.calAbort unit.toNat with calCut := some (d.tick, unit.toNat, r) }
    | none => d)

/-! ### The end of an attempt (R235, R236) -/

/-- The variance-ratio limit in units of 0.125 (R235); values of VRL below 2 act as 2. -/
def Dev.vrLimit (d : Dev) : Nat := max 2 (d.get CAL_CTRL.VRL) * 4

/-- The result of an attempt: an absent input, a disturbed window, a trim beyond full scale, or 0. -/
def Dev.attempt (d : Dev) (o : CalObs) : Nat :=
  if o.absent then stCalNoLoad
  else if d.vrLimit < o.vr then stCalDisturbed
  else if o.outOfRange then stCalRange else 0

/-- The trims an operation that passed arrived at: those observed; one the observation does not give is a free value. -/
def foundTrims (op fresh : Nat) (o : CalObs) : List TrimVal :=
  (opTrims op).map (fun ks =>
    match o.trims.find? (fun t => t.kind.toNat == ks.1 && t.sub.toNat == ks.2) with
    | some t => t
    | none => { kind := BitVec.ofNat 8 ks.1, sub := BitVec.ofNat 8 ks.2,
                value := (Config.freeValue (fresh + ks.2)).setWidth 12 })

/-- Every trim of a passed calibration is written in one tick, with TCAL (R237); OSC writes the ratio, HFREF loads the
card watch's baselines, a DC of US starts its age anew (R243). -/
def Dev.calWrite (d : Dev) (unit op qual temp : Nat) (ts : List TrimVal) (o : CalObs) : Dev :=
  let d := ts.foldl (fun d t => d.putTrim unit t.kind.toNat t.sub.toNat t.value.toNat qual) { d with fresh := d.fresh + 16 }
  let d := if unit ≤ 13 then d.putTrim unit kindTcal 0 temp qual else d
  let d := if op = 8 then
      ((d.put AON_ATRATIO.RATIO o.ratio.toNat).put AON_ATCFG.SD o.sd.toNat).put AON_ATCFG.RVALID 1
    else d
  let d := if op = 9 then
      (d.put HFR_CW_BASE.AMP (d.get CAL_TDATA.VALUE 0 (trimIdx 13 0x21 0))).put HFR_CW_BASE.PH
        (d.get CAL_TDATA.VALUE 0 (trimIdx 13 0x20 0))
    else d
  if unit = 8 ∧ (op = 2 ∨ op = 7) then { d with spare := { d.spare with dcTick := some d.tick } } else d

/-- An LKC search has ended with a result: the trims it found stand, a free value, and the carrier ramps down (R233). -/
def Dev.lkcEnd (d : Dev) (c : Nat) (r : CalRun) (res qual temp : Nat) : Dev :=
  let d := if res = 0 ∧ d.lkcTracks c = false then (d.free UHF_LKC_TRIM.TRIM_I c).free UHF_LKC_TRIM.TRIM_Q c else d
  (d.setCal c { r with stage := 2, res := res, qual := qual, temp := temp }).rampDown c d.tick

/-- A calibration attempt on a unit ends with what it observed: repeated once after a disturbed window, else the next step
of RX_ALL, or the ending (R235 to R237). An LKC that has no carrier on ends only where its synthesiser has not locked within
100 µs (R45, R46). -/
def Dev.calAttempt (d : Dev) (unit : Nat) (r : CalRun) (o : CalObs) : Dev :=
  let qual := o.qual.toNat
  let temp := o.temp.toNat
  let res := d.attempt o
  let r := if r.op = 6 ∧ r.stage ≠ 1 then r
    else if r.attempt = 1 then { r with vr1 := o.vr, vr2 := 0 } else { r with vr2 := o.vr }
  if res = stCalDisturbed ∧ r.attempt = 1 ∧ (r.op ≠ 6 ∨ r.stage = 1) then d.setCal unit { r with attempt := 2, retried := true }
  else if r.op = 6 then
    if r.stage = 1 then d.lkcEnd unit r res qual temp
    else if r.stage = 0 ∧ d.locked (d.synOf unit) = false ∧ r.since + 15360 ≤ d.tick then d.calEnd unit r stSynTimeout qual temp
    else d
  else if r.op = 7 then
    let first := if r.first = 0 then res else r.first
    let acc := if res = 0 then r.acc ++ foundTrims r.sub d.fresh o else r.acc
    if r.sub < 5 then d.setCal unit { r with sub := r.sub + 1, attempt := 1, first := first, acc := acc }
    else (if first = 0 then d.calWrite unit 7 qual temp acc o else d).calEnd unit r first qual temp
  else
    (if res = 0 then d.calWrite unit r.op qual temp (foundTrims r.op d.fresh o) o else d).calEnd unit r res qual temp

/-- An ABORT of this very tick on `unit` is taken back, because the calibration ended in the tick (R251): the run goes on to its
end, whose report, event and log entry stand for those of the abort. -/
def Dev.calUncut (d : Dev) (unit : Nat) : Dev :=
  match d.calCut with
  | some (t, u, r) =>
    if t = d.tick ∧ u = unit ∧ (d.calOf unit).isNone = true ∧ r.op ≠ 6 then
      let ch := d.get TRL_PDATA.CH 0 evCalDone
      let out := fun (e : LogEntry) => !(e.seq == (d.log.next - 1) % 2 ^ 32 && e.block == 0x1A && e.inst == unit && e.code == stCalAborted)
      let l := { d.log with ram := d.log.ram.filter out, mram := d.log.mram.filter out }
      { d.setCal unit r with calCut := none, log := l,
                             flights := d.flights.filter (fun f => f.ch != ch || decide (f.at' < 2 * d.tick)) }
    else d
  | none => d

/-- A calibration attempt ends. -/
def execCalDone (unit : Fin 15) (o : CalObs) (s : State) : Host.Outcome State Fault Refusal :=
  s.onUnit 2 (fun d =>
    let u := unit.val
    match d.calOf u with
    | some r => d.calAttempt u r o
    | none =>
      let d' := d.calUncut u
      match d'.calOf u with
      | some r => let e := d'.calAttempt u r o; if (e.calOf u).isSome then d else e
      | none => d)

/-- A write of CAL_TDATA through CAL_TIDX (R251, R253): refused while the unit calibrates; an unlisted trim is ignored. -/
def execCalTdataWrite (value : Word) (s : State) : Host.Outcome State Fault Refusal :=
  s.onIsland 2 .CAL_TDATA 0 (fun d =>
    let unit := d.get CAL_TIDX.UNIT
    let kind := d.get CAL_TIDX.KIND
    let sub := d.get CAL_TIDX.SUB
    if (d.calOf unit).isSome then d.put CAL_ERR.LAST_ERR stCalBusy
    else if trimListed unit kind sub then
      (d.put CAL_TDATA.VALUE (trimValue kind (bitsOf value.toNat 11 0)) 0 (trimIdx unit kind sub)).put CAL_TDATA.VALID
        (bitsOf value.toNat 31 31) 0 (trimIdx unit kind sub)
    else d)

/-! ### Recalibration of a synthesiser and the shadow hand-over (R38 to R40) -/

/-- A recalibration asked for by SYN_Fm_CTRL.RECAL or the Ranger (R38). -/
def Dev.askRecal (d : Dev) (m : Nat) : Dev :=
  if d.synUsers m != [] || d.shadowing m || d.synCal m then d.synErr m stSynBusy
  else d.calBegin (9 + m) 1 0 0

/-- A write of SYN_Fm_CTRL.RECAL. -/
def execRecal (m : Fin 4) (s : State) : Host.Outcome State Fault Refusal := s.onIsland 2 .SYN_F_CTRL m.val (fun d => d.askRecal m.val)

/-- The RESULT of a recalibration that did not succeed: which of CAL_DISTURBED, CAL_NO_LOAD and CAL_OUT_OF_RANGE the event
does not say, so it is a free value among them (R235, R236). -/
def synFail : Nat := stCalDisturbed + Config.synFailCode % 3

/-- The variance ratios a recalibration reports, with whether its window was repeated (R235): what the event does not give, free
values that fit the RESULT. A failing window is above the limit, a passing one at most at it, and both fail before
CAL_DISTURBED. -/
def Dev.synRatios (d : Dev) (r : CalRun) (res : Nat) : CalRun :=
  let lim := d.vrLimit
  let f := fun k => (Config.freeValue (d.fresh + k)).toNat
  let bad := fun k => lim + 1 + f k % (255 - lim)
  let good := fun k => 8 + f k % (lim - 7)
  let again := res = stCalDisturbed ∨ f 0 % 2 = 1
  { r with retried := decide again, vr1 := if again then bad 1 else good 1,
           vr2 := if res = stCalDisturbed then bad 2 else if again then good 2 else 0 }

/-- A recalibration ends (R38): CAL_OK and TCAL by its success; the ratios and QUAL it reports and what it found for its trims are
free values (R235 to R237). -/
def execSynRecalDone (m : Fin 4) (ok : Bool) (temp : BitVec 8) (s : State) : Host.Outcome State Fault Refusal :=
  s.onUnit 2 (fun d =>
    let d := d.calUncut (9 + m.val)
    match d.calOf (9 + m.val) with
    | none => d
    | some r =>
      let res := if ok then 0 else synFail
      let r := d.synRatios r res
      let qual := (Config.freeValue (d.fresh + 3)).toNat % 256
      let d := { d with fresh := d.fresh + 4 }
      if ok then
        let o : CalObs := { vr := 0, qual := BitVec.ofNat 8 qual, absent := false, outOfRange := false,
                            temp := temp.signExtend 12, ratio := 0, sd := 0, trims := [] }
        let t12 := (temp.signExtend 12).toNat
        (d.calWrite (9 + m.val) 1 qual t12 (foundTrims 1 d.fresh o) o).calEnd (9 + m.val) r 0 qual temp.toNat
      else d.calEnd (9 + m.val) r res qual 0)

/-- GO of a shadow hand-over (R39 step 1 and 2). -/
def Dev.shadowGo' (d : Dev) (org dst : Nat) : Dev :=
  if d.shadowRuns || d.synUsers dst != [] || dst == org || d.synCal dst then d.synErr org stSynBusy
  else
    let d := (d.put SYN_SHADOW.SRC org).put SYN_SHADOW.DST dst
    let d := { d with shadowGo := d.tick }.put SYN_SHADOW.STATE 1
    d.tuneSyn dst (d.get SYN_F_FREQ.FREQ_KHZ org)

/-- A write of SYN_SHADOW with GO: SRC and DST take their values only while no hand-over runs (R40). -/
def execShadowGo (src dst : BitVec 2) (s : State) : Host.Outcome State Fault Refusal :=
  s.onIsland 2 .SYN_SHADOW 0 (fun d =>
    if d.shadowRuns then d.synErr (d.get SYN_SHADOW.SRC) stSynBusy
    else ((d.put SYN_SHADOW.SRC src.toNat).put SYN_SHADOW.DST dst.toNat).shadowGo' src.toNat dst.toNat)

/-- The hand-over has not swapped yet. -/
def Dev.shadowEarly (d : Dev) : Bool := d.get SYN_SHADOW.STATE == 1 || d.get SYN_SHADOW.STATE == 2

/-- A write of SYN_SHADOW with CANCEL (R40). -/
def execShadowCancel (s : State) : Host.Outcome State Fault Refusal :=
  s.onIsland 2 .SYN_SHADOW 0 (fun d => if d.shadowEarly then d.shadowGiveUp else d)

/-- A hand-over is abandoned 10 s after GO (R40). -/
def execShadowAbandon (s : State) : Host.Outcome State Fault Refusal :=
  s.onUnit 2 (fun d =>
    if d.shadowEarly then
      let d := d.toTick (d.shadowGo + msTicks 10000)
      let org := d.get SYN_SHADOW.SRC
      let d := (d.put SYN_SHADOW.STATE 5).synErr org stShadowAbandoned
      (d.logWarn 0x0A org stShadowAbandoned [org, d.get SYN_SHADOW.DST]).publish evSynShadow
    else d)

/-- The Ranger finds a synthesiser drifted beyond SYN_DRIFT.DT (R38, R39): one without chains recalibrates in place, else
the lowest-numbered free synthesiser becomes its shadow. -/
def execSynDriftRecal (m : Fin 4) (temp : BitVec 8) (s : State) : Host.Outcome State Fault Refusal :=
  s.onUnit 2 (fun d =>
    if (d.get SYN_DRIFT.DT : Int) < (temp.toInt - signedOf 8 (d.get SYN_F_CAL.TCAL m.val)).natAbs then
      if d.synUsers m.val = [] then d.askRecal m.val
      else
        match (List.range 4).find? (fun k => k != m.val && (d.synUsers k).isEmpty && !d.synCal k && !d.shadowing k) with
        | some k => if d.shadowRuns then d else d.shadowGo' m.val k
        | none => d
    else d)

end Sys2Proof.Machine
end

