-- ==== Sys2Proof/Machine/Spare.lean ====
section
/-! DEFINITION. The spare chain: readiness, fault takeover, planned takeover, release and automatic release
(R145 to R147, R242 to R251), and the trips that start them (R37, R55, R56). -/

namespace Sys2Proof.Machine

/-- A refusal of UHFS_TAKE or an ending of a waiting request (R252). -/
def Dev.takeErr (d : Dev) (st : Nat) : Dev := d.put UHF_STATUS.LAST_ERR st 8

/-- Every trim of a list of kinds is valid on US. -/
def Dev.usValid (d : Dev) (ks : List (Nat × Nat)) : Bool := ks.all (fun k => d.trimValid 8 k.1 k.2)

/-- US's DC trims are valid and no older than 200 ms (R243). -/
def Dev.dcFresh (d : Dev) : Bool :=
  d.usValid (opTrims 2) &&
    (match d.spare.dcTick with
     | some t => decide (d.tick ≤ t + msTicks 200)
     | none => false)

/-- UHFS_SPST.RDY (R243). -/
def Dev.spareRdy (d : Dev) : Bool :=
  let r := d.get UHFS_SPARE.READINESS
  if r = 2 then d.dcFresh
  else if r = 1 then d.usValid (opTrims 3 ++ opTrims 4 ++ opTrims 5)
  else false

/-- US is at hot readiness (R248): in RX with DC trims current. -/
def Dev.usHot (d : Dev) : Bool := d.inRx 8 && d.dcFresh

/-- The instruction in progress on front end `n` ends as a takeover or release starts (table "Instruction in progress at a
takeover"). -/
def Dev.takeCut (d : Dev) (n : Nat) : Dev :=
  let d := d.cutWindow n 2 stTakeover
  match d.feVat n with
  | some v =>
    let d := (d.portRegs (d.get VAT_BIND.PORT v)).foldl (fun d u => d.txStop u d.tick) d
    d.vatCut v stTakeover d.tick
  | none => d

/-- A deferral of an automatic recalibration of chain `c`: logged, and tried again 10 s from now (R241). -/
def Dev.calDefer (d : Dev) (c : Nat) : Dev :=
  let d := d.logWarn 0x1A c (Config.codeIn 0x03 1)
  { d with spare := { d.spare with deferred := (c, d.tick + msTicks 10000) :: d.spare.deferred.filter (fun x => x.1 != c) } }

/-- A switch-over ends at the present tick (R246, R249, R250, R254): GAP, PHASE, the event; after a release US goes where READINESS says; a detached chain
taken over for its recalibration starts it (R241). -/
def Dev.closeSwitch (d : Dev) (w : Switch) (gap : Nat) : Dev :=
  let d := { d with spare := { d.spare with sw := none } }
  let d := (d.put UHFS_SPST.GAP gap).put UHFS_SPST.PHASE (if w.take then 3 else 0)
  if w.take then
    let d := d.publish evSpareTake
    if d.spare.auto = some w.fe then (d.calStart w.fe 7 0 0).1 else d
  else ((d.put UHFS_SPARE.ATTACHED 0xF).publish evSpareRelease).usByReadiness

/-- The same; without a restored carrier the front end's carrier has ended, and its references with it. -/
def Dev.endSwitch (d : Dev) (w : Switch) (gap : Nat) : Dev :=
  (if gap = 0xFFFF then (d.acctEnd w.fe d.tick).forgetTx w.fe else d).closeSwitch w gap

/-- The gap of a switch-over that restores no carrier (R254). -/
def Switch.noGap (w : Switch) : Nat := if w.hadCarrier then 0xFFFF else 0

/-- A switch-over goes on as far as it can (R246, R247): once the switch has settled and the electronics are in RX, a warm
takeover makes its DC pass; then, where a carrier is to be restored, the launch waits for LOCK up to 100 µs and the guard
checks it. -/
def Dev.spareTry (d : Dev) : Dev :=
  match d.spare.sw with
  | none => d
  | some w =>
    let c := if w.take then 8 else w.fe
    if w.launched ∨ d.tick < w.settled then d
    else if w.needDc then
      if w.dcDue.isNone ∧ d.inRx c = true then
        { d with spare := { d.spare with sw := some { w with dcDue := some (d.tick + 19200) } } }
      else d
    else if w.restore = false then d.endSwitch w w.noGap
    else
      let t4 := w.t4.getD d.tick
      if d.inRx c = true ∧ d.locked (d.synOf c) = true ∧ d.tick ≤ t4 + 15360 then
        let reason := d.launchCheck c d.tick true
        if reason = 0 then
          ({ d with spare := { d.spare with sw := some { w with t4 := some t4, launched := true } } }.launch c d.tick true false).keepLaunch
            (d.before [c] none (d.launchKeys c))
        else (d.guardRefuse reason w.fe).endSwitch w 0xFFFF
      else if t4 + 15360 ≤ d.tick then (d.logWarn 0x18 w.fe stSynTimeout).endSwitch w 0xFFFF
      else { d with spare := { d.spare with sw := some { w with t4 := some t4 } } }

/-- The electronics that give a front end away and those that take it in a switch-over: the tick from which SPSELn may change, when
both gates are closed (R54, R246 step 3). -/
def Dev.bothShut (d : Dev) (n : Nat) : Nat :=
  let shut := fun c => max (d.chx c).gateShut (if d.cst c = csDown then (d.chx c).due else 0)
  max d.tick (max (shut n) (shut 8))

/-- The record of a switch-over of front end `n` after a trip, to be switched at tick `selAt`. -/
def Dev.faultSwitch (d : Dev) (n selAt : Nat) (take carrying needDc : Bool) : Switch :=
  { fe := n, take := take, restore := carrying, planned := false, hadCarrier := carrying, start := d.tick, selAt := selAt,
    settled := selAt + 16 * d.get UHFS_SPARE.SW_SETTLE, dcDue := none, needDc := needDc, t4 := none, launched := false }

/-- A carrier that US has on while it is unattached ends with the trip ramp, and US goes to RX (R245). -/
def Dev.usRampDown (d : Dev) : Dev :=
  if d.cst 8 = csTrip ∨ d.gate 8 = false then d
  else
    let d := d.rampDownOver 8 d.tick 154
    d.setCh 8 { d.chx 8 with due := min (d.chx 8).due (d.tick + 154), target := none }

/-- US is brought to RX for a takeover of front end `n` that switches at tick `selAt` (R247): from READY with the settings it takes
then, from OFF at once. -/
def Dev.usToRx (d : Dev) (n selAt : Nat) : Dev :=
  if d.cst 8 = csReady ∧ (d.chx 8).goal = none then d.chainTo 8 csRx (selAt + d.rxTime n)
  else if d.cst 8 = csDown then d
  else d.chainGo 8 2 d.tick

/-- The restored carrier of a switch-over has waited 100 µs for LOCK (R246). -/
def Dev.spareTimeout (d : Dev) : Dev :=
  match d.spare.sw with
  | some w =>
    match w.t4 with
    | some t =>
      if w.launched = false ∧ d.locked (d.synOf (if w.take then 8 else w.fe)) = false then (d.toTick (t + 15360)).spareTry else d
    | none => d
  | none => d

/-- A fault takeover of front end `n` starts now (R245 to R247): the waiting planned one is blocked, unattached use of US
ends, calibrations are aborted, the instruction in progress ends, and the switch is timed. A planned takeover that the Ranger
made for a recalibration is deferred (R241). -/
def Dev.startTakeover (d : Dev) (n : Nat) (carrying wasRx : Bool) : Dev :=
  let t := d.tick
  let hot := d.get UHFS_SPARE.READINESS == 2 && d.spareRdy
  let d := match d.spare.waitTake, d.spare.auto with
    | some _, some c => (d.takeErr stTakeBlocked).calDefer c
    | some _, none => d.takeErr stTakeBlocked
    | none, _ => d
  let d := { d with spare := { d.spare with sw := some (d.faultSwitch n t true carrying (!hot)), waitTake := none, auto := none } }
  let d := d.cutWindow 8 2 stTakeover
  let d := match d.binder 8 with
    | some v => (d.txStop 8 t).vatCut v stTakeover t
    | none => d
  let d := ((d.calAbort n).calAbort 8).usRampDown
  let selAt := d.bothShut n + 1
  let w := { d.faultSwitch n selAt true carrying (!hot) with wasRx := wasRx }
  let d := { d with spare := { d.spare with sw := some w } }
  let d := (d.usToRx n selAt).setAttached (some n) selAt
  let d := ((d.put UHFS_SPARE.ATTACHED n).put UHFS_SPST.LASTCH n).put UHFS_SPST.PHASE 2
  let d := d.setCh 8 { d.chx 8 with rxSince := (d.chx 8).rxSince.map (fun _ => w.settled) }
  d.takeCut n

/-- An automatic release after a trip of US (R250): the sequence of R246 with the roles exchanged. Chain `n` goes to RX, also from a
fall to READY that has begun; a recalibration behind the spare is aborted and asks for no release of its own. -/
def Dev.startAutoRelease (d : Dev) (n : Nat) (carrying : Bool) : Dev :=
  let d := { d with spare := { d.spare with auto := none } }
  let d := (d.calAbort n).calAbort 8
  let d := d.takeCut n
  let selAt := d.bothShut n + 1
  let w := d.faultSwitch n selAt false carrying false
  let d := { d with spare := { d.spare with sw := some w } }.setAttached none selAt
  let d := d.put UHFS_SPST.PHASE 4
  let d := d.setCh n { d.chx n with rxSince := (d.chx n).rxSince.map (fun _ => w.settled) }
  if d.cst n = csReady ∨ (d.chx n).goal.isSome then d.chainGo n 2 selAt else d

/-- A trip of chain `c` for the causes in `m` starts a fault takeover (R245). -/
def Dev.takesOver (d : Dev) (c m : Nat) : Bool :=
  decide (c < 8) && Nat.land m tripChainKind != 0 && bitOf (d.get UHFS_SPARE.ELIGIBLE) c && d.attached.isNone &&
    d.spare.sw.isNone && d.cst 8 != csTrip && d.get UHFS_SPARE.READINESS != 3

/-- A trip of an eligible chain that US cannot serve because it is attached or taken (R245, R254). -/
def Dev.missesFault (d : Dev) (c m : Nat) : Bool :=
  decide (c < 8) && Nat.land m tripChainKind != 0 && bitOf (d.get UHFS_SPARE.ELIGIBLE) c && d.attached != some c &&
    (d.attached.isSome || d.spare.sw.isSome)

/-- The status of a cut by a trip: SYN_UNLOCK when its cause is SYN_UNL, else CHAIN_TRIP (R144). -/
def tripSt (m : Nat) : Nat := if m = tripSynUnl then stSynUnlock else stChainTrip

/-- What was in progress on the front end of electronics `c` ends by a trip that starts no takeover (R44, R144, R147). -/
def Dev.tripCut (d : Dev) (c m : Nat) : Dev :=
  if c < 8 ∧ d.attached = some c then d
  else (d.cutWindow (d.cfg c) 1 (tripSt m)).unitCut c (tripSt m) d.tick

/-- A planned takeover of chain `c` that switched in this very tick gives way to a fault takeover of it (R251). -/
def Dev.unplan (d : Dev) (c m : Nat) : Dev :=
  match d.spare.sw with
  | some w =>
    if w.planned ∧ w.take ∧ w.fe = c ∧ w.start = d.tick ∧ Nat.land m tripChainKind ≠ 0 ∧ bitOf (d.get UHFS_SPARE.ELIGIBLE) c = true then
      { d with spare := { d.spare with sw := none, was := none, now := none, selAt := 0 } }.put UHFS_SPARE.ATTACHED 0xF
    else d
  | none => d

/-- The fault takeover of a higher-numbered chain that started in this very tick, which a trip of chain `c` displaces (R245). -/
def Dev.displaced (d : Dev) (c m : Nat) : Option Switch :=
  d.spare.sw.filter (fun w => w.take && !w.planned && w.start == d.tick && decide (c < w.fe) && decide (c < 8) &&
    Nat.land m tripChainKind != 0 && bitOf (d.get UHFS_SPARE.ELIGIBLE) c && d.get UHFS_SPARE.READINESS != 3)

/-- A takeover of this tick gives way to that of a lower-numbered chain (R245): its chain stays in TRIP without a carrier,
MISSED counts it, and what its Vat's instruction ended with reads as for a trip that starts no takeover. -/
def Dev.displace (d : Dev) (w : Switch) : Dev :=
  let n := w.fe
  let d := (d.inc UHFS_SPST.MISSED).acctEnd n (d.chx n).gateShut
  let d := d.forgetTx n
  let s := (d.chx n).slot
  let d := if (d.chx n).slotTick = d.tick ∧ d.get UHF_RPY_D7.CUTC n s = 2 then d.put UHF_RPY_D7.CUTC 1 n s else d
  let d := match d.feVat n with
    | some v => if d.get VAT_ASTAT.LAST_ERR v = stTakeover ∧ d.get VAT_OC.OC v = 7 ∧ (d.vatx v).ready = 2 * (d.tick + 1) then
        d.put VAT_ASTAT.LAST_ERR stChainTrip v else d
    | none => d
  let x := d.chx 8
  let d := if d.cst 8 = csReady ∧ x.goal = some csRx ∧ x.due = w.selAt + d.rxTime n then d.setCh 8 { x with goal := none } else d
  { d with spare := { d.spare with sw := none, was := none, now := none, selAt := 0 } }.put UHFS_SPARE.ATTACHED 0xF

/-- A further cause in the ramp of a trip: where it closes the gate earlier, the switch-over that waits for it moves earlier by
the difference (R246). -/
def Dev.tripInRamp (d : Dev) (c m : Nat) : Dev :=
  let d := d.tripMore c m
  match d.spare.sw with
  | some w =>
    let other := if c = 8 then w.fe else 8
    if (c = 8 ∨ c = w.fe) ∧ d.tick < w.selAt ∧ w.start < w.selAt then
      let selAt := d.bothShut w.fe + 1
      let back := w.selAt - selAt
      let x := d.chx other
      let d := if d.cst other = csReady ∧ x.goal = some csRx ∧ w.selAt < x.due then d.setCh other { x with due := x.due - back } else d
      { d with spare := { d.spare with sw := some { w with selAt := selAt, settled := w.settled - back }, selAt := selAt } }
    else d
  | none => d

/-- A trip detected in the tick in which a CARRY launches comes first (R60): the launch is taken back where the cause trips the
chain without it. -/
def Dev.beforeLaunch (d : Dev) (c causes : Nat) : Dev :=
  let d' := d.unlaunch c
  if d'.tripMask c causes = 0 then d else d'

/-- Electronics `c` detect trip causes (R42, R55, R56, R245, R250): TRIP, and then a takeover, an automatic release, or
the end of what was in progress. -/
def Dev.trip (d : Dev) (c causes : Nat) : Dev :=
  let d := (d.chainSettle c).beforeLaunch c causes
  let m := d.tripMask c causes
  if m = 0 then d
  else if d.tripRamps c then d.tripInRamp c m
  else
    let d := d.unplan c m
    let carrying := d.carrierOn c
    let rx := d.inRx c
    if c = 8 then
      let auto := match d.attached, d.spare.waitRel with
        | some n, none => if Nat.land m tripChainKind != 0 ∧ (d.cst n = csReady ∨ d.cst n = csRx) then some n else none
        | _, _ => none
      let d := (d.enterTrip 8 m (auto.isSome && carrying)).calTrip 8
      let d := match d.spare.sw with
        | some w => if w.take then d.endSwitch w w.noGap else d
        | none => d
      match auto with
      | some n => d.startAutoRelease n carrying
      | none => d.tripCut 8 m
    else if d.takesOver c m then
      ((d.enterTrip c m carrying).calTrip c).startTakeover c carrying rx
    else if (d.displaced c m).isSome then
      let d := match d.displaced c m with
        | some w => d.displace w
        | none => d
      ((d.enterTrip c m carrying).calTrip c).startTakeover c carrying rx
    else
      let d := if d.missesFault c m then d.inc UHFS_SPST.MISSED else d
      let d := (d.enterTrip c m false).calTrip c
      let d := match d.spare.sw with
        | some w => if w.take = false ∧ w.fe = c then d.endSwitch w w.noGap else d
        | none => d
      d.tripCut c m

/-- An internal DC pass of US ends (R243, R247): one that passed writes the DC trims. -/
def Dev.usDcPass (d : Dev) (o : CalObs) : Dev × Bool :=
  if d.attempt o = 0 then
    let ts := foundTrims 2 d.fresh o
    let d := ts.foldl (fun d t => d.putTrim 8 t.kind.toNat t.sub.toNat t.value.toNat o.qual.toNat)
      { d with fresh := d.fresh + 16 }
    ({ d with spare := { d.spare with dcTick := some d.tick } }, true)
  else (d, false)

/-- Whether an internal DC pass of an unattached US may run: in RX, idle, unbound, at HOT or raised for a planned takeover
(R243, R248). -/
def Dev.dcMayRun (d : Dev) : Bool :=
  d.attached.isNone && d.spare.sw.isNone && (d.binder 8).isNone && d.inRx 8 && (d.calOf 8).isNone &&
    (d.get UHFS_SPARE.READINESS == 2 || d.spare.waitTake.isSome)

end Sys2Proof.Machine
end

