-- ==== Sys2Proof/Machine/Reset.lean ====
section
/-! DEFINITION. Resets: what a device reset, a power-on reset and the island resets leave (R10, R27 to R31, R399, R444). -/

namespace Sys2Proof.Machine

/-- The 64 KB block a register lies in: its base address over 0x1_0000. -/
def RKey.block (k : RKey) : Nat := (k.f.r.place.base + k.f.r.place.si * k.i) / 0x10000

/-- The AON block, whose registers only a power-on reset reaches (R10). -/
def RKey.aon (k : RKey) : Bool := k.block == 0x4002

/-- A register of the RGR island: NVM, MGT, LCS, SNS (R15, R23). -/
def RKey.rgr (k : RKey) : Bool := decide (0x4027 ≤ k.block) && decide (k.block ≤ 0x402A)

/-- A register of the HLK island (R15, R23). -/
def RKey.hlk (k : RKey) : Bool := k.block == 0x4026

/-- Whether a field is RWO: it survives a Ranger-island reset (R399). -/
def RKey.rwo (k : RKey) : Bool := k.f.r.rows.any (fun r => r.lo == k.f.lo && r.acc == Access.rwo)

/-- The log after the RAM ring is lost (R399, R402). SEQ goes on above every SEQ used, so that it never repeats and the entries
lost show as a gap (assumption: DEDUCED; were the highest SEQ of the MRAM ring alone the start, those SEQs would repeat). -/
def LogX.afterReset (l : LogX) : LogX := { next := l.next, mram := l.mram, written := l.written }

/-- A byte outside the Ranger SRAM, which a Ranger-island reset loses (R399). -/
def outsideRanger (c : Host.Cell) : Bool := decide (c.1 < 0x200000) || decide (0x240000 ≤ c.1)

/-- The MSI-X table and pending bits lie in the HLK block (R432). -/
def outsideHlk (c : Host.Cell) : Bool := decide (c.1 < 0x40261000) || decide (0x40262000 ≤ c.1)

/-- What a device reset leaves of the device (R10, R27): the AON island's block, counts and latches, the memories, the log's
MRAM ring, the duty account without what an ACT frame cut off has not sent (R292); the Ranger SRAM is lost with its island (R399), and AT
starts anew. -/
def Dev.wiped (d : Dev) : Dev :=
  { hw := d.hw, fresh := d.fresh, regs := d.regs.filter (fun e => e.1.aon), mem := (d.mem.filter outsideHlk).filter outsideRanger, ecc := d.ecc,
    duty := (d.dutyCharge (d.dutyAhead d.tick) true).duty, log := d.log.afterReset, rst := d.rst,
    pwr := { sigs := d.pwr.sigs, missed := d.pwr.missed,
             latch := if d.rst.asserted || d.pwr.asleep.isSome then d.pwr.latch else [] },
    hlk := { host := d.hlk.host } }

/-- The bit of SYS_RESET_CAUSE for each cause (R27, R30). -/
def rcPor : Nat := 0
/-- Pin. -/ def rcPin : Nat := 1
/-- Brown-out. -/ def rcBrownout : Nat := 2
/-- Thermal. -/ def rcThermal : Nat := 3
/-- Host request. -/ def rcHost : Nat := 4
/-- Ranger request. -/ def rcRgr : Nat := 5
/-- Ranger watchdog. -/ def rcWdog : Nat := 6
/-- Wake. -/ def rcWake : Nat := 7
/-- Life-cycle. -/ def rcLcs : Nat := 8

/-- A device reset is asserted for cause `bit` (R27, R28, R30): the latch takes the cause; DEV_COUNT counts the reset at its
first assertion. One that ends a sleep keeps the sleep state with its heartwood tick, for a wake of that tick (R395). -/
def Dev.deviceReset (d : Dev) (bit : Nat) : Dev :=
  let first := !d.rst.asserted || d.rst.held
  let n := d.get SYS_RESET_CAUSE.DEV_COUNT
  let causes := if first then 2 ^ bit else Nat.lor d.rst.causes (2 ^ bit)
  let slept := match d.pwr.asleep with
    | some t => some (t, d.hw)
    | none => if first then none else d.rst.slept
  let d := d.wiped
  { d with rst := { d.rst with causes := causes, asserted := true, held := false, slept := slept } }.put SYS_RESET_CAUSE.DEV_COUNT
    (if first then min 15 (n + 1) else n)

/-- The straps as SYS_STRAP shows them (R429, R443). -/
def strapBits (s : Straps) : Nat :=
  (if s.hsel then 1 else 0) + (if s.qspi4 then 2 else 0) + (if s.rcvry then 4 else 0)

/-- A power-on reset: the whole device, AON included (R27); what the memories hold is their unwritten content again. The
host's own memory is no part of the device. -/
def Dev.powerOn (d : Dev) (straps : Straps) : Dev :=
  { fresh := d.fresh, log := d.log.afterReset, rst := { straps := strapBits straps }, hlk := { host := d.hlk.host } }

/-- A register of the LCS block, which the ROM loads from the eFuses before anything else runs (R414, R422). -/
def RKey.lcs (k : RKey) : Bool := k.block == 0x4029

/-- The log without the entry of a SEQ. -/
def LogX.without (l : LogX) (seq : Nat) : LogX :=
  { l with ram := l.ram.filter (fun e => e.seq != seq), mram := l.mram.filter (fun e => e.seq != seq) }

/-- A Ranger reset at or before the end of the latest load, while the host has not read its response (R182): the response is lost;
before the end the load is abandoned as well: the index entry is not valid, and no ENTRY is set and no swap armed. -/
def Dev.loadLost (d : Dev) : Dev :=
  match d.rgr.load with
  | none => d
  | some l =>
    let q := d.qx 1
    if l.upto < d.tick ∨ q.prod ≠ l.q1.2 ∨ l.q1.1 < q.cons then d
    else
      let d := d.setQ 1 { q with prod := l.q1.1, vis := l.q1.1 }
      if l.upto = d.tick then d
      else
        let d := match l.entry with
          | some k => d.setWord (4 * hoopIndex k) 0
          | none => d
        let d := d.each l.ents (fun d e => d.put VAT_ENTRY.ENTRY e.2 e.1)
        let d := d.each l.swaps (fun d e =>
          ((d.setVat e.1 { d.vatx e.1 with swapFrom := e.2.2.2 }).put VAT_STATUS.SWAP_PEND e.2.1 e.1).put
            VAT_SWAP.NEW_ENTRY e.2.2.1 e.1)
        { d with log := d.log.without l.seq }

/-- The Ranger island is reset (R182, R399): its registers but the RWO fields and those the ROM loads at once, the Ranger SRAM, the
RAM ring of the log, staging and challenge; RGR_RST is set. -/
def Dev.rgrReset (d : Dev) (cause : Nat) : Dev :=
  let d := d.loadLost
  let d := { d with regs := d.regs.filter (fun e => !e.1.rgr || e.1.rwo || e.1.lcs), mem := d.mem.filter outsideRanger,
                    log := d.log.afterReset,
                    rgr := { recovery := d.rgr.recovery, down := true, wdTick := d.rgr.wdTick, cause := cause } }
  d.put SYS_RESET_CAUSE.RGR_RST 1

/-- The host-link island is reset (R27, R440, R444): its registers, the MSI-X table, every DMA channel; HLK_RST is set. -/
def Dev.hlkIsland (d : Dev) : Dev :=
  { d with regs := d.regs.filter (fun e => !e.1.hlk), mem := d.mem.filter outsideHlk,
           hlk := { host := d.hlk.host } }.put SYS_RESET_CAUSE.HLK_RST 1

/-- POWER_ON_RESET. -/
def execPowerOnReset (straps : Straps) (s : State) : Host.Outcome State Fault Refusal := s.on (fun d => d.powerOn straps)

/-- PIN_RESET: RSTN low for 1 µs; the straps are sampled (R429). -/
def execPinReset (straps : Straps) (s : State) : Host.Outcome State Fault Refusal :=
  s.on (fun d =>
    let d := d.deviceReset rcPin
    { d with rst := { d.rst with straps := strapBits straps } })

/-- THERMAL_RESET: a sensor at or above 145 °C (R27, R29); the reading is in 0.1 °C. -/
def execThermalReset (_sensor : Fin 12) (temp : BitVec 12) (s : State) : Host.Outcome State Fault Refusal :=
  s.on (fun d =>
    if temp.toInt < 1450 then d
    else
      let d := d.deviceReset rcThermal
      { d with rst := { d.rst with hot := true } })

/-- THERMAL_RELEASE: every sensor reads below 130 °C (R29). -/
def execThermalRelease (s : State) : Host.Outcome State Fault Refusal :=
  s.on (fun d => { d with rst := { d.rst with hot := false } })

/-- SYS_RESET_REQ (R31): the key and DEVICE start a device reset; another key is ignored and logged. -/
def execSysResetReq (key : BitVec 16) (device : Bool) (s : State) : Host.Outcome State Fault Refusal :=
  s.onIsland 2 .SYS_RESET_REQ 0 (fun d =>
    if key = 0xA5C3 then (if device then d.deviceReset rcHost else d)
    else d.logRefusal 0x00 0 (Config.codeAny 2))

/-- RANGER_RESET_REQ. -/
def execRangerResetReq (s : State) : Host.Outcome State Fault Refusal := s.on (fun d => d.deviceReset rcRgr)

/-- RGR_WDOG_EXPIRY (R399): the first resets the island, a second within 10 s the device. -/
def execRgrWdogExpiry (s : State) : Host.Outcome State Fault Refusal :=
  s.on (fun d =>
    match d.rgr.wdTick with
    | some t =>
      if d.tick ≤ t + msTicks 10000 then d.deviceReset rcWdog
      else { d with rgr := { d.rgr with wdTick := some d.tick } }.rgrReset 2
    | none => { d with rgr := { d.rgr with wdTick := some d.tick } }.rgrReset 2)

/-- HLK_RESET. -/
def execHlkReset (s : State) : Host.Outcome State Fault Refusal := s.on (fun d => d.hlkIsland)

/-- The bits SYS_RESET_CAUSE loads from the latch (R30): a power-on reset loads POR alone. -/
def causesLoaded (causes : Nat) : Nat := if bitOf causes rcPor then 1 else causes % 512

/-- The nine cause bits of SYS_RESET_CAUSE. -/
def Dev.putCauses (d : Dev) (causes : Nat) : Dev :=
  (List.range 9).foldl (fun d k => d.put ⟨.SYS_RESET_CAUSE, k, k⟩ (causes / 2 ^ k % 2)) d

/-- DEVICE_RESET_RELEASE (R29, R30, R317, R392, R424): not while a thermal reset is held, nor while a failed step 2 holds the device. The cause register is loaded and the
latch cleared; until the first boundary pair the guard treats mesh time as absent; the ROM reads the life-cycle fuses before
anything else runs (R414). -/
def execDeviceResetRelease (s : State) : Host.Outcome State Fault Refusal :=
  s.on (fun d =>
    if d.rst.asserted && !d.rst.hot && !d.rst.held then
      let c := causesLoaded d.rst.causes
      let wake := bitOf c rcWake
      let d := ((d.putCauses c).put RGU_STATUS.DESYNC 1).put LCS_STATE.STATE (min 3 s.nv.fuses)
      { d with rst := { d.rst with causes := 0, asserted := false, wasWake := wake, slept := none,
                                   wakeMask := if wake then d.rst.wakeMask else none,
                                   recovering := bitOf c rcThermal || bitOf c rcBrownout || bitOf c rcWdog },
               rgr := { d.rgr with down := true, cause := 3 }, pwr := { d.pwr with latch := [] } }
    else d)

end Sys2Proof.Machine
end

