-- ==== Sys2Proof/Machine/Power.lean ====
section
/-! DEFINITION. Power: the phases, entry to GLADE and FALLOW, wakes, idle gating, retention (R204, R381 to R393). -/

namespace Sys2Proof.Machine

/-- PWR_ENTRY_CANCELLED. -/ def stPwrCancelled : Nat := 0x0601
/-- PWR_BUSY. -/ def stPwrBusy : Nat := 0x0602
/-- PWR_NO_WAKE. -/ def stPwrNoWake : Nat := 0x0603
/-- PWR_TARGET. -/ def stPwrTarget : Nat := 0x0604

/-- PWR_STATUS.PHASE (R392): 0 STARTUP until step 10 is posted, 2 TEST, 3 RECOVERY, 1 SERVICE. -/
def Dev.phase (d : Dev) : Nat :=
  if !bitOf (d.get SYS_STEP.DONE) 9 then 0
  else if d.get LCS_STATE.STATE = 0 ∨ d.isSet PWR_CTRL.TEST = true then 2
  else if d.rst.recovering then 3 else 1

/-! ### Domains (R381 to R383) -/

/-- PWR_DOM0.UHF: the chains that are not OFF. -/
def Dev.domUhf (d : Dev) : Nat := (chainIds.map (fun c => if d.cst c = csOff then 0 else 2 ^ c)).sum

/-- PWR_DOM1.UNITS: HFR and ACT out of OFF; MSH and the wired ports as gated and woken. -/
def Dev.domUnits (d : Dev) : Nat :=
  d.get PWR_DOM1.UNITS / 4 * 4 + (if d.pst 10 = 0 then 0 else 2) + (if d.pst 9 = 0 then 0 else 1)

/-- Every gatable domain has power (table "Device states": ACTIVE). -/
def Dev.allPowered (d : Dev) : Bool :=
  d.domUhf == 0x1FF && d.domUnits == 0x1F && d.get PWR_DOM0.CLR == 0xFFFF && d.get PWR_DOM1.SYN == 0xF

/-- PWR_STATUS.STATE outside an entry: ACTIVE, or IDLE with a domain gated. While a device reset is asserted it reads its reset value,
ACTIVE (R397), although no gatable domain has power then (assumption: DESIGN CHOICE). -/
def Dev.idleState (d : Dev) : Nat := if d.allPowered || d.rst.asserted then 0 else 1

/-- PWR_STATUS.STATE: ENTERING, or as the domains have power (R388, R397). -/
def Dev.powerState (d : Dev) : Nat := if d.entering then 2 else d.idleState

/-- The banks that a request or command at the ledger engine touches (table "Idle conditions"). -/
def Dev.banksInUse (d : Dev) : List Nat :=
  d.ldg.reqs.map d.reqBank ++ (match d.ldg.cmd with
    | some (op, arg, _) => cmdBanks op arg
    | none => [])

/-- The time a domain must have been idle, ticks; 0 is never (R382). -/
def Dev.idleTime (d : Dev) : Domain → Nat
  | .uhf _ => msTicks (d.get PWR_IDLE0.UHF)
  | .syn _ => msTicks (d.get PWR_IDLE0.SYN)
  | .hfr => msTicks (d.get PWR_IDLE0.HFR)
  | .act => msTicks (d.get PWR_IDLE0.ACT)
  | .msh => msTicks (d.get PWR_IDLE1.MSH)
  | .spe _ => msTicks (d.get PWR_IDLE1.SPE)
  | .clr _ => usTicks (d.get PWR_IDLE1.CLR)

/-- The idle condition of a domain (R382, table "Idle conditions"). -/
def Dev.isIdle (d : Dev) : Domain → Bool
  | .uhf c =>
    d.cst c.val == csReady && d.vatOf c.val == none && (d.calOf c.val).isNone &&
      (c.val != 8 || d.get UHFS_SPARE.READINESS == 0)
  | .syn m => (d.synUsers m.val == []) && !d.isSet SYN_F_CTRL.KEEP m.val && !d.synCal m.val && !d.shadowing m.val
  | .hfr => decide (d.pst 9 < 2) && (d.binder 9).isNone && !d.isSet HFR_CW_CTRL.EN
  | .act => decide (d.pst 10 < 2) && (d.binder 10).isNone
  | .msh => !d.isSet MSH_CTRL.RUN
  | .spe n => !d.isSet SPE_CTRL.EN n.val
  | .clr k => !d.banksInUse.contains k.val

/-- A domain may be gated: its idle condition holds, and its idle time is not 0. -/
def Dev.mayGate (d : Dev) (dom : Domain) : Bool := d.isIdle dom && d.idleTime dom != 0

/-- A port in READY starts its way to OFF, 1 µs (R272, R290). -/
def Dev.portGate (d : Dev) (p : Nat) : Dev :=
  let d := d.portSync p
  if d.pst p = 1 ∧ (d.chx p).goal.isNone then d.setCh p { d.chx p with goal := some 0, due := d.tick + usTicks 1 } else d

/-- A domain is gated: its datapath loses power, registers keep their values, and only the state field changes (R382);
a chain, HF and ACT take 1 µs (R42, R272, R290). -/
def Dev.gateOff (d : Dev) (dom : Domain) : Dev :=
  match dom with
  | .uhf c => if (d.chx c.val).goal.isNone then d.chainGo c.val csOff d.tick else d
  | .syn m => (d.put SYN_F_STATUS.LOCK 0 m.val).putBit PWR_DOM1.SYN m.val false
  | .hfr => d.portGate 9
  | .act => d.portGate 10
  | .msh => d.putBit PWR_DOM1.UNITS 2 false
  | .spe n => d.putBit PWR_DOM1.UNITS (3 + n.val) false
  | .clr k => d.putBit PWR_DOM0.CLR k.val false

/-- The LOCK that gating a domain takes from a synthesiser. -/
def Dev.gateLock (d : Dev) : Domain → Nat
  | .syn m => d.get SYN_F_STATUS.LOCK m.val
  | _ => 0

/-- DOMAIN_GATE: the idle timer of a domain expires, at the tick at which the domain has been idle for its time (R382). -/
def execDomainGate (dom : Domain) (s : State) : Host.Outcome State Fault Refusal :=
  s.onUnit (domainIsland dom) (fun d =>
    if d.mayGate dom then
      let d := d.toTick (d.idleFrom dom + d.idleTime dom)
      { d.gateOff dom with gated := some (domNo dom, d.tick, d.gateLock dom) }
    else d)

/-- DOMAIN_WAKE: an access reaches a gated domain (R383); an island that roll call found missing stays unpowered (R19, R425). -/
def execDomainWake (dom : Domain) (s : State) : Host.Outcome State Fault Refusal :=
  s.onUnit (domainIsland dom) (fun d => d.reaches dom)

/-! ### Entry (R386 to R388) -/

/-- A hoop load or swap runs: its time has not passed, and the host has not read its response (R182). -/
def Dev.loadRuns (d : Dev) : Bool :=
  match d.rgr.load with
  | some l => decide (d.tick < l.upto) && (d.qx 1).prod == l.q1.2 && decide ((d.qx 1).cons ≤ l.q1.1)
  | none => false

/-- The conditions of an entry (R386): Vats at rest, every gate closed, the HF field off, ACT not in TX, no calibration,
no ledger command and no hoop load; a STORE has ended when its response stands. -/
def Dev.entryIdle (d : Dev) : Bool :=
  vatIds.all (fun v => d.vst v == vsStopped || d.vst v == vsHalted || d.vst v == vsFault) &&
    !d.anyGate chainIds && d.pst 9 != 2 && !(d.chx 10).txOn && d.cal == [] && d.ldg.cmd.isNone && !d.loadRuns

/-- The wake sources of a target state (table "Wake sources"): GLADE all, FALLOW bits 0, 1, 5, 6 and 7. -/
def stateSources (target : Nat) : Nat := if target = 2 then 0xE3 else 0xFF

/-- The enabled wake sources of a target state. -/
def Dev.sources (d : Dev) (target : Nat) : Nat := Nat.land (d.get PWR_WAKEEN.EN) (stateSources target)

/-- What refuses a target state (R386): PWR_TARGET, PWR_NO_WAKE, or nothing. -/
def Dev.targetRefusal (d : Dev) (target : Nat) : Nat :=
  if target ≠ 1 ∧ target ≠ 2 then stPwrTarget else if d.sources target = 0 then stPwrNoWake else 0

/-- An entry is requested (R386, R388): refused with a status, or ENTERING with the ledger engine stopping. `auto` is the tick of an
automatic entry. -/
def Dev.requestEntry (d : Dev) (target : Nat) (auto : Option Nat := none) : Dev :=
  let no := fun st => d.put PWR_STATUS.LAST_ERR st
  if d.entering || !d.entryIdle then no stPwrBusy
  else if d.targetRefusal target ≠ 0 then no (d.targetRefusal target)
  else
    let e : Entry := { target := target, run := d.isSet LDG_CTRL.RUN, auto := auto }
    { d with pwr := { d.pwr with entry := some e, wakes := [], sigs := [] } }.ldgRun false

/-- ENTER while ENTERING (R395): ignored with PWR_BUSY, but for one in the tick of an automatic entry, which takes its target. -/
def Dev.enterAgain (d : Dev) (target : Nat) : Dev :=
  match d.pwr.entry with
  | some e =>
    if e.auto = some d.tick ∧ d.targetRefusal target = 0 then
      { d.put PWR_CTRL.TARGET target with pwr := { d.pwr with entry := some { e with target := target, auto := none } } }
    else d.put PWR_STATUS.LAST_ERR stPwrBusy
  | none => d.put PWR_STATUS.LAST_ERR stPwrBusy

/-- A write of PWR_CTRL with ENTER (R386). -/
def execPwrEnter (target : BitVec 2) (s : State) : Host.Outcome State Fault Refusal :=
  s.onIsland 0 .PWR_CTRL 0 (fun d =>
    if d.entering then d.enterAgain target.toNat else (d.put PWR_CTRL.TARGET target.toNat).requestEntry target.toNat)

/-- The tick at which the device has been idle for DIDLE (R387): neither a host access nor a condition of R386 unmet. -/
def Dev.autoTick (d : Dev) : Nat := max d.busyAt (d.chx 10).txEnd + msTicks (max 1 (d.get PWR_POLICY.DIDLE))

/-- AUTO_ENTRY (R387): only in SERVICE, with the conditions of R386, and at the tick at which they have held for DIDLE without a host
access. -/
def execAutoEntry (s : State) : Host.Outcome State Fault Refusal :=
  s.on (fun d =>
    let a := d.get PWR_POLICY.AUTO
    if (a = 1 ∨ a = 2) ∧ d.phase = 1 ∧ d.entryIdle = true ∧ d.entering = false then
      let d := d.toTick d.autoTick
      d.requestEntry a (some d.tick)
    else d)

/-! ### Cancelling and waking (R389 to R392) -/

/-- An entry before its point of no return is cancelled (R392): the signatures are abandoned, LDG_CTRL.RUN is restored with
the rebuild, the held events are published in order, and the cancellation is told. -/
def Dev.cancelEntry (d : Dev) : Dev :=
  match d.pwr.entry with
  | none => d
  | some e =>
    let d := { d with pwr := { d.pwr with entry := none, wakes := [], sigs := [], latch := [] } }
    let d := d.busyBy d.tick
    let d := if e.run then d.ldgRun true else d
    let d := e.held.foldl (fun d x => d.deliverAs x.1 x.2) d
    ((d.publish evPwrCancel).inc PWR_CNT.CANCELS).logWarn 0x01 0 stPwrCancelled

/-- CANCEL: before the point of no return, in every phase. -/
def alonePwrCancel (s : State) : Host.Outcome State Fault Refusal := s.onIsland 0 .PWR_CTRL 0 (fun d => d.cancelEntry)

/-- The mask of a list of sources. -/
def sourceMask (l : List (Nat × Nat)) : Nat := l.foldl (fun m x => Nat.lor m (2 ^ x.1)) 0

/-- The lowest-numbered source of a list with its detail. -/
def firstSource : List (Nat × Nat) → Option (Nat × Nat)
  | [] => none
  | x :: xs => match firstSource xs with
    | some y => if y.1 < x.1 then some y else some x
    | none => some x

/-- The heartwood stamp of the wake record. -/
def Dev.wakeStamp (d : Dev) : Nat := d.get AON_WAKE_REC1.HW_LO + 2 ^ 32 * d.get AON_WAKE_REC2.HW_HI

/-- SRC and DETAIL of the wake record: the lowest-numbered source of a list, and its detail (R391). -/
def Dev.recSource (d : Dev) (l : List (Nat × Nat)) : Dev :=
  match firstSource l with
  | some (src, detail) => (d.put AON_WAKE_REC0.SRC src).put AON_WAKE_REC3.DETAIL detail
  | none => d

/-- The wake record for sources that heartwood tick `t` detected first (R391). -/
def Dev.wakeRecord (d : Dev) (l : List (Nat × Nat)) (t : Nat) : Dev :=
  let d := (d.put AON_WAKE_REC0.VALID 1).put AON_WAKE_REC0.MASK (sourceMask l)
  ((d.put AON_WAKE_REC1.HW_LO t).put AON_WAKE_REC2.HW_HI (t / 2 ^ 32)).recSource l

/-- Further sources enter MASK, and the events that wait for step 9. -/
def Dev.wakeMask' (d : Dev) (l : List (Nat × Nat)) : Dev :=
  let d := d.put AON_WAKE_REC0.MASK (Nat.lor (d.get AON_WAKE_REC0.MASK) (sourceMask l))
  { d with rst := { d.rst with wakeMask := some (d.get AON_WAKE_REC0.MASK) } }

/-- Further sources detected until the release of the reset a wake asserted (R391): they enter MASK; one of the record's own heartwood
tick with a lower number is SRC (R395). -/
def Dev.wakeMore (d : Dev) (l : List (Nat × Nat)) : Dev :=
  let d := d.wakeMask' l
  if d.hw = d.wakeStamp then d.recSource ((d.get AON_WAKE_REC0.SRC, d.get AON_WAKE_REC3.DETAIL) :: l) else d

/-- A wake from GLADE or FALLOW by the sources of a list, each with its detail and heartwood tick, in the order of detection (R391):
the wake record of the first tick, then a device reset with WAKE; the later ones are in MASK. -/
def Dev.wakeNow (d : Dev) (l : List (Nat × Nat × Nat)) : Dev :=
  match l with
  | [] => d
  | (_, _, t) :: _ =>
    let of := fun (p : Nat → Bool) => (l.filter (fun x => p x.2.2)).map (fun x => (x.1, x.2.1))
    ((d.wakeRecord (of (fun h => h == t)) t).deviceReset rcWake).wakeMask' (of (fun _ => true))

/-- A wake source in the heartwood tick of a reset that has ended the sleep `t` (R395): one device reset, with WAKE as well. -/
def Dev.wakeToo (d : Dev) (l : List (Nat × Nat)) : Dev :=
  let d := (d.wakeRecord l d.hw).wakeMask' l
  { d with rst := { d.rst with causes := Nat.lor d.rst.causes (2 ^ rcWake) } }

/-- The device with the register file that AON latched at entry, for what runs in sleep (R285, R301, R364). -/
def Dev.latched (d : Dev) : Dev := { d with regs := d.pwr.latch }

/-- Wake sources are detected, each with its detail (R389 to R392): those enabled for the state count. In sleep, and until the
reset of a wake is released, they wake the device or enter the record; during an entry in SERVICE they cancel it, otherwise the wake
follows the entry. -/
def Dev.wakeBy (d : Dev) (l : List (Nat × Nat)) : Dev :=
  let on := fun (e : Dev) t => l.filter (fun x => bitOf (e.sources t) x.1)
  if d.rst.asserted then
    match d.rst.slept with
    | some (t, h) =>
      let l := on d.latched t
      if l = [] then d
      else if bitOf d.rst.causes rcWake then d.wakeMore l
      else if h = d.hw then d.wakeToo l else d
    | none => d
  else match d.pwr.asleep with
    | some t =>
      let l := (on d t).map (fun x => (x.1, x.2, d.hw))
      if l = [] then d
      else if d.pwr.off then d.wakeNow l
      else { d with pwr := { d.pwr with wakes := d.pwr.wakes ++ l } }
    | none => match d.pwr.entry with
      | some e =>
        let l := (on d e.target).map (fun x => (x.1, x.2, d.hw))
        if l = [] then d
        else if d.phase = 1 then d.cancelEntry
        else { d with pwr := { d.pwr with wakes := d.pwr.wakes ++ l } }
      | none => d

/-- Heartwood goes on in a sleep by an amount nothing else fixes. -/
def Dev.sleepOn (d : Dev) : Dev :=
  if d.pwr.asleep.isSome then
    { d with hw := (d.hw + Config.heartwoodGap d.fresh) % 2 ^ 48, fresh := d.fresh + 1 }
  else d

/-- The AON wake consumers that the always-on trails trigger for producer `id`, as wake source 7 (R364, R389): from the latched
assignments and masks in sleep, and during an entry from those that stand. -/
def Dev.aonTriggers (d : Dev) (id : Nat) : List (Nat × Nat) :=
  let l := if d.pwr.asleep.isSome then d.latched else d
  if l.isSet TRL_PDATA.EN 0 id then
    ((List.range 4).filter (fun k => l.subscribes (0x78 + k) (l.get TRL_PDATA.CH 0 id))).map (fun k => (7, k))
  else []

/-- A producer that is also a wake source fires (R285, R301, R364, R388): in ACTIVE and IDLE its event is published; during
an entry AON holds the event and it is a wake event; in sleep it is a wake source. During an entry and in sleep it may trigger wake
consumers as well. -/
def Dev.aonEvent (d : Dev) (id src detail : Nat) : Dev :=
  let l := (src, detail) :: d.aonTriggers id
  if d.pwr.asleep.isSome then d.wakeBy l else (d.publish id).wakeBy l

/-- WAKE: sources seen in sleep, with the detail of the first. -/
def aloneWake (sources : BitVec 8) (detail : Word) (s : State) : Host.Outcome State Fault Refusal :=
  s.on (fun d =>
    d.sleepOn.wakeBy (((List.range 8).filter (fun k => bitOf sources.toNat k)).map (fun k => (k, detail.toNat))))

/-- WAKEN_PIN. -/
def aloneWakenPin (s : State) : Host.Outcome State Fault Refusal := s.on (fun d => d.sleepOn.wakeBy [(6, 0)])

/-- The register file that sleep compares with: the latched one past step 4 of the entry and until the reset of the wake is released
(R391). -/
def Dev.aonRegs (d : Dev) : Dev := if d.pwr.asleep.isSome || d.rst.asserted then d.latched else d

/-- The watch compares: in sleep, in the reset that ends it, and during an entry (R390 to R392). -/
def Dev.watches (d : Dev) : Bool := d.entering || (d.rst.asserted && d.rst.slept.isSome)

/-- Heartwood at least at a tick. -/
def Dev.toHw (d : Dev) (t : Nat) : Dev := if d.hw < t then { d with hw := t } else d

/-- WAKE_TIMER: heartwood reaches PWR_WT, armed (R389, R390). -/
def aloneWakeTimer (s : State) : Host.Outcome State Fault Refusal :=
  s.on (fun d =>
    let l := d.aonRegs
    if d.watches && l.isSet PWR_WT_HI.EN then
      (d.toHw (l.get PWR_WT_LO.WT_LO + 2 ^ 32 * l.get PWR_WT_HI.WT_HI)).wakeBy [(5, 0)]
    else d)

/-- The state that the watch runs for: that of the sleep, or of the entry once its step 4 has latched. -/
def Dev.watchState (d : Dev) : Option Nat :=
  if d.rst.asserted then d.rst.slept.map (fun x => x.1)
  else match d.pwr.entry with
    | some e => if e.stage = 2 then some e.target else none
    | none => d.pwr.asleep

/-- HWCMP_WAKE: heartwood reaches AON_HWCMP in GLADE, or in the entry to it (R352, R392). -/
def aloneHwcmpWake (s : State) : Host.Outcome State Fault Refusal :=
  s.on (fun d =>
    if d.watchState = some 1 ∧ d.isSet AON_HWCMP_W1.VALID = true then
      (d.toHw (d.get AON_HWCMP_W0.HWC_LO + 2 ^ 32 * d.get AON_HWCMP_W1.HWC_HI)).wakeBy
        [(3, d.get AON_HWCMP_W1.RING * 16 + d.get AON_HWCMP_W1.CMP)]
    else d)

/-- The heartwood ticks between two temperature samples in GLADE (R390): INTERVAL seconds of 32,768 ticks, 0 acting as 1. -/
def Dev.tempPeriod (d : Dev) : Nat := max 1 (d.get PWR_GTEMP.INTERVAL) * 32768

/-- GLADE_TEMP_SAMPLE: the sample of the heartwood tick that is due; a reading outside [LO, HI) wakes (R390). -/
def execGladeTempSample (temp : BitVec 8) (s : State) : Host.Outcome State Fault Refusal :=
  s.on (fun d =>
    let l := d.aonRegs
    let inside := decide (signedOf 8 (l.get PWR_GTEMP.LO) ≤ temp.toInt) && decide (temp.toInt < signedOf 8 (l.get PWR_GTEMP.HI))
    if d.pwr.asleep = some 1 then
      let d := d.toHw d.pwr.tempAt
      let d := { d with pwr := { d.pwr with tempAt := d.pwr.tempAt + l.tempPeriod } }
      if inside then d else d.wakeBy [(4, temp.toNat)]
    else d)

/-! ### The steps of an entry (R204, R343, R352, R388) -/

/-- The signature of Cellar bank `k` (R204). -/
def Dev.bankSig (d : Dev) (k : Nat) : Nat := crc32Bytes (d.bytes (cellar + 0x40000 * k) 0x40000)

/-- The banks selected for retention. -/
def Dev.retSel (d : Dev) : List Nat := (List.range 16).filter (fun k => bitOf (d.get AON_RET_SEL.BANKS) k)

/-- SIGNATURES_STORED: once the ledger engine has stopped. -/
def execSignaturesStored (s : State) : Host.Outcome State Fault Refusal :=
  s.on (fun d =>
    match d.pwr.entry with
    | some e =>
      if e.stage = 0 ∧ d.ldg.phase = 2 then
        { d with pwr := { d.pwr with entry := some { e with stage := 1 }, sigs := d.retSel.map (fun k => (k, d.bankSig k)) } }
      else d
    | none => d)

/-- P of a ring (R345). -/
def Dev.ringP (d : Dev) (n : Nat) : Nat := max 1 (d.get RING_PRE.N n) * 65536 + d.get RING_PRE.F n

/-- The record of ring `n`. -/
def Dev.ringx (d : Dev) (n : Nat) : RingX := fget (fun _ => {}) d.ring n

/-- The compares that may wake from GLADE (R352): (ring, compare, ticks from the entry edge; none where already passed). A ring makes at
most one increment for each source tick; one equal to the count gives the next tick. -/
def Dev.wakeCompares (d : Dev) : List (Nat × Nat × Option Nat) :=
  ((List.range 8).filter (fun n => d.get RING_CTRL.SRC n == 2 && d.isSet RING_CTRL.EN n)).flatMap (fun n =>
    ((List.range 4).filter (fun k => bitOf (d.get RING_CMPST.ARMED n) k && bitOf (d.get RING_CMPST.WAKE n) k)).map
      (fun k =>
        let x := d.ringx n
        let r := (fget (fun _ => 0) x.cmp k + 2 ^ 64 - x.cnt % 2 ^ 64) % 2 ^ 64
        if 2 ^ 63 < r then (n, k, none)
        else if r = 0 then (n, k, some 1)
        else (n, k, some (max r ((r * d.ringP n - x.phi + 65535) / 65536)))))

/-- The earliest of the compares not yet passed. -/
def earliestCompare : List (Nat × Nat × Option Nat) → Option (Nat × Nat × Nat)
  | [] => none
  | (n, k, some t) :: xs => match earliestCompare xs with
    | some y => if y.2.2 < t then some y else some (n, k, t)
    | none => some (n, k, t)
  | _ :: xs => earliestCompare xs

/-- ENTRY_LATCH: on one heartwood edge AT and heartwood, the watch's configuration, and for GLADE the ring compares; a
compare that has already passed is a wake event during the entry. -/
def execEntryLatch (s : State) : Host.Outcome State Fault Refusal :=
  s.on (fun d =>
    match d.pwr.entry with
    | some e =>
      if e.stage = 1 then
        let d := (d.put AON_ENT_W0.AT_LO d.tick).put AON_ENT_W1.AT_HI (d.tick / 2 ^ 32)
        let d := (d.put AON_ENT_W2.ANC_LO d.hw).put AON_ENT_W3.ANC_HI (d.hw / 2 ^ 32)
        let l := if e.target = 1 then d.wakeCompares else []
        let d := match earliestCompare l with
          | some (n, k, t) =>
            let h := d.hw + t
            ((((d.put AON_HWCMP_W1.VALID 1).put AON_HWCMP_W1.RING n).put AON_HWCMP_W1.CMP k).put AON_HWCMP_W0.HWC_LO h).put
              AON_HWCMP_W1.HWC_HI (h / 2 ^ 32)
          | none => d.put AON_HWCMP_W1.VALID 0
        let d := { d with pwr := { d.pwr with entry := some { e with stage := 2 }, latch := d.regs } }
        match l.find? (fun x => x.2.2.isNone) with
        | some (n, k, _) => d.wakeBy [(3, n * 16 + k)]
        | none => d
      else d
    | none => d)

/-- POINT_OF_NO_RETURN: the entry is irreversible and the clamps engage; the host link is down. -/
def alonePointOfNoReturn (s : State) : Host.Outcome State Fault Refusal :=
  s.on (fun d =>
    match d.pwr.entry with
    | some e =>
      if e.stage = 2 then
        let d := ((d.inc PWR_CNT.ENTRIES).put AON_RET_STATUS.RETAINED (d.get AON_RET_SEL.BANKS)).put HLK_STATUS.LINK 0
        { d with pwr := { d.pwr with entry := none, asleep := some e.target, missed := [], tempAt := d.hw + d.latched.tempPeriod } }
      else d
    | none => d)

/-- A byte of memory that keeps its content in sleep: that of a retained Cellar bank (R204). -/
def keptAsleep (banks : List Nat) (c : Host.Cell) : Bool :=
  banks.any (fun k => decide (cellar + 0x40000 * k ≤ c.1) && decide (c.1 < cellar + 0x40000 * (k + 1)))

/-- A register in the AON island, which keeps its power in sleep: PWR, AON, WKR and PMX (R15, R381). -/
def RKey.aonIsland (k : RKey) : Bool :=
  k.block == 0x4001 || k.block == 0x4002 || k.block == 0x4022 || k.block == 0x402B

/-- DOMAINS_OFF: every domain outside the target state loses power; wakes that arrived since step 1 follow at once. -/
def execDomainsOff (s : State) : Host.Outcome State Fault Refusal :=
  s.on (fun d =>
    if d.pwr.asleep.isSome && !d.pwr.off then
      let n := d.get SYS_RESET_CAUSE.DEV_COUNT
      let w := d.pwr.wakes
      let banks := d.pwr.sigs.map (fun x => x.1)
      let d' : Dev := { d.wiped with regs := d.regs.filter (fun e => e.1.aonIsland), wkr := d.wkr,
                                     mem := d.mem.filter (keptAsleep banks), ecc := [], cw := d.cw,
                                     pwr := { d.pwr with off := true, wakes := [] } }
      (d'.put SYS_RESET_CAUSE.DEV_COUNT n).wakeNow w
    else d)

/-- The refresh interval for an AON temperature (R393), ms. -/
def refreshMs (temp : Int) : Nat := if temp < 45 then 128 else if temp < 85 then 64 else if temp < 105 then 32 else 16

/-- REFRESH_INTERVAL: the interval is chosen anew; a retained bank whose refresh did not complete has a miss (R393). The banks are
retained from the point of no return to the check of start-up step 5, and their signatures are kept as long. -/
def execRefreshInterval (temp : BitVec 8) (incomplete : BitVec 16) (s : State) : Host.Outcome State Fault Refusal :=
  s.on (fun d =>
    let d := d.put AON_REFR.INTERVAL (refreshMs temp.toInt)
    if d.pwr.entry.isNone then
      { d with pwr := { d.pwr with missed := d.pwr.missed ++
          (d.pwr.sigs.map (fun x => x.1)).filter (fun k => bitOf incomplete.toNat k && !d.pwr.missed.contains k) } }
    else d)

/-- RECOVERY_END: the Ranger ends recovery (R392). -/
def execRecoveryEnd (s : State) : Host.Outcome State Fault Refusal :=
  s.on (fun d => { d with rst := { d.rst with recovering := false } })

end Sys2Proof.Machine
end

