-- ==== Sys2Proof/Machine/CardWatch.lean ====
section
/-! DEFINITION. The card watch of the HF reader: when its pulses fall due, what a sample does, and the pulse in progress (R283 to
R286). -/

namespace Sys2Proof.Machine

/-- A value moved one sixteenth of its difference toward a sample, rounded toward the sample (R284). -/
def trackStep (diff : Int) : Int := if 0 ≤ diff then (diff + 15) / 16 else -((-diff + 15) / 16)

/-- The circular difference of two 8-bit phases, −128 to 127. -/
def phaseDiff (a b : Nat) : Int := signedOf 8 ((a + 256 - b % 256) % 256)

/-- One sample of the card watch (R284) on the register file it runs from: whether it deviates, the baselines, the counts,
and whether it makes a detection. -/
def Dev.cwSample (d : Dev) (amp ph : Nat) : Dev × Bool :=
  let base := d.get HFR_CW_BASE.AMP
  let pb := d.get HFR_CW_BASE.PH
  let da : Int := (amp : Int) - base
  let dp := phaseDiff ph pb
  let dev := decide (d.get HFR_CW_THR.A_THR * base < 200 * da.natAbs) || decide (d.get HFR_CW_THR.P_THR < dp.natAbs)
  let d := (d.put HFR_CW_LAST.AMP amp).put HFR_CW_LAST.PH ph |>.incWrap HFR_CW_CNT.PULSES
  if dev then
    if d.cw.held then ({ d with cw := { d.cw with calm := 0 } }, false)
    else if max 1 (d.get HFR_CW_CTRL.DEBOUNCE) ≤ d.cw.devs + 1 then
      (({ d with cw := { d.cw with devs := 0, calm := 0, held := true } }.put HFR_CW_LAST.DET 1).inc HFR_CW_CNT.DETECT, true)
    else ({ d with cw := { d.cw with devs := d.cw.devs + 1 } }, false)
  else
    let d := if d.isSet HFR_CW_CTRL.TRACK then
        (d.put HFR_CW_BASE.AMP ((base : Int) + trackStep da).toNat).put HFR_CW_BASE.PH (toSigned 8 ((pb : Int) + trackStep dp))
      else d
    let calm := d.cw.calm + 1
    if d.cw.held then
      if max 1 (d.get HFR_CW_THR.REARM) ≤ calm then ({ d with cw := { d.cw with devs := 0, calm := 0, held := false } }, false)
      else ({ d with cw := { d.cw with calm := calm } }, false)
    else ({ d with cw := { d.cw with devs := 0, calm := 0 } }, false)

/-- The samples of a pulse (R284, R285): a detection is an event, and in GLADE a wake source. -/
def Dev.cwFinish (d : Dev) (amp ph : Nat) : Dev :=
  let r := d.aonRegs.cwSample amp ph
  let d := if d.pwr.asleep.isSome then { d with cw := r.1.cw, pwr := { d.pwr with latch := r.1.regs } } else r.1
  if r.2 then d.aonEvent evHfrCard 2 (amp * 65536 + ph) else d

/-- The length of a pulse: 12 µs (R283). -/
def cwLength : Nat := usTicks 12

/-- The pulse in progress samples when its 12 µs are over. -/
def Dev.cwSync (d : Dev) : Dev :=
  match d.cw.pulse with
  | some (t, amp, ph) =>
    if d.pwr.asleep.isSome ∨ t + cwLength ≤ d.tick then { d with cw := { d.cw with pulse := none } }.cwFinish amp ph else d
  | none => d

/-- The field goes on in a pulse (R286): the pulse is abandoned, no sample is taken. -/
def Dev.cwAbandon (d : Dev) : Dev :=
  let d := d.cwSync
  if d.cw.pulse.isSome then { d with cw := { d.cw with pulse := none } }.inc HFR_CW_CNT.SKIPPED else d

/-- The heartwood ticks between pulses (R283): round(INTERVAL × 32.768), INTERVAL limited to 50 to 2,000 ms. -/
def Dev.cwPeriod (d : Dev) : Nat := (max 50 (min 2000 (d.get HFR_CW_CTRL.INTERVAL)) * 32768 + 500) / 1000

/-- Heartwood has reached the tick of the next pulse; the first one after EN is set may fall due at once (assumption: DESIGN
CHOICE). -/
def Dev.cwIsDue (d : Dev) : Bool := d.cw.due == 0 || decide ((d.hw + 2 ^ 48 - d.cw.due % 2 ^ 48) % 2 ^ 48 < 2 ^ 47)

/-- A pulse has fallen due; the next one follows after the interval of the register file `l` that the watch runs from. -/
def Dev.cwNext (d l : Dev) : Dev :=
  { d with cw := { d.cw with due := (if d.cw.due = 0 then d.hw else d.cw.due) + l.cwPeriod } }

/-- The current of a pulse, mA: CW_I, limited to ILIM. -/
def Dev.cwCurrent (d : Dev) : Nat := min (d.get HFR_CW_CTRL.CW_I) (d.get HFR_DRV.ILIM)

/-- An empty queue: a tick passes, a card-watch pulse that it ends samples, a stalled host read of a queue whose item it makes
visible completes, and status items owed to a queue enter it as far as it has room (assumption: DESIGN CHOICE). -/
def State.idleTick (s : State) : State :=
  let d := s.idle.dev.cwSync
  let d := ((d.q.filter (fun x => x.2.stall.isSome)).map (fun x => x.1)).foldl (fun d k => d.qHostDue k) d
  { s.idle with dev := ((d.q.filter (fun x => !x.2.owed.isEmpty)).map (fun x => x.1)).foldl (fun d k => d.qPay k) d }

end Sys2Proof.Machine
end

