-- ==== Sys2Proof/Machine/Air.lean ====
section
/-! DEFINITION. The air instructions: BIND, HOP, PWR, ANT, BEAM, CARRY, TXC, LSN and RXB, with the events that end them
(R126 to R147, R276 to R279, R294 to R296). -/

namespace Sys2Proof.Machine

/-! ### Before the effect (R127, R131, R147) -/

/-- A blocking air instruction: its immediate end is at its named tick (R128). -/
def airBlocking (op : Nat) : Bool := op == opCarry || op == opTxc || op == opLsn

/-- An air instruction ends without waiting: a blocking one that the state of its port cuts off at its named tick, any other
after its cycles. -/
def Dev.airStop (d : Dev) (v op cyc : Nat) (oc : Oc) (st : Nat) : Dev :=
  if airBlocking op && oc == .cut && st != stPortKind then d.airEnd v op oc st d.named else d.ended v op oc st 1 cyc

/-- The front ends behind a port code. -/
def Dev.portFes (d : Dev) (p : Nat) : List Nat :=
  if p < 8 then [p] else if 0x0C ≤ p ∧ p ≤ 0x0F then d.members (p - 0x0C) else []

/-- The island of a port is missing (R131). -/
def Dev.portMissing (d : Dev) (p : Nat) : Bool := (p == 9 && !d.present 5) || (p == 10 && !d.present 6)

/-- US is attached, or a takeover of it runs (R147): UHFS is then no port of its own. -/
def Dev.usTaken (d : Dev) : Bool := d.attached.isSome || d.spare.sw.isSome

/-- Vat `v` is held by a switch-over with instruction `i`; `ref` is the E_R that a TXC in REL mode counts from (R147). -/
def Dev.hold (d : Dev) (v : Nat) (i : Isrin) (ref : Option Nat := none) : Dev :=
  let d := (d.put VAT_ASTAT.HELD 1 v).block v (.held i)
  d.setVat v { d.vatx v with heldRef := ref }

/-- A takeover started in the tick that instruction `i` of Vat `v` names, at which `i` would have launched (R157): a CARRY on a chain
that stood in RX, a TXC on its carrier. -/
def Dev.launchLost (d : Dev) (v p : Nat) (i : Isrin) : Bool :=
  match d.spare.sw with
  | some w =>
    w.take && w.start == d.named && (d.portFes p).contains w.fe &&
      (match i with
       | .carry on => on && !w.hadCarrier && w.wasRx
       | .txc _ rb launch _ =>
         w.hadCarrier && (launch == 0 || (launch == 1 && ((d.chx (d.slotUnit p)).refE.map (fun r => r + d.gr v rb)) == some d.named))
       | _ => false)
  | none => false

/-- What every air instruction but BIND asks first: a binding, a present island, no switch-over on its front end, and
for UHFS an unattached US. -/
def Dev.air (d : Dev) (v op cyc : Nat) (i : Isrin) (f : Dev → Dev) : Dev :=
  let p := d.get VAT_BIND.PORT v
  if p = 0x1F then d.airStop v op cyc .clash stNotBound
  else if d.portMissing p then d.airStop v op cyc .cut stPortKind
  else if d.launchLost v p i then d.airStop v op cyc .cut stTakeover
  else if (d.portFes p).any d.switching then d.hold v i (d.chx (d.slotUnit p)).refE
  else if p = 8 ∧ d.usTaken = true then d.airStop v op cyc .weak stPortTaken
  else f d

/-! ### BIND (R132, R234, R242) -/

/-- The port `p` is bound to another Vat than `v`, alone or through a group, or is UHFS while US carries a front end. -/
def Dev.portTaken (d : Dev) (v p : Nat) : Bool :=
  let other := fun q => match d.binder q with | some w => w != v | none => false
  other p ||
    (if p < 8 then (List.range 4).any (fun k => (d.members k).contains p && other (0x0C + k))
     else if p = 8 then d.usTaken
     else if 0x0C ≤ p then (d.members (p - 0x0C)).any (fun n =>
       other n || (List.range 4).any (fun k => (d.members k).contains n && other (0x0C + k)))
     else false)

/-- The binding of Vat `v` becomes port `p` (0x1F none): sightings and steering values of the old one are gone. -/
def Dev.setBind (d : Dev) (v p : Nat) : Dev :=
  let old := d.get VAT_BIND.PORT v
  let d := d.put VAT_BIND.PORT p v
  let d := (if old = 9 ∨ old = 10 then [old] else d.portUnits old).foldl (fun d u => d.touchNo u d.tick) d
  let d := d.setVat v { d.vatx v with sight := none }
  let d := if 0x0C ≤ p ∧ p ≤ 0x0F then d.setGrp (p - 0x0C) { d.grpx (p - 0x0C) with steers := [], lead := none } else d
  if old = 8 ∧ p ≠ 8 then d.usByReadiness else d

/-- A Vat of a higher number than `v` that bound port `p` in the present cycle loses it to Vat `v` (R157): it keeps the binding it
had, and its BIND ends as refused. -/
def Dev.bindTake (d : Dev) (v p : Nat) : Dev :=
  match d.bound.find? (fun b => b.clk == d.clk && decide (v < b.vat) && b.what == p) with
  | some b =>
    let e := d.put VAT_BIND.PORT b.was b.vat
    { (e.setVat b.vat { d.vatx b.vat with sight := b.sight }).outcome b.vat opBind .weak stPortTaken with
      bound := d.bound.filter (fun x => x != b) }
  | none => d

/-- BIND. -/
def Dev.doBind (d : Dev) (v : Nat) (port : BitVec 5) : Dev :=
  let p := port.toNat
  let old := d.get VAT_BIND.PORT v
  if p = 0x0B ∨ (0x10 ≤ p ∧ p ≤ 0x1E) then d.doIllegal v
  else if old != 0x1F && (d.portFes old).any d.switching then d.hold v (.bind port)
  else if old = 8 ∧ d.usTaken = true then d.ended v opBind .weak stPortTaken 1 2
  else if p = old then d.ended v opBind .one 0 1 2
  else if d.portMissing p then d.ended v opBind .cut stPortKind 1 2
  else if 0x0C ≤ p ∧ p ≤ 0x0F ∧ (d.members (p - 0x0C) = [] ∨ d.grpEn (p - 0x0C) = false) then
    d.ended v opBind .clash stPortKind 1 2
  else if p ≠ 0x1F ∧ (d.bindTake v p).portTaken v p = true then d.ended v opBind .weak stPortTaken 1 2
  else if d.anyGate (d.portUnits old) then d.ended v opBind .weak stCarrierOn 1 2
  else
    let d := d.bindTake v p
    let d := { d with bound := d.bound.filter (fun (x : Won) => x.clk == d.clk) ++
      [({ clk := d.clk, vat := v, what := p, was := old, sight := (d.vatx v).sight } : Won)] }
    let d := d.setBind v p
    let d := if p = 9 then d.calUnstart 13 else (d.portUnits p).foldl (fun d u => d.calUnstart u) d
    let d := d.asOf d.named (fun d =>
      if p = 0x1F ∨ p = 10 then d else if p = 9 then d.calAbort 13 else d.calAborts (d.portUnits p))
    d.ended v opBind .one 0 1 2

/-! ### HOP, PWR, ANT and BEAM (R134 to R137) -/

/-- The outcome class of a refusal of HOP or ANT. -/
def refusalOc (st : Nat) : Oc := if st = stSynBusy ∨ st = stAntBusy then .weak else .clash

/-- HOP. -/
def Dev.doHop (d : Dev) (v : Nat) (ra : RegNo) (i : Bool) (table : BitVec 3) (idx : BitVec 10) : Dev :=
  d.air v opHop 2 (.hop ra i table idx) (fun d =>
    let p := d.get VAT_BIND.PORT v
    if p = 9 ∨ p = 10 then d.ended v opHop .clash stPortKind 1 2
    else
      match d.hopEntry v table.toNat (d.chosen v i ra idx.toNat 10) with
      | none => d.ended v opHop .clash stTblAbsent 1 2
      | some e =>
        let m := d.synOf ((d.portUnits p).headD 0)
        let slots := (d.portRegs p).map (fun u => (u, d.get UHF_CTRL.CHSLOT u))
        let r : SynReq := { vat := v, khz := bitsOf e 19 0, slot := bitsOf e 26 24, was := slots,
                            err := d.get VAT_ASTAT.LAST_ERR v, op := d.get VAT_ASTAT.LAST_OP v, refused := d.get VAT_ACNT.REFUSED v }
        let (d, st) := d.vatRetune m d.named r
        if st != 0 then d.ended v opHop (refusalOc st) st 1 2
        else ((d.portRegs p).foldl (fun d u => d.put UHF_CTRL.CHSLOT (bitsOf e 26 24) u) d).ended v opHop .one 0 1 2)

/-- A setpoint for electronics `c` is refused by the guard (R48, R260): a carrier is on, its gate open, and check 4 fails. -/
def Dev.setptBad (d : Dev) (c val : Nat) : Bool := d.gate c && d.cst c != csTrip && !d.setptOk c val

/-- A setpoint for electronics `c` (R48, R135): during a carrier the guard checks it first, and a refused one is not applied. -/
def Dev.pwrTo (d : Dev) (c val : Nat) : Dev :=
  if d.setptBad c val then (d.guardRefuse 4 ((d.feOf c).getD 8)).put UHF_STATUS.LAST_ERR stRguRefused (d.cfg c)
  else d.put UHF_PWR.SETPT val (d.cfg c)

/-- The same by a Vat's PWR; a setpoint that the host wrote in the same tick lands after it where it passes (R268). -/
def Dev.vatPwr (d : Dev) (c val : Nat) : Dev :=
  let d' := d.pwrTo c val
  match (d.chx (d.cfg c)).hostSet with
  | some (t, x) => if t = d.named ∧ d.setptBad c x = false then d'.put UHF_PWR.SETPT x (d.cfg c) else d'
  | none => d'

/-- The delay from the named tick to the launch tick of an HFR or ACT command (R277, R294). -/
def portDelay : Nat := 154

/-- PWR: on UHF the setpoint of every chain of the port, checked by the guard during a carrier (a member whose setpoint is
refused keeps its own; assumption: DEDUCED); on HFR and ACT the driver current and the output level, written at the launch tick and
held while a frame is sent (R276, R277, R294). -/
def Dev.doPwr (d : Dev) (v : Nat) (ra : RegNo) (i : Bool) (setpt : BitVec 9) : Dev :=
  d.air v opPwr 2 (.pwr ra i setpt) (fun d =>
    let p := d.get VAT_BIND.PORT v
    let x := d.chosen v i ra setpt.toNat 9
    if p = 9 ∨ p = 10 then
      let val := if p = 9 then min 350 x else min x (d.get ACT_LIMIT.MAXP)
      let d := d.portSync p
      (d.setCh p { d.chx p with levels := (d.chx p).levels ++ [(val, d.named + portDelay)] }).ended v opPwr .one 0 1 2
    else
      let val := min 330 x
      let no := (d.portUnits p).any (fun c => d.setptBad c val)
      let d := (d.portUnits p).foldl (fun d c => d.vatPwr c val) d
      if no then d.ended v opPwr .cut stRguRefused 1 2 else d.ended v opPwr .one 0 1 2)

/-- The electronics that a chain's registers set: whoever carries its front end, for UHFS US itself. -/
def Dev.driver (d : Dev) (u : Nat) : Nat := if u < 8 then d.carrierOf u else u

/-- The refusal of port `port` for chain registers `u` (R53): 0 where it is accepted, or changes nothing. -/
def Dev.portRefusal (d : Dev) (u port : Nat) : Nat :=
  if d.get UHF_ANT.PORT u = port then 0
  else if d.gate (d.driver u) then stAntBusy
  else if bitOf (d.get UHF_ANT.FITTED u) port then 0 else stPortAbsent

/-- ANT: on a canopy, if any member refuses, no member changes. -/
def Dev.doAnt (d : Dev) (v : Nat) (ra : RegNo) (i : Bool) (port : BitVec 4) : Dev :=
  d.air v opAnt 2 (.ant ra i port) (fun d =>
    let p := d.get VAT_BIND.PORT v
    let x := d.chosen v i ra port.toNat 4
    if p = 9 ∨ p = 10 then d.ended v opAnt .clash stPortKind 1 2
    else
      let d' := if d.named = d.tick then d.unlaunchs (d.portUnits p) else d
      let d := if (d.portRegs p).all (fun u => d'.portRefusal u x == 0) && (d.portRegs p).any (fun u => d.get UHF_ANT.PORT u != x)
        then d' else d
      match (d.portRegs p).find? (fun u => d.portRefusal u x != 0) with
      | some u =>
        let st := d.portRefusal u x
        (d.put UHF_STATUS.LAST_ERR st u).ended v opAnt (refusalOc st) st 1 2
      | none => ((d.portRegs p).foldl (fun d u => d.drivePort u x d.named) d).ended v opAnt .one 0 1 2)

/-- A weight written to chain registers `u` at tick `t` (R52): the register reads it back from here (R212); in MOD the one in effect
stays until the template ends, and while a carrier is on the change takes 256 ticks. -/
def Dev.writeTxw (d : Dev) (u amp phase t : Nat) : Dev :=
  let c := if u < 8 then d.carrierOf u else u
  let old := (d.chx c).txwHold.getD (d.get UHF_TXW.AMP u, d.get UHF_TXW.PHASE u)
  let d := (d.put UHF_TXW.AMP amp u).put UHF_TXW.PHASE phase u
  if (d.chx u).txOn ∧ (d.chx u).txStart ≤ t then d.setCh c { d.chx c with txwHold := some old }
  else
    if d.gate c then d.setCh c { d.chx c with txwDone := t + 1 + 256 } else d

/-- BEAM; a set whose steering table the hoop lacks is refused (R217). -/
def Dev.doBeam (d : Dev) (v : Nat) (ra : RegNo) (i : Bool) (set : BitVec 10) : Dev :=
  d.air v opBeam 2 (.beam ra i set) (fun d =>
    let p := d.get VAT_BIND.PORT v
    if p < 0x0C then d.ended v opBeam .clash stPortKind 1 2
    else
      match d.weightSet v (d.chosen v i ra set.toNat 10) with
      | none => d.ended v opBeam .clash stTblAbsent 1 2
      | some w =>
        let k := p - 0x0C
        let t := d.named
        let steer := bitsOf (d.hw' w) 11 0
        if steer ≠ 0xFFF ∧ d.steerCount v ≤ steer then d.ended v opBeam .clash stTblAbsent 1 2 else
        let d := (d.members k).foldl (fun d n =>
          d.writeTxw n (bitsOf (d.hw' (w + 1 + n)) 23 16) (bitsOf (d.hw' (w + 1 + n)) 9 0) t) d
        (d.setGrp k { d.grpx k with steers := (t, steer) :: (d.grpx k).steers }).ended v opBeam .one 0 1 2)

/-! ### CARRY (R43, R45, R46, R138, R139, R272, R277, R290) -/

/-- CARRY ON on UHF. -/
def Dev.carryOnUhf (d : Dev) (v p : Nat) : Dev :=
  let units := d.portUnits p
  let d := d.chainSettles units
  if units.all d.carrierOn then d.ended v opCarry .one 0 1 2
  else if units.any (fun c => d.cst c == csTrip) then d.airStop v opCarry 2 .cut stChainTrip
  else if units.any (fun c => d.cst c == csOff) then d.airStop v opCarry 2 .cut stChainOff
  else
    let t := d.named
    (units.foldl (fun d c => if d.cst c = csReady ∨ (d.chx c).goal.isSome then d.chainGo c 2 t else d) d).block v (.carryOn t)

/-- CARRY OFF on UHF. -/
def Dev.carryOffUhf (d : Dev) (v p : Nat) : Dev :=
  let units := d.portUnits p
  let d := d.chainSettles units
  if d.anyGate units then (units.foldl (fun d c => d.rampDown c d.named) d).block v .carryOff
  else d.ended v opCarry .one 0 1 2

/-- CARRY on HFR and ACT: OFF to READY first; at the launch tick of CARRY OFF the field goes off, or ACT is in READY, the end
tick. -/
def Dev.carryPort (d : Dev) (v p : Nat) (on : Bool) : Dev :=
  let d := d.portSync p
  let t := d.named
  if on then
    if d.portOn p then d.ended v opCarry .one 0 1 2
    else if d.pst p = 4 then d.airStop v opCarry 2 .cut (portTripSt p)
    else (d.portWake p t).block v (.carryOn t)
  else if d.portOn p then
    let d := d.setCh p { d.chx p with goal := some 5, due := t + portDelay, target := none }
    if p = 9 then d.block v .carryOff else d.airEnd v opCarry .one 0 (t + portDelay)
  else d.ended v opCarry .one 0 1 2

/-- CARRY. -/
def Dev.doCarry (d : Dev) (v : Nat) (on : Bool) : Dev :=
  d.air v opCarry 2 (.carry on) (fun d =>
    let p := d.get VAT_BIND.PORT v
    if p = 9 ∨ p = 10 then d.carryPort v p on
    else if on then d.carryOnUhf v p else d.carryOffUhf v p)

/-- The guard's answer for a launch of several electronics (R139): the first refusal, with its front end. -/
def Dev.launchChecks (d : Dev) (t : Nat) : List Nat → Option (Nat × Nat)
  | [] => none
  | c :: cs =>
    let r := d.launchCheck c t false
    if r = 0 then d.launchChecks t cs else some (r, (d.feOf c).getD 8)

/-- The first tick at which nothing timed stands in the way of a launch named for `t`. -/
def Dev.launchTick (d : Dev) (units : List Nat) (t : Nat) : Nat :=
  units.foldl (fun t c =>
    max t (max (d.chx (d.cfg c)).settleAt (if (d.chx c).goal.isSome then (d.chx c).due else 0))) (max t d.tick)

/-- A CARRY ON held for its conditions launches (R45, R46, R139): every member in one tick, or the guard's refusal. -/
def Dev.launchUhf (d : Dev) (v p named : Nat) : Dev :=
  let units := d.portUnits p
  let t := d.launchTick units named
  let d' := (d.toTick t).chainSettles units
  if units.all (fun c => d'.inRx c && d'.settledAt (d'.cfg c) t && d'.locked (d'.synOf c)) then
    match d'.launchChecks t units with
    | some (r, fe) => ((d'.guardRefuse r fe).put UHF_STATUS.LAST_ERR stRguRefused fe).airEnd v opCarry .cut stRguRefused t
    | none =>
      let b := d'.before units (some v) (units.flatMap d'.launchKeys ++ endKeys v)
      let d := (units.foldl (fun d c => d.launch c t false false) d').airEnd v opCarry .one 0 t
      d.keepLaunch b
  else d

/-- The field goes on: at the launch tick, held until READY with the PLL locked (R276, R277); a card-watch pulse in progress is
abandoned (R286). The air event starts at the HFR clock edge nearest its tick (R22, R277), and the phase of that clock is open (R18);
the model launches at the commanded tick itself, here and in `launchAct` (assumption: DESIGN CHOICE). -/
def Dev.launchHf (d : Dev) (named : Nat) : Dev :=
  let t := max (max d.tick (named + portDelay)) (d.portReadyAt 9)
  let d' := (d.toTick t).portSync 9
  if d'.pst 9 = 1 ∧ (d'.chx 9).goal = none ∧ d'.isSet HFR_STATUS.PLL_LOCK = true then
    let d' := d'.cwAbandon
    (d'.put HFR_STATUS.STATE 2).setCh 9 { d'.chx 9 with goal := none, launched := t, lastTx := none, refE := none }
  else d

/-- The ACT receiver and synthesiser go on at the launch tick (R290, R294); the CARRY ends at lock. -/
def Dev.launchAct (d : Dev) (named : Nat) : Dev :=
  let t := max (max d.tick (named + portDelay)) (d.portReadyAt 10)
  (d.toTick t).portSync 10

/-- CARRY_LAUNCH. -/
def Dev.carryLaunch (d : Dev) (v : Nat) : Dev :=
  match (d.vatx v).wait with
  | .carryOn named =>
    let p := d.get VAT_BIND.PORT v
    if p = 9 then d.launchHf named else if p = 10 then d.launchAct named else d.launchUhf v p named
  | _ => d

/-- What the happenings of a tick that come before a launch have taken back is tried again: the held CARRYs of Vats, LKC, and a
switch-over's restored carrier (R60, R268). -/
def Dev.relaunch (d : Dev) (vs : List Nat) : Dev :=
  (chainIds.foldl (fun d c => d.lkcTry c) (vs.foldl (fun d v => d.carryLaunch v) d)).spareTry

/-- A held CARRY ON has waited 100 µs for lock (R46, R276, R294). -/
def Dev.synTimeout (d : Dev) (v : Nat) : Dev :=
  match (d.vatx v).wait with
  | .carryOn named =>
    let p := d.get VAT_BIND.PORT v
    let port := p == 9 || p == 10
    let t := named + 15360 + (if port then portDelay else 0)
    let lacking := if port then !d.portOn p && d.pst p != 4 else (d.portUnits p).any (fun c => !d.locked (d.synOf c))
    if lacking then let d := d.toTick t; d.airEnd v opCarry .cut stSynTimeout t else d
  | _ => d

/-! ### TXC (R140, R141, R169, R170, R278, R295) -/

/-- The KIND of templates a port takes: UHF 0, HFR 1, ACT 2. -/
def portKind (p : Nat) : Nat := if p = 9 then 1 else if p = 10 then 2 else 0

/-- Whole bytes of a list of bits, each followed by a bit that `f` makes of it; the bits of a broken byte follow as they are. -/
def perByte (f : List Bool → Bool) : Nat → List Bool → List Bool
  | 0, bits => bits
  | n + 1, bits =>
    if bits.length < 8 then bits else bits.take 8 ++ f (bits.take 8) :: perByte f n (bits.drop 8)

/-- The bits of an HF frame (R271, R278): the template's, with CRC 10 the mode's CRC, and with PARITY an odd parity bit after every
byte, but for a short frame. -/
def Dev.hfBits (d : Dev) (h : Nat) (bits : List Bool) : List Bool :=
  let k := bitsOf h 31 30
  let c := d.hfCrc k
  let bits := if bitsOf h 27 26 = 2 then bits ++ crcTail c.1 c.2 bits else bits
  if d.isSet HFR_MODE.PARITY 0 k && d.hfMiller k && bitsOf h 29 28 != 1 then
    perByte (fun b => (b.filter id).length % 2 == 0) bits.length bits
  else bits

/-- The bits of an ACT frame (R289, R295): PROF 01 as they are; PROF 00 with CRC 10 the CRC-16, and one stop bit 0 after every
byte. -/
def actBits (h : Nat) (bits : List Bool) : List Bool :=
  if bitsOf h 31 30 = 1 then bits
  else
    let bits := if bitsOf h 27 26 = 2 then bits ++ crcTail 0 false bits else bits
    perByte (fun _ => false) bits.length bits

/-- The template's bits after substitution, as they are sent: with the CRC a UHF template appends (R169, R170), or as the framing of
HFR or ACT has them. -/
def Dev.txBits (d : Dev) (v : Nat) (rd : RegNo) (w : Nat) : List Bool :=
  let h := d.hw' w
  let nsub := min 8 (bitsOf h 23 20)
  let n := bitsOf h 10 0
  let bits := d.packedBits (w + 2 + nsub) n
  let subs := (List.range nsub).map (fun k => d.hw' (w + 2 + k))
  let bits := substAll bits (fun k => d.gr v (regPlus rd k)) subs
  if bitsOf h 25 24 = 0 then bits ++ crcBits (bitsOf h 27 26) bits
  else if bitsOf h 25 24 = 1 then d.hfBits h bits else actBits h bits

/-- The ticks a UHF template takes on chain registers `u` (R169): delimiter, data-0, RTcal, TRcal, then the symbols. -/
def Dev.uhfTicks (d : Dev) (u w : Nat) (bits : List Bool) : Nat :=
  let h := d.hw' w
  let t := d.hw' (w + 1)
  let prof := bitsOf h 31 30
  let tari := d.get UHF_MODP_A.TARI u prof
  let one := d.get UHF_MODP_B.DATA1 u prof
  let pre := bitsOf h 29 28
  let lead := if pre = 0 then 1920 + tari + bitsOf t 31 16 + bitsOf t 15 0
    else if pre = 1 then 1920 + tari + bitsOf t 31 16 else 0
  lead + (bits.map (fun b => if b then one else tari)).sum

/-- The ticks an ACT frame takes (R289, R295). -/
def Dev.actTicks (d : Dev) (w : Nat) : Nat :=
  let h := d.hw' w
  let pre := bitsOf h 29 28
  let n := bitsOf h 10 0
  if bitsOf h 31 30 = 1 then n * 153600
  else
    (if pre = 1 then msTicks (bitsOf (d.hw' (w + 1)) 31 16) else 0) + (if pre = 2 then 0 else 199068) +
      (n / 8 + (if bitsOf h 27 26 = 2 then 2 else 0)) * 9 * 5544

/-- What HF mode profile `k` asks of a frame: STD, RATE, RXLOW, DUALSC, C256, PARITY and DEPTH where HFR_MODEk has them. -/
def Dev.hfProfile (d : Dev) (k : Nat) : Nat :=
  d.get HFR_MODE.STD 0 k * 2 ^ 28 + d.get HFR_MODE.RATE 0 k * 2 ^ 24 + d.get HFR_MODE.RXLOW 0 k * 2 ^ 22 +
    d.get HFR_MODE.DUALSC 0 k * 2 ^ 21 + d.get HFR_MODE.C256 0 k * 2 ^ 20 + d.get HFR_MODE.PARITY 0 k * 2 ^ 19 +
    d.get HFR_MODE.DEPTH 0 k * 2 ^ 8

/-- The ticks an HF frame takes in its mode (R278): a free value. -/
def Dev.hfTicks (d : Dev) (w : Nat) (bits : List Bool) : Nat :=
  Config.hfFrameTicks (d.hfProfile (bitsOf (d.hw' w) 31 30)) (d.hw' w) bits

/-- The registers whose latest classified reply is the reference of TXC REL (R141, R214). -/
def Dev.refUnit (d : Dev) (p : Nat) : Nat := d.slotUnit p

/-- The duty limit of ACT in ticks (R292): DUTY × 3.6 s; a DUTY written in the tick of the check does not count yet (R302). -/
def Dev.dutyLimit (d : Dev) : Nat :=
  let duty := match (d.chx 10).hostSet with
    | some (t, old) => if t = d.named then old else d.get ACT_LIMIT.DUTY
    | none => d.get ACT_LIMIT.DUTY
  max 1 duty * 552960000

/-- A transmission starts on every register of a port: from tick `l` for `n` ticks. -/
def Dev.txStart' (d : Dev) (us : List Nat) (l n : Nat) (bits : List Bool) : Dev :=
  us.foldl (fun d u => d.setCh u { d.chx u with txOn := true, txStart := l, txEnd := l + n, sent := bits }) d

/-- TXC on UHF, its template at word `w`. -/
def Dev.txcUhf (d : Dev) (v p : Nat) (rd rb : RegNo) (rel : Bool) (w : Nat) : Dev :=
  let us := d.portRegs p
  let units := d.portUnits p
  let d := d.chainSettles units
  let prof := bitsOf (d.hw' w) 31 30
  let refE := (d.chx (d.refUnit p)).refE
  if rel = true ∧ refE = none then d.airStop v opTxc 2 .clash stNoRef
  else if units.all (fun c => d.cst c == csUp || d.cst c == csCarrier) = false then d.airStop v opTxc 2 .cut stNoCarrier
  else if us.all (fun u => d.isSet UHF_MODP_A.VALID u prof) = false then (us.foldl (fun d u => d.put UHF_STATUS.LAST_ERR stModParam u) d).airStop v opTxc 2 .cut stModParam
  else
    let up := units.foldl (fun t c => if d.cst c = csUp then max t (d.chx c).due else t) d.named
    let l := if rel then refE.getD 0 + d.gr v rb else up
    if rel = true ∧ l < d.named then d.airStop v opTxc 2 .late stLaunchPassed
    else
      let bits := d.txBits v rd w
      let n := (us.map (fun u => d.uhfTicks u w bits)).foldl max 0
      (d.txStart' us l n bits).block v (.txc l (l + n))

/-- TXC on HFR or ACT, its template at word `w`. -/
def Dev.txcPort (d : Dev) (v p : Nat) (rd rb : RegNo) (rel : Bool) (w : Nat) : Dev :=
  let d := d.portSync p
  let refE := (d.chx p).refE
  let first := d.named + portDelay
  let l := if rel then refE.getD 0 + d.gr v rb else first
  let bits := d.txBits v rd w
  let n := if p = 9 then d.hfTicks w bits else d.actTicks w
  let prof := bitsOf (d.hw' w) 31 30
  if rel = true ∧ refE = none then d.airStop v opTxc 2 .clash stNoRef
  else if d.portOn p = false then d.airStop v opTxc 2 .cut stNoCarrier
  else if p = 9 ∧ d.isSet HFR_MODE.VALID 0 prof = false then (d.put HFR_STATUS.LAST_ERR stHfMode).airStop v opTxc 2 .cut stHfMode
  else if rel = true ∧ l < first then d.airStop v opTxc 2 .late stLaunchPassed
  else if p = 10 ∧ d.dutyLimit < d.dutySum + n then (d.put ACT_STATUS.LAST_ERR stActDuty).airStop v opTxc 2 .cut stActDuty
  else
    let d := if p = 10 then d.dutyCharge n false else d
    let d := d.txStart' [p] l n bits
    (d.setCh p { d.chx p with txProf := prof }).block v (.txc l (l + n))

/-- TXC; LAUNCH 10 and 11 are illegal (R127). -/
def Dev.doTxc (d : Dev) (v : Nat) (rd rb : RegNo) (launch : BitVec 2) (tpl : BitVec 10) : Dev :=
  if 2 ≤ launch.toNat then d.doIllegal v
  else
    d.air v opTxc 2 (.txc rd rb launch tpl) (fun d =>
      let p := d.get VAT_BIND.PORT v
      match (d.template v 3 tpl.toNat).filter (fun w => bitsOf (d.hw' w) 25 24 == portKind p) with
      | none => d.airStop v opTxc 2 .clash stTblAbsent
      | some w =>
        if p = 9 ∨ p = 10 then d.txcPort v p rd rb (launch == 1) w else d.txcUhf v p rd rb (launch == 1) w)

/-- The last symbol of a transmission ends (R140, R276, R279): TXC_END. A template that the guard's ramp-down has cut short ends with
CUT when the gate is closed (R260). -/
def Dev.txcEnd (d : Dev) (v : Nat) : Dev :=
  match (d.vatx v).wait with
  | .txc _ finish =>
    let p := d.get VAT_BIND.PORT v
    let d := d.toTick finish
    let d' := d.chainSettles (d.portUnits p)
    if (p ≠ 9 ∧ p ≠ 10) ∧ ((d'.vatx v).wait ≠ (d.vatx v).wait ∨ (d.portUnits p).any (fun c => (d'.chx c).guarded.isSome)) then d'
    else
    let d := if p = 9 ∨ p = 10 then
        let x := d.chx p
        let pause := if p = 9 ∧ d.get HFR_MODE.DEPTH 0 x.txProf = 100 then Config.hfLastPause (d.hfProfile x.txProf) x.sent else 0
        let d := if p = 10 then d.blank433 finish else d
        (d.setCh p { x with txOn := false, lastTx := some (finish - pause) }).portLevels p finish
      else (d.portRegs p).foldl (fun d u => d.txStop u finish) d'
    d.airEnd v opTxc .one 0 finish
  | _ => d

/-! ### LSN (R66 to R68, R142, R143, R171, R279, R296) -/

/-- The window of the listen template at word `w` with reference tick `ref`. -/
def Dev.windowOf (d : Dev) (w ref : Nat) (v : Nat) (group : Option Nat) : Window :=
  let x := d.hw' (w + 5)
  { ref := ref, openAt := ref + d.hw' (w + 1), close := ref + d.hw' (w + 2), t1Min := ref + d.hw' (w + 3),
    t1Max := ref + d.hw' (w + 4), blf := bitsOf x 31 16, m := bitsOf x 15 14, trext := bitOf x 13,
    strict := bitOf x 12, lmode := bitsOf x 11 10, len := bitsOf (d.hw' w) 12 0, crc16 := bitOf x 9,
    qsel := bitsOf x 8 7, vat := some v, group := group }

/-- The listen parameters are valid (R67, R279, R296). -/
def Window.valid (w : Window) (port : Bool) : Bool :=
  decide (w.openAt ≤ w.t1Min) && decide (w.t1Min < w.t1Max) && decide (w.t1Max ≤ w.close) &&
    (port || (decide (400 ≤ w.blf) && decide (w.blf ≤ 6400))) &&
    (w.lmode != 0 || (decide (1 ≤ w.len) && decide (w.len ≤ 4608))) &&
    (!port || w.lmode == 0 || w.lmode == 3)

/-- The gain step with which a window starts (R73, R90): AGC_START, with AGC = FIXED AGC_FIX; steps run from 0 to 14. -/
def Dev.agcAt (d : Dev) (u : Nat) : Nat :=
  min 14 (if d.get UHF_RX_CTRL.AGC u = 1 then d.get UHF_RX_CTRL.AGC_FIX u else d.get UHF_RX_CTRL.AGC_START u)

/-- The window opens on the registers `u` of a UHF port (R66 to R68, R143): an invalid or impossible one is cut at once, one
whose decision tick is already past ends as NONE. An earlier window still open there (its Vat was stopped) is replaced without a
class of its own (assumption: DESIGN CHOICE, R69 does not say what becomes of it). -/
def Dev.lsnUhf (d : Dev) (u v w : Nat) (group : Option Nat) (named : Nat) : Dev :=
  let c := if u < 8 then d.carrierOf u else u
  let d := d.chainSettle c
  let x := d.windowOf w ((d.chx u).lastTx.getD named) v group
  let ok := x.valid false
  let late := decide (x.openAt < named)
  let d := if ok ∧ late then d.put VAT_ASTAT.WLATE 1 v else d
  let x := if late then { x with openAt := named } else x
  let d := (d.lkcFold c d.tick).setCh u { (d.lkcFold c d.tick).chx u with win := some x }
  let d := if ok then (d.setBlf u x.blf).put UHF_RX_NOISE.GAIN (d.agcAt u) u else d
  if ok = false then (d.put UHF_STATUS.LAST_ERR stLsnParam u).cutWindow u 5 stLsnParam
  else if d.cst c < csRx ∨ csCarrier < d.cst c then d.cutWindow u 6 stNoCarrier
  else if x.close + 384 ≤ named then ((d.countNew u).classify u { cls := 0 } [] none).windowTold u x 0 0
  else d

/-- The same on HFR or ACT. -/
def Dev.lsnPort (d : Dev) (p v w named : Nat) : Dev :=
  let d := d.portSync p
  let x := d.windowOf w ((d.chx p).lastTx.getD named) v none
  let prof := bitsOf (d.hw' (w + 5)) 31 30
  let x := if p = 9 then { x with m := prof } else x
  let mode := p != 9 || d.isSet HFR_MODE.VALID 0 prof
  let ok := x.valid true && mode
  let late := decide (x.openAt < named)
  let d := if ok ∧ late then d.put VAT_ASTAT.WLATE 1 v else d
  let x := if late then { x with openAt := named } else x
  let d := d.setCh p { d.chx p with win := some x }
  let st := if p = 9 then stHfMode else stLsnParam
  if ok = false then (d.put (if p = 9 then HFR_STATUS.LAST_ERR else ACT_STATUS.LAST_ERR) st).portCut p 5 st
  else if d.portOn p = false then d.portCut p 6 stNoCarrier
  else if x.close + 384 ≤ named then d.portClassify p 0 [portWord0 p 0 x, 0, 0, 0, 0, 0, 0] 0 [] none 0
  else d

/-- LSN: the Vat waits for the class; a canopy opens one window on every member. -/
def Dev.doLsn (d : Dev) (v : Nat) (rd : RegNo) (tpl : BitVec 10) : Dev :=
  d.air v opLsn 2 (.lsn rd tpl) (fun d =>
    let p := d.get VAT_BIND.PORT v
    match (d.template v 4 tpl.toNat).filter (fun w => bitsOf (d.hw' w) 25 24 == portKind p) with
    | none => d.airStop v opLsn 2 .clash stTblAbsent
    | some w =>
      let t := d.named
      let d := (d.block v (.lsn rd)).toTick t
      if p = 9 ∨ p = 10 then d.lsnPort p v w t
      else if 0x0C ≤ p then
        let k := p - 0x0C
        let ms := d.members k
        let g := d.grpx k
        let ref := ((ms.head?).bind (fun u => (d.chx u).lastTx)).getD t
        let d := d.setGrp k { g with window := g.window + 1, opened := true, ref := ref, valid := [], decided := [],
                                     started := false, decTick := 0 }
        ms.foldl (fun d u => d.lsnUhf u v w (some k) t) d
      else (d.portRegs p).foldl (fun d u => d.lsnUhf u v w none t) d)

/-! ### RXB (R145) -/

/-- RXB; W above 144 is illegal (R127). A STOP during a refused RXB waits for its cycles like one during a copy (assumption: DESIGN
CHOICE, R129). -/
def Dev.doRxb (d : Dev) (v : Nat) (ra : RegNo) (w : BitVec 8) : Dev :=
  let n := w.toNat
  let cyc := 4 + (8 + n + 1) / 2
  if 144 < n then d.doIllegal v
  else
    d.air v opRxb cyc (.rxb ra w) (fun d =>
      let p := d.get VAT_BIND.PORT v
      let a := d.gr v ra
      let d := d.setVat v { d.vatx v with copyEnd := d.clk + cyc }
      if sramWords a (8 + n) then (d.setWords a (d.slotDesc p ++ d.slotWords p n)).ended v opRxb .one 0 1 cyc
      else d.ended v opRxb .clash stVatOperand 1 cyc)

end Sys2Proof.Machine
end

