-- ==== Sys2Proof/Machine/Isrin.lean ====
section
/-! DEFINITION. The Isrin instruction word: decoding and encoding (R97 to R99, R126, R127), what each instruction does, its
issue (R94, R100, R101), and the instructions a switch-over held (R147). -/

namespace Sys2Proof.Machine

/-! ### The instruction word (R97) -/

/-- OP. -/ def opOf (w : Word) : BitVec 6 := w.extractLsb' 26 6
/-- RD. -/ def rdOf (w : Word) : RegNo := w.extractLsb' 22 4
/-- RA. -/ def raOf (w : Word) : RegNo := w.extractLsb' 18 4
/-- RB. -/ def rbOf (w : Word) : RegNo := w.extractLsb' 14 4
/-- IMM. -/ def immOf (w : Word) : Imm := w.extractLsb' 0 14

/-- A word from its fields. -/
def mkWord (op : BitVec 6) (rd ra rb : RegNo) (imm : Imm) : Word := op ++ rd ++ ra ++ rb ++ imm

/-- The instruction an instruction word and the word after it spell (R98, R99, R126, R127); every word that the spec calls
undefined or illegal is `illegal`. -/
def decodeIsrin (w ext : Word) : Isrin :=
  let rd := rdOf w
  let ra := raOf w
  let rb := rbOf w
  let imm := immOf w
  match (opOf w).toNat with
  | 0x01 => .nop imm
  | 0x02 => .ldi rd imm
  | 0x03 => .ldx rd ext
  | 0x04 => .mov rd ra
  | 0x05 => .add rd ra rb
  | 0x06 => .addi rd ra imm
  | 0x07 => .sub rd ra rb
  | 0x08 => .and rd ra rb
  | 0x09 => .or rd ra rb
  | 0x0A => .xor rd ra rb
  | 0x0B => .shl rd ra rb imm
  | 0x0C => .shr rd ra rb imm
  | 0x0D => .ldw rd ra imm
  | 0x0E => .stw ra rb imm
  | 0x0F => .tst ra imm
  | 0x10 => .halt
  | 0x11 => .jmp ext
  | 0x12 => .call ext
  | 0x13 => .ret
  | 0x14 => .dsp ra (imm.extractLsb' 12 2) (imm.extractLsb' 0 4) ext
  | 0x15 => .clr imm
  | 0x18 => .waita ra rb (imm.getLsbD 13)
  | 0x19 => .stamp rd (imm.extractLsb' 0 2)
  | 0x1A => .waitt (imm.extractLsb' 0 2)
  | 0x1B => .tmo rb
  | 0x20 => .bind (imm.extractLsb' 0 5)
  | 0x21 => .hop ra (imm.getLsbD 13) (imm.extractLsb' 10 3) (imm.extractLsb' 0 10)
  | 0x22 => .pwr ra (imm.getLsbD 13) (imm.extractLsb' 0 9)
  | 0x23 => .ant ra (imm.getLsbD 13) (imm.extractLsb' 0 4)
  | 0x24 => .carry (imm.getLsbD 0)
  | 0x25 => .txc rd rb (imm.extractLsb' 12 2) (imm.extractLsb' 0 10)
  | 0x26 => .lsn rd (imm.extractLsb' 0 10)
  | 0x27 => .beam ra (imm.getLsbD 13) (imm.extractLsb' 0 10)
  | 0x28 => .rxb ra (imm.extractLsb' 0 8)
  | 0x2C => .lput rd ra rb (imm.extractLsb' 0 5)
  | 0x2D => .lget rd ra rb (imm.extractLsb' 0 5)
  | 0x2E => .ltouch ra
  | 0x30 => .topen rd ra rb (imm.extractLsb' 0 6) ext
  | 0x31 => .tput ra rb (imm.getLsbD 13) (imm.extractLsb' 0 8)
  | 0x32 => .tdone ra
  | 0x33 => .tfail ra rb
  | 0x38 => .post (imm.extractLsb' 0 6)
  | 0x39 => .qpush ra rb (imm.extractLsb' 6 8) (imm.extractLsb' 0 6)
  | 0x3A => .qpop rd ra (imm.extractLsb' 6 8) (imm.extractLsb' 0 6)
  | _ => .illegal w

/-- A flag as a one-bit field. -/
def bit1 (b : Bool) : BitVec 1 := BitVec.ofBool b

/-- The instruction word of an instruction, unused fields 0 (R97). -/
def Isrin.encode : Isrin → Word
  | .nop imm => mkWord 0x01 0 0 0 imm
  | .ldi rd imm => mkWord 0x02 rd 0 0 imm
  | .ldx rd _ => mkWord 0x03 rd 0 0 0
  | .mov rd ra => mkWord 0x04 rd ra 0 0
  | .add rd ra rb => mkWord 0x05 rd ra rb 0
  | .addi rd ra imm => mkWord 0x06 rd ra 0 imm
  | .sub rd ra rb => mkWord 0x07 rd ra rb 0
  | .and rd ra rb => mkWord 0x08 rd ra rb 0
  | .or rd ra rb => mkWord 0x09 rd ra rb 0
  | .xor rd ra rb => mkWord 0x0A rd ra rb 0
  | .shl rd ra rb imm => mkWord 0x0B rd ra rb imm
  | .shr rd ra rb imm => mkWord 0x0C rd ra rb imm
  | .ldw rd ra imm => mkWord 0x0D rd ra 0 imm
  | .stw ra rb imm => mkWord 0x0E 0 ra rb imm
  | .tst ra imm => mkWord 0x0F 0 ra 0 imm
  | .halt => mkWord 0x10 0 0 0 0
  | .jmp _ => mkWord 0x11 0 0 0 0
  | .call _ => mkWord 0x12 0 0 0 0
  | .ret => mkWord 0x13 0 0 0 0
  | .dsp ra mode k _ => mkWord 0x14 0 ra 0 (mode ++ (0 : BitVec 8) ++ k)
  | .clr imm => mkWord 0x15 0 0 0 imm
  | .waita ra rb u => mkWord 0x18 0 ra rb (bit1 u ++ (0 : BitVec 13))
  | .stamp rd src => mkWord 0x19 rd 0 0 ((0 : BitVec 12) ++ src)
  | .waitt input => mkWord 0x1A 0 0 0 ((0 : BitVec 12) ++ input)
  | .tmo rb => mkWord 0x1B 0 0 rb 0
  | .bind port => mkWord 0x20 0 0 0 ((0 : BitVec 9) ++ port)
  | .hop ra i table idx => mkWord 0x21 0 ra 0 (bit1 i ++ table ++ idx)
  | .pwr ra i setpt => mkWord 0x22 0 ra 0 (bit1 i ++ (0 : BitVec 4) ++ setpt)
  | .ant ra i port => mkWord 0x23 0 ra 0 (bit1 i ++ (0 : BitVec 9) ++ port)
  | .carry on => mkWord 0x24 0 0 0 ((0 : BitVec 13) ++ bit1 on)
  | .txc rd rb launch tpl => mkWord 0x25 rd 0 rb (launch ++ (0 : BitVec 2) ++ tpl)
  | .lsn rd tpl => mkWord 0x26 rd 0 0 ((0 : BitVec 4) ++ tpl)
  | .beam ra i set => mkWord 0x27 0 ra 0 (bit1 i ++ (0 : BitVec 3) ++ set)
  | .rxb ra w => mkWord 0x28 0 ra 0 ((0 : BitVec 6) ++ w)
  | .lput rd ra rb off => mkWord 0x2C rd ra rb ((0 : BitVec 9) ++ off)
  | .lget rd ra rb off => mkWord 0x2D rd ra rb ((0 : BitVec 9) ++ off)
  | .ltouch ra => mkWord 0x2E 0 ra 0 0
  | .topen rd ra rb queue _ => mkWord 0x30 rd ra rb ((0 : BitVec 8) ++ queue)
  | .tput ra rb src w => mkWord 0x31 0 ra rb (bit1 src ++ (0 : BitVec 5) ++ w)
  | .tdone ra => mkWord 0x32 0 ra 0 0
  | .tfail ra rb => mkWord 0x33 0 ra rb 0
  | .post ch => mkWord 0x38 0 0 0 ((0 : BitVec 8) ++ ch)
  | .qpush ra rb w queue => mkWord 0x39 0 ra rb (w ++ queue)
  | .qpop rd ra w queue => mkWord 0x3A rd ra 0 (w ++ queue)
  | .illegal w => w

/-- The extension word of an instruction, 0 where it has none. -/
def Isrin.ext : Isrin → Word
  | .ldx _ e => e
  | .jmp e => e
  | .call e => e
  | .dsp _ _ _ e => e
  | .topen _ _ _ _ e => e
  | _ => 0

/-- The number of words of an instruction (R97, R126). -/
def Isrin.len : Isrin → Nat
  | .ldx _ _ => 2
  | .jmp _ => 2
  | .call _ => 2
  | .dsp _ _ _ _ => 2
  | .topen _ _ _ _ _ => 2
  | _ => 1

/-- An instruction that advances PC sequentially on every path (R101). CLR, DSP, CALL and illegal words see to their own. -/
def Isrin.advances : Isrin → Bool
  | .jmp _ => false
  | .call _ => false
  | .ret => false
  | .dsp _ _ _ _ => false
  | .clr _ => false
  | .illegal _ => false
  | _ => true

/-- What an instruction of Vat `v` does at its issue. -/
def Isrin.run (i : Isrin) (v : Nat) (d : Dev) : Dev :=
  match i with
  | .nop imm => d.doNop v imm
  | .ldi rd imm => d.doLdi v rd imm
  | .ldx rd ext => d.doLdx v rd ext
  | .mov rd ra => d.doMov v rd ra
  | .add rd ra rb => d.doAdd v rd ra rb
  | .addi rd ra imm => d.doAddi v rd ra imm
  | .sub rd ra rb => d.doSub v rd ra rb
  | .and rd ra rb => d.doAnd v rd ra rb
  | .or rd ra rb => d.doOr v rd ra rb
  | .xor rd ra rb => d.doXor v rd ra rb
  | .shl rd ra rb imm => d.doShl v rd ra rb imm
  | .shr rd ra rb imm => d.doShr v rd ra rb imm
  | .ldw rd ra imm => d.doLdw v rd ra imm
  | .stw ra rb imm => d.doStw v ra rb imm
  | .tst ra imm => d.doTst v ra imm
  | .halt => d.doHalt v
  | .jmp ext => d.doJmp v ext
  | .call ext => d.doCall v ext
  | .ret => d.doRet v
  | .dsp ra mode k ext => d.doDsp v ra mode k ext
  | .clr imm => d.doClr v imm
  | .waita ra rb u => d.doWaita v ra rb u
  | .stamp rd src => d.doStamp v rd src
  | .waitt input => d.doWaitt v input
  | .tmo rb => d.doTmo v rb
  | .bind port => d.doBind v port
  | .hop ra i table idx => d.doHop v ra i table idx
  | .pwr ra i setpt => d.doPwr v ra i setpt
  | .ant ra i port => d.doAnt v ra i port
  | .carry on => d.doCarry v on
  | .txc rd rb launch tpl => d.doTxc v rd rb launch tpl
  | .lsn rd tpl => d.doLsn v rd tpl
  | .beam ra i set => d.doBeam v ra i set
  | .rxb ra w => d.doRxb v ra w
  | .lput rd ra rb off => d.doLput v rd ra rb off
  | .lget rd ra rb off => d.doLget v rd ra rb off
  | .ltouch ra => d.doLtouch v ra
  | .topen rd ra rb queue ext => d.doTopen v rd ra rb queue ext
  | .tput ra rb src w => d.doTput v ra rb src w
  | .tdone ra => d.doTdone v ra
  | .tfail ra rb => d.doTfail v ra rb
  | .post ch => d.doPost v ch
  | .qpush ra rb w queue => d.doQpush v ra rb w queue
  | .qpop rd ra w queue => d.doQpop v rd ra w queue
  | .illegal _ => d.doIllegal v

/-- An instruction of Vat `v` issues in the present cycle. -/
def Dev.issueNow (d : Dev) (v : Nat) (i : Isrin) : Dev :=
  (d.setVat v { d.vatx v with prevPc := d.pc v }).fetch v (Isrin.len i) (Isrin.advances i) (Isrin.run i v)

/-- An instruction of Vat `v` that falls in the Vat cycle of a STOP or DBG_HALT, or of another fault, does nothing but
fault where it does so: a fault beats STOP and DBG_HALT (R120), and all causes of one cycle set their bits (R118). -/
def Dev.issueLeft (d : Dev) (v : Nat) (i : Isrin) : Dev :=
  let e := (d.put VAT_STATUS.STATE vsRun v).issueNow v i
  if e.vst v ≠ vsFault then d
  else if d.vst v = vsFault then d.put VAT_FAULT.FCAUSE (e.get VAT_FAULT.FCAUSE v) v
  else e

/-- Vat `v` issues an instruction (R94, R100, R101): in RUN and not waiting, at the cycle at which its next instruction may
issue. In every other state nothing issues, but a fault of the cycle in which the Vat left RUN is seen. -/
def Dev.issue (d : Dev) (v : Nat) (i : Isrin) : Dev :=
  if d.vst v = vsRun ∧ (d.vatx v).wait = .none then (d.toClk (d.vatx v).ready).issueNow v i
  else if (d.vatx v).left = some (d.clk, true) ∧ (d.vatx v).ready ≤ d.clk then d.issueLeft v i
  else d

/-- A held instruction is a TXC in REL mode, counted from tick `ref`, whose launch tick has passed (R147). -/
def Dev.heldLate (d : Dev) (v ref : Nat) : Isrin → Bool
  | .txc _ rb launch _ => launch == 1 && decide (ref + d.gr v rb < d.named)
  | _ => false

/-- The instruction that Vat `v` holds because of a switch-over proceeds at tick `t` when no switch-over runs on its port
any more (R147). -/
def Dev.resume1 (d : Dev) (t v : Nat) : Dev :=
  match (d.vatx v).wait with
  | .held i =>
    if (d.portFes (d.get VAT_BIND.PORT v)).any d.switching then d
    else
      let d := (d.toTick t).setVst v vsRun
      let passed := (d.vatx v).heldRef.any (fun r => d.heldLate v r i)
      let d := d.setVat v { d.vatx v with wait := .none, heldRef := none }
      if passed then d.airStop v opTxc 2 .late stLaunchPassed else Isrin.run i v d
  | _ => d

/-- Every held instruction whose switch-over has ended proceeds as if issued at the tick after (R147). What
it does is done at once, as of that tick; the device's time stays where it is. -/
def Dev.resumeHeld (d : Dev) : Dev :=
  { vatIds.foldl (fun e v => e.resume1 (d.tick + 1) v) d with clk := d.clk, hw := d.hw }

end Sys2Proof.Machine
end

