-- ==== Sys2Proof/Machine/ChainCmds.lean ====
section
/-! DEFINITION. The commands of the UHF chains and synthesiser unlocks: register writes with an effect, trips and their
clearing, the ends of ramps and transitions (R35, R37, R42, R44, R48, R49, R51 to R56). A register write names the
chain's own registers; TARGET acts on the chain's own electronics (R250). -/

namespace Sys2Proof.Machine

/-- A refused request to a chain (R35, R53). -/
def Dev.chainErr (d : Dev) (u st : Nat) : Dev := d.put UHF_STATUS.LAST_ERR st u

/-- A write of UHFn_CTRL.TARGET (R44): values above RX are ignored; a carrier ramps down from the next tick, the bound Vat's
air instruction in progress ends with CUT, and the chain moves to the target. A CARRY that launched in this tick comes after it
(R60), and is cut. An LKC on the chain ends as by an abort, and the chain goes to the TARGET written (assumption: DESIGN CHOICE, the spec gives no
status). On a front end that US carries the write moves the detached chain, and cuts the window of the front end all
the same, since R86 names it a cause. -/
def aloneUhfTargetWrite (c : ChainNo) (target : BitVec 3) (s : State) : Host.Outcome State Fault Refusal :=
  s.onIsland 2 .UHF_CTRL c.val (fun d =>
    if 2 < target.toNat then d
    else
      let c := c.val
      let d := ((d.put UHF_CTRL.TARGET target.toNat c).chainSettle c).unlaunch c
      let t := d.tick + 1
      let on := d.carrierOn c
      let lkc := match d.calOf c with | some r => r.op == 6 | none => false
      let d := if c < 8 ∧ d.attached = some c then d.cutWindowAt c 3 stNoCarrier t
        else if on ∨ d.cst c = csDown ∨ (target.toNat < 2 ∧ d.cst c = csRx) then d.cutWindowAt (d.cfg c) 3 stNoCarrier (if on then t else d.tick)
        else d
      let held := match (d.vatOf c).map (fun v => (d.vatx v).wait) with
        | some (.carryOn _) => true
        | _ => false
      let d := if on || held then
          d.unitCut c stNoCarrier t else d
      let d := if on then
          let d := d.rampDown c t
          d.setCh c { d.chx c with target := some target.toNat }
        else if d.cst c = csDown then d.setCh c { d.chx c with target := some target.toNat }
        else d.chainGo c target.toNat d.tick
      if lkc then
        let d := d.setCh c { d.chx c with calBack := (d.chx c).calBack.map (fun b => (b.1, b.2.1, csRx)) }
        d.calAbort c
      else d)

/-- A write of UHFn_CTRL.SYN_SEL (R35, R211). It is refused while the gate of chain n is open, and while that of US is where US
carries the front end, which takes its synthesiser from the field (R250; assumption: DEDUCED). -/
def execSynSelWrite (c : ChainNo) (sel : BitVec 2) (s : State) : Host.Outcome State Fault Refusal :=
  s.onIsland 2 .UHF_CTRL c.val (fun d =>
    let u := c.val
    let m := sel.toNat
    if d.get UHF_CTRL.SYN_SEL u = m then d
    else if d.gate u || d.gate (d.driver u) || d.shadowDst m || (List.range 4).any (fun k => d.grpEn k && (d.members k).contains u) then
      d.chainErr u stSynBusy
    else
      let e := d.driver u
      let d := (d.touchNo (11 + d.get UHF_CTRL.SYN_SEL u) d.tick).synPower m
      (d.put UHF_CTRL.SYN_SEL m u).setCh e { d.chx e with rxSince := (d.chx e).rxSince.map (fun _ => d.tick) })

/-- A host write of UHFn_PWR.SETPT (R48, R260): a refused one is not applied. The value is kept with its tick, for a PWR of the
same tick (R268). -/
def execSetptWrite (c : ChainNo) (setpt : BitVec 9) (s : State) : Host.Outcome State Fault Refusal :=
  s.onIsland 2 .UHF_PWR c.val (fun d =>
    let u := c.val
    let e := d.driver u
    let x := min 330 setpt.toNat
    let d := d.setCh u { d.chx u with hostSet := some (d.tick, x) }
    if d.setptBad e x then (d.guardRefuse 4 ((d.feOf e).getD 8)).chainErr u stRguRefused
    else d.put UHF_PWR.SETPT x u)

/-- A host write of UHFn_TXW (R52). -/
def execTxwWrite (c : ChainNo) (amp : BitVec 8) (phase : BitVec 10) (s : State) : Host.Outcome State Fault Refusal :=
  s.onIsland 2 .UHF_TXW c.val (fun d => d.writeTxw c.val amp.toNat phase.toNat d.tick)

/-- A host write of UHFn_ANT.PORT (R53): driven at the next tick. A change comes before a CARRY that launches in the tick (R60). -/
def alonePortWrite (c : ChainNo) (port : BitVec 4) (s : State) : Host.Outcome State Fault Refusal :=
  s.onIsland 2 .UHF_ANT c.val (fun d =>
    let u := c.val
    let d' := d.unlaunch (d.driver u)
    if d.get UHF_ANT.PORT u = port.toNat then d
    else
      let st := d'.portRefusal u port.toNat
      if st = 0 then d'.drivePort u port.toNat (d.tick + 1) else d.chainErr u st)

/-- The port has settled (R53): SETTLED reads 1 from here; a carrier LKC holds may launch. -/
def execPortSettled (c : ChainNo) (s : State) : Host.Outcome State Fault Refusal :=
  s.onUnit 2 (fun d => (d.toTick (d.chx c.val).settleAt).lkcTry (d.driver c.val))

/-- A modulation profile meets R49. -/
def Dev.modpOk (d : Dev) (u k : Nat) : Bool :=
  let tari := d.get UHF_MODP_A.TARI u k
  let one := d.get UHF_MODP_B.DATA1 u k
  let pw := d.get UHF_MODP_B.PW u k
  let depth := d.get UHF_MODP_A.DEPTH u k
  decide (960 ≤ tari) && decide (tari ≤ 3840) && decide (3 * tari ≤ 2 * one) && decide (one ≤ 2 * tari) &&
    decide (308 ≤ pw) && decide (265 * tari ≤ 1000 * pw) && decide (1000 * pw ≤ 525 * tari) &&
    decide (100 * d.get UHF_MODP_C.RISE u k ≤ 33 * tari) && decide (100 * d.get UHF_MODP_C.FALL u k ≤ 33 * tari) &&
    decide (80 ≤ depth) && decide (depth ≤ 100) && d.get UHF_MODP_A.MODE u k != 3

/-- A write of word A, B or C of a modulation profile; VALID is evaluated anew (R49). -/
def execModpWrite (c : ChainNo) (k : Fin 4) (part : Fin 3) (value : Word) (s : State) :
    Host.Outcome State Fault Refusal :=
  s.onIsland 2 (if part = 0 then .UHF_MODP_A else if part = 1 then .UHF_MODP_B else .UHF_MODP_C) c.val (j := k.val) (fun d =>
    let u := c.val
    let j := k.val
    let x := value.toNat
    let d := if part = 0 then
        (((d.put UHF_MODP_A.MODE (bitsOf x 31 30) u j).put UHF_MODP_A.SB (bitsOf x 29 29) u j).put UHF_MODP_A.DEPTH
          (bitsOf x 22 16) u j).put UHF_MODP_A.TARI (bitsOf x 12 0) u j
      else if part = 1 then
        (d.put UHF_MODP_B.DATA1 (bitsOf x 28 16) u j).put UHF_MODP_B.PW (bitsOf x 11 0) u j
      else (d.put UHF_MODP_C.FALL (bitsOf x 27 16) u j).put UHF_MODP_C.RISE (bitsOf x 11 0) u j
    d.put UHF_MODP_A.VALID (bit (d.modpOk u j)) u j)

/-- A write of UHFn_FE.PAEN_POL: a working chain's goes to AON_PAPOL too (R32). -/
def execPaenPolWrite (c : ChainNo) (pol : Bool) (s : State) : Host.Outcome State Fault Refusal :=
  s.onIsland 2 .UHF_FE c.val (fun d =>
    let d := d.put UHF_FE.PAEN_POL (bit pol) c.val
    if c.val < 8 then
      let x := clearBit (d.get AON_PAPOL.POL) c.val
      d.put AON_PAPOL.POL (x + if pol then 2 ^ c.val else 0)
    else d)

/-- A write of UHFn_TRIP.FORCE: cause HOST (R55). -/
def aloneTripForce (c : ChainNo) (s : State) : Host.Outcome State Fault Refusal :=
  s.onIsland 2 .UHF_TRIP c.val (fun d => (d.trip c.val tripHost).resumeHeld)

/-- A chain detects trip causes (R55). -/
def aloneChainTrip (c : ChainNo) (causes : BitVec 10) (s : State) : Host.Outcome State Fault Refusal :=
  s.onUnit 2 (fun d => (d.trip c.val causes.toNat).resumeHeld)

/-- Cause bits are cleared, except those still asserted; with none left the chain leaves TRIP for READY in 2 µs (R42,
R55), and goes on to RX where TARGET reads RX (table "Chain state transitions"; assumption: DEDUCED); US, while it is neither
attached nor bound, goes where READINESS says (R242), and to RX for a planned takeover that waits (R248). What LKC left is put
back. -/
def execTripClear (c : ChainNo) (mask asserted : BitVec 10) (s : State) : Host.Outcome State Fault Refusal :=
  s.onIsland 2 .UHF_TRIP c.val (fun d =>
    let e := c.val
    let left := Nat.land (d.get UHF_TRIP.CAUSE e) (Nat.lor asserted.toNat (0x3FF - mask.toNat))
    let d := d.put UHF_TRIP.CAUSE left e
    if left = 0 ∧ d.cst e = csTrip ∧ (d.chx e).goal = none then
      let tg := if e = 8 ∧ d.spare.waitTake.isSome = true then csRx
        else if e = 8 ∧ d.usTaken = false ∧ d.binder 8 = none then min 2 (d.get UHFS_SPARE.READINESS)
        else if d.get UHF_CTRL.TARGET e = csRx then csRx else csReady
      let d := d.setCh e { d.chx e with target := if tg = csReady then none else some tg }
      let d := d.chainTo e csReady (max d.tick (d.chx e).gateShut + usTicks 2)
      if (d.calOf e).isNone then d.calReturn e else d
    else d)

/-- A restored carrier is on: the switch-over ends (R246 step 5). -/
def Dev.switchDone (d : Dev) (c : Nat) : Dev :=
  match d.spare.sw with
  | some w =>
    if w.launched ∧ c = (if w.take then 8 else w.fe) ∧ csCarrier ≤ d.cst c ∧ d.cst c ≤ csMod then
      d.endSwitch w (min 0xFFFE (d.tick - w.start))
    else d
  | none => d

/-- RAMP_UP_DONE (R42). -/
def execRampUpDone (c : ChainNo) (s : State) : Host.Outcome State Fault Refusal :=
  s.onUnit 2 (fun d =>
    let e := c.val
    let d := if (d.chx e).goal = some csCarrier then (d.toTick (d.chx e).due).chainDone e else d
    (d.switchDone e).resumeHeld)

/-- RAMP_DOWN_DONE (R42): CARRY OFF ends, a TARGET is followed, LKC ends, US goes where READINESS says. -/
def execRampDownDone (c : ChainNo) (s : State) : Host.Outcome State Fault Refusal :=
  s.onUnit 2 (fun d =>
    let e := c.val
    if d.cst e = csDown then
      let d := ((d.toTick (d.chx e).due).rampDownEnd e).calRampDone e
      if e = 8 ∧ (d.chx 8).goal = none then d.usByReadiness else d
    else d)

/-- CHAIN_TRANSITION_DONE (R42): a launch or switch-over that waited for it goes on. -/
def execChainTransitionDone (c : ChainNo) (s : State) : Host.Outcome State Fault Refusal :=
  s.onUnit 2 (fun d =>
    let e := c.val
    match (d.chx e).goal with
    | some g =>
      if g = csCarrier ∨ d.cst e = csDown then d
      else
        let d := (d.toTick (d.chx e).due).chainDone e
        let d := if (d.calOf e).isNone then d.calReturn e else d.lkcTry e
        d.spareTry.resumeHeld
    | none => d)

/-- SYN_UNLOCK (R37): LOCK reads 0; every chain on the synthesiser with its gate open trips unramped. LOCK_TICKS of the lock that
follows counts from here (assumption: DESIGN CHOICE, R33 measures from a new frequency only). -/
def execSynUnlock (m : Fin 4) (s : State) : Host.Outcome State Fault Refusal :=
  s.onUnit 2 (fun d =>
    if d.locked m.val = false then d
    else
      let d := (d.put SYN_F_STATUS.LOCK 0 m.val).setSyn m.val { d.synx m.val with tuneTick := d.tick }
      let d := d.chainSettles (d.synUsers m.val)
      let open' := (d.synUsers m.val).filter d.gate
      let d' := open'.foldl (fun d c => d.trip c tripSynUnl) d
      (if open' = [] then d' else d'.publish (evSynUnlock m.val)).resumeHeld)

/-- The swap (R39 steps 4 and 5): every chain on SRC moves to DST in one tick, and SRC recalibrates. A CARRY that launches in the
tick comes after it, on DST (R60). -/
def aloneShadowSwap (s : State) : Host.Outcome State Fault Refusal :=
  s.onUnit 2 (fun d =>
    let org := d.get SYN_SHADOW.SRC
    let dst := d.get SYN_SHADOW.DST
    let users := d.synUsers org
    let vs := d.launchers
    let d' := d.unlaunchs users
    if d.get SYN_SHADOW.STATE = 2 ∧ d.locked dst = true ∧ d'.anyGate users = false then
      let d := (users.map d'.cfg).foldl (fun d u => d.put UHF_CTRL.SYN_SEL dst u) d'
      let d := (d.put SYN_SHADOW.STATE 3).calBegin (9 + org) 1 0 0
      d.relaunch vs
    else d)

/-- A synthesiser's lock detector reports lock (R33, R39): LOCK_TICKS; a hand-over's destination has aligned its phase. A
recalibration ends by its own event; a carrier that LKC or a switch-over holds launches
(R246). -/
def execSynLock (m : Fin 4) (s : State) : Host.Outcome State Fault Refusal :=
  s.onUnit 2 (fun d =>
    if d.synCal m.val ∨ d.locked m.val = true then d
    else
      let d := ((d.synPower m.val).put SYN_F_STATUS.LOCK 1 m.val).put SYN_F_CAL.LOCK_TICKS
        (min 0xFFFF (d.tick - (d.synx m.val).tuneTick)) m.val
      let d := if d.get SYN_SHADOW.STATE = 1 ∧ d.get SYN_SHADOW.DST = m.val then d.put SYN_SHADOW.STATE 2 else d
      ((d.synUsers m.val).foldl (fun d c => d.lkcTry c) d).spareTry.resumeHeld)

/-- NOISE_MEAN (R78): a 64 µs mean taken in CARRIER, outside listen windows; those of US go to the registers of the front end it
carries (R85). -/
def execNoiseMean (c : ChainNo) (value : BitVec 12) (s : State) : Host.Outcome State Fault Refusal :=
  s.onUnit 2 (fun d =>
    let mod := (d.chx c.val).txOn && decide ((d.chx c.val).txStart ≤ d.tick)
    let listening := match (d.chx c.val).win with
      | some w => decide (w.openAt ≤ d.tick) && decide (d.tick < w.close)
      | none => false
    if d.cst (d.driver c.val) = csCarrier ∧ mod = false ∧ listening = false ∧ (c.val = 8 → d.attached = none) then d.put UHF_RX_NOISE.NOISE value.toNat c.val else d)

end Sys2Proof.Machine
end

