-- ==== Sys2Proof/Machine/Ring.lean ====
section
/-! DEFINITION. The ring timers, PPS, and the latching read of heartwood (R342 to R355). -/

namespace Sys2Proof.Machine

/-- PPS_BAD. -/ def stPpsBad : Nat := 0x0A02
/-- RING_CAP_OVF (R356). -/ def stCapOvf : Nat := 0x0A03

/-- The record of ring `n` replaced. -/
def Dev.setRing (d : Dev) (n : Nat) (x : RingX) : Dev := { d with ring := fset (fun _ => {}) id d.ring n x }

/-- Bit `k` of a field of unit `i` set or cleared. -/
def Dev.putBitAt (d : Dev) (f : Fld) (i k : Nat) (b : Bool) : Dev :=
  let x := d.get f i
  d.put f ((if bitOf x k then x - 2 ^ k else x) + if b then 2 ^ k else 0) i

/-- Ring `n` is frozen (R351): the core that FRZ_SRC names is halted; only in MANUFACTURE and DEVELOP. -/
def Dev.frozen (d : Dev) (n : Nat) : Bool :=
  let src := d.get RING_CTRL.FRZ_SRC n
  d.open' && d.isSet RING_CTRL.FREEZE n && (if src < 16 then d.vShown src == vsDebug else src == 16 && d.rgr.halted)

/-- Compare `k` of ring `n` is armed. -/
def Dev.armed (d : Dev) (n k : Nat) : Bool := bitOf (d.get RING_CMPST.ARMED n) k

/-- A compare fires (R348). -/
def Dev.ringFire (d : Dev) (n k : Nat) (late : Bool) : Dev :=
  let d := (d.putBitAt RING_CMPST.ARMED n k false).putBitAt RING_CMPST.FIRED n k true
  (if late then d.putBitAt RING_CMPST.LATE n k true else d).publish (evRingCmp n k)

/-- The count of ring `n` minus the armed value of compare `k`, modulo 2^64. -/
def Dev.cmpDiff (d : Dev) (n k : Nat) : Nat :=
  ((d.ringx n).cnt + 2 ^ 64 - fget (fun _ => 0) (d.ringx n).cmp k % 2 ^ 64) % 2 ^ 64

/-- The evaluation after a source tick (R347). -/
def Dev.evalTick (d : Dev) (n : Nat) : Dev :=
  (List.range 4).foldl (fun d k => if d.armed n k && decide (d.cmpDiff n k < 2 ^ 63) then d.ringFire n k false else d) d

/-- The evaluation in the cycle of an arming write or of a write of CNT (R347), for the compares `ks`. -/
def Dev.evalWrite (d : Dev) (n : Nat) (ks : List Nat) : Dev :=
  if d.frozen n then d
  else ks.foldl (fun d k =>
    if d.armed n k && decide (1 ≤ d.cmpDiff n k) && decide (d.cmpDiff n k < 2 ^ 63) then d.ringFire n k true else d) d

/-- RING_SOURCE_TICK (R345); none is counted in the AT tick of a change of source (R346). -/
def aloneRingSourceTick (n : Fin 8) (s : State) : Host.Outcome State Fault Refusal :=
  s.onUnit 2 (fun d =>
    let n := n.val
    if d.isSet RING_CTRL.EN n && decide (d.get RING_CTRL.SRC n ≤ 8) && !d.frozen n && (d.ringx n).switched != d.tick + 1 then
      let x := d.ringx n
      let p := d.ringP n
      let phi := x.phi + 65536
      let x := if p ≤ phi then { x with phi := phi - p, cnt := (x.cnt + 1) % 2 ^ 64 } else { x with phi := phi }
      (d.setRing n x).evalTick n
    else d)

/-- RING_SRC_CHANGE (R346); a source above 8 is ignored. -/
def aloneRingSrcChange (n : Fin 8) (src : BitVec 4) (s : State) : Host.Outcome State Fault Refusal :=
  s.onIsland 2 .RING_CTRL n.val (fun d =>
    let n := n.val
    let v := src.toNat
    if 8 < v ∨ v = d.get RING_CTRL.SRC n then d
    else
      let d := d.put RING_CTRL.SRC v n
      if d.isSet RING_CTRL.EN n then
        let x := d.ringx n
        let d := d.setRing n { x with phi := 0, switched := d.tick + 1 }
        ((d.put RING_SCH_W0.SCH_LO x.cnt n).put RING_SCH_W1.SCH_HI (x.cnt / 2 ^ 32) n).put RING_CAPST.SCHG 1 n
      else d)

/-- RING_CMP_ARM (R347, R348). -/
def aloneRingCmpArm (n : Fin 8) (k : Fin 4) (lo : Word) (s : State) : Host.Outcome State Fault Refusal :=
  s.onIsland 2 .RING_CMP_W0 n.val (j := k.val) (fun d =>
    let n := n.val
    let k := k.val
    let v := d.get RING_CMP_W1.CMP_HI n k * 2 ^ 32 + lo.toNat
    let d := d.put RING_CMP_W0.CMP_LO lo.toNat n k
    let d := d.setRing n { d.ringx n with cmp := fset (fun _ => 0) id (d.ringx n).cmp k v }
    let d := ((d.putBitAt RING_CMPST.ARMED n k true).putBitAt RING_CMPST.FIRED n k false).putBitAt RING_CMPST.LATE n k false
    d.evalWrite n [k])

/-- RING_DISARM (R348). -/
def execRingDisarm (n : Fin 8) (mask : BitVec 4) (s : State) : Host.Outcome State Fault Refusal :=
  s.onIsland 2 .RING_CMPST n.val (fun d => d.put RING_CMPST.ARMED (Nat.land (d.get RING_CMPST.ARMED n.val) (15 - mask.toNat)) n.val)

/-- RING_CNT_WRITE: both words, while the ring is stopped. -/
def execRingCntWrite (n : Fin 8) (lo : Word) (s : State) : Host.Outcome State Fault Refusal :=
  s.onIsland 2 .RING_CNT_W0 n.val (fun d =>
    let n := n.val
    if d.isSet RING_CTRL.EN n then d
    else
      let x := d.ringx n
      (d.setRing n { x with cnt := x.cntHi * 2 ^ 32 + lo.toNat }).evalWrite n (List.range 4))

/-- RING_CNT_READ (R350). -/
def execRingCntRead (n : Fin 8) (s : State) : Host.Outcome State Fault Refusal :=
  s.onIsland 2 .RING_CNT_W0 n.val (fun d =>
    let n := n.val
    let c := (d.ringx n).cnt
    let d := d.put RING_CNT_W1.CNT_HI (c / 2 ^ 32) n
    let m := d.get RING_CTRL.LNK n
    let link := fun (x : Nat) => (d.put RING_LCNT_W0.LCNT_LO x n).put RING_LCNT_W1.LCNT_HI (x / 2 ^ 32) n
    let d := if d.isSet RING_CTRL.LINK n && m != n && decide (m ≤ 8) then
        link (if m = 8 then d.tick else (d.ringx m).cnt) else d
    d.answers [c % 2 ^ 32])

/-- The entries of capture input `j` of ring `n`. -/
def RingX.caps (x : RingX) (j : Nat) : List Nat := if j = 0 then x.cap0 else x.cap1

/-- The same replaced. -/
def RingX.setCaps (x : RingX) (j : Nat) (l : List Nat) : RingX := if j = 0 then { x with cap0 := l } else { x with cap1 := l }

/-- A capture (R349), by a task that a trigger of generation `g` started or by none. One into a full queue is discarded; the event is one
generation on (R362), and RING_CAP_OVF, which R356 defines, is logged (assumption: DESIGN CHOICE, no rule says where it is reported). -/
def Dev.ringCapture (d : Dev) (n j : Nat) (g : Option Nat := none) : Dev :=
  let x := d.ringx n
  if (x.caps j).length < 8 then d.setRing n (x.setCaps j (x.caps j ++ [x.cnt]))
  else
    let d := (d.put (if j = 0 then RING_CAPST.OVF0 else RING_CAPST.OVF1) 1 n).logWarn 0x04 n stCapOvf
    match g with
    | some g => d.deliverAs (evRingCapOvf n) (g + 1)
    | none => d.publish (evRingCapOvf n)

/-- What capture input `j` of ring `n` is connected to. -/
def Dev.capSel (d : Dev) (n j : Nat) : Nat := if j = 0 then d.get RING_CAPCFG.SEL0 n else d.get RING_CAPCFG.SEL1 n

/-- RING_CAPTURE: an event of a pin, of PPS or of the slot tick at a capture input that is connected to one (R349, R351). -/
def aloneRingCapture (n : Fin 8) (j : Fin 2) (s : State) : Host.Outcome State Fault Refusal :=
  s.onUnit 2 (fun d => if 2 ≤ d.capSel n.val j.val ∧ d.capSel n.val j.val ≤ 7 then d.ringCapture n.val j.val else d)

/-- RING_CAP_READ (R349). -/
def aloneRingCapRead (n : Fin 8) (j : Fin 2) (s : State) : Host.Outcome State Fault Refusal :=
  s.onIsland 2 .RING_CAP_W0 n.val (j := j.val) (fun d =>
    let x := d.ringx n.val
    match x.caps j.val with
    | [] => d.answers [0]
    | c :: cs =>
      ((d.setRing n.val (x.setCaps j.val cs)).put RING_CAP_W1.CAP_HI (c / 2 ^ 32) n.val j.val).answers [c % 2 ^ 32])

/-- RINGn_CAPST.INWINj: the head of capture input `j` lies in [CMP0, CMP1) (R349). -/
def Dev.inWin (d : Dev) (n j : Nat) : Bool :=
  let on := if j = 0 then d.isSet RING_CAPCFG.WIN0 n else d.isSet RING_CAPCFG.WIN1 n
  let v := fun k => fget (fun _ => 0) (d.ringx n).cmp k
  match (d.ringx n).caps j with
  | c :: _ => on && decide ((c + 2 ^ 64 - v 0 % 2 ^ 64) % 2 ^ 64 < (v 1 + 2 ^ 64 - v 0 % 2 ^ 64) % 2 ^ 64)
  | [] => false

/-! ### PPS (R314, R353, R354) -/

/-- A second in AT ticks. -/
def secTicks : Nat := 153600000

/-- The root aligns the boundary of every ASN that is a multiple of 100 to the edge at tick `t` (R314); a first alignment by
more than 154 ticks counts as a step. -/
def Dev.alignRoot (d : Dev) (t : Nat) : Dev :=
  if d.isSet MSH_CTRL.ROOT && d.isSet MSH_CTRL.ALIGN_PPS && d.get MSH_STATUS.STATE == 2 then
    let m := d.msh
    let ahead := (100 - m.asn % 100) % 100
    let b : Int := (m.bound : Int) + (ahead : Nat) * 1536000
    let off := (t : Int) - b
    let shift := (off + 76800000) % 153600000 - 76800000
    let step := !m.aligned && decide (154 < shift.natAbs)
    let d := { d with msh := { m with adj := m.adj + shift, aligned := true } }
    if step then d.inc MSH_CNT.CNT_HI 0 5 else d
  else d

/-- An edge qualifies at tick `t`: `i` is its interval, none for a first edge. -/
def Dev.ppsGood (d : Dev) (t : Nat) (i : Option Nat) : Dev :=
  let d := match i with
    | some i => (d.inc RING_PPSST.GOOD).put RING_PPSST.ERR (toSigned 16 ((i : Int) - secTicks))
    | none => d.put RING_PPSST.GOOD 1
  let d := { d with pps := { d.pps with last := some t, stamp := t } }
  let d := if 3 ≤ d.get RING_PPSST.GOOD ∧ d.get RING_PPSST.STATE ≠ 1 then (d.put RING_PPSST.STATE 1).publish evPpsLock else d
  d.alignRoot t

/-- PPS_EDGE (R353). -/
def execPpsEdge (s : State) : Host.Outcome State Fault Refusal :=
  s.onUnit 2 (fun d =>
    if d.isSet RING_PPSCFG.EN = false then d
    else
      let t := d.tick
      let tol := d.get RING_PPSCFG.TOL
      match d.pps.last with
      | none => d.ppsGood t none
      | some t0 =>
        let i := t - t0
        if secTicks + tol ≤ i then d.ppsGood t none
        else if secTicks - tol ≤ i then d.ppsGood t (some i)
        else
          let d := d.put RING_PPSST.GOOD 0
          if d.pps.badLog = 0 ∨ d.pps.badLog + secTicks ≤ t + 1 then
            { d with pps := { d.pps with badLog := t + 1 } }.logWarn 0x04 0 stPpsBad
          else d)

/-- PPS_HOLDOVER: 1.5 s after the last qualifying edge (R354). -/
def execPpsHoldover (s : State) : Host.Outcome State Fault Refusal :=
  s.onUnit 2 (fun d =>
    if d.get RING_PPSST.STATE = 1 then
      ((d.toTick (d.pps.last.getD 0 + msTicks 1500)).put RING_PPSST.STATE 2).publish evPpsLost
    else d)

/-- PPS_FREE: a further 3,600 s later (R354); the next edge is a first edge. -/
def execPpsFree (s : State) : Host.Outcome State Fault Refusal :=
  s.onUnit 2 (fun d =>
    if d.get RING_PPSST.STATE = 2 then
      let d := (d.toTick (d.pps.last.getD 0 + msTicks 3601500)).put RING_PPSST.STATE 0
      { d with pps := { d.pps with last := none } }
    else d)

/-- AON_HW_READ (R342). -/
def execAonHwRead (s : State) : Host.Outcome State Fault Refusal :=
  s.onIsland 0 .AON_HW_W0 0 (fun d => ((d.put AON_HW_W0.HW_LO d.hw).put AON_HW_W1.HW_HI (d.hw / 2 ^ 32)).answers [d.hw % 2 ^ 32])

/-- RANGER_DEBUG_HALT: the JTAG port halts the Ranger, in MANUFACTURE and DEVELOP (R351, R415). -/
def execRangerDebugHalt (s : State) : Host.Outcome State Fault Refusal :=
  s.on (fun d => if d.open' then { d with rgr := { d.rgr with halted := true } } else d)

/-- RANGER_DEBUG_RESUME. -/
def aloneRangerDebugResume (s : State) : Host.Outcome State Fault Refusal :=
  s.on (fun d => { d with rgr := { d.rgr with halted := false } })

end Sys2Proof.Machine
end

