-- ==== Sys2Proof/Machine/TrlQmx.lean ====
section
/-! DEFINITION. The commands of trails and queues (R359 to R376). -/

namespace Sys2Proof.Machine

/-- The writer acts with the Ranger's rights. -/
def byRanger (w : Writer) : Bool := w == .ranger || w == .loader

/-- A refused write to the TRL block. -/
def Dev.trlDenied (d : Dev) : Dev := d.put TRL_STATUS.LAST_ERR stTrlDenied

/-! ### Trails -/

/-- TRL_SWPUB (R359, R360): a SECURE channel takes the Ranger's events alone, an OPEN one those of host and Ranger unless a
Vat group owns it. -/
def execTrlSwpub (by' : Writer) (ch : BitVec 6) (gen : BitVec 3) (s : State) : Host.Outcome State Fault Refusal :=
  s.onIsland 2 .TRL_SWPUB 0 (by' := by') (fun d =>
    let c := ch.toNat
    let ok := if d.isSet TRL_CH.SECURE 0 c then (byRanger by') else decide (d.get TRL_CH.OWNER 0 c < 2)
    if ok then d.publishCh c gen.toNat else d.trlDenied)

/-- An owner code that TRL_CHk takes. -/
def ownerCode (x : Nat) : Bool := decide (x < 2) || decide (4 ≤ x)

/-- TRL_CHk (R359): LOOP and SEEN are cleared by anyone; OWNER is the Ranger's alone on a SECURE channel; SECURE is the
Ranger's alone. Task inputs of other groups that subscribed before the owner changed to a Vat group keep their subscription:
the spec does not say whether it lapses (assumption: DESIGN CHOICE, R92). -/
def execTrlChWrite (by' : Writer) (k : Fin 64) (value : Word) (s : State) : Host.Outcome State Fault Refusal :=
  s.onIsland 2 .TRL_CH 0 (j := k.val) (by' := by') (fun d =>
    let x := value.toNat
    let j := k.val
    let owner := bitsOf x 2 0
    let d := if bitOf x 31 then d.put TRL_CH.LOOP 0 0 j else d
    let d := if bitOf x 30 then d.put TRL_CH.SEEN 0 0 j else d
    if (byRanger by') then
      let d := d.put TRL_CH.SECURE (bitsOf x 8 8) 0 j
      if ownerCode owner then d.put TRL_CH.OWNER owner 0 j else d
    else if d.isSet TRL_CH.SECURE 0 j then
      if owner = d.get TRL_CH.OWNER 0 j then d else d.trlDenied
    else if ownerCode owner then d.put TRL_CH.OWNER owner 0 j
    else d)

/-- The cycle of its consumer's clock that an event in flight falls in (R361, R363): a Vat cycle for Vats and rings, an AT tick for the
Ranger, a heartwood tick for AON, and for the host link a period of 125 MHz, counted from the AT load (assumption: DESIGN CHOICE, the
phase of that clock is open). -/
def Flight.cycle (f : Flight) : Nat :=
  if f.cons < 0x40 then f.at'
  else if f.cons < 0x60 then f.at' * 1250 / 3072
  else if f.cons < 0x70 then f.at'
  else if f.cons < 0x78 then f.at' / 2
  else f.hw

/-- The flights that reach consumer `id` next: those published in the earliest cycle of the consumer. -/
def Dev.arriving (d : Dev) (id : Nat) : List Flight :=
  let l := d.flights.filter (fun f => f.cons == id)
  match l with
  | [] => []
  | f :: fs =>
    let g := fs.foldl (fun b g => if g.at' < b.at' then g else b) f
    l.filter (fun h => h.cycle == g.cycle)

/-- A merged trigger at a consumer that is never busy: MERGE alone (R363). -/
def Dev.mergeOnly (d : Dev) (id : Nat) (merged : Bool) : Dev :=
  if merged then
    let d' := d.inc TRL_CSTAT.MERGE 0 id
    if d.get TRL_CSTAT.MERGE 0 id = 14 then d'.logWarn 0x03 id 0x0902 else d'
  else d

/-- A trigger reaches a consumer (R363, R366): a ring's capture input takes it, an AON wake consumer is a wake source, every
other consumer keeps it; with the SPI target selected an interrupt sets its bit of HLK_IRQPEND (R437). -/
def Dev.reach (d : Dev) (id gen : Nat) (merged : Bool) : Dev :=
  if 0x78 ≤ id then (d.mergeOnly id merged).wakeBy [(7, id - 0x78)]
  else if 0x60 ≤ id ∧ id < 0x70 then
    let d := d.mergeOnly id merged
    if d.capSel ((id - 0x60) / 2) (id % 2) = 1 then d.ringCapture ((id - 0x60) / 2) (id % 2) (some gen) else d
  else
    let d := d.trigger id gen merged
    if 0x40 ≤ id ∧ id < 0x60 ∧ d.isSet SYS_STRAP.HSEL = true then
      d.put HLK_IRQPEND.PEND (Nat.lor (d.get HLK_IRQPEND.PEND) (2 ^ (id - 0x40)))
    else d

/-- TRAILS_DELIVERY (R361, R363): the events of one consumer cycle are one trigger, merged where they come on several channels. -/
def aloneTrailsDelivery (id : Fin 128) (s : State) : Host.Outcome State Fault Refusal :=
  s.on (fun d =>
    let fs := d.arriving id.val
    match fs with
    | [] => d
    | f :: _ =>
      let d := { d with flights := d.flights.filter (fun g => !(g.cons == id.val && g.cycle == f.cycle)) }
      d.reach id.val (fs.foldl (fun n g => max n g.gen) 0) (fs.any (fun g => g.ch != f.ch)))

/-- TRL_CSTAT.MCLR. -/
def execMclr (id : Fin 128) (s : State) : Host.Outcome State Fault Refusal :=
  s.on (fun d => d.put TRL_CSTAT.MERGE 0 0 id.val)

/-! ### Queues: the host's end (R371 to R373) -/

/-- LAST of queue `k`. -/
def Dev.qLast (d : Dev) (k st : Nat) : Dev := d.put QMX_Q_STAT.LAST st k

/-- A refused host access to queue `k`: a host link error and LAST. -/
def Dev.qHostErr (d : Dev) (k st off : Nat) : Dev := (d.qLast k st).hlkErr st (0x40050000 + 0x20 * k + off)

/-- One of the words that still belong to a refused or torn item arrives and is discarded (R371, R375). -/
def Dev.qSkip (d : Dev) (k : Nat) : Dev :=
  let x := d.qx k
  match x.left with
  | some n =>
    if x.drop then d.setQ k { x with left := if n ≤ 1 then none else some (n - 1), drop := decide (1 < n) } else d
  | none => d

/-- One word of the host's item, or a header (R369, R371). -/
def Dev.qHostWord (d : Dev) (k w : Nat) : Dev :=
  let x := d.qx k
  match x.left with
  | some n =>
    if x.drop then d.qSkip k
    else
      let d := d.qStore k w
      if n ≤ 1 then d.qComplete k else d.setQ k { d.qx k with left := some (n - 1) }
  | none =>
    let len := bitsOf w 15 0
    if bitOf w 31 = false then d
    else if d.qFree k < len + 1 then
      (d.qLast k stQFull).setQ k { x with left := if len = 0 then none else some len, drop := decide (0 < len) }
    else
      let d := d.qStore k (qHeader (bitsOf w 23 16) len)
      if len = 0 then d.qComplete k else d.setQ k { d.qx k with left := some len, drop := false }

/-- QMX_PUSH. -/
def aloneQmxPush (q : QueueNo) (word : Word) (s : State) : Host.Outcome State Fault Refusal :=
  s.onIsland 2 .QMX_Q_PUSH q.val (fun d =>
    let k := q.val
    if d.qEn k = false then (d.qHostErr k stQCfg 0x14).qSkip k
    else if d.qProd k ≠ epHost then d.qHostErr k stQDenied 0x14
    else d.qHostWord k word.toNat)

/-- The endpoint of a writer (R371): the host, or the Ranger for both of its writers; the debug port is none. -/
def writerEp : Writer → Nat
  | .host => epHost
  | .jtag => 0x20
  | _ => epRanger

/-- A push by a writer other than the host, which is refused as another endpoint's, without a host link error (R371). -/
def Dev.qPushBy (d : Dev) (by' : Writer) (k w : Nat) : Dev :=
  if d.qEn k = false then (d.qLast k stQCfg).qSkip k
  else if d.qProd k ≠ writerEp by' then d.qLast k stQDenied
  else d.qHostWord k w

/-- A pop by a writer other than the host. With no item it returns 0 (assumption: DESIGN CHOICE, R373 stalls a host's read alone). -/
def Dev.qPopBy (d : Dev) (by' : Writer) (k : Nat) : Dev :=
  if d.qEn k = false then (d.qLast k stQCfg).answers [0]
  else if d.qCons k ≠ writerEp by' then (d.qLast k stQDenied).answers [0]
  else if decide (0 < (d.qx k).rdLeft) || d.qReady k then (d.qHostTake k).qPay k
  else d.answers [0]

/-- A DMA channel with EN = 1 consumes queue `k` (R439). -/
def Dev.dmaTakes (d : Dev) (k : Nat) : Bool :=
  (List.range 16).any (fun c => d.isSet HLK_DMA_CFG.EN c && d.get HLK_DMA_CFG.QUEUE c == k)

/-- QMX_POP (R371 to R373): a word of the item in progress, else the header of the oldest item, else the read stalls. -/
def execQmxPop (q : QueueNo) (s : State) : Host.Outcome State Fault Refusal :=
  s.onIsland 2 .QMX_Q_POP q.val (fun d =>
    let k := q.val
    if d.qEn k = false then (d.qHostErr k stQCfg 0x18).answers [0]
    else if d.qCons k ≠ epHost then (d.qHostErr k stQDenied 0x18).answers [0]
    else if d.dmaTakes k then (d.hlkErr 0x0802 (0x40050018 + 0x20 * k)).answers [0]
    else if 0 < (d.qx k).rdLeft then (d.qHostTake k).qPay k
    else
      let d := if d.qReady k = false ∧ d.qCopying k = true then d.toClk (d.qx k).shownAt else d
      if d.qReady k then (d.qHostTake k).qPay k
      else d.setQ k { d.qx k with stall := some ((d.qx k).stall.getD d.tick) })

/-- A stalled host read of queue `k` ends with a host link error and returns 0. -/
def Dev.qStallEnds (d : Dev) (k st : Nat) : Dev :=
  if (d.qx k).stall.isSome then
    ((d.setQ k { d.qx k with stall := none }).qHostErr k st 0x18).answers [0]
  else d

/-- POP_CEILING (R373, R377): an item visible at the ceiling is returned. -/
def execPopCeiling (q : QueueNo) (s : State) : Host.Outcome State Fault Refusal :=
  s.onUnit 2 (fun d =>
    let k := q.val
    match (d.qx k).stall with
    | none => d
    | some t =>
      let d := d.toTick (t + usTicks (max 1 (d.get QMX_Q_EP.CEIL k)))
      if d.qReady k then (d.qHostTake k).qPay k else d.qStallEnds k stQEmpty)

/-! ### Queues: control and configuration (R368, R372, R374 to R376) -/

/-- FLUSH; a disabled queue holds nothing to discard. -/
def aloneFlush (q : QueueNo) (s : State) : Host.Outcome State Fault Refusal :=
  s.onIsland 2 .QMX_Q_CTRL q.val (fun d => if d.qEn q.val then ((d.qHostDue q.val).qpushTorn q.val).qFlush q.val else d.qLast q.val 0)

/-- MARK (R376); LAST is its status (R380). -/
def execMark (q : QueueNo) (s : State) : Host.Outcome State Fault Refusal :=
  s.onIsland 2 .QMX_Q_CTRL q.val (fun d =>
    let k := q.val
    if d.qCons k = epHost then d.qLast k stQCfg
    else ((d.setQ k { d.qx k with mark := some (d.qx k).cons }).qMarkCheck k).qLast k 0)

/-- REWIND. -/
def aloneRewind (q : QueueNo) (s : State) : Host.Outcome State Fault Refusal :=
  s.onIsland 2 .QMX_Q_CTRL q.val (fun d =>
    let k := q.val
    if d.qCons k = epHost then d.qLast k stQCfg
    else match (d.qx k).mark with
      | none => d.qLast k stQMarkLost
      | some m => (d.setQ k { d.qx k with cons := m, freed := m, heldBack := 0, freeAt := 0 }).qLast k 0)

/-- PTR_MISMATCH. -/
def alonePtrMismatch (q : QueueNo) (s : State) : Host.Outcome State Fault Refusal :=
  s.onUnit 2 (fun d =>
    let k := q.val
    if d.qEn k = false then d
    else
      let d := (((d.qHostDue k).qpushTorn k).qReset k).qpopEnd k .cut stQPtr
      let d := (d.qStallEnds k stQPtr).qLast k stQPtr
      ((d.put QMX_Q_STAT.PTRERR 1 k).publish evQmxPtr).logWarn 0x05 k stQPtr)

/-- Every queue number. -/
def queueIds : List Nat := List.range 48

/-- Two runs of 64-byte blocks do not overlap. -/
def apart (a n b m : Nat) : Bool := decide (a + n ≤ b) || decide (b + m ≤ a)

/-- A size and place that R368 allows: 4 ≤ LOG2SZ ≤ 12, aligned, inside the Data SRAM, and clear of other enabled queues, the result
pool and the overflow area. -/
def Dev.qPlaceOk (d : Dev) (k base lg : Nat) : Bool :=
  let n := 2 ^ lg / 16
  decide (4 ≤ lg) && decide (lg ≤ 12) && base % n == 0 && decide (base + n ≤ 8192) &&
    queueIds.all (fun q => q == k || !d.qEn q || apart base n (d.get QMX_Q_BASE.BASE q) (d.qSize q / 16)) &&
    apart base n (d.get TXN_POOL.BASE) (d.get TXN_POOL.SIZE) && apart base n (d.get LDG_OVF.BASE) (2 * d.get LDG_OVF.SLOTS)

/-- DMA channels that consume queue `k` are held or go on (R372). -/
def Dev.dmaHeld (d : Dev) (k : Nat) (held : Bool) : Dev :=
  (List.range 16).foldl (fun d c =>
    if d.isSet HLK_DMA_CFG.EN c && d.get HLK_DMA_CFG.QUEUE c == k then
      d.put HLK_DMA_STAT.STOPPED (if held then 1 else 0) c
    else d) d

/-- EN of queue `k` is cleared (R372): every item is discarded, waits and stalled reads end. -/
def Dev.qDisable (d : Dev) (k : Nat) : Dev :=
  let d := ((d.qHostDue k).qpushTorn k).qReset k
  let d := (d.put QMX_Q_BASE.EN 0 k).qpopEnd k .clash stQDenied
  (d.qStallEnds k stQCfg).dmaHeld k true

/-- EN of queue `k` is set (R372): it starts empty. -/
def Dev.qEnable (d : Dev) (k : Nat) : Dev :=
  let x := d.qx k
  let d := d.setQ k { left := x.left, drop := x.left.isSome }
  (d.put QMX_Q_BASE.EN 1 k).dmaHeld k false

/-- A write of QMX_Qk_BASE (R368): while EN is 1 it may only clear EN; BASE and LOG2SZ then stay, and a write that would
change them, and one that leaves EN 1, sets LAST. -/
def Dev.qBaseWrite (d : Dev) (k x : Nat) : Dev :=
  let base := bitsOf x 28 16
  let lg := bitsOf x 3 0
  let en := bitOf x 31
  if d.qEn k then
    if en then d.qLast k stQCfg
    else (if base = d.get QMX_Q_BASE.BASE k ∧ lg = d.get QMX_Q_BASE.LOG2SZ k then d else d.qLast k stQCfg).qDisable k
  else if d.qPlaceOk k base lg then
    let d := (d.put QMX_Q_BASE.BASE base k).put QMX_Q_BASE.LOG2SZ lg k
    if en then d.qEnable k else d
  else d.qLast k stQCfg

/-- A write of QMX_Qk_EP (R368): only while EN is 0, and while the queue's place meets the conditions. -/
def Dev.qEpWrite (d : Dev) (k x : Nat) : Dev :=
  if d.qEn k || !d.qPlaceOk k (d.get QMX_Q_BASE.BASE k) (d.get QMX_Q_BASE.LOG2SZ k) then d.qLast k stQCfg
  else ((d.put QMX_Q_EP.PROD (bitsOf x 28 24) k).put QMX_Q_EP.CONS (bitsOf x 20 16) k).put QMX_Q_EP.CEIL (bitsOf x 15 0) k

/-- QMX_CONFIG_WRITE: the mailbox queues are the Ranger's. -/
def execQmxConfigWrite (by' : Writer) (q : QueueNo) (ep : Bool) (value : Word) (s : State) :
    Host.Outcome State Fault Refusal :=
  s.onIsland 2 (if ep then .QMX_Q_EP else .QMX_Q_BASE) q.val (by' := by') (fun d =>
    let k := q.val
    if k < 2 ∧ (byRanger by') = false then d.qLast k stQCfg
    else if ep then d.qEpWrite k value.toNat else d.qBaseWrite k value.toNat)

end Sys2Proof.Machine
end

