-- ==== Sys2Proof/Machine/Dma.lean ====
section
/-! DEFINITION. The link of the PCI Express endpoint, its interrupts, and the DMA of host-bound queues (R430 to R440). -/

namespace Sys2Proof.Machine

/-- HLK_DMA_CFG. -/ def stHlkDmaCfg : Nat := 0x0804
/-- HLK_LINK_DOWN. -/ def stHlkLinkDown : Nat := 0x0805

/-- Step 6 of the start-up is done: the host link serves (R424, R431). -/
def Dev.hlkReady (d : Dev) : Bool := bitOf (d.get SYS_STEP.DONE) 5

/-- Every DMA channel. -/
def dmaIds : List Nat := List.range 16

/-- The engine may move items: link up and bus mastering on (R440). -/
def Dev.dmaMoves (d : Dev) : Bool := d.isSet HLK_STATUS.LINK && d.isSet HLK_STATUS.BME

/-- A channel is enabled. -/
def Dev.dmaEn (d : Dev) (k : Nat) : Bool := d.isSet HLK_DMA_CFG.EN k

/-- The ring's size as a power of two; 0 acts as 16 (R444). -/
def dmaLog2 (x : Nat) : Nat := if x = 0 then 16 else x

/-- The link or bus mastering has changed: enabled channels are held or go on; HLK_LINK_DOWN is logged once (R440). -/
def Dev.linkChange (d : Dev) : Dev :=
  let held := !d.dmaMoves
  let d := dmaIds.foldl (fun d k =>
    if d.dmaEn k then d.put HLK_DMA_STAT.STOPPED (bit (held || !d.qEn (d.get HLK_DMA_CFG.QUEUE k))) k else d) d
  if held then
    if d.hlk.downLogged then d
    else { d with hlk := { d.hlk with downLogged := true } }.logWarn 0x26 0 stHlkLinkDown
  else { d with hlk := { d.hlk with downLogged := false } }

/-- PCIE_LINK_UP: training completes; not while the SPI target is selected (R429, R431). -/
def execPcieLinkUp (speed5 : Bool) (s : State) : Host.Outcome State Fault Refusal :=
  s.onUnit 4 (fun d =>
    if d.isSet SYS_STRAP.HSEL then d
    else ((d.put HLK_STATUS.LINK 1).put HLK_STATUS.SPEED (bit speed5)).linkChange)

/-- LINK_DOWN. -/
def execLinkDown (s : State) : Host.Outcome State Fault Refusal :=
  s.onUnit 4 (fun d => if d.isSet SYS_STRAP.HSEL then d else (d.put HLK_STATUS.LINK 0).linkChange)

/-- The base address that BAR0 keeps of what is written to it: BAR0 spans 2 GB, so its low 31 bits are fixed (R23). -/
def barBase (x : Nat) : Nat := x % 2 ^ 64 / 2 ^ 31 * 2 ^ 31

/-- The device capabilities and control word of the configuration space: Max_Payload_Size 128 bytes alone, which is code 0, and the
Max_Read_Request_Size set (R430; assumption: PRESUMED, where the standard places them). -/
def Dev.deviceControl (d : Dev) : Nat := d.hlk.maxRead * 4096

/-- The link status word: one lane, and the speed of a link that is up (R430; assumption: PRESUMED, the standard's layout). -/
def Dev.linkStatus (d : Dev) : Nat := 16 + (if d.isSet HLK_STATUS.LINK then 1 + d.get HLK_STATUS.SPEED else 0)

/-- The MSI-X capability (R430, R432; assumption: PRESUMED, the standard's layout): its ID with 32 vectors, function mask and enable, then
the places of the table and of the pending bits in BAR0. -/
def Dev.msixCapability (d : Dev) : List Nat :=
  [0x11 + (31 + 16384 * bit d.hlk.msixMask + 32768 * bit d.hlk.msixEn) * 65536, 0x40261000, 0x40261800]

/-- What a read of the configuration space returns: Device ID with Vendor ID, the class code, BAR0, whose low bits say a 64-bit,
non-prefetchable memory BAR, the subsystem IDs, the device and link words, the MSI-X capability, and the Advanced Error Reporting
capability by its ID and version (R23, R430; assumption: PRESUMED, the standard's codes). Neither MSI nor INTx is there. -/
def Dev.configWords (d : Dev) : List Nat :=
  [d.get HLK_PCI_ID.DEVICE * 65536 + d.get HLK_PCI_ID.VENDOR, 0x118000, d.hlk.bar % 2 ^ 32 + 4, d.hlk.bar / 2 ^ 32,
    d.hlk.subsys, d.deviceControl, d.linkStatus] ++ d.msixCapability ++ [0x10001]

/-- The Max_Read_Request_Size that a configuration write sets: up to 512 bytes; another code leaves it (assumption: DESIGN CHOICE). -/
def Dev.maxReadOf (d : Dev) (c : Nat) : Nat := if c ≤ 2 then c else d.hlk.maxRead

/-- PCIE_CONFIG_REQUEST: before step 6 it receives Retry Status and changes nothing; from then on it is served. -/
def execPcieConfigRequest (write : Option ConfigWrite) (s : State) : Host.Outcome State Fault Refusal :=
  s.onUnit 4 (fun d =>
    if d.hlkReady = false ∨ d.isSet SYS_STRAP.HSEL = true then d
    else match write with
    | none => d.answers d.configWords
    | some w =>
      let d := { d with hlk := { d.hlk with bar := barBase w.bar.toNat, maxRead := d.maxReadOf w.maxRead.toNat, msixEn := w.msixEnable, msixMask := w.msixMask } }
      (d.put HLK_STATUS.BME (bit w.bme)).linkChange)

/-! ### MSI-X (R432) -/

/-- The MSI-X table entry of a vector. -/
def msixEntry (v : Nat) : Nat := 0x40261000 + 16 * v

/-- Bytes written to host memory. -/
def Dev.hostBytes (d : Dev) (a : Nat) : List Byte → Dev
  | [] => d
  | b :: bs => ({ d with hlk := { d.hlk with host := fset (fun _ => 0) id d.hlk.host a b } }).hostBytes (a + 1) bs

/-- A word written to host memory. -/
def Dev.hostWord (d : Dev) (a w : Nat) : Dev := d.hostBytes a (wordBytes w)

/-- A message of vector `v` may be sent: PCI Express, MSI-X enabled, function and vector unmasked, bus mastering. -/
def Dev.msixMay (d : Dev) (v : Nat) : Bool :=
  !d.isSet SYS_STRAP.HSEL && d.hlk.msixEn && !d.hlk.msixMask && !bitOf (d.word (msixEntry v + 12)) 0 &&
    d.isSet HLK_STATUS.BME

/-- MSIX_MESSAGE: a trigger on TK_HLK_IRQv is sent as one message; the consumer is served. -/
def execMsixMessage (vec : Fin 32) (s : State) : Host.Outcome State Fault Refusal :=
  s.onUnit 4 (fun d =>
    let v := vec.val
    if d.isSet TRL_CSTAT.PEND 0 (0x40 + v) && d.msixMay v then
      let a := d.word (msixEntry v) + 2 ^ 32 * d.word (msixEntry v + 4)
      (d.hostWord a (d.word (msixEntry v + 8))).served (0x40 + v)
    else d)

/-- The pending bits: the vectors whose trigger has not been sent. -/
def Dev.msixPending (d : Dev) : Nat :=
  if d.isSet SYS_STRAP.HSEL then 0
  else (((List.range 32).filter (fun v => d.isSet TRL_CSTAT.PEND 0 (0x40 + v))).map (fun v => 2 ^ v)).sum

/-! ### DMA (R438, R439) -/

/-- BASE of a channel. -/
def Dev.dmaBase (d : Dev) (k : Nat) : Nat := d.get HLK_DMA_BASE_LO.ADDR k + 2 ^ 32 * d.get HLK_DMA_BASE_HI.ADDR k
/-- SHD of a channel. -/
def Dev.dmaShd (d : Dev) (k : Nat) : Nat := d.get HLK_DMA_SHD_LO.ADDR k + 2 ^ 32 * d.get HLK_DMA_SHD_HI.ADDR k

/-- The words at consecutive ring positions from index `p`. -/
def Dev.dmaWords (d : Dev) (base size p : Nat) : List Nat → Dev
  | [] => d
  | w :: ws => (d.hostWord (base + 4 * (p % size)) w).dmaWords base size (p + 1) ws

/-- An item half read by the host when its queue passed to DMA goes with its rest discarded (assumption: DESIGN CHOICE). -/
def Dev.dmaAlign (d : Dev) (q : Nat) : Dev :=
  let x := d.qx q
  if x.rdLeft = 0 then d else d.setQ q { x with cons := x.cons + x.rdLeft, freed := x.cons + x.rdLeft, rdLeft := 0 }

/-- DMA_ITEM: the oldest visible item goes to the ring when it has room, then WR to SHD; the queue's space is freed. A queue that is not
enabled, or that the host no longer consumes, holds the channel (R371, R372). -/
def execDmaItem (k : Fin 16) (s : State) : Host.Outcome State Fault Refusal :=
  s.onUnit 4 (fun d =>
    let k := k.val
    let q := d.get HLK_DMA_CFG.QUEUE k
    if d.dmaEn k = false then d
    else if d.dmaMoves = false then d.linkChange
    else if d.qEn q = false ∨ d.qCons q ≠ epHost then d.put HLK_DMA_STAT.STOPPED 1 k
    else
      let d := d.dmaAlign q
      let size := 2 ^ dmaLog2 (d.get HLK_DMA_CFG.LOG2 k)
      let wr := d.get HLK_DMA_WR.WR k
      let used := (wr + 2 ^ 32 - d.get HLK_DMA_RD.RD k) % 2 ^ 32
      let n := bitsOf (d.qHead q) 15 0 + 1
      if d.qReady q && decide (used + n ≤ size) then
        let item := d.qHead q :: d.qBody q
        let d := (d.dmaWords (d.dmaBase k) size wr item).put HLK_DMA_WR.WR (wr + n) k
        (d.hostWord (d.dmaShd k) (d.get HLK_DMA_WR.WR k)).qDrop q |>.qPay q
      else d)

/-- The conditions under which a write that sets EN of channel `k` is applied (R372, R439). A channel names a queue while it is
enabled (assumption: DEDUCED). -/
def Dev.dmaCfgOk (d : Dev) (k q log2 : Nat) : Bool :=
  decide (q < 48) && d.qEn q && d.qCons q == epHost &&
    dmaIds.all (fun j => j == k || !d.dmaEn j || d.get HLK_DMA_CFG.QUEUE j != q) &&
    d.dmaBase k % 64 == 0 && d.dmaShd k % 4 == 0 && decide (4 ≤ dmaLog2 log2) && decide (d.get QMX_Q_BASE.LOG2SZ q ≤ dmaLog2 log2)

/-- The three fields of HLK_DMAk_CFG. -/
def Dev.dmaPut (d : Dev) (k x : Nat) : Dev :=
  ((d.put HLK_DMA_CFG.EN (bitsOf x 31 31) k).put HLK_DMA_CFG.QUEUE (bitsOf x 13 8) k).put HLK_DMA_CFG.LOG2 (bitsOf x 3 0) k

/-- DMA_CFG_WRITE. -/
def execDmaCfgWrite (k : Fin 16) (value : Word) (s : State) : Host.Outcome State Fault Refusal :=
  s.onIsland 4 .HLK_DMA_CFG k.val (fun d =>
    let x := value.toNat
    let k := k.val
    if bitOf x 31 = false then (d.dmaPut k x).put HLK_DMA_STAT.STOPPED 0 k
    else if d.dmaCfgOk k (bitsOf x 13 8) (bitsOf x 3 0) then
      let d := (d.dmaPut k x).put HLK_DMA_STAT.STOPPED 0 k
      if d.dmaMoves then d else d.linkChange
    else d.put HLK_DMA_STAT.LAST_ERR stHlkDmaCfg k)

/-- DMA_RD_WRITE. -/
def execDmaRdWrite (k : Fin 16) (rd : Word) (s : State) : Host.Outcome State Fault Refusal :=
  s.onIsland 4 .HLK_DMA_RD k.val (fun d => d.put HLK_DMA_RD.RD rd.toNat k.val)

end Sys2Proof.Machine
end

