-- ==== Sys2Proof/Machine/HfAct.lean ====
section
/-! DEFINITION. The commands of the HF reader, the card watch, the 433 MHz port and the wake receivers (R271 to R305). -/

namespace Sys2Proof.Machine

/-! ### States and trips of the two ports (R272, R273, R290, R291) -/

/-- CAUSE of a port. -/
def portCauseFld (p : Nat) : Fld := if p = 9 then HFR_TRIP.CAUSE else ACT_TRIP.CAUSE
/-- TARGET of a port. -/
def portTargetFld (p : Nat) : Fld := if p = 9 then HFR_CTRL.TARGET else ACT_CTRL.TARGET
/-- The trip event of a port. -/
def portTripEv (p : Nat) : Nat := if p = 9 then evHfrTrip else evActTrip

/-- The causes that a port takes in its present state: on HF, PLL_UNL needs the field, OPEN the unmodulated field and OVERCUR the
driver, and OFF takes none (R272, R273); on ACT, PLL_UNL needs the receiver, and every other cause trips it wherever it stands (R291;
the table "ACT states" names RX and TX; assumption: DEDUCED). -/
def Dev.portMask (d : Dev) (p causes : Nat) : Nat :=
  if d.pst p = 2 then
    if p = 9 ∧ (d.chx 9).txOn = true ∧ (d.chx 9).txStart ≤ d.tick then Nat.land causes 0x3D else causes
  else if p = 9 then Nat.land causes (if d.pst p = 1 then 0x1D else if d.pst p = 4 then 0x1C else 0)
  else Nat.land causes 0x7

/-- The instruction in progress of the Vat bound to a port ends with a status at tick `t`, its window with a CUT cause. -/
def Dev.portEndAir (d : Dev) (p cutc st t : Nat) : Dev :=
  let d := d.portCut p cutc st
  match d.binder p with
  | some v => d.vatCut v st t
  | none => d

/-- A port detects trip causes; one that is in TRIP already takes their bits and stays. -/
def Dev.portTrip (d : Dev) (p causes : Nat) : Dev :=
  let d := d.portSync p
  let m := d.portMask p causes
  if m = 0 then d
  else if d.pst p = 4 then
    (d.put (portCauseFld p) (Nat.lor (d.get (portCauseFld p)) m)).setCh p { d.chx p with goal := none, target := none }
  else
    let t := d.tick
    let d := (d.portEndAir p 1 (portTripSt p) t).portOff p t
    let d := (d.put (portCauseFld p) (Nat.lor (d.get (portCauseFld p)) m)).put (portStateFld p) 4
    let d := if p = 9 ∧ bitOf m 5 = true then d.put HFR_STATUS.PLL_LOCK 0 else d
    (d.setCh p { d.chx p with goal := none, target := none }).publish (portTripEv p)

/-- The causes that may still be asserted at a write that clears them, the field or transmitter being off: TEMP and SUPPLY (R273,
R291). -/
def portAsserts (p : Nat) : Nat := if p = 9 then 0x0C else 0x3

/-- Cause bits are cleared, but not those still asserted; with none left a tripped port goes to READY. -/
def Dev.portTripClear (d : Dev) (p mask asserted : Nat) : Dev :=
  let d := d.portSync p
  let left := Nat.land (d.get (portCauseFld p)) (Nat.lor (Nat.land asserted (portAsserts p)) (0x3F - mask % 64))
  let d := d.put (portCauseFld p) left
  if left = 0 ∧ d.pst p = 4 ∧ (d.chx p).goal.isNone then
    d.setCh p { d.chx p with goal := some 1, due := d.tick + portReadyTime p }
  else d

/-- The Vat bound to a port waits in a CARRY ON. -/
def Dev.portCarryHeld (d : Dev) (p : Nat) : Bool :=
  match (d.binder p).map (fun v => (d.vatx v).wait) with
  | some (.carryOn _) => true
  | _ => false

/-- The way of a port out of FIELD or RX after a TARGET write: the HF field goes off at the next tick, ACT takes 1 µs. -/
def Dev.portLeave (d : Dev) (p target : Nat) : Dev :=
  let t := d.tick + 1
  let x := d.chx p
  let due := if p = 9 then t else d.tick + usTicks 1
  let due := if x.goal = some 5 then min x.due due else due
  let d := (d.portEndAir p 3 stNoCarrier t).portTxAbort p t
  d.setCh p { d.chx p with goal := some 5, due := due, target := if target = 0 then some 0 else none }

/-- A port in OFF, READY or TRIP is to go OFF (R272, R290): within 1 µs; what was on its way to READY from OFF stays there. -/
def Dev.portDown (d : Dev) (p : Nat) : Dev :=
  let x := d.chx p
  if x.goal = some 5 then d.setCh p { x with target := some 0 }
  else if d.pst p = 0 then d.setCh p { x with goal := none, target := none }
  else if x.goal = some 0 then d.setCh p { x with target := none }
  else d.setCh p { x with goal := some 0, due := d.tick + usTicks 1, target := none }

/-- A write of TARGET: 0 OFF or 1 READY, other values ignored. While the field or receiver is on it goes off. -/
def Dev.portTarget (d : Dev) (p target : Nat) : Dev :=
  if 1 < target then d
  else
    let d := (d.put (portTargetFld p) target).portSync p
    let x := d.chx p
    if d.pst p = 2 ∧ (x.goal ≠ some 5 ∨ d.tick < x.due) then d.portLeave p target
    else
      let d := if d.portCarryHeld p then d.portEndAir p 3 stNoCarrier (d.tick + 1) else d
      if target = 0 then d.portDown p else d.portWake p d.tick

/-- A write of HFR_CTRL.TARGET. -/
def aloneHfrTargetWrite (target : BitVec 3) (s : State) : Host.Outcome State Fault Refusal :=
  s.onIsland 5 .HFR_CTRL 0 (fun d => d.portTarget 9 target.toNat)
/-- A write of ACT_CTRL.TARGET. -/
def aloneActTargetWrite (target : BitVec 3) (s : State) : Host.Outcome State Fault Refusal :=
  s.onIsland 6 .ACT_CTRL 0 (fun d => d.portTarget 10 target.toNat)
/-- A write of HFR_TRIP.FORCE: cause HOST. -/
def aloneHfrForce (s : State) : Host.Outcome State Fault Refusal := s.onIsland 5 .HFR_TRIP 0 (fun d => d.portTrip 9 0x10)
/-- The HF port detects trip causes. -/
def aloneHfrTrip (causes : BitVec 6) (s : State) : Host.Outcome State Fault Refusal :=
  s.onUnit 5 (fun d => d.portTrip 9 causes.toNat)
/-- A write clearing HFR_TRIP cause bits. -/
def execHfrTripClear (mask asserted : BitVec 6) (s : State) : Host.Outcome State Fault Refusal :=
  s.onIsland 5 .HFR_TRIP 0 (fun d => d.portTripClear 9 mask.toNat asserted.toNat)
/-- A write of ACT_TRIP.FORCE: cause HOST. -/
def aloneActForce (s : State) : Host.Outcome State Fault Refusal := s.onIsland 6 .ACT_TRIP 0 (fun d => d.portTrip 10 0x4)
/-- The ACT port detects trip causes. -/
def aloneActTrip (causes : BitVec 4) (s : State) : Host.Outcome State Fault Refusal :=
  s.onUnit 6 (fun d => d.portTrip 10 causes.toNat)
/-- A write clearing ACT_TRIP cause bits. -/
def execActTripClear (mask asserted : BitVec 4) (s : State) : Host.Outcome State Fault Refusal :=
  s.onIsland 6 .ACT_TRIP 0 (fun d => d.portTripClear 10 mask.toNat asserted.toNat)

/-- PORT_READY_DONE: the way to READY ends. -/
def execPortReadyDone (act : Bool) (s : State) : Host.Outcome State Fault Refusal :=
  s.on (fun d =>
    let p := if act then 10 else 9
    let x := d.chx p
    if x.goal = some 1 ∨ (x.goal = some 0 ∧ x.target = some 1) then (d.toTick (d.portReadyAt p)).portSync p else d)

/-! ### The HF port (R271, R273, R276) -/

/-- A write of HFR_DRV.ITGT (R273): what is asked above ILIM is applied as ILIM; it lands after a PWR of the same tick (R286). -/
def execHfrDrvWrite (itgt : BitVec 9) (s : State) : Host.Outcome State Fault Refusal :=
  s.onIsland 5 .HFR_DRV 0 (fun d => (d.portSync 9).put HFR_DRV.ITGT itgt.toNat)

/-- The driver current applied (R273). -/
def Dev.hfCurrent (d : Dev) : Nat := min (d.get HFR_DRV.ITGT) (d.get HFR_DRV.ILIM)

/-- A mode profile names a combination of the table "HF modes" (R271). -/
def hfModeOk (std rate depth : Nat) : Bool :=
  if std = 0 then decide (rate ≤ 3) && (if rate = 0 then depth == 100 else decide (8 ≤ depth) && decide (depth ≤ 30))
  else if std = 1 then decide (rate ≤ 3) && decide (8 ≤ depth) && decide (depth ≤ 14)
  else if std = 2 then (decide (10 ≤ depth) && decide (depth ≤ 30)) || depth == 100
  else if std = 3 then
    decide (rate ≤ 2) && (if rate = 0 then depth == 100 else decide (8 ≤ depth) && decide (depth ≤ 30))
  else false

/-- A write of HFR_MODEk; VALID is evaluated anew. -/
def execHfrModeWrite (k : Fin 4) (value : Word) (s : State) : Host.Outcome State Fault Refusal :=
  s.onIsland 5 .HFR_MODE 0 (fun d =>
    let x := value.toNat
    let j := k.val
    let d := ((d.put HFR_MODE.STD (bitsOf x 31 28) 0 j).put HFR_MODE.RATE (bitsOf x 26 24) 0 j).put HFR_MODE.RXLOW
      (bitsOf x 22 22) 0 j
    let d := ((d.put HFR_MODE.DUALSC (bitsOf x 21 21) 0 j).put HFR_MODE.C256 (bitsOf x 20 20) 0 j).put HFR_MODE.PARITY
      (bitsOf x 19 19) 0 j
    (d.put HFR_MODE.DEPTH (bitsOf x 14 8) 0 j).put HFR_MODE.VALID
      (bit (hfModeOk (bitsOf x 31 28) (bitsOf x 26 24) (bitsOf x 14 8))) 0 j)

/-- HFR_CARRY_END: with the field on, IMEAS reaches 90 % of the current asked for and the CARRY ON ends. -/
def execHfrCarryEnd (imeas : BitVec 9) (s : State) : Host.Outcome State Fault Refusal :=
  s.onUnit 5 (fun d =>
    let d := d.portSync 9
    if d.portOn 9 ∧ 9 * d.hfCurrent ≤ 10 * imeas.toNat then
      let d := d.put HFR_MEAS.IMEAS imeas.toNat
      match d.binder 9 with
      | some v =>
        match (d.vatx v).wait with
        | .carryOn _ => d.airEnd v opCarry .one 0 d.tick
        | _ => d
      | none => d
    else d)

/-- HFR_FIELD_OFF: the field went off at the launch tick of the CARRY OFF and is below 1 % 2 µs later, its end tick. -/
def execHfrFieldOff (s : State) : Host.Outcome State Fault Refusal :=
  s.onUnit 5 (fun d =>
    let t := (d.chx 9).due + portOffTime 9
    let off := d.pst 9 == 2 && (d.chx 9).goal == some 5
    let d := if off then (d.toTick t).portSync 9 else d
    match d.binder 9 with
    | some v =>
      match (d.vatx v).wait with
      | .carryOff => if d.pst 9 = 1 then d.airEnd v opCarry .one 0 t else d
      | _ => d
    | none => d)

/-! ### The card watch (R283 to R285) -/

/-- CW_PULSE: a pulse falls due, not before its heartwood tick; skipped in FIELD, MOD and TRIP and under HFREF. It starts now, and
samples 12 µs later. In GLADE it runs from the copy latched at entry, in one step, since AT does not count there; it does not run in
FALLOW. -/
def execCwPulse (amp : BitVec 12) (phase : BitVec 8) (s : State) : Host.Outcome State Fault Refusal :=
  s.on (fun d =>
    let l := d.aonRegs
    if l.isSet HFR_CW_CTRL.EN = false ∨ d.pwr.asleep = some 2 ∨ d.rst.asserted = true then d
    else if d.pwr.asleep.isSome then
      let d := if d.cw.due = 0 then d.sleepOn else d.toHw d.cw.due
      (d.cwNext l).cwFinish amp.toNat phase.toNat
    else if d.cwIsDue = false then d
    else
      let d := (d.cwSync.portSync 9).cwNext l
      if 2 ≤ d.pst 9 ∨ (d.calOf 13).isSome = true then d.inc HFR_CW_CNT.SKIPPED
      else { d with cw := { d.cw with pulse := some (d.tick, amp.toNat, phase.toNat) } })

/-! ### The ACT port (R292, R294) -/

/-- ACT_LOCK: the synthesiser has locked after the launch tick of a CARRY ON; RX, and the CARRY ends. -/
def execActLock (s : State) : Host.Outcome State Fault Refusal :=
  s.onUnit 6 (fun d =>
    match d.binder 10 with
    | some v =>
      match (d.vatx v).wait with
      | .carryOn named =>
        let t := max (max d.tick (named + portDelay)) (d.portReadyAt 10)
        let d' := (d.toTick t).portSync 10
        if d'.pst 10 = 1 ∧ (d'.chx 10).goal = none ∧ t ≤ named + portDelay + 15360 then
          let d' := (d'.put ACT_STATUS.STATE 2).put ACT_STATUS.LOCK 1
          (d'.setCh 10 { d'.chx 10 with goal := none, launched := t, lastTx := none, refE := none }).airEnd v opCarry .one 0 t
        else d
      | _ => d
    | none => d)

/-- The length of a duty sub-window: 225 s in ticks (R292). -/
def dutyWindow : Nat := msTicks 225000

/-- ACT_DUTY_SUBWINDOW: the next sub-window of the account begins; what a frame sends in it is counted in it (R262, R292). -/
def execActDutySubwindow (s : State) : Host.Outcome State Fault Refusal :=
  s.onUnit 6 (fun d =>
    let t := (d.tick / dutyWindow + 1) * dutyWindow
    let n := d.dutyAhead t
    let d := (d.dutyCharge n true).toTick t
    { d with duty := (n :: d.duty).take 17 })

/-! ### Wake receivers (R299 to R301) -/

/-- The number of bits set in a word. -/
def popcount (x : Nat) : Nat := ((List.range 32).filter (fun k => bitOf x k)).length

/-- A write of WKR_CODE: CODE_BAD unless 12 to 20 bits are set. -/
def execWkrCodeWrite (code : Word) (s : State) : Host.Outcome State Fault Refusal :=
  s.onIsland 0 .WKR_CODE 0 (fun d =>
    let n := popcount code.toNat
    (d.put WKR_CODE.CODE code.toNat).put WKR_STATUS.CODE_BAD (bit (decide (n < 12) || decide (20 < n))))

/-- ACT is in TX, or was within the last 2 ms (R301); at their end blanking still prevails (R302). In sleep heartwood measures the
time (assumption: DESIGN CHOICE). -/
def Dev.actBlanks (d : Dev) : Bool :=
  let x := d.chx 10
  if d.pwr.asleep.isSome then decide (d.hw < d.wkr.blank433Hw)
  else (x.txOn && decide (x.txStart ≤ d.tick)) || decide (d.tick < d.wkr.blank433)

/-- The mesh radio transmits, a wake train among it, or did within the last 2 ms (R301). -/
def Dev.meshBlanks (d : Dev) : Bool :=
  if d.pwr.asleep.isSome then decide (d.hw < d.wkr.blank24Hw)
  else decide (d.tick < d.wkr.was24) || (decide (d.wkr.from24 ≤ d.tick) && decide (d.tick < d.wkr.blank24)) ||
    (d.msh.train.bind (fun x => x.here)).any (fun t => decide (t ≤ d.tick))

/-- The hold-off of WR433 after its latest match runs (R299); heartwood measures it in sleep. -/
def Dev.wr433Held (d : Dev) : Bool :=
  if d.pwr.asleep.isSome then decide (d.hw < d.wkr.holdHw) else decide (d.tick < d.wkr.hold)

/-- WR433_MATCH: the last 32 bits received differ from the code in no more than ERRS bits, outside hold-off and blanking. -/
def execWr433Match (code : Word) (s : State) : Host.Outcome State Fault Refusal :=
  s.on (fun d =>
    let l := d.aonRegs
    let d := d.sleepOn
    let diff := popcount (Nat.xor code.toNat (l.get WKR_CODE.CODE))
    if l.isSet WKR_CTRL.EN433 && !l.isSet WKR_STATUS.CODE_BAD && decide (diff ≤ l.get WKR_433CFG.ERRS) && !d.wr433Held &&
        !d.actBlanks then
      let h := l.get WKR_433CFG.HOLDOFF
      let d := { d with wkr := { d.wkr with hold := d.tick + h * msTicks 4, holdHw := d.hw + (h * 131072 + 999) / 1000 } }
      if d.pwr.asleep.isSome then d.aonEvent evWkr433 0 diff
      else if d.rst.asserted then d.wakeBy [(0, diff)]
      else ((d.put WKR_STATUS.M433 1).inc WKR_CNT.C433).aonEvent evWkr433 0 diff
    else d)

/-- The qualifying pulses in a row at the end of a train of (length, gap before it), oldest first (R300); once PCOUNT is
reached it stays. -/
def pulseRun (lo hi gap need : Nat) : Nat → List (Nat × Nat) → Nat
  | n, [] => n
  | n, (len, g) :: ps =>
    if need ≤ n then n
    else if lo ≤ len ∧ len ≤ hi then pulseRun lo hi gap need (if n = 0 ∨ gap < g then 1 else n + 1) ps
    else pulseRun lo hi gap need 0 ps

/-- WR24_MATCH: a train of pulses, each its length and the gap since the one before ended, in heartwood ticks. -/
def execWr24Match (pulses : List (Nat × Nat)) (s : State) : Host.Outcome State Fault Refusal :=
  s.on (fun d =>
    let l := d.aonRegs
    let d := d.sleepOn
    let need := max 2 (l.get WKR_24SEQ.PCOUNT)
    let n := pulseRun (l.get WKR_24PW.PW_MIN) (l.get WKR_24PW.PW_MAX) (l.get WKR_24SEQ.GAP_MAX) need 0 pulses
    if l.isSet WKR_CTRL.EN24 && decide (need ≤ n) && !d.meshBlanks then
      if d.pwr.asleep.isSome then d.aonEvent evWkr24 1 0
      else if d.rst.asserted then d.wakeBy [(1, 0)]
      else ((d.put WKR_STATUS.M24 1).inc WKR_CNT.C24).aonEvent evWkr24 1 0
    else d)

end Sys2Proof.Machine
end

