-- ==== Sys2Proof/Machine/Crypto.lean ====
section
/-! DEFINITION. SHA-512 and ECDSA P-521 (R163, R164, R408). The spec names both functions; their constants and steps are those
of FIPS 180-4 and FIPS 186 (assumption: PRESUMED). -/

namespace Sys2Proof.Machine

/-! ### SHA-512 -/

/-- Constants 0 to 19. -/
def shaK0 : List Nat := [
  0x428A2F98D728AE22, 0x7137449123EF65CD, 0xB5C0FBCFEC4D3B2F, 0xE9B5DBA58189DBBC,
  0x3956C25BF348B538, 0x59F111F1B605D019, 0x923F82A4AF194F9B, 0xAB1C5ED5DA6D8118,
  0xD807AA98A3030242, 0x12835B0145706FBE, 0x243185BE4EE4B28C, 0x550C7DC3D5FFB4E2,
  0x72BE5D74F27B896F, 0x80DEB1FE3B1696B1, 0x9BDC06A725C71235, 0xC19BF174CF692694,
  0xE49B69C19EF14AD2, 0xEFBE4786384F25E3, 0x0FC19DC68B8CD5B5, 0x240CA1CC77AC9C65]
/-- Constants 20 to 39. -/
def shaK1 : List Nat := [
  0x2DE92C6F592B0275, 0x4A7484AA6EA6E483, 0x5CB0A9DCBD41FBD4, 0x76F988DA831153B5,
  0x983E5152EE66DFAB, 0xA831C66D2DB43210, 0xB00327C898FB213F, 0xBF597FC7BEEF0EE4,
  0xC6E00BF33DA88FC2, 0xD5A79147930AA725, 0x06CA6351E003826F, 0x142929670A0E6E70,
  0x27B70A8546D22FFC, 0x2E1B21385C26C926, 0x4D2C6DFC5AC42AED, 0x53380D139D95B3DF,
  0x650A73548BAF63DE, 0x766A0ABB3C77B2A8, 0x81C2C92E47EDAEE6, 0x92722C851482353B]
/-- Constants 40 to 59. -/
def shaK2 : List Nat := [
  0xA2BFE8A14CF10364, 0xA81A664BBC423001, 0xC24B8B70D0F89791, 0xC76C51A30654BE30,
  0xD192E819D6EF5218, 0xD69906245565A910, 0xF40E35855771202A, 0x106AA07032BBD1B8,
  0x19A4C116B8D2D0C8, 0x1E376C085141AB53, 0x2748774CDF8EEB99, 0x34B0BCB5E19B48A8,
  0x391C0CB3C5C95A63, 0x4ED8AA4AE3418ACB, 0x5B9CCA4F7763E373, 0x682E6FF3D6B2B8A3,
  0x748F82EE5DEFB2FC, 0x78A5636F43172F60, 0x84C87814A1F0AB72, 0x8CC702081A6439EC]
/-- Constants 60 to 79. -/
def shaK3 : List Nat := [
  0x90BEFFFA23631E28, 0xA4506CEBDE82BDE9, 0xBEF9A3F7B2C67915, 0xC67178F2E372532B,
  0xCA273ECEEA26619C, 0xD186B8C721C0C207, 0xEADA7DD6CDE0EB1E, 0xF57D4F7FEE6ED178,
  0x06F067AA72176FBA, 0x0A637DC5A2C898A6, 0x113F9804BEF90DAE, 0x1B710B35131C471B,
  0x28DB77F523047D84, 0x32CAAB7B40C72493, 0x3C9EBE0A15C9BEBC, 0x431D67C49C100D4C,
  0x4CC5D4BECB3E42B6, 0x597F299CFC657E2A, 0x5FCB6FAB3AD6FAEC, 0x6C44198C4A475817]

/-- The 80 round constants. -/
def shaK : List Nat := shaK0 ++ shaK1 ++ shaK2 ++ shaK3

/-- A 64-bit word rotated right. -/
def rotr64 (x n : Nat) : Nat := (x >>> n ||| x <<< (64 - n)) % 2 ^ 64

/-- The next word of the schedule from the 16 before it, the newest first. -/
def shaNext (w : List Nat) : Nat :=
  let a := w.getD 1 0
  let b := w.getD 14 0
  (w.getD 15 0 + (rotr64 b 1 ^^^ rotr64 b 8 ^^^ b >>> 7) + w.getD 6 0 + (rotr64 a 19 ^^^ rotr64 a 61 ^^^ a >>> 6)) % 2 ^ 64

/-- `n` more words of the schedule, the newest first. -/
def shaExtend : Nat → List Nat → List Nat
  | 0, w => w
  | n + 1, w => shaExtend n (shaNext w :: w)

/-- The eight working variables. -/
structure ShaVars where
  a : Nat
  b : Nat
  c : Nat
  d : Nat
  e : Nat
  f : Nat
  g : Nat
  h : Nat
deriving DecidableEq, Repr

/-- The initial hash value. -/
def shaInit : ShaVars :=
  { a := 0x6A09E667F3BCC908, b := 0xBB67AE8584CAA73B, c := 0x3C6EF372FE94F82B, d := 0xA54FF53A5F1D36F1,
    e := 0x510E527FADE682D1, f := 0x9B05688C2B3E6C1F, g := 0x1F83D9ABFB41BD6B, h := 0x5BE0CD19137E2179 }

/-- One round with a constant and a word of the schedule. -/
def shaRound (s : ShaVars) (kw : Nat × Nat) : ShaVars :=
  let t1 := s.h + (rotr64 s.e 14 ^^^ rotr64 s.e 18 ^^^ rotr64 s.e 41) +
    ((s.e &&& s.f) ^^^ ((2 ^ 64 - 1 - s.e) &&& s.g)) + kw.1 + kw.2
  let t2 := (rotr64 s.a 28 ^^^ rotr64 s.a 34 ^^^ rotr64 s.a 39) + ((s.a &&& s.b) ^^^ (s.a &&& s.c) ^^^ (s.b &&& s.c))
  { a := (t1 + t2) % 2 ^ 64, b := s.a, c := s.b, d := s.c, e := (s.d + t1) % 2 ^ 64, f := s.e, g := s.f, h := s.g }

/-- One block of 16 words. -/
def shaBlock (s : ShaVars) (ws : List Nat) : ShaVars :=
  let r := (shaK.zip (shaExtend 64 ws.reverse).reverse).foldl shaRound s
  { a := (s.a + r.a) % 2 ^ 64, b := (s.b + r.b) % 2 ^ 64, c := (s.c + r.c) % 2 ^ 64, d := (s.d + r.d) % 2 ^ 64,
    e := (s.e + r.e) % 2 ^ 64, f := (s.f + r.f) % 2 ^ 64, g := (s.g + r.g) % 2 ^ 64, h := (s.h + r.h) % 2 ^ 64 }

/-- A big-endian number from its bytes. -/
def beNat (bs : List Byte) : Nat := bs.foldl (fun n b => 256 * n + b.toNat) 0

/-- The `n` big-endian bytes of a number. -/
def beBytes (n v : Nat) : List Byte := (List.range n).map (fun k => BitVec.ofNat 8 (v / 256 ^ (n - 1 - k)))

/-- The padded message. -/
def shaPad (m : List Byte) : List Byte :=
  m ++ 0x80 :: List.replicate ((239 - m.length % 128) % 128) 0 ++ beBytes 16 (8 * m.length)

/-- `n` blocks of a padded message. -/
def shaBlocks : Nat → ShaVars → List Byte → ShaVars
  | 0, s, _ => s
  | n + 1, s, bs =>
    shaBlocks n (shaBlock s ((List.range 16).map (fun i => beNat ((bs.drop (8 * i)).take 8)))) (bs.drop 128)

/-- The 64 bytes of the SHA-512 digest of a message. -/
def sha512Bytes (m : List Byte) : List Byte :=
  let p := shaPad m
  let s := shaBlocks (p.length / 128) shaInit p
  [s.a, s.b, s.c, s.d, s.e, s.f, s.g, s.h].flatMap (beBytes 8)

/-! ### P-521 -/

/-- The prime of the field. -/
def p521P : Nat := 2 ^ 521 - 1
/-- The order of the base point. -/
def p521N : Nat :=
  0x1FFFFFFFFFFFFFFFFFFFFFFFFFFFFFFFFFFFFFFFFFFFFFFFFFFFFFFFFFFFFFFFFFA51868783BF2F966B7FCC0148F709A5D03BB5C9B8899C47AEBB6FB71E91386409
/-- The constant b of y² = x³ - 3x + b. -/
def p521B : Nat :=
  0x51953EB9618E1C9A1F929A21A0B68540EEA2DA725B99B315F3B8B489918EF109E156193951EC7E937B1652C0BD3BB1BF073573DF883D2C34F1EF451FD46B503F00
/-- The base point. -/
def p521G : Nat × Nat :=
  (0xC6858E06B70404E9CD9E3ECB662395B4429C648139053FB521F828AF606B4D3DBAA14B5E77EFE75928FE1DC127A2FFA8DE3348B3C1856A429BF97E7E31C2E5BD66,
   0x11839296A789A3BC0045C8A5FB42C7D1BD998F54449579B446817AFBD17273E662C97EE72995EF42640C550B9013FAD0761353C7086A272C24088BE94769FD16650)

/-- A power modulo `m`, over at most `fuel` bits of the exponent. -/
def powMod (m : Nat) : Nat → Nat → Nat → Nat
  | 0, _, _ => 1
  | fuel + 1, x, e =>
    if e = 0 then 1
    else
      let r := powMod m fuel (x * x % m) (e / 2)
      if e % 2 = 1 then r * x % m else r

/-- The inverse modulo a prime of 521 bits. -/
def invMod (m x : Nat) : Nat := powMod m 521 (x % m) (m - 2)

/-- A difference in the field. -/
def subP (x y : Nat) : Nat := (x + p521P - y % p521P) % p521P

/-- The sum of two points; none is the point at infinity. -/
def ecAdd : Option (Nat × Nat) → Option (Nat × Nat) → Option (Nat × Nat)
  | none, q => q
  | p, none => p
  | some p, some q =>
    if p.1 = q.1 ∧ (p.2 + q.2) % p521P = 0 then none
    else
      let l := if p.1 = q.1 then subP (3 * p.1 * p.1) 3 * invMod p521P (2 * p.2) % p521P
        else subP q.2 p.2 * invMod p521P (subP q.1 p.1) % p521P
      let x := subP (l * l) (p.1 + q.1)
      some (x, subP (l * subP p.1 x) p.2)

/-- A multiple of a point, over at most `fuel` bits. -/
def ecMul : Nat → Nat → Option (Nat × Nat) → Option (Nat × Nat)
  | 0, _, _ => none
  | fuel + 1, k, p =>
    if k = 0 then none
    else
      let r := ecMul fuel (k / 2) (ecAdd p p)
      if k % 2 = 1 then ecAdd p r else r

/-- The point of a 133-byte uncompressed public key, where it lies on the curve. -/
def p521Point (key : List Byte) : Option (Nat × Nat) :=
  let x := beNat ((key.drop 1).take 66)
  let y := beNat ((key.drop 67).take 66)
  if key.length = 133 ∧ key.headD 0 = 4 ∧ x < p521P ∧ y < p521P ∧ y * y % p521P = subP (x * x * x + p521B) (3 * x) then
    some (x, y)
  else none

/-- The number an ECDSA signature is over: the SHA-512 digest, shorter than the order. -/
def p521Hash (m : List Byte) : Nat := beNat (sha512Bytes m)

/-- A signature trailer verifies with a public key (R164, R408): r in bytes 0 to 65 and s in bytes 66 to 131, big-endian, then
four zero bytes. -/
def p521Verify (key m sig : List Byte) : Bool :=
  let r := beNat (sig.take 66)
  let s := beNat ((sig.drop 66).take 66)
  match p521Point key with
  | none => false
  | some q =>
    sig.drop 132 == List.replicate 4 0 && decide (1 ≤ r ∧ r < p521N) && decide (1 ≤ s ∧ s < p521N) &&
      (let w := invMod p521N s
       match ecAdd (ecMul 521 (p521Hash m * w % p521N) (some p521G)) (ecMul 521 (r * w % p521N) (some q)) with
       | some p => p.1 % p521N == r
       | none => false)

/-- The signature trailer of a message under a private key, a big-endian number (R408, R413): its random number is free. -/
def p521Sign (key m : List Byte) : List Byte :=
  let k := 1 + (Config.p521Nonce key m).toNat % (p521N - 1)
  match ecMul 521 k (some p521G) with
  | none => List.replicate 136 0
  | some p =>
    let r := p.1 % p521N
    let s := invMod p521N k * (p521Hash m + r * beNat key) % p521N
    beBytes 66 r ++ beBytes 66 s ++ List.replicate 4 0

end Sys2Proof.Machine
end

