-- ==== Sys2Proof/Machine/Image.lean ====
section
/-! DEFINITION. Hoop images: the header, the directory, the tables, and the checks that need no more than the image
(R160 to R177). -/

namespace Sys2Proof.Machine

/-! Loader status codes (R183) and those of the store (R12, R419). -/
/-- HOOP_FORMAT. -/ def stHoopFormat : Nat := 0x0720
/-- HOOP_STEP. -/ def stHoopStep : Nat := 0x0721
/-- HOOP_DIGEST. -/ def stHoopDigest : Nat := 0x0722
/-- HOOP_UNSIGNED. -/ def stHoopUnsigned : Nat := 0x0723
/-- HOOP_NOSPACE. -/ def stHoopNospace : Nat := 0x0724
/-- HOOP_CONTRACT. -/ def stHoopContract : Nat := 0x0725
/-- HOOP_IN_USE. -/ def stHoopInUse : Nat := 0x0726
/-- HOOP_JOINT_TIMEOUT. -/ def stHoopJoint : Nat := 0x0727
/-- HOOP_MASK. -/ def stHoopMask : Nat := 0x0728
/-- NVM_SIG_FAIL. -/ def stNvmSigFail : Nat := 0x0702

/-- Word `i` of an image, little-endian (R160). -/
def imgWord (bs : List Byte) (i : Nat) : Nat :=
  (bs.getD (4 * i) 0).toNat + 256 * ((bs.getD (4 * i + 1) 0).toNat +
    256 * ((bs.getD (4 * i + 2) 0).toNat + 256 * (bs.getD (4 * i + 3) 0).toNat))

/-- The image is signed (FLAGS bit 0). -/
def imgSigned (bs : List Byte) : Bool := bitOf (imgWord bs 1) 16

/-- The words of the image without its trailer: what is loaded (R165). -/
def imgEnd (bs : List Byte) : Nat := (bs.length - if imgSigned bs then 136 else 0) / 4

/-- VAT_MASK. -/ def imgMask (bs : List Byte) : Nat := bitsOf (imgWord bs 5) 15 0
/-- SECT_COUNT. -/ def imgSects (bs : List Byte) : Nat := bitsOf (imgWord bs 5) 31 16
/-- LINK_BASE. -/ def imgLink (bs : List Byte) : Nat := imgWord bs 7
/-- KEY_ID. -/ def imgKey (bs : List Byte) : Nat := imgWord bs 8
/-- CONTRACT. -/ def imgContract (bs : List Byte) : Nat := imgWord bs 9
/-- DIGEST. -/ def imgDigest (bs : List Byte) : List Byte := (bs.drop 0xC0).take 64

/-- A section as the directory names it: type, word offset, count, length in words (R162). -/
structure Sect where
  type : Nat
  off : Nat
  count : Nat
  len : Nat
deriving DecidableEq, Repr

/-- Directory entry `k`. -/
def imgSect (bs : List Byte) (k : Nat) : Sect :=
  let a := imgWord bs (16 + 2 * k)
  let b := imgWord bs (17 + 2 * k)
  { type := bitsOf a 31 24, off := bitsOf a 17 0, count := bitsOf b 31 18, len := bitsOf b 17 0 }

/-- The sections in use. -/
def imgDir (bs : List Byte) : List Sect := (List.range (min 16 (imgSects bs))).map (imgSect bs)

/-- The section of a type. -/
def imgFind (bs : List Byte) (type : Nat) : Option Sect := (imgDir bs).find? (fun s => s.type == type)

/-- The header is well formed (R160, R161). -/
def imgHeaderOk (bs : List Byte) : Bool :=
  decide (320 ≤ bs.length ∧ bs.length ≤ 393216) && bs.length % 4 == 0 && imgWord bs 0 == 0x504F4F48 &&
    bitsOf (imgWord bs 1) 15 0 == 1 && bitsOf (imgWord bs 1) 31 17 == 0 && bitsOf (imgWord bs 2) 31 8 == 0 &&
    imgWord bs 6 == bs.length && decide (imgLink bs < 2 ^ 18) && (imgSigned bs || imgKey bs == 0) &&
    (List.range 6).all (fun k => imgWord bs (10 + k) == 0) && decide (64 < imgEnd bs)

/-- The directory is per R162: entries beyond the count 0, known types each once, sections within the body and apart,
CODE and ENTRY present, VAT_MASK as ENTRY says. -/
def imgDirOk (bs : List Byte) : Bool :=
  let n := imgSects bs
  let l := imgDir bs
  let clash (a b : Sect) : Bool := a.type == b.type || (decide (a.off < b.off + b.len) && decide (b.off < a.off + a.len))
  decide (1 ≤ n ∧ n ≤ 16) &&
    (List.range 16).all (fun k => decide (k < n) || (imgWord bs (16 + 2 * k) == 0 && imgWord bs (17 + 2 * k) == 0)) &&
    (List.range n).all (fun k => bitsOf (imgWord bs (16 + 2 * k)) 23 18 == 0) &&
    l.all (fun s => decide (1 ≤ s.type ∧ s.type ≤ 10) && decide (64 ≤ s.off) && decide (s.off + s.len ≤ imgEnd bs)) &&
    (List.range n).all (fun i => (List.range i).all (fun j => !clash (imgSect bs i) (imgSect bs j))) &&
    (imgFind bs 1).isSome &&
    (match imgFind bs 2 with
     | some e => e.count == 16 && decide (16 ≤ e.len) &&
        (List.range 16).all (fun v => bitOf (imgMask bs) v == (imgWord bs (e.off + v) != 0xFFFFFFFF))
     | none => false)

/-- Words [a, a + n) lie in a section. -/
def Sect.holds (s : Sect) (a n : Nat) : Bool := decide (s.off ≤ a) && decide (a + n ≤ s.off + s.len)

/-- A transmit template is valid (R169, R170; KIND HFR R278, KIND ACT R295). -/
def txtOk (bs : List Byte) (s : Sect) (a : Nat) : Bool :=
  let w := imgWord bs a
  let w1 := imgWord bs (a + 1)
  let pre := bitsOf w 29 28
  let crc := bitsOf w 27 26
  let kind := bitsOf w 25 24
  let nsub := bitsOf w 23 20
  let nb := bitsOf w 10 0
  let wu := bitsOf w1 31 16
  let common := s.holds a 2 && pre != 3 && crc != 3 && kind != 3 && decide (nsub ≤ 8) && bitsOf w 19 11 == 0 &&
    decide (1 ≤ nb ∧ nb ≤ 1024) && s.holds a (2 + nsub + (nb + 31) / 32) &&
    (List.range nsub).all (fun k =>
      let d := imgWord bs (a + 2 + k)
      let len := bitsOf d 22 18 + 1
      bitsOf d 31 30 == 0 && bitsOf d 17 11 == 0 && decide (bitsOf d 27 23 + len ≤ 32) && decide (bitsOf d 10 0 + len ≤ nb))
  let hfr := crc != 1 && w1 == 0
  let act := bitsOf w1 15 0 == 0 &&
    (match bitsOf w 31 30 with
     | 0 => nb % 8 == 0 && crc != 1 && (pre == 1) == (wu != 0) && (wu == 0 || decide (2400 ≤ wu ∧ wu ≤ 4800))
     | 1 => pre == 2 && crc == 0 && wu == 0
     | _ => false)
  common && (if kind = 1 then hfr else if kind = 2 then act else true)

/-- A listen template is valid (R67, R171; R279, R296). -/
def lstOk (bs : List Byte) (s : Sect) (a : Nat) : Bool :=
  let w := fun k => imgWord bs (a + k)
  let kind := bitsOf (w 0) 25 24
  let len := bitsOf (w 0) 12 0
  let mode := bitsOf (w 5) 11 10
  s.holds a 6 && kind != 3 && bitsOf (w 0) 31 26 == 0 && bitsOf (w 0) 23 13 == 0 &&
    decide (w 1 ≤ w 3 ∧ w 3 < w 4 ∧ w 4 ≤ w 2) && (mode != 0 || decide (1 ≤ len ∧ len ≤ 4608)) &&
    (if kind = 0 then decide (400 ≤ bitsOf (w 5) 31 16 ∧ bitsOf (w 5) 31 16 ≤ 6400) && bitsOf (w 5) 6 0 == 0
     else (mode == 0 || mode == 3) && bitsOf (w 5) 6 0 == 0 &&
       (if kind = 1 then bitsOf (w 5) 29 12 == 0 else bitsOf (w 5) 31 12 == 0))

/-- The templates of a TXT or LST section are valid. -/
def templatesOk (bs : List Byte) (s : Sect) (ok : Nat → Bool) : Bool :=
  decide (s.count ≤ 1024) && s.holds s.off s.count &&
    (List.range s.count).all (fun k => ok (s.off + imgWord bs (s.off + k)))

/-- The tables of a HOP or PWRT section are valid (R172, R173). -/
def hopTablesOk (bs : List Byte) (s : Sect) (ok : Nat → Bool) : Bool :=
  s.count == 8 && s.holds s.off 8 &&
    (List.range 8).all (fun t =>
      let o := imgWord bs (s.off + t)
      let a := s.off + o
      let n := imgWord bs a
      o == 0 || (s.holds a 1 && decide (1 ≤ n ∧ n ≤ 1024) && s.holds a (1 + n) &&
        (List.range n).all (fun i => ok (imgWord bs (a + 1 + i)))))

/-- A section's tables are valid (check 6 of R177). Reserved bits that are not 0 make a TXT, LST, HOP, PWRT or STEER table and the
first word of a BEAM table invalid, and are let pass in CSCHED and in beam weights (assumption: DESIGN CHOICE, R177's list names no
reserved bits). -/
def sectOk (bs : List Byte) (s : Sect) : Bool :=
  match s.type with
  | 1 => s.count == 0
  | 2 =>
    match imgFind bs 1 with
    | some c => (List.range 16).all (fun v =>
        let e := imgWord bs (s.off + v)
        e == 0xFFFFFFFF || (decide (c.off ≤ e) && decide (e < c.off + c.len)))
    | none => false
  | 3 => templatesOk bs s (txtOk bs s)
  | 4 => templatesOk bs s (lstOk bs s)
  | 5 => hopTablesOk bs s (fun e =>
      bitsOf e 31 27 == 0 && bitsOf e 23 20 == 0 && decide (860000 ≤ bitsOf e 19 0 ∧ bitsOf e 19 0 ≤ 960000))
  | 6 => hopTablesOk bs s (fun e => decide (e ≤ 330))
  | 7 => decide (s.count ≤ 1024) && s.holds s.off (1 + 9 * s.count) && imgWord bs s.off == s.count &&
      (List.range s.count).all (fun i => decide (imgWord bs (s.off + 1 + 9 * i) < 4096))
  | 8 => decide (s.count ≤ 64) && s.holds s.off (1 + s.count) && imgWord bs s.off == s.count &&
      (List.range s.count).all (fun k =>
        let a := s.off + imgWord bs (s.off + 1 + k)
        let h := imgWord bs a
        let bins := bitsOf h 12 0
        s.holds a 2 && bitsOf h 31 24 == 0 && bitsOf h 15 13 == 0 && decide (1 ≤ bins ∧ bins ≤ 4096) &&
          s.holds a (2 + 4 * bins) && decide (imgWord bs (a + 1) < 8) && bitOf (bitsOf h 23 16) (imgWord bs (a + 1)))
  | 9 => decide (s.count ≤ 1) &&
      (s.count == 0 || (s.holds s.off 4 && decide (bitsOf (imgWord bs s.off) 3 0 ≤ 12) &&
        s.holds s.off (4 + 2 ^ bitsOf (imgWord bs s.off) 3 0 * (bitsOf (imgWord bs s.off) 10 8 + 1))))
  | _ => decide (s.count ≤ s.len)

/-- The first section, by type, whose tables are not valid. -/
def imgBadSect (bs : List Byte) : Option Nat :=
  (List.range 11).find? (fun t => match imgFind bs t with
    | some s => !sectOk bs s
    | none => false)

/-- DIGEST matches the image (R163). -/
def imgDigestOk (bs : List Byte) : Bool :=
  imgDigest bs == sha512Bytes (bs.take 0xC0 ++ (bs.take (4 * imgEnd bs)).drop 0x100)

/-- The signature of a signed image verifies with its key (R164). -/
def imgSigOk (keys : List (Nat × List Byte)) (bs : List Byte) : Bool :=
  match keys.find? (fun e => e.1 == imgKey bs) with
  | some (_, key) => decide (1 ≤ imgKey bs ∧ imgKey bs ≤ 8) && p521Verify key (bs.take 0x100) (bs.drop (4 * imgEnd bs))
  | none => false

/-- Checks 1 to 6 of R177 in order: the status, and for check 6 the section. `boot` leaves out the verification of check 5
but for the key's presence (R178). -/
def imgCheck (lcs : Nat) (keys : List (Nat × List Byte)) (boot : Bool) (bs : List Byte) : Nat × List Nat :=
  let sigOk := if boot then keys.any (fun e => e.1 == imgKey bs && decide (1 ≤ e.1 ∧ e.1 ≤ 8)) else imgSigOk keys bs
  if !(imgHeaderOk bs && imgDirOk bs) then (stHoopFormat, [])
  else if bitsOf (imgWord bs 2) 7 0 ≠ 0x21 then (stHoopStep, [])
  else if imgDigestOk bs = false then (stHoopDigest, [])
  else if 2 ≤ lcs ∧ imgSigned bs = false then (stHoopUnsigned, [])
  else if imgSigned bs && !sigOk then (stNvmSigFail, [])
  else match imgBadSect bs with
    | some t => (stHoopFormat, [t])
    | none => (0, [])

/-! ### Relocation (R166) -/

/-- One relocation on the loaded words; none where the entry or the value is out of range. -/
def relocOne (link base : Nat) (ws : List Nat) (e : Nat) : Option (List Nat) :=
  let w := bitsOf e 17 0
  let n := ws.length
  let delta : Int := (base : Int) - (link : Int)
  if bitsOf e 29 18 ≠ 0 ∨ n ≤ w then none
  else
    let v := ws.getD w 0
    match bitsOf e 31 30 with
    | 0 =>
      let r : Int := (bitsOf v 17 0 : Int) + delta
      if (base : Int) ≤ r ∧ r < ((base + n : Nat) : Int) then some (ws.set w (v / 2 ^ 18 * 2 ^ 18 + r.toNat)) else none
    | 1 =>
      let r := toSigned 32 ((v : Int) + 4 * delta)
      if 4 * base ≤ r ∧ r < 4 * (base + n) then some (ws.set w r) else none
    | _ => none

/-- Every relocation in order: the words, and whether all were in range. -/
def relocAll (link base : Nat) : List Nat → List Nat → List Nat × Bool
  | ws, [] => (ws, true)
  | ws, e :: es =>
    match relocOne link base ws e with
    | some ws' => relocAll link base ws' es
    | none => (ws, false)

/-- The entries of the RELOC section. -/
def imgRelocs (bs : List Byte) : List Nat :=
  match imgFind bs 10 with
  | some s => (List.range s.count).map (fun k => imgWord bs (s.off + k))
  | none => []

/-- The words as loaded at a base, relocated (R165, R166). -/
def imgLoaded (bs : List Byte) (base : Nat) : List Nat × Bool :=
  relocAll (imgLink bs) base ((List.range (imgEnd bs)).map (imgWord bs)) (imgRelocs bs)

/-- The entry offset of Vat `v`. -/
def imgEntry (bs : List Byte) (v : Nat) : Nat :=
  match imgFind bs 2 with
  | some e => imgWord bs (e.off + v)
  | none => 0

end Sys2Proof.Machine
end

