-- ==== Sys2Proof/Machine/Mailbox.lean ====
section
/-! DEFINITION. The Ranger mailbox: taking a command, its checks, and its response (R403). -/

namespace Sys2Proof.Machine

/-- NVM_ROLLBACK (R12). -/ def stNvmRollback : Nat := 0x0703
/-- NVM_TORN_SLOT (R12). -/ def stNvmTorn : Nat := 0x0701
/-- NVM_BUSY (R419). -/ def stNvmBusy : Nat := 0x0704
/-- NVM_NOT_STAGED. -/ def stNvmNotStaged : Nat := 0x0705
/-- NVM_RANGE. -/ def stNvmRange : Nat := 0x0706
/-- LCS_DENIED. -/ def stLcsDenied : Nat := 0x0710
/-- LCS_PRECOND. -/ def stLcsPrecond : Nat := 0x0711
/-- LCS_TOKEN. -/ def stLcsToken : Nat := 0x0712
/-- LCS_NO_CHALLENGE. -/ def stLcsNoChallenge : Nat := 0x0713
/-- MBX_UNKNOWN. -/ def stMbxUnknown : Nat := 0x0730
/-- MBX_ARGS. -/ def stMbxArgs : Nat := 0x0731
/-- FW_FORMAT. -/ def stFwFormat : Nat := 0x0740
/-- FW_TRIAL_FAILED. -/ def stFwTrialFailed : Nat := 0x0741
/-- ATTEST_NO_KEY. -/ def stAttestNoKey : Nat := 0x0742

/-- The life-cycle state. -/
def Dev.lcs (d : Dev) : Nat := d.get LCS_STATE.STATE

/-- Every TYPE of the table "Mailbox commands". -/
def mbxTypes : List Nat :=
  [0x01, 0x10, 0x11, 0x12, 0x13, 0x14, 0x20, 0x21, 0x22, 0x23, 0x30, 0x38, 0x39, 0x40, 0x41, 0x42, 0x48, 0x49, 0x50, 0x51, 0x52]

/-- The commands the recovery service serves (R412, R428). -/
def mbxRecovery (type : Nat) : Bool := type == 0x01 || type == 0x40 || type == 0x41

/-- The life-cycle states in which a command runs (table "Mailbox commands"). -/
def mbxState (type lcs : Nat) : Bool :=
  if type = 0x50 then decide (lcs < 2) else if type = 0x51 ∨ type = 0x52 then lcs == 2 else true

/-- The Ranger can take a command: its island and the queues' run, RESTARTED is posted (R400), no command is in its hands, an item is on Q0, and
Q1 has room for the longest response (13 words; assumption: the Ranger waits for that room). -/
def Dev.mbxReady (d : Dev) : Bool :=
  d.live 2 && !d.rgr.down && !d.rgr.halted && d.rgr.announce.isNone && d.rgr.joint.isNone && d.qEn 0 && d.qCons 0 == epRanger && d.qReady 0 &&
    d.qTakes 1 epRanger 13

/-- The TYPE of the oldest item on Q0. -/
def Dev.mbxType (d : Dev) : Nat := bitsOf (d.qHead 0) 23 16

/-- The response of a command: TAG, status, results; a non-zero status is counted in MGT_LOG_CNT.ERRORS (R403, R421). -/
def Dev.respond (d : Dev) (type tag st : Nat) (res : List Nat := []) : Dev :=
  let d := if st = 0 then d else d.inc MGT_LOG_CNT.ERRORS
  (d.qDeliver 1 epRanger type ([tag, st] ++ res)).1

/-- A refused command of the NVM controller also shows in NVM_STATUS.LAST_ERR (R420). -/
def Dev.nvmRefuse (d : Dev) (type tag st : Nat) (res : List Nat := []) : Dev :=
  (d.put NVM_STATUS.LAST_ERR st).respond type tag st res

/-- The commands of the NVM controller: staging, the key store and the firmware slots. -/
def mbxNvm (type : Nat) : Bool := (decide (0x10 ≤ type) && decide (type ≤ 0x14)) || (decide (0x39 ≤ type) && decide (type ≤ 0x41)) || type == 0x23

/-- The refusal of a command before it runs (R403, R420). -/
def Dev.mbxRefuse (d : Dev) (type tag st : Nat) : Dev :=
  if mbxNvm type then d.nvmRefuse type tag st else d.respond type tag st

/-- The NVM controller writes `n` bytes: 16 bytes every 4 µs (R406). -/
def Dev.nvmWrites (d : Dev) (n : Nat) : Dev :=
  { d with rgr := { d.rgr with busyTill := max d.tick d.rgr.busyTill + usTicks (4 * ((n + 15) / 16)) } }

/-- A mailbox command of a TYPE: taken from Q0, checked (R403), and run on what is left with its TAG and arguments. -/
def State.serve (s : State) (type : Nat) (argsOk : List Nat → Bool) (f : State → Nat → List Nat → State) :
    Host.Outcome State Fault Refusal :=
  let d := s.dev.announced
  if d.mbxReady && d.mbxType == type then
    let body := d.qBody 0
    let tag := body.getD 0 0
    let args := body.drop 1
    let d' := d.qDrop 0
    let s' : State := { s with dev := d' }
    if (d.rgr.recovery && !mbxRecovery type) || !mbxState type d.lcs then
      .next { s' with dev := d'.mbxRefuse type tag stLcsDenied }
    else if body.isEmpty || !argsOk args then .next { s' with dev := d'.mbxRefuse type tag stMbxArgs }
    else .next (f s' tag args)
  else .next { s with dev := d }

/-- A Data SRAM operand: a multiple of 4, wholly in Data SRAM (R403). -/
def sramOk (a n : Nat) : Bool := a % 4 == 0 && decide (0x100000 ≤ a) && decide (a + n ≤ 0x180000)

/-- A key of the key store. -/
def Nv.key (n : Nv) (id : Nat) : Option (List Byte) := (n.keys.find? (fun e => e.1 == id)).map (fun e => e.2)

/-- The serial number as its 16 bytes (R414). -/
def Nv.serialBytes (n : Nv) : List Byte := (List.range 16).map (fun k => BitVec.ofNat 8 (n.serial / 256 ^ k))

/-- An argument. -/
def arg (args : List Nat) (k : Nat) : Nat := args.getD k 0

/-- A region is open. -/
def Dev.openRegion (d : Dev) (r : Option Nat) : Dev :=
  let d := { d with rgr := { d.rgr with stage := r } }
  (d.put NVM_STATUS.OPEN (if r.isSome then 1 else 0)).put NVM_STATUS.REGION (r.getD 0)

end Sys2Proof.Machine
end

