-- ==== Sys2Proof/Machine/VatCmds.lean ====
section
/-! DEFINITION. The commands of the Vats: every Isrin instruction as a Vat issues it, the releases of its waits, and the
control by the host and the Ranger (R94, R102 to R156, R121 to R124, R133). -/

namespace Sys2Proof.Machine

/-! ### Instructions -/

/-- NOP. -/
def execNop (v : VatNo) (imm : Imm) (s : State) : Host.Outcome State Fault Refusal :=
  s.on (fun d => d.issue v.val (.nop imm))

/-- LDI. -/
def execLdi (v : VatNo) (rd : RegNo) (imm : Imm) (s : State) : Host.Outcome State Fault Refusal :=
  s.on (fun d => d.issue v.val (.ldi rd imm))

/-- LDX. -/
def execLdx (v : VatNo) (rd : RegNo) (ext : Word) (s : State) : Host.Outcome State Fault Refusal :=
  s.on (fun d => d.issue v.val (.ldx rd ext))

/-- MOV. -/
def execMov (v : VatNo) (rd ra : RegNo) (s : State) : Host.Outcome State Fault Refusal :=
  s.on (fun d => d.issue v.val (.mov rd ra))

/-- ADD. -/
def execAdd (v : VatNo) (rd ra rb : RegNo) (s : State) : Host.Outcome State Fault Refusal :=
  s.on (fun d => d.issue v.val (.add rd ra rb))

/-- ADDI. -/
def execAddi (v : VatNo) (rd ra : RegNo) (imm : Imm) (s : State) : Host.Outcome State Fault Refusal :=
  s.on (fun d => d.issue v.val (.addi rd ra imm))

/-- SUB. -/
def execSub (v : VatNo) (rd ra rb : RegNo) (s : State) : Host.Outcome State Fault Refusal :=
  s.on (fun d => d.issue v.val (.sub rd ra rb))

/-- AND. -/
def execAnd (v : VatNo) (rd ra rb : RegNo) (s : State) : Host.Outcome State Fault Refusal :=
  s.on (fun d => d.issue v.val (.and rd ra rb))

/-- OR. -/
def execOr (v : VatNo) (rd ra rb : RegNo) (s : State) : Host.Outcome State Fault Refusal :=
  s.on (fun d => d.issue v.val (.or rd ra rb))

/-- XOR. -/
def execXor (v : VatNo) (rd ra rb : RegNo) (s : State) : Host.Outcome State Fault Refusal :=
  s.on (fun d => d.issue v.val (.xor rd ra rb))

/-- SHL. -/
def execShl (v : VatNo) (rd ra rb : RegNo) (imm : Imm) (s : State) : Host.Outcome State Fault Refusal :=
  s.on (fun d => d.issue v.val (.shl rd ra rb imm))

/-- SHR. -/
def execShr (v : VatNo) (rd ra rb : RegNo) (imm : Imm) (s : State) : Host.Outcome State Fault Refusal :=
  s.on (fun d => d.issue v.val (.shr rd ra rb imm))

/-- LDW. -/
def execLdw (v : VatNo) (rd ra : RegNo) (imm : Imm) (s : State) : Host.Outcome State Fault Refusal :=
  s.on (fun d => d.issue v.val (.ldw rd ra imm))

/-- STW. -/
def execStw (v : VatNo) (ra rb : RegNo) (imm : Imm) (s : State) : Host.Outcome State Fault Refusal :=
  s.on (fun d => d.issue v.val (.stw ra rb imm))

/-- TST. -/
def execTst (v : VatNo) (ra : RegNo) (imm : Imm) (s : State) : Host.Outcome State Fault Refusal :=
  s.on (fun d => d.issue v.val (.tst ra imm))

/-- HALT. -/
def execHalt (v : VatNo) (s : State) : Host.Outcome State Fault Refusal :=
  s.on (fun d => d.issue v.val .halt)

/-- JMP. -/
def execJmp (v : VatNo) (ext : Word) (s : State) : Host.Outcome State Fault Refusal :=
  s.on (fun d => d.issue v.val (.jmp ext))

/-- CALL. -/
def execCall (v : VatNo) (ext : Word) (s : State) : Host.Outcome State Fault Refusal :=
  s.on (fun d => d.issue v.val (.call ext))

/-- RET. -/
def execRet (v : VatNo) (s : State) : Host.Outcome State Fault Refusal :=
  s.on (fun d => d.issue v.val .ret)

/-- DSP. -/
def execDsp (v : VatNo) (ra : RegNo) (mode : BitVec 2) (k : BitVec 4) (ext : Word) (s : State) : Host.Outcome State Fault Refusal :=
  s.on (fun d => d.issue v.val (.dsp ra mode k ext))

/-- CLR. -/
def aloneClr (v : VatNo) (imm : Imm) (s : State) : Host.Outcome State Fault Refusal :=
  s.on (fun d => d.issue v.val (.clr imm))

/-- WAITA. -/
def execWaita (v : VatNo) (ra rb : RegNo) (u : Bool) (s : State) : Host.Outcome State Fault Refusal :=
  s.on (fun d => d.issue v.val (.waita ra rb u))

/-- STAMP. -/
def execStamp (v : VatNo) (rd : RegNo) (src : BitVec 2) (s : State) : Host.Outcome State Fault Refusal :=
  s.on (fun d => d.issue v.val (.stamp rd src))

/-- WAITT. -/
def execWaitt (v : VatNo) (input : BitVec 2) (s : State) : Host.Outcome State Fault Refusal :=
  s.on (fun d => d.issue v.val (.waitt input))

/-- TMO. -/
def execTmo (v : VatNo) (rb : RegNo) (s : State) : Host.Outcome State Fault Refusal :=
  s.on (fun d => d.issue v.val (.tmo rb))

/-- An illegal or undefined word (R99, R127). -/
def execIllegal (v : VatNo) (word : Word) (s : State) : Host.Outcome State Fault Refusal :=
  s.on (fun d => d.issue v.val (.illegal word))

/-- BIND. -/
def execBind (v : VatNo) (port : BitVec 5) (s : State) : Host.Outcome State Fault Refusal :=
  s.on (fun d => d.issue v.val (.bind port))

/-- HOP. -/
def execHop (v : VatNo) (ra : RegNo) (i : Bool) (table : BitVec 3) (idx : BitVec 10) (s : State) : Host.Outcome State Fault Refusal :=
  s.on (fun d => d.issue v.val (.hop ra i table idx))

/-- PWR. -/
def execPwr (v : VatNo) (ra : RegNo) (i : Bool) (setpt : BitVec 9) (s : State) : Host.Outcome State Fault Refusal :=
  s.on (fun d => d.issue v.val (.pwr ra i setpt))

/-- ANT. -/
def execAnt (v : VatNo) (ra : RegNo) (i : Bool) (port : BitVec 4) (s : State) : Host.Outcome State Fault Refusal :=
  s.on (fun d => d.issue v.val (.ant ra i port))

/-- BEAM. -/
def execBeam (v : VatNo) (ra : RegNo) (i : Bool) (set : BitVec 10) (s : State) : Host.Outcome State Fault Refusal :=
  s.on (fun d => d.issue v.val (.beam ra i set))

/-- CARRY. -/
def execCarry (v : VatNo) (on : Bool) (s : State) : Host.Outcome State Fault Refusal :=
  s.on (fun d => d.issue v.val (.carry on))

/-- TXC. -/
def execTxc (v : VatNo) (rd rb : RegNo) (launch : BitVec 2) (tpl : BitVec 10) (s : State) : Host.Outcome State Fault Refusal :=
  s.on (fun d => d.issue v.val (.txc rd rb launch tpl))

/-- LSN. -/
def execLsn (v : VatNo) (rd : RegNo) (tpl : BitVec 10) (s : State) : Host.Outcome State Fault Refusal :=
  s.on (fun d => d.issue v.val (.lsn rd tpl))

/-- RXB. -/
def execRxb (v : VatNo) (ra : RegNo) (w : BitVec 8) (s : State) : Host.Outcome State Fault Refusal :=
  s.on (fun d => d.issue v.val (.rxb ra w))

/-- LPUT. -/
def aloneLput (v : VatNo) (rd ra rb : RegNo) (off : BitVec 5) (s : State) : Host.Outcome State Fault Refusal :=
  s.on (fun d => d.issue v.val (.lput rd ra rb off))

/-- LGET. -/
def execLget (v : VatNo) (rd ra rb : RegNo) (off : BitVec 5) (s : State) : Host.Outcome State Fault Refusal :=
  s.on (fun d => d.issue v.val (.lget rd ra rb off))

/-- LTOUCH. -/
def execLtouch (v : VatNo) (ra : RegNo) (s : State) : Host.Outcome State Fault Refusal :=
  s.on (fun d => d.issue v.val (.ltouch ra))

/-- TOPEN. -/
def aloneTopen (v : VatNo) (rd ra rb : RegNo) (queue : BitVec 6) (ext : Word) (s : State) : Host.Outcome State Fault Refusal :=
  s.on (fun d => d.issue v.val (.topen rd ra rb queue ext))

/-- TPUT. -/
def execTput (v : VatNo) (ra rb : RegNo) (src : Bool) (w : BitVec 8) (s : State) : Host.Outcome State Fault Refusal :=
  s.on (fun d => d.issue v.val (.tput ra rb src w))

/-- TDONE. -/
def aloneTdone (v : VatNo) (ra : RegNo) (s : State) : Host.Outcome State Fault Refusal :=
  s.on (fun d => d.issue v.val (.tdone ra))

/-- TFAIL. -/
def aloneTfail (v : VatNo) (ra rb : RegNo) (s : State) : Host.Outcome State Fault Refusal :=
  s.on (fun d => d.issue v.val (.tfail ra rb))

/-- POST. -/
def execPost (v : VatNo) (ch : BitVec 6) (s : State) : Host.Outcome State Fault Refusal :=
  s.on (fun d => d.issue v.val (.post ch))

/-- QPUSH. -/
def aloneQpush (v : VatNo) (ra rb : RegNo) (w : BitVec 8) (queue : BitVec 6) (s : State) : Host.Outcome State Fault Refusal :=
  s.on (fun d => d.issue v.val (.qpush ra rb w queue))

/-- QPOP. -/
def aloneQpop (v : VatNo) (rd ra : RegNo) (w : BitVec 8) (queue : BitVec 6) (s : State) : Host.Outcome State Fault Refusal :=
  s.on (fun d => d.issue v.val (.qpop rd ra w queue))

/-! ### Releases -/

/-- WAITA_RELEASE (R112). -/
def execWaitaRelease (v : VatNo) (s : State) : Host.Outcome State Fault Refusal := s.on (fun d => d.waitaRelease v.val)
/-- WAITT_RELEASE (R115). -/
def execWaittRelease (v : VatNo) (s : State) : Host.Outcome State Fault Refusal := s.on (fun d => d.waittRelease v.val)
/-- VAT_TIMEOUT (R116). -/
def aloneVatTimeout (v : VatNo) (s : State) : Host.Outcome State Fault Refusal := s.on (fun d => d.vatTimeout v.val)
/-- QPOP_TAKE (R156). -/
def execQpopTake (v : VatNo) (s : State) : Host.Outcome State Fault Refusal := s.on (fun d => d.qpopTake v.val)
/-- LEDGER_ANSWER (R148). -/
def execLedgerAnswer (v : VatNo) (s : State) : Host.Outcome State Fault Refusal := s.on (fun d => d.ledgerAnswer v.val)
/-- CARRY_LAUNCH (R45, R138). -/
def execCarryLaunch (v : VatNo) (s : State) : Host.Outcome State Fault Refusal := s.on (fun d => d.carryLaunch v.val)
/-- SYN_TIMEOUT (R46): a held CARRY of the Vat, else a carrier that a switch-over is to restore (R246). -/
def execSynTimeout (v : VatNo) (s : State) : Host.Outcome State Fault Refusal :=
  s.on (fun d => match (d.vatx v.val).wait with
    | .carryOn _ => d.synTimeout v.val
    | _ => match d.spare.sw with
      | some _ => d.spareTimeout.resumeHeld
      | none => d)
/-- TXC_END (R140). -/
def execTxcEnd (v : VatNo) (s : State) : Host.Outcome State Fault Refusal := s.on (fun d => d.txcEnd v.val)
/-- The instruction that Vat `v` issues in phase 0 of tick `t` is a CLR: a Vat in RUN whose next instruction is due then, by
the word in hoop memory at its PC. -/
def Dev.clearsAt (d : Dev) (v t : Nat) : Bool :=
  d.vst v == vsRun && (d.vatx v).wait == .none && (d.vatx v).ready == 2 * t &&
    (opOf (BitVec.ofNat 32 (d.hw' (d.pc v)))).toNat == 0x15

/-- The watchdog of Vat `v` expires (R117): at its tick; a disabled or paused one does not, and a CLR that issues in that
cycle prevails (R120). An expiry in the Vat cycle of a STOP or DBG_HALT still faults, and one in that of another fault adds
its cause (R118, R120). -/
def Dev.wdog (d : Dev) (v : Nat) : Dev :=
  match d.wdDue v with
  | some t => if d.clearsAt v t then d else d.wdogFault v t
  | none =>
    if d.wdExpired v then
      if d.vst v = vsFault then d.put VAT_FAULT.FCAUSE (Nat.lor (d.get VAT_FAULT.FCAUSE v) fcWdog) v
      else d.vatFaultAt v fcWdog (d.shownPc v)
    else d

/-- WDOG (R117). -/
def execWdog (v : VatNo) (s : State) : Host.Outcome State Fault Refusal := s.on (fun d => d.wdog v.val)

/-! ### Control (R94, R121 to R124) -/

/-- START is accepted in STOPPED, HALTED and FAULT with FCAUSE = 0 (R121), and ignored during an entry (R388). The Vat runs, and its
watchdog counts, from the tick of its first issue (R94); STATE reads RUN from the acceptance on (assumption: DESIGN CHOICE, the table
of R94 does not say what it reads in between). -/
def Dev.vatStart (d : Dev) (v : Nat) : Dev :=
  let st := d.vst v
  if d.entering then d
  else if st = vsStopped ∨ st = vsHalted ∨ (st = vsFault ∧ d.get VAT_FAULT.FCAUSE v = 0) then
    let d := if d.isSet VAT_STATUS.SWAP_PEND v then d.takeSwap v else d
    let d := d.put VAT_PC.PC (d.get VAT_ENTRY.ENTRY v) v
    let d := ((d.freshStart v).findHoop v).setVst v vsRun
    let d := d.wdReload v (d.tick + 2)
    d.setVat v { d.vatx v with ready := 2 * (d.tick + 2), wait := .none, stepping := false, prevPc := d.pc v, left := none,
                               started := d.clk + 1 }
  else d

/-- Vat `v` in RUN or WAIT is taken out of it by a STOP or DBG_HALT written at cycle `c` (R94, R95): at the next Vat cycle.
A running copy is indivisible: the write is accepted when the copy completes, to which time moves on (R129). -/
def Dev.vatQuit (d : Dev) (v st c : Nat) : Dev :=
  let run := d.vst v == vsRun
  let c := max c (d.vatx v).copyEnd
  let d := (d.toClk (d.vatx v).copyEnd).vatLeave v st (c + 1)
  d.setVat v { d.vatx v with left := some (c, run) }

/-- STOP (R94, R96), written at cycle `c`; a fault of the same cycle prevails (R120). -/
def Dev.vatStop (d : Dev) (v : Nat) (c : Nat := d.clk) : Dev :=
  let st := d.vst v
  if st = vsStopped ∨ (st = vsFault ∧ d.leftNow v = true) then d
  else if d.vActive v then d.vatQuit v vsStopped c
  else d.setVst v vsStopped

/-- START. -/
def execStart (v : VatNo) (s : State) : Host.Outcome State Fault Refusal := s.onIsland 2 .VAT_CTRL v.val (fun d => d.vatStart v.val)
/-- STOP. -/
def aloneStop (v : VatNo) (s : State) : Host.Outcome State Fault Refusal := s.onIsland 2 .VAT_CTRL v.val (fun d => d.vatStop v.val)

/-- The Vats a mask names. -/
def maskVats (mask : BitVec 16) : List Nat := vatIds.filter (fun v => mask.getLsbD v)

/-- A write of VAT_GSTART (R122). -/
def execVatGstart (mask : BitVec 16) (s : State) : Host.Outcome State Fault Refusal :=
  s.onIsland 2 .VAT_GSTART 0 (fun d => (maskVats mask).foldl (fun d v => d.vatStart v) d)
/-- A write of VAT_GSTOP (R122). -/
def aloneVatGstop (mask : BitVec 16) (s : State) : Host.Outcome State Fault Refusal :=
  s.onIsland 2 .VAT_GSTOP 0 (fun d => (maskVats mask).foldl (fun e v => e.vatStop v d.clk) d)

/-- DBG_HALT (R94, R123). -/
def execDbgHalt (v : VatNo) (s : State) : Host.Outcome State Fault Refusal :=
  s.onIsland 2 .VAT_CTRL v.val (fun d =>
    if d.open' && d.vActive v.val && !(d.vatx v.val).stepping then d.vatQuit v.val vsDebug d.clk else d)

/-- RESUME (R94, R117, R123). -/
def aloneResume (v : VatNo) (s : State) : Host.Outcome State Fault Refusal :=
  s.onIsland 2 .VAT_CTRL v.val (fun d =>
    if d.open' && d.vShown v.val == vsDebug then
      let t := d.tick + 1
      let d := (d.setVst v.val vsRun).wdReload v.val t
      d.setVat v.val { d.vatx v.val with ready := 2 * t, wait := .none, stepping := false, prevPc := d.pc v.val, left := none }
    else d)

/-- STEP (R94, R95, R123): the instruction at PC issues in phase 0 of the next AT tick, and the Vat returns to DEBUG. What it
does is done at once, as of that tick; the device's time stays where it is. -/
def execStep (v : VatNo) (s : State) : Host.Outcome State Fault Refusal :=
  s.onIsland 2 .VAT_CTRL v.val (fun d =>
    if d.open' && d.vShown v.val == vsDebug then
      let d := d.setVst v.val vsRun
      let d := d.setVat v.val { d.vatx v.val with ready := 2 * (d.tick + 1), wait := .none, stepping := true, left := none }
      let i := decodeIsrin (BitVec.ofNat 32 (d.hw' (d.pc v.val))) (BitVec.ofNat 32 (d.hw' (d.pc v.val + 1)))
      { d.issue v.val i with clk := d.clk, hw := d.hw }
    else d)

/-- CNT_CLR clears VATn_LATE and VATn_ECC. -/
def execCntClr (v : VatNo) (s : State) : Host.Outcome State Fault Refusal :=
  s.onIsland 2 .VAT_CTRL v.val (fun d => ((d.put VAT_LATE.COUNT 0 v.val).put VAT_LATE.LAST 0 v.val).put VAT_ECC.CORR 0 v.val)

/-- A swap is armed (R111): from the next Vat cycle; by the host only in MANUFACTURE and DEVELOP. -/
def execVatSwapArm (by' : Writer) (v : VatNo) (entry : BitVec 18) (s : State) : Host.Outcome State Fault Refusal :=
  s.onIsland 2 .VAT_SWAP v.val (by' := by') (fun d =>
    if by' = .loader ∨ d.open' = true then
      let d := (d.put VAT_SWAP.NEW_ENTRY entry.toNat v.val).put VAT_STATUS.SWAP_PEND 1 v.val
      d.setVat v.val { d.vatx v.val with swapFrom := d.clk + 1 }
    else d)

/-- A pending swap is cancelled (R111). -/
def execVatSwapCancel (v : VatNo) (s : State) : Host.Outcome State Fault Refusal :=
  s.onIsland 2 .VAT_SWAP v.val (fun d => d.put VAT_STATUS.SWAP_PEND 0 v.val)

/-- UNBIND (R133): in STOPPED, HALTED or FAULT, with every gate of the port closed. -/
def execUnbind (v : VatNo) (s : State) : Host.Outcome State Fault Refusal :=
  s.onIsland 2 .VAT_ASTAT v.val (fun d =>
    let st := d.vst v.val
    let p := d.get VAT_BIND.PORT v.val
    if (st = vsStopped ∨ st = vsHalted ∨ st = vsFault) ∧ p ≠ 0x1F ∧ d.anyGate (d.portUnits p) = false then
      d.setBind v.val 0x1F
    else d)

/-- ACLR clears VATn_ACNT. -/
def execAclr (v : VatNo) (s : State) : Host.Outcome State Fault Refusal :=
  s.onIsland 2 .VAT_ASTAT v.val (fun d => (d.put VAT_ACNT.CUTS 0 v.val).put VAT_ACNT.REFUSED 0 v.val)

end Sys2Proof.Machine
end

