-- ==== Sys2Proof/Machine/Loader.lean ====
section
/-! DEFINITION. The hoop loader: span and index, the boot set, loading, swapping and freeing (R165 to R183, R406). -/

namespace Sys2Proof.Machine

/-! ### The hoop index and spans (R165, R167, R177) -/

/-- The spans of the valid index entries. -/
def Dev.hoopSpans (d : Dev) : List (Nat × Nat) :=
  ((List.range 32).filter (fun k => (d.hoopEntry k).1)).map (fun k => (d.hoopEntry k).2)

/-- A span of `n` words at `base` is free and below the index. -/
def spanFree (spans : List (Nat × Nat)) (base n : Nat) : Bool :=
  decide (base + n ≤ 0x3FF00) && spans.all (fun s => decide (base + n ≤ s.1) || decide (s.2 ≤ base))

/-- The lowest of some candidate bases. -/
def lowest : List Nat → Option Nat
  | [] => none
  | b :: bs => some (match lowest bs with
    | some c => min b c
    | none => b)

/-- The base a hoop of `n` words takes: as asked, or the lowest fit (0xFFFF_FFFF). -/
def spanFor (spans : List (Nat × Nat)) (base n : Nat) : Option Nat :=
  if base = 0xFFFFFFFF then lowest ((0 :: spans.map (fun s => s.2)).filter (fun b => spanFree spans b n))
  else if spanFree spans base n then some base else none

/-- A free index entry. -/
def Dev.hoopFreeEntry (d : Dev) : Option Nat := (List.range 32).find? (fun k => !(d.hoopEntry k).1)

/-- Words of hoop memory written; check codes written with them are good. -/
def Dev.setHoop (d : Dev) (w : Nat) (ws : List Nat) : Dev :=
  { d.setWords (4 * w) ws with ecc := d.ecc.filter (fun e => decide (e.1 < w) || decide (w + ws.length ≤ e.1)) }

/-- Checks 7 and 8 of R177, the copy, and the index entry, its VALID last (R165 to R167): status, entry, base. -/
def Dev.hoopPlace (d : Dev) (bs : List Byte) (base : Nat) : Dev × Nat × Nat × Nat :=
  match d.hoopFreeEntry, spanFor d.hoopSpans base (imgEnd bs) with
  | some k, some b =>
    let (ws, ok) := imgLoaded bs b
    let d := d.setHoop b ws
    if ok then
      let d := d.setHoop (hoopIndex k + 1) [b + imgEnd bs, imgWord bs 3, imgWord bs 4, imgContract bs, imgMask bs, 0, 0]
      (d.setHoop (hoopIndex k) [0x80000000 + b], 0, k, b)
    else (d, stHoopFormat, 0, 0)
  | _, _ => (d, stHoopNospace, 0, 0)

/-- The resident hoop with this digest: its header lies at its base (R165, R179). An image counts as resident when the header of
a valid index entry holds its DIGEST, at whatever base, and the command's base is then not used (assumption: DESIGN CHOICE, the spec
does not say when an image is already resident). -/
def Dev.hoopResident (d : Dev) (bs : List Byte) : Option Nat :=
  (List.range 32).find? (fun k => (d.hoopEntry k).1 && d.bytes (4 * (d.hoopEntry k).2.1 + 0xC0) 64 == imgDigest bs)

/-- The entry word of Vat `v` in the hoop of index entry `k`: its base plus the Vat's entry offset (R178). -/
def Dev.hoopEntryWord (d : Dev) (k v : Nat) : Nat :=
  let b := (d.hoopEntry k).2.1
  match d.sect b 2 with
  | some s => (b + d.hw' (s.start + v)) % 2 ^ 18
  | none => b

/-! ### Sources (R403, R406) -/

/-- The offset of the boot-set directory in a hoop-store slot. -/
def bootDir : Nat := 0x60000 - 256

/-- Entry `k` of the boot-set directory of a slot: valid, image offset, length, load base. A VALID word other than 0 is taken
as valid (assumption: DESIGN CHOICE). -/
def Nv.bootEntry (n : Nv) (slot k : Nat) : Bool × Nat × Nat × Nat :=
  let a := slotBase 0 slot + bootDir + 16 * k
  (n.word (a + 12) != 0, n.word a, n.word (a + 4), n.word (a + 8))

/-- Image `k` of a slot. -/
def Nv.bootImage (n : Nv) (slot k : Nat) : List Byte :=
  let e := n.bootEntry slot k
  n.bytes (slotBase 0 slot + e.2.1) e.2.2.1

/-- The image that a source and a length name: an address in Data SRAM, or image `k` of the current boot set. -/
def State.image (s : State) (src len : Nat) : Option (List Byte) :=
  if 0xFFFFFF00 ≤ src then
    let k := src - 0xFFFFFF00
    match s.nv.current 0 with
    | some slot =>
      let e := s.nv.bootEntry slot k
      if k < 8 && e.1 && e.2.2.1 == len then some (s.nv.bootImage slot k) else none
    | none => none
  else if sramOk src len && decide (0 < len) then some (s.dev.bytes src len) else none

/-- A hoop command ends: its response and a log entry with its status (R402: a refusal of a host action is SEV 1). An arming of
swaps is logged with SEV 2, so that the record of it survives a reset of the Ranger's island (R182). -/
def Dev.hoopEnd (d : Dev) (type tag st : Nat) (res : List Nat := []) : Dev :=
  (d.logSev (if st ≠ 0 then 1 else if type = 0x21 then 2 else 0) 0x28 type st).respond type tag st res

/-- The ticks a load takes: a verification for a signed image, and at most 1 ms per 100 KB (R177). -/
def Dev.loadTicks (d : Dev) (bs : List Byte) : Nat :=
  (if imgSigned bs then Config.verifyTicks d.fresh else 0) + min (Config.copyTicks d.fresh) (bs.length * 153600 / 102400)

/-- A load or swap command ends. What it did is in effect at once, and a Ranger reset takes it back until the time that the load
takes has passed or the host has read the response (R182; assumption: DESIGN CHOICE). `was` is the device before the load; `ents`
and `vs` are the Vats whose ENTRY it set and those it armed. -/
def Dev.loadEnd (d was : Dev) (bs : List Byte) (entry : Option Nat) (ents vs : List Nat) (type tag st : Nat)
    (res : List Nat := []) : Dev :=
  let e := d.hoopEnd type tag st res
  let l : LoadRun :=
    { upto := d.tick + d.loadTicks bs, entry := entry, seq := d.log.next % 2 ^ 32, q1 := ((d.qx 1).prod, (e.qx 1).prod)
      ents := ents.map (fun v => (v, was.get VAT_ENTRY.ENTRY v))
      swaps := vs.map (fun v =>
        (v, was.get VAT_STATUS.SWAP_PEND v, was.get VAT_SWAP.NEW_ENTRY v, (was.vatx v).swapFrom)) }
  { e with fresh := e.fresh + 1, rgr := { e.rgr with load := some l } }

/-! ### HOOP_LOAD, HOOP_FREE (R177, R181) -/

/-- The loader sets ENTRY of the Vats in `vs` for an image at base `b` (R124, R178): of each that is in a state in which ENTRY
may be written. -/
def Dev.setEntries (d : Dev) (bs : List Byte) (b : Nat) (vs : List Nat) : Dev :=
  (vs.filter d.vatWritable).foldl (fun d v => d.put VAT_ENTRY.ENTRY (b + imgEntry bs v) v) d

/-- The Vats of a mask. -/
def maskIds (mask : Nat) : List Nat := vatIds.filter (fun v => bitOf mask v)

/-- HOOP_LOAD: source, length, base. The loader sets ENTRY when it loads a hoop (R124): of the Vats in VAT_MASK (assumption:
DEDUCED). -/
def execHoopLoad (s : State) : Host.Outcome State Fault Refusal :=
  s.serve 0x20 (fun a => a.length == 3) (fun s tag a =>
    let d := s.dev
    match s.image (arg a 0) (arg a 1) with
    | none => { s with dev := d.hoopEnd 0x20 tag stMbxArgs }
    | some bs =>
      let (st, res) := imgCheck d.lcs s.nv.keys false bs
      if st ≠ 0 then { s with dev := d.loadEnd d bs none [] [] 0x20 tag st res }
      else
        let (e, st, k, b) := d.hoopPlace bs (arg a 2)
        if st ≠ 0 then { s with dev := e.loadEnd d bs none [] [] 0x20 tag st }
        else
          let vs := maskIds (imgMask bs)
          { s with dev := (e.setEntries bs b vs).loadEnd d bs (some k) (vs.filter e.vatWritable) [] 0x20 tag 0 [k, b] })

/-- A span is in use: a Vat's ENTRY, or a pending NEW_ENTRY, lies in it (R181). -/
def Dev.spanUsed (d : Dev) (lo hi : Nat) : Bool :=
  vatIds.any (fun v =>
    let e := d.get VAT_ENTRY.ENTRY v
    let n := d.get VAT_SWAP.NEW_ENTRY v
    (decide (lo ≤ e) && decide (e < hi)) || (d.isSet VAT_STATUS.SWAP_PEND v && decide (lo ≤ n) && decide (n < hi)))

/-- HOOP_FREE: index entry. VALID is cleared before the span is free (R167). -/
def execHoopFree (s : State) : Host.Outcome State Fault Refusal :=
  s.serve 0x22 (fun a => a.length == 1 && decide (arg a 0 < 32)) (fun s tag a =>
    let d := s.dev
    let k := arg a 0
    let e := d.hoopEntry k
    if e.1 = false then { s with dev := d.hoopEnd 0x22 tag stMbxArgs }
    else if d.spanUsed e.2.1 e.2.2 then { s with dev := d.hoopEnd 0x22 tag stHoopInUse }
    else { s with dev := (d.setHoop (hoopIndex k) [e.2.1]).hoopEnd 0x22 tag 0 })

/-! ### Swaps (R179, R180, R182) -/

/-- A swap of Vat `v` to an entry point is armed (R111). -/
def Dev.armSwap (d : Dev) (v entry : Nat) : Dev :=
  let d := (d.put VAT_SWAP.NEW_ENTRY entry v).put VAT_STATUS.SWAP_PEND 1 v
  d.setVat v { d.vatx v with swapFrom := d.clk + 1 }

/-- A named Vat's running hoop has another CONTRACT (R179). -/
def Dev.contractClash (d : Dev) (mask contract : Nat) : Bool :=
  (maskIds mask).any (fun v => match (d.vatx v).hoop with
    | some b => d.hw' (b + 9) != contract
    | none => false)

/-- HOOP_SWAP: source, length, base, Vat mask with JOINT. -/
def execHoopSwap (s : State) : Host.Outcome State Fault Refusal :=
  s.serve 0x21 (fun a => a.length == 4) (fun s tag a =>
    let d := s.dev
    let mask := bitsOf (arg a 3) 15 0
    match s.image (arg a 0) (arg a 1) with
    | none => { s with dev := d.hoopEnd 0x21 tag stMbxArgs }
    | some bs =>
      let (st, res) := imgCheck d.lcs s.nv.keys false bs
      if st ≠ 0 then { s with dev := d.loadEnd d bs none [] [] 0x21 tag st res }
      else if (maskIds mask).any (fun v => !bitOf (imgMask bs) v) then
        { s with dev := d.loadEnd d bs none [] [] 0x21 tag stHoopMask }
      else if d.contractClash mask (imgContract bs) then { s with dev := d.loadEnd d bs none [] [] 0x21 tag stHoopContract }
      else
        let res := d.hoopResident bs
        let (e, st, k, _) := match res with
          | some k => (d, 0, k, (d.hoopEntry k).2.1)
          | none => d.hoopPlace bs (arg a 2)
        let new := if res.isNone then some k else none
        if st ≠ 0 then { s with dev := e.loadEnd d bs none [] [] 0x21 tag st }
        else if bitOf (arg a 3) 16 then
          let e := (maskIds mask).foldl (fun d v => d.put VAT_CTRL.STOP_AT_CLR 1 v) e
          let j : Joint := { entry := k, mask := mask, stopAt := e.tick + msTicks 1000, tag := tag, cmd := 0x21 }
          { s with dev := { e with rgr := { e.rgr with joint := some j } } }
        else
          let e := (maskIds mask).foldl (fun d v => d.armSwap v (d.hoopEntryWord k v)) e
          { s with dev := e.loadEnd d bs new [] (maskIds mask) 0x21 tag 0 [k] })

/-- The waiting joint swap is over: STOP_AT_CLR is cleared again in every named Vat (R180). -/
def Dev.jointDone (d : Dev) (j : Joint) : Dev :=
  let d := (maskIds j.mask).foldl (fun d v => d.put VAT_CTRL.STOP_AT_CLR 0 v) d
  { d with rgr := { d.rgr with joint := none } }

/-- JOINT_SWAP_START: every named Vat is STOPPED; the swaps are armed and the Vats started together (R180). -/
def execJointSwapStart (s : State) : Host.Outcome State Fault Refusal :=
  s.on (fun d =>
    match d.rgr.joint with
    | none => d
    | some j =>
      if (maskIds j.mask).all (fun v => d.vst v == vsStopped) && decide (d.tick ≤ j.stopAt) && !d.rgr.halted then
        let d := d.jointDone j
        let d := (maskIds j.mask).foldl (fun d v => d.armSwap v (d.hoopEntryWord j.entry v)) d
        let d := (maskIds j.mask).foldl (fun d v => d.vatStart v) d
        d.hoopEnd j.cmd j.tag 0 [j.entry]
      else d)

/-- JOINT_SWAP_TIMEOUT: 1 s has passed, or a named Vat entered FAULT; the stopped Vats start again as they were (R180). -/
def execJointSwapTimeout (s : State) : Host.Outcome State Fault Refusal :=
  s.on (fun d =>
    match d.rgr.joint with
    | none => d
    | some j =>
      let ids := maskIds j.mask
      if ids.all (fun v => d.vst v == vsStopped) && decide (d.tick < j.stopAt) then d
      else
        let d := if ids.any (fun v => d.vst v == vsFault) then d else d.toTick j.stopAt
        let d := d.jointDone j
        let d := (ids.filter (fun v => d.vst v == vsStopped)).foldl (fun d v => d.vatStart v) d
        d.hoopEnd j.cmd j.tag stHoopJoint)

/-! ### The boot set (R178, R406) -/

/-- A boot-set image is loaded (R178): checks 1 to 4 and 6 to 8 at its recorded base; a failure is logged and skipped. The
lowest position sets a Vat's ENTRY: `claimed` are the Vats named before. -/
def Dev.bootOne (d : Dev) (lcs : Nat) (keys : List (Nat × List Byte)) (bs : List Byte) (base pos claimed : Nat) : Dev × Nat :=
  let (st, _) := imgCheck lcs keys true bs
  let (d, st, _, b) := if st ≠ 0 then (d, st, 0, 0) else d.hoopPlace bs base
  if st ≠ 0 then (d.logWarn 0x28 pos st, claimed)
  else
    let new := (maskIds (imgMask bs)).filter (fun v => !bitOf claimed v)
    (d.setEntries bs b new, Nat.lor claimed (imgMask bs))

/-- No entry of the hoop index is valid: after a device reset the start-up copy rebuilds it (R167). -/
def Dev.indexCleared (d : Dev) : Dev := (List.range 32).foldl (fun d k => d.setHoop (hoopIndex k) [0]) d

/-- The boot set of the current hoop-store slot is copied, in its order, into an index made anew (R167, R178). -/
def Dev.bootSet (d : Dev) (n : Nv) : Dev :=
  let d := d.indexCleared
  match n.current 0 with
  | none => d
  | some slot =>
    ((List.range 8).foldl (fun (p : Dev × Nat) k =>
      let e := n.bootEntry slot k
      if e.1 then p.1.bootOne p.1.lcs n.keys (n.bootImage slot k) e.2.2.2 k p.2 else p) (d, 0)).1

/-- The spans in bytes of the images of a slot. -/
def Nv.bootSpans (n : Nv) (slot : Nat) : List (Nat × Nat) :=
  ((List.range 8).filter (fun k => (n.bootEntry slot k).1)).map (fun k =>
    ((n.bootEntry slot k).2.1, (n.bootEntry slot k).2.1 + (n.bootEntry slot k).2.2.1))

/-- The load spans in words of the images of a slot. -/
def Nv.bootLoads (n : Nv) (slot : Nat) : List (Nat × Nat) :=
  ((List.range 8).filter (fun k => (n.bootEntry slot k).1)).map (fun k =>
    ((n.bootEntry slot k).2.2.2, (n.bootEntry slot k).2.2.2 + imgEnd (n.bootImage slot k)))

/-- The lowest place for an image of `n` bytes in the 392,960 bytes of a slot. -/
def bootPlace (spans : List (Nat × Nat)) (n : Nat) : Option Nat :=
  lowest ((0 :: spans.map (fun s => s.2)).filter (fun b =>
    decide (b + n ≤ 392960) && spans.all (fun s => decide (b + n ≤ s.1) || decide (s.2 ≤ b))))

/-- HOOP_BOOTSET: add or remove; source, length, load base. It works on the open hoop store. Checks 7 and 8 are made against
the other images of the set; an image to remove is named by 0xFFFF_FF00 + its position (assumptions: DESIGN CHOICE). -/
def execHoopBootset (s : State) : Host.Outcome State Fault Refusal :=
  s.serve 0x23 (fun a => a.length == 4 && decide (arg a 0 < 2)) (fun s tag a =>
    let d := s.dev
    let fin (st : Nat) (res : List Nat) : State := { s with dev := (d.logSev (if st = 0 then 0 else 1) 0x28 0x23 st).nvmRefuse 0x23 tag st res }
    if d.rgr.stage ≠ some 0 then fin stNvmNotStaged []
    else
      let slot := s.nv.target 0
      if arg a 0 = 0 then
        let k := arg a 1 - 0xFFFFFF00
        if 0xFFFFFF00 ≤ arg a 1 ∧ k < 8 ∧ (s.nv.bootEntry slot k).1 = true then
          { s with nv := s.nv.setWord (slotBase 0 slot + bootDir + 16 * k + 12) 0, dev := (d.nvmWrites 4).hoopEnd 0x23 tag 0 [k] }
        else fin stMbxArgs []
      else
        match s.image (arg a 1) (arg a 2) with
        | none => fin stMbxArgs []
        | some bs =>
          let (st, res) := imgCheck d.lcs s.nv.keys false bs
          if st ≠ 0 then fin st res
          else
            match (List.range 8).find? (fun k => !(s.nv.bootEntry slot k).1), bootPlace (s.nv.bootSpans slot) bs.length,
                spanFor (s.nv.bootLoads slot) (arg a 3) (imgEnd bs) with
            | some k, some off, some base =>
              if (imgLoaded bs base).2 then
                let dir := slotBase 0 slot + bootDir + 16 * k
                { s with nv := (s.nv.setBytes (slotBase 0 slot + off) bs).setWords dir [off, bs.length, base, 1],
                         dev := (d.nvmWrites (bs.length + 16)).hoopEnd 0x23 tag 0 [k] }
              else fin stHoopFormat []
            | _, _, _ => fin stHoopNospace [])

end Sys2Proof.Machine
end

