-- ==== Sys2Proof/Machine/Mesh.lean ====
section
/-! DEFINITION. The Oluon mesh: the MAC's states, slots and links, time correction, neighbours and strangers, security, host
traffic, wake trains, and the mirror of the slot count (R306 to R331). -/

namespace Sys2Proof.Machine

/-! Status codes (R330, R12). -/
/-- MSH_DUP. -/ def stMshDup : Nat := 0x0402
/-- MSH_REPLAY. -/ def stMshReplay : Nat := 0x0403
/-- MSH_SECURITY. -/ def stMshSecurity : Nat := 0x0406
/-- MSH_MALFORMED. -/ def stMshMalformed : Nat := 0x0407
/-- MSH_NBR_FULL. -/ def stMshNbrFull : Nat := 0x0408
/-- MSH_NO_ACK. -/ def stMshNoAck : Nat := 0x0409
/-- MSH_NACKED. -/ def stMshNacked : Nat := 0x040A
/-- MSH_NOT_SYNC. -/ def stMshNotSync : Nat := 0x040B
/-- MSH_TOO_LONG. -/ def stMshTooLong : Nat := 0x040C
/-- MSH_FC_EXHAUST. -/ def stMshFcExhaust : Nat := 0x040D
/-- MSH_BUSY. -/ def stMshBusy : Nat := 0x040E
/-- MSH_DESYNC. -/ def stMshDesync : Nat := 0x0410
/-- MSH_SCHED_MISMATCH. -/ def stMshSched : Nat := 0x0411

/-! States of the MAC (table MSH_STATUS). -/
/-- OFF. -/ def mshOff : Nat := 0
/-- SCAN. -/ def mshScan : Nat := 1
/-- SYNC. -/ def mshSync : Nat := 2
/-- DESYNC. -/ def mshDesync : Nat := 3

/-- The MAC's state. -/
def Dev.mshState (d : Dev) : Nat := d.get MSH_STATUS.STATE
/-- The reader is the root (R313). -/
def Dev.mshRoot (d : Dev) : Bool := d.isSet MSH_CTRL.ROOT
/-- The MAC's record replaced. -/
def Dev.setMsh (d : Dev) (m : MshX) : Dev := { d with msh := m }
/-- A neighbour's record. -/
def Dev.nbrx (d : Dev) (i : Nat) : NbrX := fget (fun _ => {}) d.msh.nbr i
/-- A neighbour's record replaced. -/
def Dev.setNbr (d : Dev) (i : Nat) (x : NbrX) : Dev := d.setMsh { d.msh with nbr := fset (fun _ => {}) id d.msh.nbr i x }

/-! ### The log's once-a-second entries (R325, R336) -/

/-- What a cause's bookkeeping becomes with one more happening, and the count to log (none within a second of the last). -/
def onceEach (l : List (Nat × Nat × Nat)) (cause t : Nat) : List (Nat × Nat × Nat) × Option Nat :=
  match l.find? (fun e => e.1 == cause) with
  | none => ((cause, t + 1, 0) :: l, some 1)
  | some (_, last, n) =>
    let rest := l.filter (fun e => e.1 != cause)
    if last + msTicks 1000 ≤ t + 1 then ((cause, t + 1, 0) :: rest, some (n + 1)) else ((cause, last, n + 1) :: rest, none)

/-- A fault of the mesh is logged at most once a second for each cause, with its count since the previous entry. -/
def Dev.mshLog (d : Dev) (code : Nat) : Dev :=
  let (l, n) := onceEach d.msh.logs code d.tick
  let d := d.setMsh { d.msh with logs := l }
  match n with
  | some k => d.logWarn 0x23 0 code [k]
  | none => d

/-! ### Neighbours (R312, R313, R321) -/

/-- The indices of the neighbour table. -/
def nbrIds : List Nat := List.range 64

/-- Averaged RSSI, 0.1 dBm. -/
def Dev.nbrRssi (d : Dev) (i : Nat) : Int := signedOf 12 (d.get MSH_NDATA_W3.RSSI 0 i)

/-- A neighbour's extended address. -/
def Dev.nbrExt (d : Dev) (i : Nat) : Nat := d.get MSH_NDATA_W1.EXT_HI 0 i * 2 ^ 32 + d.get MSH_NDATA_W0.EXT_LO 0 i

/-- A neighbour entry is in use. -/
def Dev.nbrValid (d : Dev) (i : Nat) : Bool := d.isSet MSH_NDATA_W2.VALID 0 i

/-- A neighbour is a candidate (R313). -/
def Dev.nbrCand (d : Dev) (i : Nat) : Bool :=
  let x := d.nbrx i
  let fresh := match x.rankAt with
    | some t => decide (d.tick ≤ t + msTicks 60000)
    | none => false
  d.nbrValid i && fresh && decide (d.get MSH_NDATA_W2.RANK 0 i < 15) && x.parent != d.get MSH_NET.SHORT &&
    decide (-950 ≤ d.nbrRssi i)

/-- The time parent, where there is one. -/
def Dev.parent (d : Dev) : Option Nat := if d.isSet MSH_TSRC.CUR_V then some (d.get MSH_TSRC.CUR) else none

/-- Candidate `a` comes before `b`: lower rank, then higher RSSI, then lower extended address (R313, R329). -/
def Dev.nbrBefore (d : Dev) (a b : Nat) : Bool :=
  let ra := d.get MSH_NDATA_W2.RANK 0 a
  let rb := d.get MSH_NDATA_W2.RANK 0 b
  if ra != rb then decide (ra < rb)
  else if d.nbrRssi a != d.nbrRssi b then decide (d.nbrRssi b < d.nbrRssi a)
  else decide (d.nbrExt a < d.nbrExt b)

/-- The first in the order of candidates. -/
def Dev.nbrFirst (d : Dev) : List Nat → Option Nat
  | [] => none
  | i :: is =>
    match d.nbrFirst is with
    | none => some i
    | some j => some (if d.nbrBefore j i then j else i)

/-- The candidates other than the time parent. -/
def Dev.candidates (d : Dev) : List Nat := nbrIds.filter (fun i => d.nbrCand i && d.parent != some i)

/-- The first candidate. -/
def Dev.cand1 (d : Dev) : Option Nat := d.nbrFirst d.candidates

/-- The second candidate. -/
def Dev.cand2 (d : Dev) : Option Nat := d.nbrFirst (d.candidates.filter (fun i => d.cand1 != some i))

/-- A valid link names a neighbour. -/
def Dev.nbrLinked (d : Dev) (i : Nat) : Bool :=
  (List.range 128).any (fun k => d.isSet MSH_LDATA.VALID 0 k && d.get MSH_LDATA.NBR 0 k == i)

/-- The factor of unicast frames to a neighbour: 3 fast, 1 standard (R312). -/
def Dev.nbrSf (d : Dev) (i : Nat) : Nat :=
  if d.isSet MSH_PHY.SF_AUTO && decide (-940 + 10 * (d.get MSH_PHY.FAST_MARGIN : Int) ≤ d.nbrRssi i) then 3 else 1

/-- The neighbour of an extended address. -/
def Dev.nbrOf (d : Dev) (ext : Nat) : Option Nat := nbrIds.find? (fun i => d.nbrValid i && d.nbrExt i == ext)

/-- The neighbour of a short address. -/
def Dev.nbrOfShort (d : Dev) (short : Nat) : Option Nat :=
  nbrIds.find? (fun i => d.nbrValid i && d.get MSH_NDATA_W2.SHORT 0 i == short)

/-- An entry taken out of the table. -/
def Dev.nbrClear (d : Dev) (i : Nat) : Dev :=
  (((((((((d.put MSH_NDATA_W0.EXT_LO 0 0 i).put MSH_NDATA_W1.EXT_HI 0 0 i).put MSH_NDATA_W2.VALID 0 0 i).put
    MSH_NDATA_W2.RANK 0 0 i).put MSH_NDATA_W2.SHORT 0 0 i).put MSH_NDATA_W3.RSSI 0 0 i).put MSH_NDATA_W3.DSN 0 0 i).put
    MSH_NDATA_W4.FC 0 0 i).put MSH_NDATA_W5.DUP 0 0 i).put MSH_NDATA_W5.REPLAY 0 0 i |>.setNbr i {}

/-- The entry that a new sender takes: a free one, else the entry of lowest averaged RSSI that is not the parent, not a
candidate and named by no link (R321). -/
def Dev.nbrSlot (d : Dev) : Option Nat :=
  match nbrIds.find? (fun i => !d.nbrValid i) with
  | some i => some i
  | none =>
    let l := nbrIds.filter (fun i => d.parent != some i && !d.nbrCand i && !d.nbrLinked i)
    l.foldl (fun b i => match b with
      | none => some i
      | some j => if d.nbrRssi i < d.nbrRssi j then some i else some j) none

/-! ### Strangers (R325) -/

/-- A stranger is heard: its entry is found or created, the one heard least recently giving way (R325). -/
def Dev.stranger (d : Dev) (kind : Nat) (f : MshFrame) : Dev :=
  let short := f.srcExt.toNat = 0
  let lo := if short then f.srcShort.toNat else f.srcExt.toNat % 2 ^ 32
  let hi := if short then 0 else f.srcExt.toNat / 2 ^ 32
  let ids := List.range 32
  let put (d : Dev) (i : Nat) : Dev :=
    let d := (d.put MSH_SDATA_W2.KIND kind 0 i).put MSH_SDATA_W2.CH f.ch.toNat 0 i
    d.setMsh { d.msh with str := fset (fun _ => 0) id d.msh.str i (d.tick + 1) }
  match ids.find? (fun i => d.isSet MSH_SDATA_W2.VALID 0 i && d.get MSH_SDATA_W0.ADDR_LO 0 i == lo &&
      d.get MSH_SDATA_W1.ADDR_HI 0 i == hi && d.get MSH_SDATA_W3.PAN_ID 0 i == f.pan.toNat) with
  | some i =>
    let d := (put d i).inc MSH_SDATA_W3.COUNT 0 i
    if signedOf 12 (d.get MSH_SDATA_W2.RSSI 0 i) < signedOf 12 f.rssi.toNat then d.put MSH_SDATA_W2.RSSI f.rssi.toNat 0 i
    else d
  | none =>
    let at' := fun i => fget (fun _ => 0) d.msh.str i
    let i := match ids.find? (fun i => !d.isSet MSH_SDATA_W2.VALID 0 i) with
      | some i => i
      | none => ids.foldl (fun b i => if at' i < at' b then i else b) 0
    let d := ((((put d i).put MSH_SDATA_W2.VALID 1 0 i).put MSH_SDATA_W0.ADDR_LO lo 0 i).put MSH_SDATA_W1.ADDR_HI hi 0 i).put
      MSH_SDATA_W3.PAN_ID f.pan.toNat 0 i
    ((d.put MSH_SDATA_W3.COUNT 1 0 i).put MSH_SDATA_W2.RSSI f.rssi.toNat 0 i).publish evMshStranger

/-! ### Slots, links and the hop sequence (R310, R311, R315, R316) -/

/-- Link `k` is active in the slot of an ASN (R311). -/
def Dev.linkActive (d : Dev) (k asn : Nat) : Bool :=
  let f := d.get MSH_LDATA.SFR 0 k
  let n := d.get MSH_SF.LEN 0 f
  d.isSet MSH_LDATA.VALID 0 k && d.isSet MSH_SF.EN 0 f && n != 0 && asn % n == d.get MSH_LDATA.SLOT 0 k

/-- The link used in the slot of an ASN: of the lowest-numbered slotframe, then of the lowest index (assumption: DESIGN
CHOICE for two links of one slotframe). -/
def Dev.linkOf (d : Dev) (asn : Nat) : Option Nat :=
  let l := (List.range 128).filter (fun k => d.linkActive k asn)
  l.foldl (fun b k => match b with
    | none => some k
    | some j => if d.get MSH_LDATA.SFR 0 k < d.get MSH_LDATA.SFR 0 j then some k else some j) none

/-- Entry `k` of the hop sequence: a channel 11 to 26. -/
def Dev.hopAt (d : Dev) (k : Nat) : Nat :=
  match k % 4 with
  | 0 => d.get MSH_HOP.CH0 0 (k / 4)
  | 1 => d.get MSH_HOP.CH1 0 (k / 4)
  | 2 => d.get MSH_HOP.CH2 0 (k / 4)
  | _ => d.get MSH_HOP.CH3 0 (k / 4)

/-- The channel of an ASN at a channel offset (R311). -/
def Dev.mshChan (d : Dev) (asn ofs : Nat) : Nat := d.hopAt ((asn + ofs) % (d.get MSH_SCAN.HOPLEN + 1))

/-- The half-width of the receive window of a link in microseconds (R316): the widened one toward the time parent. -/
def Dev.guardUs (d : Dev) (link : Nat) : Nat :=
  let base := d.get MSH_SYNC.GUARD_BASE
  let toParent := d.parent.isSome && (d.get MSH_LDATA.NBR 0 link == 0x7F || d.parent == some (d.get MSH_LDATA.NBR 0 link))
  if toParent then min (base * 2 ^ d.msh.widen) (min 2000 (d.get MSH_SYNC.GUARD_MAX)) else base

/-- The transmit offset in ticks: 2,120 µs (R310). -/
def txOffset : Nat := 325632

/-- The byte time of a factor in microseconds (R306). -/
def byteUs (sf : Nat) : Nat := if sf = 2 then 128 else if sf = 3 then 8 else 32

/-- The longest PSDU of a factor (R306). -/
def longest (sf : Nat) : Nat := if sf = 2 then 48 else if sf = 0 then 0 else 127

/-- The ticks a frame of `n` bytes lasts: synchronisation header, PHR and PSDU (R306). -/
def frameTicks (sf n : Nat) : Nat := usTicks ((6 + n) * byteUs sf)

/-- The length of the present slot and the fraction carried on (R315): 1,536,000 × (1 + D × 10⁻⁸) ticks. -/
def Dev.slotLen (d : Dev) : Int × Int :=
  let acc := d.msh.frac + 1536000 * (100000000 + signedOf 16 (d.get MSH_DRIFT.D))
  (acc / 100000000, acc % 100000000)

/-- A correction (R315): the next boundary moves by the offset, a step beyond 154 ticks is counted and logged, and D
learns. -/
def Dev.correct (d : Dev) (off : Int) (t : Nat) : Dev :=
  let d := d.put MSH_DRIFT.OFFSET (toSigned 16 off)
  let d := if 154 < off.natAbs then (d.inc MSH_CNT.CNT_HI 0 5).logWarn 0x23 0 (Config.codeIn 0x04 10) [toSigned 32 off] else d
  let d := match d.msh.corrAt with
    | some t0 =>
      if t0 < t then
        let den : Int := 8 * ((t - t0 : Nat) : Int)
        let num := off * 100000000
        let q : Int := if 0 ≤ num then (2 * num + den) / (2 * den) else -((-2 * num + den) / (2 * den))
        d.put MSH_DRIFT.D (toSigned 16 (max (-500) (min 500 (signedOf 16 (d.get MSH_DRIFT.D) + q))))
      else d
    | none => d
  d.setMsh { d.msh with adj := d.msh.adj + off, corrAt := some t }

/-! ### Own frames (R323, R324, R337) -/

/-- The key in use is loaded: own frames can be secured (R323). -/
def Dev.keyReady (d : Dev) : Bool := bitOf (d.get MSH_KEYST.LOADED) (d.get MSH_KEYST.ACTIVE)

/-- A secured frame with a new counter can be sent: the key is loaded (R323), and the counter is below the confirmed mark and not
exhausted (R324). Without a loaded key a frame is held as without a confirmed mark (assumption: DESIGN CHOICE). -/
def Dev.fcReady (d : Dev) : Bool :=
  d.keyReady && decide (d.get MSH_FCOUT.FC < d.msh.mark) && decide (d.get MSH_FCOUT.FC < 0xFFFFFFFF)

/-- Secured transmission has stopped: the counter is exhausted (R324). -/
def Dev.fcGone (d : Dev) : Bool := d.get MSH_FCOUT.FC == 0xFFFFFFFF

/-- A wired port carries Oluon frames: UP with OLUON set (R337). -/
def Dev.speCarries (d : Dev) (n : Nat) : Bool := d.get SPE_STATUS.STATE n == 3 && d.isSet SPE_CTRL.OLUON n

/-- WR24 is blanked by a transmission of the mesh radio from tick `start` to `t`, up to 2 ms after it (R301); in heartwood ticks 2 ms
are 65.5. -/
def Dev.blank24 (d : Dev) (start t : Nat) : Dev :=
  { d with wkr := { d.wkr with from24 := start, was24 := if d.wkr.from24 < d.tick then d.wkr.blank24 else d.wkr.was24, blank24 := t + msTicks 2 + 1, blank24Hw := d.hw + ((t - d.tick) * 2 + 9374) / 9375 + 67 } }

/-- The Ethernet frame in which port `n` carries a frame of the mesh (R337): broadcast destination, the port's own address,
EtherType 0x88B5, and the sub-IEs. -/
def Dev.wireCopy (d : Dev) (n : Nat) (ies : List Nat) : List Nat :=
  [0xFFFFFFFFFFFF, d.get SPE_MAC_HI.ADDR_HI n * 2 ^ 32 + d.get SPE_MAC_LO.ADDR_LO n, 0x88B5] ++ ies

/-- A wired port sends its copy of an own frame, as one frame of its own. -/
def Dev.wireOut (d : Dev) (n : Nat) (ies : List Nat) : Dev :=
  let x := fget (fun _ => {}) d.spe n
  if d.speCarries n then
    { d with spe := fset (fun _ => {}) id d.spe n { x with copy := d.wireCopy n ies } }.inc SPE_CNT.CNT_LO n 0
  else d

/-- One own frame goes out (R323, R337): secured on level 2 (a beacon) or 6 with the key in use, with its Oluon sub-IEs and an
acknowledgement's NACK flag, from `start` to its end; and the copies on the wired ports. -/
def Dev.airOut (d : Dev) (kind sf : Nat) (ies : List Nat) (start : Nat) (wire : Bool) (nack : Bool := false) : Dev :=
  let fin := start + frameTicks sf (Config.meshFrameBytes kind ies.length)
  let d := (d.setMsh { d.msh with sent := ies, sentLevel := if kind = 0 then 2 else 6, sentKey := d.get MSH_KEYST.ACTIVE + 1,
                                  sentNack := nack, txFrom := start, txEnd := some fin }).blank24 start fin
  if wire then (List.range 2).foldl (fun d n => d.wireOut n ies) d else d

/-- The counter of a new secured frame is taken. -/
def Dev.fcTake (d : Dev) : Dev := d.put MSH_FCOUT.FC (d.get MSH_FCOUT.FC + 1)

/-- An acknowledgement goes out 1,000 µs after the frame (R310, R312), secured with a counter of its own; with
`nack` it carries NACK (R325). -/
def Dev.ackOut (d : Dev) (sf endTick : Nat) (nack : Bool := false) : Dev :=
  if d.fcReady && sf != 2 then d.fcTake.airOut 3 sf [] (endTick + usTicks 1000) false nack else d

/-- The carrier schedule of index entry `k`: a CSCHED section with COUNT 0 holds none (R176). -/
def Dev.schedOf (d : Dev) (k : Nat) : Option (Nat × Nat) :=
  ((d.sect (d.hoopEntry k).2.1 9).filter (fun s => s.count != 0)).map (fun s =>
    (d.hw' (hoopIndex k + 4), bitsOf (d.hw' s.start) 3 0))

/-- The reader's carrier schedule: the identifier (CONTRACT of the hoop that holds it) and LOG2_LEN (R176, R326). -/
def Dev.ownSched (d : Dev) : Option (Nat × Nat) :=
  ((List.range 32).find? (fun k => (d.hoopEntry k).1 && (d.schedOf k).isSome)).bind d.schedOf

/-- Time quality that this reader advertises (R314, R326): at the root by the PPS state, else its parent's. -/
def Dev.timeQuality (d : Dev) : Nat :=
  if d.mshRoot then
    match d.get RING_PPSST.STATE with
    | 1 => 0
    | 2 => 1
    | _ => 2
  else match d.parent with
    | some p => (d.nbrx p).qual
    | none => 2

/-- The low `n` bytes of a number, little-endian. -/
def leBytes (n v : Nat) : List Nat := (List.range n).map (fun k => v / 256 ^ k % 256)

/-- The RANK sub-IE of this reader (R326). -/
def Dev.rankIe (d : Dev) : List Nat :=
  let p := match d.parent with
    | some i => if d.mshRoot then 0xFFFF else d.get MSH_NDATA_W2.SHORT 0 i
    | none => 0xFFFF
  [1, 4, d.get MSH_STATUS.RANK, d.timeQuality] ++ leBytes 2 p

/-- The sub-IEs of an enhanced beacon (R326): RANK, and SCHED when the hoop holds a carrier schedule; KEYROLL while a key is
announced. -/
def Dev.beaconIes (d : Dev) : List Nat :=
  d.rankIe ++
    (match d.ownSched with
     | some (c, l) => [2, 5] ++ leBytes 4 c ++ [l]
     | none => []) ++
    (match d.msh.roll with
     | some (k, a) => [3, 6, k] ++ leBytes 5 a
     | none => [])

/-! ### Host traffic (R327) -/

/-- The status item 0x43 of a request: one for each, which waits where RXQ has no room. -/
def Dev.mshStatus (d : Dev) (st : Nat) (r : MTx) : Dev :=
  let k := d.get MSH_Q.RXQ
  if k < 2 then d else d.qOwe k epMsh 0x43 [st * 65536 + r.tag * 256 + r.made]

/-- Every request the MAC holds ends with MSH_NOT_SYNC. -/
def Dev.endRequests (d : Dev) : Dev :=
  let l := d.msh.cur.toList ++ d.msh.txq
  (d.setMsh { d.msh with cur := none, txq := [] }).each l (fun d r => d.mshStatus stMshNotSync r)

/-- The MAC goes to a state in which it is not synchronised. -/
def Dev.mshLeave (d : Dev) (st : Nat) : Dev := (d.put MSH_STATUS.STATE st).endRequests

/-- A wake train that waits for a free slot goes on at once: where no slots are counted no link is active (R328). -/
def Dev.trainGo (d : Dev) : Dev :=
  match d.msh.train with
  | some x => if x.here.isNone then d.setMsh { d.msh with train := some { x with started := true, here := some d.tick } } else d
  | none => d

/-- The MAC goes to SCAN (R320): no parent, rank 15, channel 11 from now on. -/
def Dev.mshToScan (d : Dev) : Dev :=
  let d := (((d.mshLeave mshScan).put MSH_TSRC.CUR_V 0).put MSH_TSRC.MISS 0).put MSH_STATUS.RANK 15
  (d.setMsh { d.msh with rescan := false, scanCh := 11, dwellAt := d.tick, eb := none, adj := 0, corrAt := none }).trainGo

/-- The MAC declares DESYNC (R318). The time parent stays: it changes only at a join, a switch or a rescan (R313). -/
def Dev.mshToDesync (d : Dev) : Dev := ((d.mshLeave mshDesync).logWarn 0x23 0 stMshDesync).publish evMshDesync

/-- A neighbour becomes the time parent; the own rank is one more than its rank, at most 15 (R313). -/
def Dev.setParent (d : Dev) (i : Nat) : Dev :=
  ((d.put MSH_TSRC.CUR_V 1).put MSH_TSRC.CUR i).put MSH_STATUS.RANK (min 15 (d.get MSH_NDATA_W2.RANK 0 i + 1))

/-! ### The commands of the host (R320, R331) -/

/-- The MAC starts as the root (R313): rank 0, synchronised, its slots from now on. -/
def Dev.rootStart (d : Dev) : Dev :=
  let d := (((d.put MSH_STATUS.STATE mshSync).put MSH_STATUS.RANK 0).put MSH_TSRC.CUR_V 0).put MSH_TSRC.MISS 0
  d.setMsh { d.msh with bound := d.tick, frac := 0, adj := 0, corrAt := none, aligned := false, rescan := false, widen := 0 }

/-- MSH_RUN_WRITE: the MAC starts scanning or as the root, changes its part, or goes off. -/
def execMshRunWrite (run root align : Bool) (s : State) : Host.Outcome State Fault Refusal :=
  s.onIsland 7 .MSH_CTRL 0 (fun d =>
    let was := d.isSet MSH_CTRL.RUN
    let wasRoot := d.mshRoot
    let d := ((d.put MSH_CTRL.RUN (bit run)).put MSH_CTRL.ROOT (bit root)).put MSH_CTRL.ALIGN_PPS (bit align)
    if run = false then
      if was = true then
        let busy := d.isSet MSH_WAKE.BUSY
        let d := match d.msh.train.bind (fun x => x.here) with
          | some t => d.blank24 t d.tick
          | none => d
        let d := ((d.mshLeave mshOff).put MSH_TSRC.CUR_V 0).put MSH_TSRC.MISS 0
        let d := (d.put MSH_STATUS.RANK 15).setMsh { d.msh with rescan := false, train := none, eb := none, cur := none, txq := [], wire := [] }
        if busy = true then (d.put MSH_WAKE.BUSY 0).publish evMshWakeDone else d
      else d
    else if was = false then
      if root = true then d.rootStart else d.mshToScan
    else if root = true ∧ wasRoot = false then d.rootStart
    else if root = false ∧ wasRoot = true then d.mshToScan
    else d)

/-- RESCAN: SYNC or DESYNC is left for SCAN at the next boundary (R320). The root is always synchronised. -/
def execRescan (s : State) : Host.Outcome State Fault Refusal :=
  s.onIsland 7 .MSH_CTRL 0 (fun d => if 2 ≤ d.mshState ∧ d.mshRoot = false then d.setMsh { d.msh with rescan := true } else d)

/-- MSH_CNT_CLR. -/
def execMshCntClr (s : State) : Host.Outcome State Fault Refusal :=
  s.onIsland 7 .MSH_CTRL 0 (fun d => (List.range 6).foldl (fun d k => (d.put MSH_CNT.CNT_HI 0 0 k).put MSH_CNT.CNT_LO 0 0 k) d)

/-! ### Receiving (R307, R316, R322 to R327, R337) -/

/-- The frame passes security: its level and mode, a loaded key of index 1 to 4, and the MIC (R323). -/
def Dev.mshSecure (d : Dev) (f : MshFrame) : Bool :=
  let level := if f.kind == .beacon then 2 else 6
  let k := f.keyIdx.toNat
  f.level.toNat == level && f.keyMode.toNat == 1 && decide (1 ≤ k ∧ k ≤ 4) && bitOf (d.get MSH_KEYST.LOADED) (k - 1) && f.mic

/-- The acknowledgement of the own frame that ended at `fin` starts in the 400 µs from 800 µs after its end (R310). -/
def inAckWindow (start fin : Nat) : Bool := decide (fin + usTicks 800 ≤ start) && decide (start < fin + usTicks 800 + usTicks 400)

/-- The MAC acquires an air frame: in SCAN on its channel, in DESYNC on the hop sequence, in SYNC in the window of an active
receive link on its channel, or as the acknowledgement awaited, in its window and on the channel of its frame (R310, R316, R319, R320).
A wake train that holds the radio shuts the receiver out. -/
def Dev.mshAcquires (d : Dev) (f : MshFrame) : Bool :=
  let ch := f.ch.toNat + 11
  let sending := (d.msh.train.bind (fun x => x.here)).isSome
  if sending then false
  else match d.mshState with
  | 1 => ch == d.msh.scanCh
  | 2 =>
    if f.kind == .ack then
      d.msh.cur.isSome && d.msh.txEnd.any (inAckWindow f.startTick) &&
        (match d.linkOf d.msh.asn with
          | some k => ch == d.mshChan d.msh.asn (d.get MSH_LDATA.CHOFS 0 k)
          | none => false)
    else match d.linkOf d.msh.asn with
      | some k =>
        let off : Int := (f.startTick : Int) - ((d.msh.bound : Int) + (txOffset : Int))
        let g := d.guardUs k
        d.isSet MSH_LDATA.RX 0 k && ch == d.mshChan d.msh.asn (d.get MSH_LDATA.CHOFS 0 k) &&
          decide (-(768 * (g : Int)) ≤ 5 * off ∧ 5 * off < 768 * (g : Int))
      | none => false
  | 3 => ch == d.mshChan d.msh.asn 0
  | _ => false

/-- The tables of a beacon are copied (R311). -/
def Dev.adoptTables (d : Dev) (t : EbTables) : Dev :=
  let d := d.put MSH_SCAN.HOPLEN t.hopLen.toNat
  let d := (List.range 4).foldl (fun d k => match t.slotframes[k]? with
    | some w => (d.put MSH_SF.EN (w.toNat / 2 ^ 31) 0 k).put MSH_SF.LEN w.toNat 0 k
    | none => d.put MSH_SF.EN 0 0 k) d
  let d := (List.range 4).foldl (fun d k => match t.hops[k]? with
    | some w => (((d.put MSH_HOP.CH0 w.toNat 0 k).put MSH_HOP.CH1 (w.toNat / 2 ^ 8) 0 k).put MSH_HOP.CH2 (w.toNat / 2 ^ 16) 0 k).put
        MSH_HOP.CH3 (w.toNat / 2 ^ 24) 0 k
    | none => d) d
  t.links.foldl (fun d l =>
    let w := l.word.toNat
    let k := l.index.val
    ((((((((d.put MSH_LDATA.VALID (w / 2 ^ 31) 0 k).put MSH_LDATA.SFR (w / 2 ^ 29) 0 k).put MSH_LDATA.TX (w / 2 ^ 28) 0 k).put
      MSH_LDATA.RX (w / 2 ^ 27) 0 k).put MSH_LDATA.SHARED (w / 2 ^ 26) 0 k).put MSH_LDATA.TK (w / 2 ^ 25) 0 k).put
      MSH_LDATA.ADV (w / 2 ^ 24) 0 k).put MSH_LDATA.NBR (w / 2 ^ 16) 0 k).put MSH_LDATA.SLOT (w / 2 ^ 6) 0 k |>.put
      MSH_LDATA.CHOFS w 0 k) d

/-- Counter comparison of R322: 0 accepted, 1 a duplicate, 2 a replay. -/
def Dev.replayOf (d : Dev) (i : Nat) (f : MshFrame) : Nat :=
  let fc := d.get MSH_NDATA_W4.FC 0 i
  if fc < f.counter.toNat then 0 else if f.counter.toNat = fc ∧ f.dsn.toNat = d.get MSH_NDATA_W3.DSN 0 i then 1 else 2

/-- A new neighbour's entry (R321). -/
def Dev.nbrNew (d : Dev) (i : Nat) (f : MshFrame) : Dev :=
  let d := d.nbrClear i
  (((d.put MSH_NDATA_W0.EXT_LO f.srcExt.toNat 0 i).put MSH_NDATA_W1.EXT_HI (f.srcExt.toNat / 2 ^ 32) 0 i).put
    MSH_NDATA_W2.VALID 1 0 i).put MSH_NDATA_W3.RSSI f.rssi.toNat 0 i

/-- The record of an accepted frame (R322): DSN, counter, short address; on air the RSSI average and the RANK IE. From the wire neither
is taken, so that such a frame never makes its sender a candidate (R337). -/
def Dev.nbrAccept (d : Dev) (i : Nat) (f : MshFrame) (wired new : Bool) : Dev :=
  let d := ((d.put MSH_NDATA_W3.DSN f.dsn.toNat 0 i).put MSH_NDATA_W4.FC f.counter.toNat 0 i).put MSH_NDATA_W2.SHORT
    f.srcShort.toNat 0 i
  let d := if wired || new then d
    else d.put MSH_NDATA_W3.RSSI (Config.meshRssi (d.get MSH_NDATA_W3.RSSI 0 i) f.rssi.toNat).toNat 0 i
  let d := d.setNbr i { d.nbrx i with heard := d.tick }
  match (if wired then none else f.rank) with
  | some (r, q, p) =>
    let d := d.put MSH_NDATA_W2.RANK (min 15 r.toNat) 0 i
    let d := d.setNbr i { d.nbrx i with qual := q.toNat, parent := p.toNat, rankAt := some d.tick }
    if d.parent == some i && !d.mshRoot then d.put MSH_STATUS.RANK (min 15 (min 15 r.toNat + 1)) else d
  | none => d

/-- The announcements of an accepted frame: a next key, and a carrier schedule that differs (R323, R325). -/
def Dev.takeIes (d : Dev) (f : MshFrame) : Dev :=
  let d := match f.keyroll with
    | some (k, a) => d.setMsh { d.msh with roll := some (k.toNat, a.toNat) }
    | none => d
  match f.sched, d.ownSched with
  | some (c, _), some (own, _) => if c.toNat = own then d else d.mshLog stMshSched
  | _, _ => d

/-- An authenticated frame of the time parent on air: it clears MISS, and corrects time (R315, R316, R318). -/
def Dev.fromParent (d : Dev) (f : MshFrame) : Dev :=
  let off : Option Int :=
    if f.kind == .ack then f.correction else some ((f.startTick : Int) - ((d.msh.bound : Int) + (txOffset : Int)))
  let d := (d.put MSH_TSRC.MISS 0).setMsh { d.msh with widen := 0 }
  match off with
  | some o => d.correct o f.startTick
  | none => d

/-- A beacon joins the MAC to its network (R319, R320): from SCAN at once, from DESYNC at the next boundary and for the first of a
candidate alone. -/
def Dev.joinBy (d : Dev) (i : Nat) (f : MshFrame) : Dev :=
  let b := f.startTick - txOffset
  if d.mshState = mshScan then
    let d := match f.tables with
      | some t => d.adoptTables t
      | none => d
    let d := ((d.setParent i).put MSH_STATUS.STATE mshSync).put MSH_TSRC.MISS 0
    (d.setMsh { d.msh with asn := f.asn.toNat, bound := b, frac := 0, adj := 0, corrAt := some f.startTick, widen := 0 }).publish
      evMshJoined
  else if d.nbrCand i && d.msh.eb.isNone then
    let d := (d.setParent i).put MSH_TSRC.MISS 0
    d.setMsh { d.msh with eb := some (f.asn.toNat, b), widen := 0 }
  else d

/-- The payload of a data frame goes to the host (R327): the item 0x42. The answer tells whether there was room. -/
def Dev.mshDeliver (d : Dev) (i : Nat) (f : MshFrame) (wired : Bool) (bytes : List Byte) : Dev × Bool :=
  let k := d.get MSH_Q.RXQ
  let words := (List.range ((bytes.length + 3) / 4)).map (fun w =>
    ((List.range 4).map (fun b => (bytes.getD (4 * w + b) 0).toNat * 256 ^ b)).sum)
  let w1 := f.srcShort.toNat * 65536 + i * 256 + (if wired then 0 else f.sf.toNat) * 64
  let w2 := f.rssi.toNat * 2 ^ 20 + bytes.length
  if k < 2 then (d, false)
  else d.qDeliver k epMsh 0x42 ([w1, w2, d.msh.asn % 2 ^ 32, d.msh.asn / 2 ^ 32] ++ words)

/-- The acknowledgement awaited arrives (R325, R327). -/
def Dev.ackIn (d : Dev) (f : MshFrame) : Dev :=
  match d.msh.cur with
  | some r =>
    let d := d.setMsh { d.msh with cur := none }
    if f.nack then ((d.inc MSH_CNT.CNT_LO 0 4).mshLog stMshNacked).mshStatus stMshNacked r else (d.inc MSH_CNT.CNT_LO 0 0).mshStatus 0 r
  | none => d

/-- An accepted frame acts: time, join, delivery, acknowledgement; one that RXQ has no room for is answered with NACK (R325). -/
def Dev.mshAccept (d : Dev) (i : Nat) (f : MshFrame) (wired : Bool) (fin : Nat) : Dev :=
  let d := d.inc MSH_CNT.CNT_HI 0 0
  let d := d.takeIes f
  let d := if wired then d
    else
      let d := d.setNbr i { d.nbrx i with onAir := some d.tick }
      if d.mshState = mshSync then (if d.parent == some i && !d.mshRoot then d.fromParent f else d)
      else if f.kind == .beacon then d.joinBy i f else d
  let mine := f.toUs || f.broadcast
  let acks := f.ackReq && f.toUs && !wired && d.mshState == mshSync
  if f.kind == .ack then (if wired then d else d.ackIn f)
  else
    match f.host with
    | some bytes =>
      if mine && f.kind == .data then
        let r := d.mshDeliver i f wired bytes
        let d := if r.2 then r.1 else r.1.mshLog stMshNacked
        if acks then d.ackOut f.sf.toNat fin (!r.2) else d
      else d
    | none => if acks then d.ackOut f.sf.toNat fin else d

/-- A frame with a valid header reaches the MAC's checks in order: PAN, security, neighbour, counter (R321 to R325). -/
def Dev.mshTake (d : Dev) (f : MshFrame) (wired : Bool) (fin : Nat) : Dev :=
  if f.pan.toNat ≠ d.get MSH_NET.PAN_ID then d.stranger 0 f
  else if d.mshSecure f = false then
    let d := d.stranger 1 f
    if f.toUs then
      let d := (d.inc MSH_CNT.CNT_HI 0 3).mshLog stMshSecurity
      if f.ackReq && !wired && d.mshState == mshSync then d.ackOut f.sf.toNat fin true else d
    else d
  else
    match d.nbrOf f.srcExt.toNat with
    | some i =>
      match d.replayOf i f with
      | 0 => (d.nbrAccept i f wired false).mshAccept i f wired fin
      | 1 =>
        let d := (d.inc MSH_CNT.CNT_HI 0 1).inc MSH_NDATA_W5.DUP 0 i
        let d := if wired then d
          else
            let x := d.nbrx i
            let d := d.setNbr i { x with heard := d.tick, onAir := some d.tick, rankAt := if f.rank.isSome then some d.tick else x.rankAt }
            if d.mshState = mshSync ∧ d.parent = some i ∧ d.mshRoot = false then d.fromParent f else d
        if f.ackReq && f.toUs && !wired && d.mshState == mshSync then d.ackOut f.sf.toNat fin else d
      | _ => (d.inc MSH_CNT.CNT_LO 0 1).inc MSH_NDATA_W5.REPLAY 0 i
    | none =>
      match d.nbrSlot with
      | some i => ((d.nbrNew i f).nbrAccept i f wired true).mshAccept i f wired fin
      | none => (d.stranger 2 f).mshLog stMshNbrFull

/-- MSH_FRAME_RX: the radio has received a whole frame. -/
def execMshFrameRx (f : MshFrame) (s : State) : Host.Outcome State Fault Refusal :=
  s.onUnit 7 (fun d =>
    let fin := f.startTick + frameTicks f.sf.toNat f.len
    if d.mshAcquires f then
      let d := d.toTick fin
      if f.fcsOk && f.parsable && decide (f.len ≤ longest f.sf.toNat) then d.mshTake f false fin
      else (d.inc MSH_CNT.CNT_LO 0 3).mshLog stMshMalformed
    else d)

/-- CAPM, dB: outside 3 to 12 the nearer limit. -/
def Dev.captureMargin (d : Dev) : Nat := max 3 (min 12 (d.get MSH_PHY.CAPM))

/-- The frame in reception is abandoned (R309): for another SFD at least CAPM above its own, or below FLOOR. -/
def Dev.abandons (d : Dev) (o : AbandonObs) : Bool :=
  o.margin.any (fun m => decide (10 * (d.captureMargin : Int) ≤ m)) || decide (o.corr < d.get MSH_PHY.FLOOR)

/-- MSH_FRAME_ABANDON (R309): counted as captured over when its PHR was valid, else as a false synchronisation. -/
def execMshFrameAbandon (o : AbandonObs) (s : State) : Host.Outcome State Fault Refusal :=
  s.onUnit 7 (fun d =>
    if d.mshState = mshOff ∨ d.abandons o = false then d
    else if o.phrValid then d.inc MSH_CNT.CNT_LO 0 2 else d.inc MSH_CNT.CNT_HI 0 2)

/-! ### Slots (R310, R311, R324, R328) -/

/-- The length of a wake train in heartwood ticks (R328). -/
def Dev.trainHw (d : Dev) : Nat :=
  let n := max 2 (d.get MSH_WAKE.COUNT)
  n * d.get MSH_WAKE.PW + (n - 1) * d.get MSH_WAKE.GAP

/-- The same in AT ticks (a heartwood tick is 4,687.5 AT ticks), rounded up. -/
def Dev.trainTicks (d : Dev) : Nat := (d.trainHw * 9375 + 1) / 2

/-- Too few of the slots of the next 200 ms from the slot of an ASN on are free for a train of `n` ticks (R328). -/
def Dev.trainAll (d : Dev) (asn n : Nat) : Bool :=
  decide (((List.range 20).filter (fun k => (d.linkOf (asn + k)).isNone)).length < (n + 1535999) / 1536000)

/-- The train at the boundary `b` of the slot of an ASN: what it sent in the slot before is over, and it takes this slot where no link
is active in it, or where it takes those as well. Between the slots it takes it pauses (R328; assumption: DESIGN CHOICE). -/
def Dev.trainSlot (d : Dev) (x : Train) (asn b : Nat) : Train :=
  let left := match x.here with
    | some h => x.left - (b - h)
    | none => x.left
  let all := if x.started then x.all else d.trainAll asn x.left
  let takes := (d.linkOf asn).isNone || all
  { left := left, started := x.started || takes, all := all, here := if takes then some b else none }

/-- A link serves a destination: any neighbour, or the one it names. -/
def Dev.linkServes (d : Dev) (k dst : Nat) : Bool :=
  let n := d.get MSH_LDATA.NBR 0 k
  n == 0x7F || (dst != 0xFFFF && d.nbrOfShort dst == some n)

/-- The factor of a request (R312): as it names, else by the neighbour, else standard. -/
def Dev.factorOf (d : Dev) (r : MTx) : Nat :=
  if r.sf ≠ 0 then r.sf
  else if r.dst = 0xFFFF then 1
  else match d.nbrOfShort r.dst with
    | some i => d.nbrSf i
    | none => 1

/-- A data frame of a request goes out in the slot that starts at `b`: the first time with a new counter and DSN, again
with the same ones. -/
def Dev.sendData (d : Dev) (r : MTx) (b : Nat) : Dev :=
  let new := r.fc.isNone
  let d := if new then d.fcTake else d
  let d := if new then d.setMsh { d.msh with dsn := (d.msh.dsn + 1) % 256 } else d
  let fc := match r.fc with
    | some c => c
    | none => d.get MSH_FCOUT.FC - 1
  let r := { r with made := r.made + 1, fc := some fc }
  let d := d.airOut 1 (d.factorOf r) ([4, r.bytes.length] ++ r.bytes) (b + txOffset) true
  if r.ack then d.setMsh { d.msh with cur := some r } else (d.inc MSH_CNT.CNT_LO 0 0).mshStatus 0 r

/-- The transmit part of a slot with active link `k` (R311, R318): a beacon on an ADV link, else the first request that the
link serves; on a shared link after its backoff and a clear channel. -/
def Dev.slotTx (d : Dev) (k b : Nat) (busy : Bool) : Dev :=
  if d.isSet MSH_LDATA.ADV 0 k then
    if d.fcReady then
      let sf := if d.get MSH_PHY.EB_SF = 0 then 1 else d.get MSH_PHY.EB_SF
      let d := d.fcTake
      let d := d.setMsh { d.msh with dsn := (d.msh.dsn + 1) % 256 }
      (d.airOut 0 sf d.beaconIes (b + txOffset) true).inc MSH_CNT.CNT_LO 0 0
    else d
  else if d.isSet MSH_LDATA.TX 0 k then
    match d.msh.txq.find? (fun r => d.linkServes k r.dst) with
    | none => d
    | some r =>
      let rest := d.msh.txq.erase r
      if r.fc.isNone && d.fcGone then
        (d.setMsh { d.msh with txq := rest }).mshStatus stMshFcExhaust r
      else if (r.fc.isNone && !d.fcReady) || !d.keyReady then d
      else if d.isSet MSH_LDATA.SHARED 0 k && decide (0 < r.wait) then
        d.setMsh { d.msh with txq := d.msh.txq.map (fun q => if q = r then { r with wait := r.wait - 1 } else q) }
      else if d.isSet MSH_LDATA.SHARED 0 k && busy then
        let n := Config.meshBackoff d.fresh
        let d := { d with fresh := d.fresh + 1 }
        d.setMsh { d.msh with txq := d.msh.txq.map (fun q => if q = r then { r with wait := n } else q) }
      else (d.setMsh { d.msh with txq := rest }).sendData r b
  else d

/-- The key in use changes in the first slot whose ASN reaches the announced one (R323, R329), or as soon after it as the announced key
is loaded (assumption: DESIGN CHOICE). -/
def Dev.rollKey (d : Dev) : Dev :=
  match d.msh.roll with
  | some (k, a) =>
    if a ≤ d.msh.asn ∧ 1 ≤ k ∧ k ≤ 4 ∧ bitOf (d.get MSH_KEYST.LOADED) (k - 1) = true then (d.put MSH_KEYST.ACTIVE (k - 1)).setMsh { d.msh with roll := none } else d
  | none => d

/-- What happens in a slot that has begun: the rescan, a waiting wake train, else the link's part. -/
def Dev.slotRun (d : Dev) (busy : Bool) : Dev :=
  let b := d.msh.bound
  let d := d.rollKey
  match d.msh.train with
  | some x =>
    let x := d.trainSlot x d.msh.asn b
    let d := d.setMsh { d.msh with train := some x }
    if x.here.isSome then d
    else match d.linkOf d.msh.asn with
      | some k => if d.mshState = mshSync ∧ d.msh.cur = none then d.slotTx k b busy else d
      | none => d
  | none =>
    if d.msh.rescan then d.mshToScan
    else match d.linkOf d.msh.asn with
      | some k => if d.mshState = mshSync ∧ d.msh.cur = none then d.slotTx k b busy else d
      | none => d

/-- ASN and AT tick of the MAC's next boundary (R315, R319): from the present slot and its corrections, or in DESYNC from the beacon
taken. -/
def Dev.mshNext (d : Dev) : Nat × Nat :=
  let m := d.msh
  match m.eb with
  | some (a, b) => ((a + 1) % 2 ^ 40, ((b : Int) + d.slotLen.1).toNat)
  | none => ((m.asn + 1) % 2 ^ 40, ((m.bound : Int) + d.slotLen.1 + m.adj).toNat)

/-- The frames that came from a wired port in a slot reach the MAC at its end, so that the air copy of one is the one delivered (R337,
R338; assumption: DESIGN CHOICE). -/
def Dev.wireIn (d : Dev) : Dev := d.msh.wire.foldl (fun d f => d.mshTake f true d.tick) (d.setMsh { d.msh with wire := [] })

/-- MSH_SLOT_BOUNDARY: the next slot begins (R310, R315, R319). -/
def execMshSlotBoundary (o : SlotObs) (s : State) : Host.Outcome State Fault Refusal :=
  s.onUnit 7 (fun d =>
    if d.mshState < 2 then d
    else
      let d := d.wireIn
      let frac := d.slotLen.2
      let (a, b) := d.mshNext
      let m := d.msh
      let joined := m.eb
      let d := d.setMsh { m with asn := a, bound := b, frac := frac, adj := 0, eb := none,
                                 corrAt := if joined.isSome then some b else m.corrAt }
      let d := d.toTick b
      let d := if joined.isSome then (d.put MSH_STATUS.STATE mshSync).publish evMshSync else d
      d.slotRun o.ccaBusy)

/-- MSH_MISS: the window of a timekeeping link toward the parent closes without a frame of it (R318, R329). -/
def execMshMiss (s : State) : Host.Outcome State Fault Refusal :=
  s.onUnit 7 (fun d =>
    match d.linkOf d.msh.asn, d.parent with
    | some k, some p =>
      let n := d.get MSH_LDATA.NBR 0 k
      let heard := match (d.nbrx p).onAir with
        | some t => decide (d.msh.bound ≤ t)
        | none => false
      if d.mshState = mshSync ∧ d.mshRoot = false ∧ heard = false ∧ d.isSet MSH_LDATA.RX 0 k = true ∧
          d.isSet MSH_LDATA.TK 0 k = true ∧ (n = 0x7F ∨ n = p) then
        let d := d.toTick (d.msh.bound + txOffset + usTicks (d.guardUs k))
        let miss := d.get MSH_TSRC.MISS + 1
        let d := (d.put MSH_TSRC.MISS miss).setMsh { d.msh with widen := max d.msh.widen miss }
        if miss < 3 then d
        else match d.cand1 with
          | some c => (((d.setParent c).put MSH_TSRC.MISS 0).inc MSH_CNT.CNT_LO 0 5).publish evMshTsrc
          | none => d.mshToDesync
      else d
    | _, _ => d)

/-- MSH_SCAN_DWELL: after SCAN_DWELL on a channel the scan moves to the next one, after 26 to 11 (R320). -/
def execMshScanDwell (s : State) : Host.Outcome State Fault Refusal :=
  s.onUnit 7 (fun d =>
    if d.mshState = mshScan then
      let t := d.msh.dwellAt + msTicks (d.get MSH_SCAN.SCAN_DWELL)
      (d.toTick t).setMsh { d.msh with scanCh := if d.msh.scanCh < 26 then d.msh.scanCh + 1 else 11, dwellAt := t }
    else d)

/-! ### The mirror in the AIR island (R317) -/

/-- ASN_PAIR: the pair of the MAC's next boundary arrives; at least 1 ms before its tick it is in time (R317, R329). The MAC sends no
other pair. -/
def execAsnPair (asn : BitVec 40) (tick : Nat) (s : State) : Host.Outcome State Fault Refusal :=
  s.onUnit 2 (fun d =>
    if 2 ≤ d.mshState ∧ (asn.toNat, tick) = d.mshNext ∧ d.tick + msTicks 1 ≤ tick then
      let x := d.asn.settle d.tick
      let n := if x.missing = false ∧ asn.toNat = x.asn + 1 then tick - x.tick else x.len
      { d with asn := { x with next := some (asn.toNat, tick, n), missing := false } }
    else d)

/-- ASN_PAIR_MISSING: no pair 1 ms before the boundary that the mirror expects (R317). -/
def execAsnPairMissing (s : State) : Host.Outcome State Fault Refusal :=
  s.onUnit 2 (fun d =>
    let x := d.asn.settle d.tick
    if x.next.isSome then d
    else
      let due := x.following d.tick
      let d := { d with asn := { x with missing := true } }
      d.toTick (due - msTicks 1))

/-! ### Requests, acknowledgements, wake trains, neighbours, counters (R312, R321, R324, R327, R328) -/

/-- A transmit request is refused with a status. -/
def Dev.mshRefuse (d : Dev) (st : Nat) (r : MTx) : Dev := (d.put MSH_STATUS.LAST_ERR st).mshStatus st r

/-- MSH_TX_REQUEST: the MAC takes the oldest item of its TXQ. An item of another type is dropped. -/
def execMshTxRequest (s : State) : Host.Outcome State Fault Refusal :=
  s.onUnit 7 (fun d =>
    let k := d.get MSH_Q.TXQ
    if k < 2 ∨ d.qEn k = false ∨ d.qCons k ≠ epMsh ∨ d.qReady k = false then d
    else
      let type := bitsOf (d.qHead k) 23 16
      let body := d.qBody k
      let d := d.qDrop k
      if type ≠ 0x41 then d
      else
        let w := fun n => body.getD n 0
        let n := bitsOf (w 1) 7 0
        let bytes := (List.range n).map (fun b => w (2 + b / 4) / 256 ^ (b % 4) % 256)
        let r : MTx := { dst := bitsOf (w 0) 31 16, tag := bitsOf (w 0) 15 8, ack := bitOf (w 0) 3 && bitsOf (w 0) 31 16 != 0xFFFF,
                         sf := bitsOf (w 0) 1 0, bytes := bytes }
        if d.mshState ≠ mshSync then d.mshRefuse stMshNotSync r
        else if (bitOf (w 0) 3 = true ∧ r.sf = 2) ∨ (if r.sf = 2 then 17 else 96) < n then d.mshRefuse stMshTooLong r
        else if d.fcGone then d.mshRefuse stMshFcExhaust r
        else d.setMsh { d.msh with txq := d.msh.txq ++ [r] })

/-- MSH_ACK_WINDOW_END: no acknowledgement came up to 1,200 µs after the frame's end (R310); it is retried at most three times (R311). -/
def execMshAckWindowEnd (s : State) : Host.Outcome State Fault Refusal :=
  s.onUnit 7 (fun d =>
    match d.msh.cur with
    | none => d
    | some r =>
      let d := d.toTick (d.msh.txEnd.getD 0 + usTicks 800 + usTicks 400)
      let d := d.setMsh { d.msh with cur := none }
      if 4 ≤ r.made then (d.inc MSH_CNT.CNT_HI 0 4).mshStatus stMshNoAck r
      else
        let n := Config.meshBackoff d.fresh
        let d := { d with fresh := d.fresh + 1 }
        d.setMsh { d.msh with txq := { r with wait := n } :: d.msh.txq })

/-- MSH_WAKE: a GO outside OFF while no train runs; in SCAN, where no link is active, the train starts at once. -/
def execMshWake (s : State) : Host.Outcome State Fault Refusal :=
  s.onIsland 7 .MSH_WAKE 0 (fun d =>
    if d.isSet MSH_WAKE.BUSY = true ∨ d.mshState = mshOff then d.put MSH_STATUS.LAST_ERR stMshBusy
    else
      let d := (d.put MSH_WAKE.BUSY 1).setMsh { d.msh with train := some { left := d.trainTicks } }
      if d.mshState = mshScan then d.trainGo else d)

/-- MSH_WAKE_DONE: the train ends, in the slot in which it has sent all of its ticks. -/
def execMshWakeDone (s : State) : Host.Outcome State Fault Refusal :=
  s.onUnit 7 (fun d =>
    match d.msh.train with
    | some { here := some t, left, .. } =>
      let fin := t + left
      if d.mshState = mshScan ∨ fin ≤ d.mshNext.2 then
        let d := ((d.setMsh { d.msh with train := none, txFrom := t, txEnd := some fin }).toTick fin).blank24 t fin
        (d.put MSH_WAKE.BUSY 0).publish evMshWakeDone
      else d
    | _ => d)

/-- NEIGHBOUR_EXPIRY: 300 s after the last authenticated frame of an entry that no link names (R321). The time parent's entry goes in
the same way; no time parent is present then (assumption: DESIGN CHOICE). -/
def execNeighbourExpiry (i : Fin 64) (s : State) : Host.Outcome State Fault Refusal :=
  s.onUnit 7 (fun d =>
    if d.nbrValid i.val && !d.nbrLinked i.val then
      let d := if d.parent = some i.val then d.put MSH_TSRC.CUR_V 0 else d
      (d.toTick ((d.nbrx i.val).heard + msTicks 300000)).nbrClear i.val
    else d)

/-- FC_MARK_RAISE: the counter, which start-up has resumed at the stored mark (step 4), has reached the mark less 32,768, and the Ranger
stores a mark higher by 65,536. -/
def execFcMarkRaise (s : State) : Host.Outcome State Fault Refusal :=
  if s.dev.rgr.down = false ∧ bitOf (s.dev.get SYS_STEP.DONE) 3 = true ∧ s.dev.live 7 = true ∧ s.dev.msh.mark ≤ s.dev.get MSH_FCOUT.FC + 32768 then
    let m := min 0xFFFFFFFF (s.nv.word ctrFcMark + 65536)
    .next { s with nv := s.nv.setWord ctrFcMark m, dev := s.dev.setMsh { s.dev.msh with mark := m } }
  else .next s

end Sys2Proof.Machine
end

