-- ==== Sys2Proof/Machine/SpareCmds.lean ====
section
/-! DEFINITION. The commands of automatic recalibration, of the spare chain and of the regulatory guard (R241 to R250, R260
to R267). -/

namespace Sys2Proof.Machine

/-! ### Automatic recalibration (R241) -/

/-- A planned takeover of chain `n` is asked for (R248): 0, or the refusal. US is raised from OFF, READY and a fall to READY that has
begun; from TRIP once its causes are cleared (`execTripClear`). -/
def Dev.askTake (d : Dev) (n : Nat) : Dev × Nat :=
  let faultNow := match d.spare.sw with
    | some w => w.take && !w.planned && w.start == d.tick
    | none => false
  if faultNow then (d, stTakeBlocked)
  else if d.usTaken || d.spare.waitTake.isSome || d.spare.waitRel.isSome then (d, stSpareBusy)
  else if 8 ≤ n ∨ bitOf (d.get UHFS_SPARE.ELIGIBLE) n = false ∨ (d.binder 8).isSome ∨ d.cst n = csTrip ∨ d.cst n = csOff ∨
      (d.calOf 8).isSome then (d, stTakeBlocked)
  else
    let d := { d with spare := { d.spare with waitTake := some (n, d.tick) } }
    let d := d.put UHFS_SPST.PHASE 1
    (d.chainGo 8 2 d.tick, 0)

/-- No automatic recalibration of chain `c` is deferred any more. -/
def Dev.undefer (d : Dev) (c : Nat) : Dev :=
  { d with spare := { d.spare with deferred := d.spare.deferred.filter (fun x => x.1 != c) } }

/-- The Ranger recalibrates a chain whose sensor has moved by DT: at once where it is available, behind the spare where it
may, else after 10 s. -/
def Dev.calAuto (d : Dev) (c : Nat) (temp : Int) : Dev :=
  let moved := (temp - signedOf 12 (d.get CAL_TDATA.VALUE 0 (trimIdx c kindTcal 0))).natAbs
  if d.isSet CAL_CTRL.AUTO = false ∨ moved < d.get CAL_CTRL.DT then d
  else if d.calAvailable 7 c then ((d.calBegin c 7 0 0).logWarn 0x1A c (Config.codeIn 0x03 0)).undefer c
  else if c < 8 ∧ d.isSet CAL_CTRL.VIA_SPARE = true ∧ bitOf (d.get UHFS_SPARE.ELIGIBLE) c = true ∧ d.usTaken = false ∧
      (d.binder 8).isNone = true then
    let r := d.askTake c
    if r.2 = 0 then ({ r.1 with spare := { r.1.spare with auto := some c } }.logWarn 0x1A c (Config.codeIn 0x03 0)).undefer c
    else r.1.calDefer c
  else d.calDefer c

/-- CAL_AUTO. -/
def execCalAuto (c : ChainNo) (temp : BitVec 12) (s : State) : Host.Outcome State Fault Refusal :=
  s.onUnit 2 (fun d => d.calAuto c.val temp.toInt)
/-- CAL_AUTO_RETRY: the same, 10 s after a deferral; nothing where none is held for the chain. -/
def execCalAutoRetry (c : ChainNo) (temp : BitVec 12) (s : State) : Host.Outcome State Fault Refusal :=
  s.onUnit 2 (fun d =>
    match d.spare.deferred.find? (fun x => x.1 == c.val) with
    | some (_, t) => ((d.toTick t).undefer c.val).calAuto c.val temp.toInt
    | none => d)

/-! ### The spare chain -/

/-- A write of UHFS_SPARE.READINESS (R242): 11 is ignored. -/
def execReadinessWrite (r : BitVec 2) (s : State) : Host.Outcome State Fault Refusal :=
  s.onIsland 2 .UHFS_SPARE 0 (fun d => if r = 3 then d else (d.put UHFS_SPARE.READINESS r.toNat).usByReadiness)

/-- SPARE_DC_RERUN (R243). -/
def execSpareDcRerun (o : CalObs) (s : State) : Host.Outcome State Fault Refusal :=
  s.onUnit 2 (fun d => if d.dcMayRun then (d.usDcPass o).1 else d)

/-- SPARE_DC_AGED: US's DC trims pass 200 ms; RDY reads 0 at HOT from here (R243). -/
def execSpareDcAged (s : State) : Host.Outcome State Fault Refusal :=
  s.onUnit 2 (fun d => match d.spare.dcTick with | some t => d.toTick (t + msTicks 200 + 1) | none => d)

/-- SPARE_SWITCH_SETTLED (R246 step 4, R248, R249). -/
def execSpareSwitchSettled (s : State) : Host.Outcome State Fault Refusal :=
  s.onUnit 2 (fun d => match d.spare.sw with
    | some w => ((d.toTick w.settled).chainSettle (if w.take then 8 else w.fe)).spareTry.resumeHeld
    | none => d)

/-- SPARE_DC_PASS_DONE (R247): a failed window leaves the previous trims in use, DCSTALE set. The same pass raises US for a
planned takeover (R248). -/
def execSpareDcPassDone (o : CalObs) (s : State) : Host.Outcome State Fault Refusal :=
  s.onUnit 2 (fun d =>
    match d.spare.sw with
    | some w =>
      match w.dcDue with
      | some t =>
        if w.needDc then
          let r := (d.toTick t).usDcPass o
          let d := if r.2 then r.1 else r.1.put UHFS_SPST.DCSTALE 1
          ({ d with spare := { d.spare with sw := some { w with needDc := false } } }.spareTry).resumeHeld
        else d
      | none => d
    | none => if d.dcMayRun then (d.usDcPass o).1 else d)

/-- A write of UHFS_TAKE with GO (R248, R251). -/
def aloneTakeGo (chain : BitVec 4) (s : State) : Host.Outcome State Fault Refusal :=
  s.onIsland 2 .UHFS_TAKE 0 (fun d => let r := d.askTake chain.toNat; if r.2 = 0 then r.1 else r.1.takeErr r.2)

/-- A write of UHFS_TAKE with RELEASE (R249). -/
def execTakeRelease (s : State) : Host.Outcome State Fault Refusal :=
  s.onIsland 2 .UHFS_TAKE 0 (fun d => let r := d.askRelease; if r.2 = 0 then r.1 else r.1.takeErr r.2)

/-- PLANNED_SWITCH (R248 stage 2): in the first tick at which chain n's gate is closed and US is ready. -/
def alonePlannedSwitch (s : State) : Host.Outcome State Fault Refusal :=
  s.onUnit 2 (fun d =>
    match d.spare.waitTake with
    | some (n, _) =>
      let d := (d.chainSettle n).chainSettle 8
      if d.gate n || d.gate 8 || !d.usHot then d
      else
        let t := d.tick
        let d := (d.calAbort n).calAbort 8
        let d := d.takeCut n
        let w : Switch :=
          { fe := n, take := true, restore := false, planned := true, hadCarrier := false, start := t, selAt := t,
            settled := t + 16 * d.get UHFS_SPARE.SW_SETTLE, dcDue := none, needDc := false, t4 := none, launched := false }
        let d := { d with spare := { d.spare with sw := some w, waitTake := none } }.setAttached (some n) t
        let d := d.setCh 8 { d.chx 8 with rxSince := (d.chx 8).rxSince.map (fun _ => w.settled) }
        ((d.put UHFS_SPARE.ATTACHED n).put UHFS_SPST.LASTCH n).put UHFS_SPST.PHASE 2
    | none => d)

/-- RELEASE_SWITCH (R249): in the first tick at which US's gate is closed and chain n is in RX. -/
def aloneReleaseSwitch (s : State) : Host.Outcome State Fault Refusal :=
  s.onUnit 2 (fun d =>
    match d.spare.waitRel, d.attached with
    | some _, some n =>
      let d := (d.chainSettle n).chainSettle 8
      if d.gate 8 || d.gate n || !d.inRx n then d
      else
        let t := d.tick
        let d := (d.calAbort n).calAbort 8
        let d := d.takeCut n
        let w : Switch :=
          { fe := n, take := false, restore := false, planned := true, hadCarrier := false, start := t, selAt := t,
            settled := t + 16 * d.get UHFS_SPARE.SW_SETTLE, dcDue := none, needDc := false, t4 := none, launched := false }
        let d := { d with spare := { d.spare with sw := some w, waitRel := none } }.setAttached none t
        d.setCh n { d.chx n with rxSince := (d.chx n).rxSince.map (fun _ => w.settled) }
    | _, _ => d)

/-- TAKE_TIMEOUT: a planned takeover or release that has not switched within 1 s (R248, R249). -/
def execTakeTimeout (s : State) : Host.Outcome State Fault Refusal :=
  s.onUnit 2 (fun d =>
    match d.spare.waitTake, d.spare.waitRel with
    | some (n, t), _ =>
      let d := (d.toTick (t + msTicks 1000)).takeErr stTakeTimeout
      let d := if d.spare.auto.isSome then d.calDefer n else d
      let d := { d with spare := { d.spare with waitTake := none, auto := none } }
      (d.put UHFS_SPST.PHASE 0).usByReadiness
    | none, some t =>
      let d := (d.toTick (t + msTicks 1000)).takeErr stTakeTimeout
      { d with spare := { d.spare with waitRel := none } }.put UHFS_SPST.PHASE 3
    | none, none => d)

/-! ### The regulatory guard in a carrier (R260, R262, R266, R267) -/

/-- The guard ends the carrier of electronics `c` from tick `t` over `len` ticks (R260); one that ramps down already has its
gate closed by then, and ends by the guard where that is earlier than its own end. The reason is recorded, the event
published and the Vat told once the gate is closed (`Dev.guardClosed`); a carrier that a switch-over had restored ends for the
accounts then too (R261). A calibration's carrier ends its run with RGU_REFUSED. -/
def Dev.endByGuard (d : Dev) (c reason t len : Nat) : Dev :=
  let d := d.toTick t
  let on := d.carrierOn c
  if on = false ∧ (d.cst c ≠ csDown ∨ (d.chx c).due ≤ t + len) then d
  else
    let d := if on then d.rampDownOver c t len else d
    let d := d.setCh c { d.chx c with guarded := some ((d.chx c).guarded.getD reason), due := t + len }
    let d := match d.calOf c with
      | some r => if r.op = 6 ∧ r.stage ≠ 2 then d.setCal c { r with stage := 2, res := stRguRefused } else d
      | none => d
    match d.spare.sw with
    | some w => if w.launched ∧ c = (if w.take then 8 else w.fe) then (d.closeSwitch w 0xFFFF).resumeHeld else d
    | none => d

/-- A carrier is on electronics `c` for the guard: the TX gate is open, and not for the ramp of a trip (R261). -/
def Dev.onAir (d : Dev) (c : Nat) : Bool := decide (csUp ≤ d.cst c) && decide (d.cst c ≤ csDown)

/-- The trip ramp (R260). -/
def tripRamp : Nat := 154

/-- The next opening of a slot-edge guard at or after tick `t`. -/
def AsnX.guardOpens (x : AsnX) (t g : Nat) : Nat :=
  if x.inGuard t g then t else x.following t - g

/-- The tick at which the counted occupancy of front end `n` on channel `c` reaches OCC_MAX if its carrier stays on from tick `t`
(R260, R262): in the sub-window of `t`, or in one of the next, where older ones no longer count. -/
def Dev.occLimit (d : Dev) (n c t : Nat) : Nat → Option Nat
  | 0 => none
  | k + 1 =>
    let l := t + (msTicks (bitsOf (d.hdr 3) 15 0) - d.occupancy n c t)
    let b := (t / d.occLen + 1) * d.occLen
    if l < b then some l else d.occLimit n c b k

/-- The running limits of front end `n` that are known at tick `t`: reason and limit tick (table "Running limits"). -/
def Dev.limits (d : Dev) (n t : Nat) : List (Nat × Nat) :=
  let max' := msTicks (bitsOf (d.hdr 2) 31 16)
  let ch := (d.fex n).ch
  let dwell := [(5, t + (max' - d.onTime n t))]
  let occ := if bitOf (d.hdr 1) 25 && d.occLen != 0 then
      match d.occLimit n ch t 18 with
      | some l => [(9, l)]
      | none => []
    else []
  let slot := if bitOf (d.get RGU_SLOT.FE) n then [(10, d.asn.guardOpens t d.slotGuard)] else []
  dwell ++ occ ++ slot

/-- The earliest of a list of limits, the first of equal ones. -/
def firstLimit : List (Nat × Nat) → Option (Nat × Nat)
  | [] => none
  | x :: xs => match firstLimit xs with
    | some y => if y.2 < x.2 then some y else some x
    | none => some x

/-- RGU_LIMIT_END: the next running limit of a front end's carrier. The ramp-down begins RAMP_DN ticks before the limit;
a slot-edge guard known less than that ahead is met with the trip ramp. -/
def aloneRguLimitEnd (fe : Fin 8) (s : State) : Host.Outcome State Fault Refusal :=
  s.onUnit 2 (fun d =>
    let c := d.carrierOf fe.val
    let t := d.tick
    if d.carrierOn c then
      match firstLimit (d.limits fe.val t) with
      | some (reason, l) =>
        let dn := d.get UHF_RAMP.RAMP_DN (d.cfg c)
        if reason = 10 ∧ l < t + dn then d.endByGuard c reason (max t (l - tripRamp)) tripRamp
        else d.endByGuard c reason (max t (l - dn)) dn
      | none => d
    else if d.cst c = csDown then
      match (d.limits fe.val t).find? (fun l => l.1 == 10) with
      | some (_, l) => d.endByGuard c 10 (max t (l - tripRamp)) tripRamp
      | none => d
    else d)

/-- OVERPOWER: the forward reading has stayed above SETPT_MAX + 1.0 dB for 20 µs. -/
def aloneOverpower (fe : Fin 8) (fwd : BitVec 12) (s : State) : Host.Outcome State Fault Refusal :=
  s.onUnit 2 (fun d =>
    let n := fe.val
    let c := d.carrierOf n
    let d := (d.put UHF_DET.FWD fwd.toNat n).setCh n { d.chx n with detAt := d.tick * 10 / 1536 + 1 }
    if d.onAir c && decide (d.setptMax (d.fex n).ch n (d.get UHF_ANT.PORT (d.cfg c)) + 10 < fwd.toInt) then
      d.endByGuard c 11 d.tick tripRamp
    else d)

/-- OCC_SUBWINDOW: the next sub-window of the occupancy account begins; intervals that no span reaches any more are
dropped. -/
def execOccSubwindow (s : State) : Host.Outcome State Fault Refusal :=
  s.onUnit 2 (fun d =>
    let w := d.occLen
    if w = 0 then d
    else
      let d := d.toTick ((d.tick / w + 1) * w)
      let lo := (d.tick / w - 16) * w
      (List.range 8).foldl (fun d n =>
        let x := d.fex n
        d.setFe n { x with past := x.past.filter (fun r => decide (lo < r.upto)) }) d)

/-- RGU_DESYNC (R267): unsynchronised mode; carriers inside a widened guard or on a channel outside UNSYNC_MASK end. It applies
to a CARRY that launches in the tick (R268). -/
def aloneRguDesync (s : State) : Host.Outcome State Fault Refusal :=
  s.onUnit 2 (fun d =>
    let vs := d.launchers
    let d := (d.unlaunchs chainIds).put RGU_STATUS.DESYNC 1
    let t := d.tick
    let d := chainIds.foldl (fun d c =>
      if d.onAir c then
        let slot := match d.feOf c with
          | some n => bitOf (d.get RGU_SLOT.FE) n && d.asn.inGuard t d.slotGuard
          | none => false
        let outside := match d.chanOf (d.get SYN_F_FREQ.FREQ_KHZ (d.synOf c)) with
          | some ch => !d.unsyncOk ch
          | none => true
        if slot then d.endByGuard c 10 t tripRamp else if outside then d.endByGuard c 2 t tripRamp else d
      else d) d
    d.relaunch vs)

/-- RGU_RESYNC (R267): at the first slot boundary after the MAC reports synchronised time. -/
def execRguResync (s : State) : Host.Outcome State Fault Refusal :=
  s.onUnit 2 (fun d =>
    if d.isSet RGU_STATUS.DESYNC && d.meshSync then
      (d.toTick (d.asn.following d.tick)).put RGU_STATUS.DESYNC 0
    else d)

end Sys2Proof.Machine
end

