-- ==== Sys2Proof/Machine/Ranger.lean ====
section
/-! DEFINITION. The Ranger: stores and staging, calibration capture and restore, regulatory selection, keys, firmware,
attestation, life-cycle, the random generator, the log's window, and its restart (R238 to R240, R255 to R265, R399 to
R423). -/

namespace Sys2Proof.Machine

/-! ### INFO, staging (R403, R406) -/

/-- The offset of a firmware slot. -/
def fwBase (slot : Nat) : Nat := if slot = 0 then 0 else 0x60000
/-- VERSION of a firmware slot. -/ def Nv.fwVersion (n : Nv) (slot : Nat) : Nat := n.word (fwBase slot + 0x0C)
/-- SVN of a firmware slot. -/ def Nv.fwSvn (n : Nv) (slot : Nat) : Nat := n.word (fwBase slot + 0x08)
/-- ROLLBACK. -/ def Nv.rollback (n : Nv) : Nat := n.word ctrRollback
/-- The running slot. -/ def Dev.fwRunning (d : Dev) : Nat := d.get NVM_BOOT.RUNNING

/-- The words of the serial number. -/
def Nv.serialWord (n : Nv) (k : Nat) : Nat := n.serial / 2 ^ (32 * k) % 2 ^ 32

/-- INFO. -/
def execInfo (s : State) : Host.Outcome State Fault Refusal :=
  s.serve 0x01 (fun a => a.isEmpty) (fun s tag _ =>
    let n := s.nv
    { s with dev := s.dev.respond 0x01 tag 0 ([s.dev.lcs] ++ (List.range 4).map n.serialWord ++
        [s.dev.fwRunning, n.fwVersion 0, n.fwSvn 0, n.fwVersion 1, n.fwSvn 1, n.rollback]) })

/-- The refusal that a region's writing meets in the present life-cycle state, 0 where none (R264, table "MRAM layout"). -/
def Dev.regionDenied (d : Dev) (region : Nat) : Nat :=
  if region = 4 then stLcsDenied else if region = 3 ∧ 2 ≤ d.lcs then stRguStoreLocked else 0

/-- A refused staging command; a locked regulatory store is logged. -/
def Dev.stageRefuse (d : Dev) (type tag st : Nat) : Dev :=
  let d := if st = stRguStoreLocked then d.logRefusal 0x27 3 st else d
  d.nvmRefuse type tag st

/-- STAGE_OPEN: region. -/
def execStageOpen (s : State) : Host.Outcome State Fault Refusal :=
  s.serve 0x10 (fun a => a.length == 1 && decide (arg a 0 < 5)) (fun s tag a =>
    let d := s.dev
    let r := arg a 0
    let st := d.regionDenied r
    if st ≠ 0 then { s with dev := d.stageRefuse 0x10 tag st }
    else if d.rgr.stage ≠ none ∧ d.rgr.stage ≠ some r then { s with dev := d.stageRefuse 0x10 tag stNvmBusy }
    else { s with nv := s.nv.stageOpen r, dev := ((d.openRegion (some r)).nvmWrites (slotSize r)).respond 0x10 tag 0 })

/-- STAGE_WRITE: region, byte offset, 1 to 252 words. -/
def execStageWrite (s : State) : Host.Outcome State Fault Refusal :=
  s.serve 0x11 (fun a => decide (3 ≤ a.length ∧ a.length ≤ 254) && decide (arg a 0 < 5)) (fun s tag a =>
    let d := s.dev
    let r := arg a 0
    let off := arg a 1
    let ws := a.drop 2
    let st := d.regionDenied r
    if st ≠ 0 then { s with dev := d.stageRefuse 0x11 tag st }
    else if d.rgr.stage ≠ some r then { s with dev := d.stageRefuse 0x11 tag stNvmNotStaged }
    else if off % 4 ≠ 0 ∨ slotSize r - 4 < off + 4 * ws.length then { s with dev := d.stageRefuse 0x11 tag stNvmRange }
    else
      { s with nv := s.nv.setWords (slotBase r (s.nv.target r) + off) ws,
               dev := (d.nvmWrites (4 * ws.length)).respond 0x11 tag 0 })

/-! ### The regulatory store (R255 to R258, R263, R265) -/

/-- The regulatory store in force: its current slot with a header that matches the device. -/
def Nv.rguStore (n : Nv) : Option Nat :=
  (n.currentBase 3).filter (fun b =>
    n.word b % 65536 == 1 && (n.byte (b + 2)).toNat == 0x21 && n.bytes (b + 8) 16 == n.serialBytes)

/-- Word `k` of the header of profile `p` in the store at `b`. -/
def Nv.profWord (n : Nv) (b p k : Nat) : Nat := n.word (b + 0x240 + 960 * p + 4 * k)

/-- Profile `p` is usable (R256). -/
def Nv.usable (n : Nv) (p : Nat) : Bool :=
  match n.rguStore with
  | some b =>
    let w := n.profWord b p 0
    bitOf w 31 && decide (1 ≤ bitsOf w 23 16 ∧ bitsOf w 23 16 ≤ 64) && bitOf (n.word (b + 4) % 65536) p
  | none => false

/-- The mask of the usable profiles. -/
def Nv.usableMask (n : Nv) : Nat := (((List.range 16).filter n.usable).map (fun p => 2 ^ p)).sum

/-- A running carrier fails check 2, 3 or 4 of the launch checks (R260, PROFILE). -/
def Dev.profileFails (d : Dev) (c : Nat) : Bool :=
  match d.chanCheck (d.get SYN_F_FREQ.FREQ_KHZ (d.synOf c)) with
  | none => true
  | some chn =>
    match d.feOf c with
    | none => false
    | some n =>
      let port := d.get UHF_ANT.PORT (d.cfg c)
      !bitOf (d.antenna n port) 31 || decide (d.setptMax chn n port < (d.get UHF_PWR.SETPT (d.cfg c) : Int))

/-- Profile `p` of the store becomes active at the present tick (R263, R265): the accounts are charged, and carriers that
the new profile does not permit end. A carrier that launches in the tick is checked under it (R268). -/
def Dev.activate (d : Dev) (n : Nv) (p : Nat) : Dev :=
  match n.rguStore with
  | none => d
  | some b =>
    let vs := d.launchers
    let d := d.unlaunchs chainIds
    let ent := b + 0x240 + 960 * p + 64
    let d := { d with rgu := {
      since := d.tick
      hdr := (List.range 16).map (n.profWord b p)
      chan := (List.range 64).map (fun c => (n.word (ent + 8 * c), n.word (ent + 8 * c + 4)))
      ant := ((List.range 128).map (fun k => (k, n.word (b + 0x40 + 4 * k)))).filter (fun e => e.2 != 0) } }
    let d := ((d.put RGU_ACTIVE.VALID 1).put RGU_ACTIVE.PROF p).put RGU_ACTIVE.PERMIT n.usableMask
    let d := (List.range 8).foldl (fun d k =>
      let x := { d.fex k with past := [], prevCh := none, ended := [] }
      let chn := d.chanOf (d.get SYN_F_FREQ.FREQ_KHZ (d.get UHF_CTRL.SYN_SEL k))
      d.setFe k (if x.live then { x with ch := chn.getD x.ch, known := chn.isSome } else x)) d
    let t := d.tick
    let d := chainIds.foldl (fun d c => if d.onAir c && d.profileFails c then d.endByGuard c 12 t tripRamp else d) d
    (d.relaunch vs).publish evRguProfile

/-- A store's 64-byte header as the Ranger writes it: format, STEP, serial number (R238, R407). Its places follow the
regulatory store's (assumption: DESIGN CHOICE). -/
def Nv.storeHeader (n : Nv) : List Byte := [1, 0, 0x21, 0, 0, 0, 0, 0] ++ n.serialBytes

/-- A selection recorded in the configuration store by a commit of its own (R265, R407). -/
def Nv.persist (n : Nv) (p : Nat) : Nv :=
  let t := n.target 2
  let b := slotBase 2 t
  let empty := (n.current 2).isNone
  let n := n.stageOpen 2
  let n := if empty then n.setBytes b n.storeHeader else n
  (n.setWord (b + 0x40) (0x80000000 + p)).store 2 t

/-- RGU_SELECT: profile, PERSIST. A recorded selection needs the configuration store free (assumption: DESIGN CHOICE). -/
def execRguSelect (s : State) : Host.Outcome State Fault Refusal :=
  s.serve 0x30 (fun a => a.length == 1) (fun s tag a =>
    let p := bitsOf (arg a 0) 3 0
    let keep := bitOf (arg a 0) 8
    if s.nv.usable p = false then
      { s with dev := (s.dev.put RGU_STATUS.LAST_ERR stRguNotPermitted).respond 0x30 tag stRguNotPermitted }
    else if keep && s.dev.rgr.stage.isSome then { s with dev := s.dev.nvmRefuse 0x30 tag stNvmBusy }
    else { s with nv := if keep then s.nv.persist p else s.nv, dev := (s.dev.activate s.nv p).respond 0x30 tag 0 })

/-- The selection at start-up (R265): the recorded one when usable, else DEFAULT of a matching store, else none. -/
def Nv.startProfile (n : Nv) : Option Nat :=
  let rec' := match n.currentBase 2 with
    | some b => if bitOf (n.word (b + 0x40)) 31 then some (bitsOf (n.word (b + 0x40)) 3 0) else none
    | none => none
  let dflt := n.rguStore.map (fun b => (n.byte (b + 3)).toNat)
  match rec'.filter n.usable with
  | some p => some p
  | none => dflt.filter (fun p => decide (p < 16) && n.usable p)

/-- STORE: region; the new generation (R406). What is stored in the regulatory region changes the usable profiles. -/
def execStore (s : State) : Host.Outcome State Fault Refusal :=
  s.serve 0x12 (fun a => a.length == 1 && decide (arg a 0 < 5)) (fun s tag a =>
    let d := s.dev
    let r := arg a 0
    let st := d.regionDenied r
    if st ≠ 0 then { s with dev := d.stageRefuse 0x12 tag st }
    else if d.rgr.stage ≠ some r then { s with dev := d.stageRefuse 0x12 tag stNvmNotStaged }
    else
      let t := s.nv.target r
      let n := s.nv.store r t
      let d := (d.openRegion none).nvmWrites 4
      let d := if r = 3 then d.put RGU_ACTIVE.PERMIT n.usableMask else d
      { s with nv := n, dev := d.respond 0x12 tag 0 [n.gen r t] })

/-- STAGE_DISCARD: region. -/
def execStageDiscard (s : State) : Host.Outcome State Fault Refusal :=
  s.serve 0x13 (fun a => a.length == 1 && decide (arg a 0 < 5)) (fun s tag a =>
    let d := s.dev
    if d.rgr.stage ≠ some (arg a 0) then { s with dev := d.stageRefuse 0x13 tag stNvmNotStaged }
    else { s with dev := (d.openRegion none).respond 0x13 tag 0 })

/-! ### The calibration store (R238 to R240) -/

/-- The trims of a unit with their widths, in the order of the table "Trim kinds". -/
def unitTrims (unit : Nat) : List (Nat × Nat × Nat) :=
  if unit ≤ 8 then
    (List.range 15).map (fun s => (1, s, 10)) ++ (List.range 15).map (fun s => (2, s, 10)) ++
      [(3, 0, 8), (4, 0, 8), (5, 0, 8), (6, 0, 8), (7, 0, 10), (8, 0, 10), (9, 0, 6), (0x3F, 0, 12)]
  else if unit ≤ 12 then [(0x10, 0, 6), (0x11, 0, 8), (0x3F, 0, 12)]
  else if unit = 13 then [(0x20, 0, 8), (0x21, 0, 12), (0x3F, 0, 12)]
  else []

/-- Where each trim lies in the unit's 64 bytes: VALID and then the value, packed without gaps from bit 0 (assumption: DESIGN
CHOICE; the spec does not lay the 64 bytes out). -/
def trimPlaces : Nat → List (Nat × Nat × Nat) → List (Nat × Nat × Nat × Nat)
  | _, [] => []
  | off, (k, s, w) :: ts => (k, s, w, off) :: trimPlaces (off + w + 1) ts

/-- The 64 bytes of a unit's trims. -/
def Dev.trimBytes (d : Dev) (unit : Nat) : List Byte :=
  let v := ((trimPlaces 0 (unitTrims unit)).map (fun (k, s, w, off) =>
    let j := trimIdx unit k s
    (d.get CAL_TDATA.VALID 0 j + 2 * (d.get CAL_TDATA.VALUE 0 j % 2 ^ w)) * 2 ^ off)).sum
  (List.range 64).map (fun b => BitVec.ofNat 8 (v / 256 ^ b))

/-- A unit's trims put back from its 64 bytes. -/
def Dev.trimRestore (d : Dev) (unit : Nat) (bs : List Byte) : Dev :=
  let v := ((List.range 64).map (fun b => (bs.getD b 0).toNat * 256 ^ b)).sum
  (trimPlaces 0 (unitTrims unit)).foldl (fun d (k, s, w, off) =>
    let j := trimIdx unit k s
    (d.put CAL_TDATA.VALID (v / 2 ^ off) 0 j).put CAL_TDATA.VALUE (trimValue k (v / 2 ^ (off + 1) % 2 ^ w)) 0 j) d

/-- The place of entry `e` of trim-cache bank `k` (R238): register unit and index. -/
def bankPlace (k e : Nat) : Nat × Nat := if k < 8 then (k, e) else (8, (k - 8) * 128 + e)

/-- A trim-cache entry in the layout of UHFn_LKC_CDATA. -/
def Dev.cacheWord (d : Dev) (i j : Nat) : Nat :=
  d.get UHF_LKC_CDATA.VALID i j * 2 ^ 31 + d.get UHF_LKC_CDATA.C_I i j * 2 ^ 16 + d.get UHF_LKC_CDATA.C_Q i j

/-- What CAL_CAPTURE writes into the calibration slot at `b` (R238, R240). -/
def Nv.capture (n : Nv) (b : Nat) (d : Dev) : Nv :=
  let temp := d.sensorTemp 11
  let hdr := n.storeHeader ++ (List.range 8).map (fun k => BitVec.ofNat 8 (d.tick / 256 ^ k)) ++
    [BitVec.ofNat 8 temp, BitVec.ofNat 8 (temp / 256)]
  let n := n.setBytes b hdr
  let n := (List.range 15).foldl (fun n u => n.setBytes (b + 0x40 + 64 * u) (d.trimBytes u)) n
  let n := (List.range 16).foldl (fun n k => (List.range 128).foldl (fun n e =>
    n.setWord (b + 0x440 + 512 * k + 4 * e) (d.cacheWord (bankPlace k e).1 (bankPlace k e).2)) n) n
  (List.range 2048).foldl (fun n e =>
    let v := d.get BRG_PODATA.VALID 0 e * 2 ^ 23 + d.get BRG_PODATA.TX_OFF 0 e * 2 ^ 10 + d.get BRG_PODATA.RX_OFF 0 e
    n.setBytes (b + 0x2440 + 3 * e) [BitVec.ofNat 8 v, BitVec.ofNat 8 (v / 256), BitVec.ofNat 8 (v / 65536)]) n

/-- The restore at start-up (R239): units, caches and offset table from the current slot, when its STEP and serial number
match the device; a mismatch is logged. The age of US's DC trims counts from it (R243). -/
def Dev.calRestore (d : Dev) (n : Nv) : Dev :=
  match n.currentBase 1 with
  | none => d
  | some b =>
    if (n.byte (b + 2)).toNat == 0x21 && n.bytes (b + 8) 16 == n.serialBytes then
      let d := (List.range 15).foldl (fun d u => d.trimRestore u (n.bytes (b + 0x40 + 64 * u) 64)) d
      let d := { d with spare := { d.spare with dcTick := some d.tick } }
      let d := (List.range 16).foldl (fun d k => (List.range 128).foldl (fun d e =>
        let w := n.word (b + 0x440 + 512 * k + 4 * e)
        let (i, j) := bankPlace k e
        ((d.put UHF_LKC_CDATA.VALID (w / 2 ^ 31) i j).put UHF_LKC_CDATA.C_I (w / 2 ^ 16) i j).put UHF_LKC_CDATA.C_Q w i j) d) d
      (List.range 2048).foldl (fun d e =>
        let v := (n.byte (b + 0x2440 + 3 * e)).toNat + 256 * ((n.byte (b + 0x2441 + 3 * e)).toNat +
          256 * (n.byte (b + 0x2442 + 3 * e)).toNat)
        ((d.put BRG_PODATA.VALID (v / 2 ^ 23) 0 e).put BRG_PODATA.TX_OFF (v / 2 ^ 10) 0 e).put BRG_PODATA.RX_OFF v 0 e) d
    else d.logWarn 0x27 1 (Config.codeIn 0x07 30)

/-- CAL_CAPTURE: the calibration region is opened if it is not, and takes the present calibration. -/
def execCalCapture (s : State) : Host.Outcome State Fault Refusal :=
  s.serve 0x14 (fun a => a.isEmpty) (fun s tag _ =>
    let d := s.dev
    if d.rgr.stage ≠ none ∧ d.rgr.stage ≠ some 1 then { s with dev := d.stageRefuse 0x14 tag stNvmBusy }
    else
      let n := if d.rgr.stage = none then s.nv.stageOpen 1 else s.nv
      { s with nv := n.capture (slotBase 1 (n.target 1)) d, dev := ((d.openRegion (some 1)).nvmWrites (slotSize 1)).respond 0x14 tag 0 })

/-! ### Keys (R403, R409) -/

/-- The entries of the key store with a key put in. -/
def Nv.withKey (n : Nv) (id : Nat) (key : List Byte) : List (Nat × List Byte) :=
  (n.keys.filter (fun e => e.1 != id)) ++ [(id, key)]

/-- The entries of the key store replaced by its own two-slot commit: the slot that is not current takes the next generation with
them, and the other keeps what was current (R406, R409). -/
def Nv.keyCommit (n : Nv) (keys : List (Nat × List Byte)) : Nv :=
  let g := match n.current 4 with
    | some c => n.gen 4 c + 1
    | none => 1
  { n.setWord (ctrGen 4 (n.target 4)) g with keys := keys, keysWas := n.keys }

/-- The length of a key of each kind that KEY_SET writes: public keys 133 bytes, mesh keys 16. -/
def keyLength (id : Nat) : Option Nat :=
  if 1 ≤ id ∧ id ≤ 9 then some 133 else if 16 ≤ id ∧ id ≤ 19 then some 16 else none

/-- MSH_KEY: key index, NEWADDR. A key that the store does not hold ends with MBX_ARGS, and EPOCH, which is never written with a
smaller value (R407), stays at its largest (assumptions: DESIGN CHOICE). -/
def execMshKey (s : State) : Host.Outcome State Fault Refusal :=
  s.serve 0x38 (fun a => a.length == 1 && decide (1 ≤ bitsOf (arg a 0) 2 0 ∧ bitsOf (arg a 0) 2 0 ≤ 4)) (fun s tag a =>
    let i := bitsOf (arg a 0) 2 0
    let d := s.dev
    if (s.nv.key (15 + i)).isNone then { s with dev := d.respond 0x38 tag stMbxArgs }
    else
      let d := d.put MSH_KEYST.LOADED (Nat.lor (d.get MSH_KEYST.LOADED) (2 ^ (i - 1)))
      if bitOf (arg a 0) 8 then
        let e := min (s.nv.word ctrEpoch + 1) 0xFFFFFFFF
        let addr := (Config.meshAddress s.nv.serialBytes e).toNat
        let d := ((d.put MSH_EXT_LO.EXT_LO addr).put MSH_EXT_HI.EXT_HI (addr / 2 ^ 32)).put MSH_FCOUT.FC 0
        { s with nv := (s.nv.setWord ctrEpoch e).setWord ctrFcMark 0,
                 dev := (d.setMsh { d.msh with mark := 0 }).respond 0x38 tag 0 }
      else { s with dev := d.respond 0x38 tag 0 })

/-- KEY_SET: KEY_ID, length, address of the key, and in FIELD of the OWNER signature over KEY_ID, length and key. -/
def execKeySet (s : State) : Host.Outcome State Fault Refusal :=
  s.serve 0x39 (fun a =>
      a.length == (if s.dev.lcs = 2 then 4 else 3) && keyLength (arg a 0) == some (arg a 1) && sramOk (arg a 2) (arg a 1) &&
        (s.dev.lcs != 2 || sramOk (arg a 3) 136)) (fun s tag a =>
    let d := s.dev
    let key := d.bytes (arg a 2) (arg a 1)
    let signed := match s.nv.key 9 with
      | some owner => p521Verify owner (wordBytes (arg a 0) ++ wordBytes (arg a 1) ++ key) (d.bytes (arg a 3) 136)
      | none => false
    if d.lcs = 2 ∧ signed = false then { s with dev := d.nvmRefuse 0x39 tag stNvmSigFail }
    else if d.rgr.stage.isSome then { s with dev := d.nvmRefuse 0x39 tag stNvmBusy }
    else { s with nv := s.nv.keyCommit (s.nv.withKey (arg a 0) key), dev := (d.nvmWrites (slotSize 4)).respond 0x39 tag 0 })

/-! ### Firmware (R410 to R412) -/

/-- The header of a firmware slot is valid but for what R411 names apart: MAGIC, FMT, STEP, reserved bytes, LENGTH, DIGEST. An image
has a trailer whether signed or not (R410). -/
def Nv.fwFormat (n : Nv) (slot : Nat) : Bool :=
  let b := fwBase slot
  let len := n.word (b + 0x10)
  let zero (a k : Nat) : Bool := (List.range k).all (fun i => n.byte (b + a + i) == 0)
  n.word b == 0x57464752 && bitsOf (n.word (b + 4)) 15 0 == 1 && bitsOf (n.word (b + 4)) 23 16 == 0x21 &&
    bitsOf (n.word (b + 4)) 31 25 == 0 && zero 0x18 0x28 && zero 0xC5 0x3B && zero 0x140 0xC0 &&
    decide (512 + len + 136 ≤ 393216) &&
    n.bytes (b + 0x100) 64 == sha512Bytes (n.bytes (b + 0x200) len)

/-- The signature of a firmware slot verifies with the vendor root key (R408, R411). In MANUFACTURE it is not asked for. -/
def Nv.fwSigned (n : Nv) (lcs slot : Nat) : Bool :=
  let b := fwBase slot
  let vkey := n.bytes (b + 0x40) 133
  lcs == 0 || (bitOf (n.word (b + 4)) 24 && sha512Bytes vkey == n.rootDigest &&
    p521Verify vkey (n.bytes b 0x200) (n.bytes (b + 0x200 + n.word (b + 0x10)) 136))

/-- A slot is bootable (R411). -/
def Nv.bootable (n : Nv) (lcs slot : Nat) : Bool :=
  n.fwFormat slot && decide (n.rollback ≤ n.fwSvn slot) && n.fwSigned lcs slot

/-- FW_WRITE: byte offset in the slot that is not running, address, length. -/
def execFwWrite (s : State) : Host.Outcome State Fault Refusal :=
  s.serve 0x40 (fun a => a.length == 3 && sramOk (arg a 1) (arg a 2) && decide (0 < arg a 2)) (fun s tag a =>
    let d := s.dev
    let slot := 1 - d.fwRunning
    if arg a 0 % 4 ≠ 0 ∨ 393216 < arg a 0 + arg a 2 then { s with dev := d.nvmRefuse 0x40 tag stNvmRange }
    else { s with nv := s.nv.setBytes (fwBase slot + arg a 0) (d.bytes (arg a 1) (arg a 2)), dev := (d.nvmWrites (arg a 2)).respond 0x40 tag 0 })

/-- FW_ACTIVATE: the slot is checked; accepted, the response is posted, BOOT takes the slot on trial, and the Ranger resets
its island. -/
def execFwActivate (s : State) : Host.Outcome State Fault Refusal :=
  s.serve 0x41 (fun a => a.isEmpty) (fun s tag _ =>
    let d := s.dev
    let slot := 1 - d.fwRunning
    if s.nv.fwFormat slot = false then { s with dev := d.nvmRefuse 0x41 tag stFwFormat }
    else if s.nv.fwSvn slot < s.nv.rollback then { s with dev := d.nvmRefuse 0x41 tag stNvmRollback }
    else if s.nv.fwSigned d.lcs slot = false then { s with dev := d.nvmRefuse 0x41 tag stNvmSigFail }
    else { s with nv := s.nv.setWord ctrBoot (slot + 2), dev := (d.respond 0x41 tag 0).rgrReset 1 })

/-- FW_CONFIRM: ends a trial and raises ROLLBACK; the answer is ROLLBACK. -/
def execFwConfirm (s : State) : Host.Outcome State Fault Refusal :=
  s.serve 0x42 (fun a => a.isEmpty) (fun s tag _ =>
    let d := s.dev
    let boot := s.nv.word ctrBoot
    if bitOf boot 1 then
      let svn := s.nv.fwSvn d.fwRunning
      let n := s.nv.setWord ctrBoot (boot - 2)
      let n := if n.rollback < svn then n.setWord ctrRollback svn else n
      { s with nv := n, dev := { d with rgr := { d.rgr with trialFrom := none } }.respond 0x42 tag 0 [n.rollback] }
    else { s with dev := d.respond 0x42 tag 0 [s.nv.rollback] })

/-- FW_TRIAL_TIMER: 60 s from the ROM's step 1, the island is reset (R412). -/
def execFwTrialTimer (s : State) : Host.Outcome State Fault Refusal :=
  s.on (fun d =>
    match d.rgr.trialFrom with
    | some t => (d.toTick (t + msTicks 60000)).rgrReset 4
    | none => d)

/-! ### The ROM and the restart (R399, R400, R402, R412, R414, R417) -/

/-- The ROM's choice of a slot (R412): BOOT as it leaves it, the slot (none: recovery), whether a trial was reverted, and
whether its step 1 was taken, which starts the trial timer. -/
def Nv.romBoot (n : Nv) (lcs : Nat) : Nv × Option Nat × Bool × Bool :=
  let boot := n.word ctrBoot
  let pref := boot % 2
  let trial := bitOf boot 1
  let tried := bitOf boot 2
  let (n, want, back) :=
    if trial && !tried then (n.setWord ctrBoot (pref + 6), pref, false)
    else if trial then (n.setWord ctrBoot (1 - pref + 4), 1 - pref, true)
    else (n, pref, false)
  let slot := if n.bootable lcs want then some want else if n.bootable lcs (1 - want) then some (1 - want) else none
  (n, slot, back, trial && !tried)

/-- The erasure of R417 step 4. -/
def Nv.erase (n : Nv) : Nv :=
  let n := { n with keys := n.keys.filter (fun e => decide (32 ≤ e.1)), keysWas := n.keysWas.filter (fun e => decide (32 ≤ e.1)) }
  let slots := [(0, 0), (0, 1), (2, 0), (2, 1)]
  let n := slots.foldl (fun n (r, k) =>
    (n.setBytes (slotBase r k) (List.replicate (slotSize r) 0)).setWord (ctrGen r k) 0) n
  n.setWord ctrErase 2

/-- A device reset with cause LCS of which the response has been posted (R416, R417). -/
def Dev.lcsReset (d : Dev) : Dev := d.deviceReset rcLcs

/-- The attestation key pair that the Ranger makes in MANUFACTURE (R401, R409): the private key, drawn from the random generator, and
the certificate with serial number, public key and the vendor's signature. -/
def Nv.attestPair (n : Nv) (k : Nat) : List (Nat × List Byte) :=
  let x := 1 + ((List.range 17).map (fun i => (Config.trngWord (k + i)).toNat * 2 ^ (32 * i))).sum % (p521N - 1)
  let p := (ecMul 521 x (some p521G)).getD (0, 0)
  let body := n.serialBytes ++ 4 :: beBytes 66 p.1 ++ beBytes 66 p.2
  [(32, beBytes 66 x), (33, body ++ (List.range 136).map (Config.vendorSign body))]

/-- Firmware that starts in MANUFACTURE and finds no attestation key makes the pair (assumption: DESIGN CHOICE, the spec does not say
when in MANUFACTURE the Ranger makes it). -/
def Nv.attested (n : Nv) (lcs : Nat) (firmware : Bool) (k : Nat) : Nv :=
  if lcs = 0 ∧ firmware = true ∧ (n.key 32).isNone = true then n.keyCommit (n.keys ++ n.attestPair k) else n

/-- The Ranger runs again after its island was in reset: the registers the ROM loads, the slot it chose, RESTARTED on Q1
(R400, R412), or the completion of an erasure (R417). -/
def State.rangerUp (s : State) : State :=
  let lcs := min 3 s.nv.fuses
  if lcs = 3 ∧ s.nv.word ctrErase < 2 then { s with nv := s.nv.erase, dev := s.dev.lcsReset }
  else
    let (n, slot, back, trial) := s.nv.romBoot lcs
    let d := s.dev
    let forced := d.isSet SYS_STRAP.RCVRY
    let slot := if forced then none else slot
    let d := if back then d.logWarn 0x27 0 stFwTrialFailed else d
    let d := d.put LCS_STATE.STATE lcs
    let d := (List.range 4).foldl (fun d k => d.put LCS_SERIAL.SERIAL (n.serialWord k) 0 k) d
    let cause := if back then 4 else d.rgr.cause
    let d := { d with rgr := { d.rgr with down := false, recovery := slot.isNone,
                                          trialFrom := if trial then some d.tick else none,
                                          announce := some [0, slot.getD 0 * 256 + cause] } }
    let d := (d.put NVM_BOOT.RUNNING (slot.getD 0)).put MGT_STATUS.VERSION (match slot with
      | some k => n.fwVersion k
      | none => 0)
    let d := d.put SNS_TRNG_ST.READY 1
    { s with nv := n.attested lcs slot.isSome d.fresh, dev := { d with fresh := d.fresh + 17 }.announced }

/-- RANGER_RESTART: the island is out of reset again. -/
def execRangerRestart (s : State) : Host.Outcome State Fault Refusal :=
  if s.dev.rgr.down then .next s.rangerUp else .next s

/-! ### Attestation (R413) -/

/-- The attestation report up to its trailer. -/
def State.report (s : State) (nonce : List Nat) : List Byte :=
  let n := s.nv
  let d := s.dev
  let hoops := (List.range 32).filter (fun k => (d.hoopEntry k).1)
  let w := fun (l : List Nat) => l.flatMap wordBytes
  let hw8 := (List.range 8).map (fun k => BitVec.ofNat 8 (d.hw / 256 ^ k))
  let gen := fun r => match n.current r with
    | some c => n.gen r c
    | none => 0
  w [0x54525441, 0x00210001 + d.lcs * 2 ^ 24] ++ n.serialBytes ++ w nonce ++ hw8 ++
    w [d.fwRunning, n.fwVersion 0, n.fwSvn 0, n.fwVersion 1, n.fwSvn 1, n.rollback] ++ w ((List.range 5).map gen) ++
    w [d.get RGU_ACTIVE.PROF * 65536 + d.get RGU_ACTIVE.PERMIT, hoops.length] ++ List.replicate 140 0 ++
    hoops.flatMap (fun k =>
      let b := (d.hoopEntry k).2.1
      w [d.hw' (b + 3), d.hw' (b + 4)] ++ d.bytes (4 * (b + 0x30)) 64)

/-- ATTEST: address, 8 nonce words. -/
def execAttest (s : State) : Host.Outcome State Fault Refusal :=
  s.serve 0x48 (fun a => a.length == 9 && sramOk (arg a 0) (256 + 72 * s.dev.hoopSpans.length + 136)) (fun s tag a =>
    match s.nv.key 32 with
    | none => { s with dev := s.dev.respond 0x48 tag stAttestNoKey }
    | some key =>
      let r := s.report (a.drop 1)
      let out := r ++ p521Sign key r
      { s with dev := (s.dev.setBytes (arg a 0) out).respond 0x48 tag 0 [256 + 72 * s.dev.hoopSpans.length + 136] })

/-- ATTEST_CERT: address. Entry 33 is 285 bytes. -/
def execAttestCert (s : State) : Host.Outcome State Fault Refusal :=
  s.serve 0x49 (fun a => a.length == 1 && sramOk (arg a 0) 285) (fun s tag a =>
    match s.nv.key 32, s.nv.key 33 with
    | some _, some cert => { s with dev := (s.dev.setBytes (arg a 0) (cert.take 285)).respond 0x49 tag 0 [285] }
    | _, _ => { s with dev := s.dev.respond 0x49 tag stAttestNoKey })

/-! ### Life-cycle (R416, R417) -/

/-- LCS_ADVANCE: target state. -/
def execLcsAdvance (s : State) : Host.Outcome State Fault Refusal :=
  s.serve 0x50 (fun a => a.length == 1) (fun s tag a =>
    let d := s.dev
    let t := arg a 0
    if t ≠ d.lcs + 1 then { s with dev := d.respond 0x50 tag stLcsDenied }
    else if d.rgr.stage.isSome || (t == 2 && (s.nv.usableMask == 0 || (s.nv.key 9).isNone)) then
      { s with dev := d.respond 0x50 tag stLcsPrecond }
    else { s with nv := { s.nv with fuses := max s.nv.fuses t }, dev := (d.respond 0x50 tag 0).lcsReset })

/-- The four bytes of a word of the random generator. -/
def trngBytes (k : Nat) : List Byte := wordBytes (Config.trngWord k).toNat

/-- RETURN_AUTH: the OWNER's signature over the serial number and 0x7E7E_0001; the answer is a fresh challenge. While a health
failure withholds the generator's output (R401), the command waits on Q0 (assumption: DEDUCED). -/
def execReturnAuth (s0 : State) : Host.Outcome State Fault Refusal :=
  s0.serve 0x51 (fun a => a.length == 1 && sramOk (arg a 0) 136) (fun s tag a =>
    let d := s.dev
    let ok := match s.nv.key 9 with
      | some owner => p521Verify owner (s.nv.serialBytes ++ wordBytes 0x7E7E0001) (d.bytes (arg a 0) 136)
      | none => false
    if ok = false then { s with dev := d.respond 0x51 tag stNvmSigFail }
    else if d.isSet SNS_TRNG_ST.READY = false then { s0 with dev := s0.dev.announced }
    else
      let k := d.fresh
      let ch := (List.range 8).flatMap (fun i => trngBytes (k + i))
      let d := { d with fresh := k + 8, rgr := { d.rgr with challenge := ch } }
      { s with dev := d.respond 0x51 tag 0 ((List.range 8).map (fun i => (Config.trngWord (k + i)).toNat)) })

/-- RETURN_TOKEN: MAGIC, FMT, serial number, challenge, VKEY, to byte 0x0BF, and the trailer. -/
def execReturnToken (s : State) : Host.Outcome State Fault Refusal :=
  s.serve 0x52 (fun a => a.length == 1 && sramOk (arg a 0) 328) (fun s tag a =>
    let d := s.dev
    let t := d.bytes (arg a 0) 328
    let vkey := (t.drop 56).take 133
    if d.rgr.challenge.isEmpty then { s with dev := d.respond 0x52 tag stLcsNoChallenge }
    else if imgWord t 0 == 0x4E525452 && (t.drop 8).take 16 == s.nv.serialBytes && (t.drop 24).take 32 == d.rgr.challenge &&
        sha512Bytes vkey == s.nv.rootDigest && p521Verify vkey (t.take 0xC0) (t.drop 0xC0) then
      { s with nv := ({ s.nv with fuses := max s.nv.fuses 3 }.setWord ctrErase 1).erase,
               dev := (d.respond 0x52 tag 0).lcsReset }
    else { s with dev := d.respond 0x52 tag stLcsToken })

/-- MAILBOX_UNKNOWN_TYPE: an item of a TYPE the table does not list. -/
def execMailboxUnknownType (s : State) : Host.Outcome State Fault Refusal :=
  s.on (fun d =>
    let d := d.announced
    let type := d.mbxType
    if d.mbxReady && !mbxTypes.contains type then
      let tag := (d.qBody 0).getD 0 0
      (d.qDrop 0).respond type tag (if d.rgr.recovery then stLcsDenied else stMbxUnknown)
    else d)

/-! ### The random generator and the log's window (R401, R402, R421) -/

/-- A random word is ready: no health failure, and 1 µs since the last one. -/
def Dev.trngReady (d : Dev) : Bool := d.isSet SNS_TRNG_ST.READY && decide (d.rgr.trngAt ≤ d.tick)

/-- SNS_TRNG_READ. -/
def aloneSnsTrngRead (s : State) : Host.Outcome State Fault Refusal :=
  s.onIsland 1 .SNS_TRNG 0 (fun d =>
    if d.trngReady then
      let w := (Config.trngWord d.fresh).toNat
      let d := { d with fresh := d.fresh + 1, rgr := { d.rgr with trngAt := d.tick + usTicks 1 } }
      (d.put SNS_TRNG.DATA w).answers [w]
    else (d.put SNS_TRNG.DATA 0).answers [0])

/-- TRNG_HEALTH_FAIL. -/
def aloneTrngHealthFail (s : State) : Host.Outcome State Fault Refusal :=
  s.onUnit 1 (fun d => ((d.put SNS_TRNG_ST.FAIL 1).put SNS_TRNG_ST.READY 0).inc SNS_TRNG_ST.FAILS)

/-- TRNG_HEALTH_PASS. -/
def execTrngHealthPass (s : State) : Host.Outcome State Fault Refusal :=
  s.onUnit 1 (fun d => d.put SNS_TRNG_ST.READY 1)

/-- Word `k` of a log entry (table "Log entry"). -/
def LogEntry.word (e : LogEntry) (k : Nat) : Nat :=
  match k with
  | 0 => e.seq
  | 1 => e.hw % 2 ^ 32
  | 2 => e.sev * 2 ^ 24 + e.block % 256 * 2 ^ 16 + e.hw / 2 ^ 32 % 65536
  | 3 => e.inst % 65536 * 65536 + e.code % 65536
  | k => match e.detail[k - 4]? with
    | some v => v % 2 ^ 32
    | none => (Config.logDetail e.seq k).toNat

/-- A byte of the MRAM's log region (R402, R404): 2,048 entries of 32 bytes, each written after the one before it and from the
region's start again after the last (assumption: DEDUCED). -/
def LogX.byte (l : LogX) (off : Nat) : Byte :=
  let back := (l.written + 2047 - off / 32 % 2048) % 2048
  if l.mram.length ≤ back then 0
  else match l.mram[l.mram.length - 1 - back]? with
    | some e => BitVec.ofNat 8 (e.word (off % 32 / 4) / 256 ^ (off % 4))
    | none => 0

/-- A byte of the MRAM read window by its offset (R404): the key store and the log lie in it too. -/
def State.mramByte (s : State) (off : Nat) : Byte :=
  if 0x194000 ≤ off ∧ off < 0x196000 then s.nv.keyByte ((off - 0x194000) / 0x1000) (off % 0x1000)
  else if 0x196000 ≤ off ∧ off < 0x1A6000 then s.dev.log.byte (off - 0x196000)
  else s.nv.byte off

/-- Bytes of the MRAM read window. -/
def State.mramBytes (s : State) (off n : Nat) : List Byte := (List.range n).map (fun k => s.mramByte (off + k))

/-- The entry of a SEQ, from the RAM ring, else from the MRAM ring (R421). -/
def LogX.find (l : LogX) (seq : Nat) : Option LogEntry :=
  match l.ram.find? (fun e => e.seq == seq) with
  | some e => some e
  | none => l.mram.find? (fun e => e.seq == seq)

/-- MGT_LOG_READ: MGT_LOG_D0 is read. -/
def execMgtLogRead (s : State) : Host.Outcome State Fault Refusal :=
  s.onIsland 1 .MGT_LOG_D 0 (fun d =>
    let e := d.log.find (d.get MGT_LOG_IDX.SEQ)
    let w := fun k => match e with
      | some e => e.word k
      | none => 0
    let d := (List.range 8).foldl (fun d k => d.put MGT_LOG_D.DATA (w k) 0 k) d
    d.answers [w 0])

end Sys2Proof.Machine
end

