-- ==== Sys2Proof/Machine/RxCmds.lean ====
section
/-! DEFINITION. The commands of reception, capture, canopies and bearing (R69 to R90, R210 to R230). -/

namespace Sys2Proof.Machine

/-! ### Reception -/

/-- PREAMBLE_VALIDATED (R69 to R73, R279, R296). -/
def execPreambleValidated (p : RxPort) (o : PreambleObs) (s : State) : Host.Outcome State Fault Refusal :=
  s.onUnit 2 (fun d => match p with
    | .uhf c => d.uhfPreamble c.val o
    | .hfr => d.portPreamble 9 o
    | .act => d.portPreamble 10 o)

/-- The guard ended the carrier under a window of UHF port `u`, and its gate is closed by the decision tick: that comes first, so
the window is CUT (R80, R157). -/
def Dev.guardFirst (d : Dev) (u : Nat) (o : ReplyObs) : Dev :=
  let c := d.driver u
  match (d.chx u).win with
  | some w => if (d.chx c).guarded.isSome ∧ (d.chx c).due ≤ d.decideTick u w o then (d.toTick (d.chx c).due).chainSettle c else d
  | none => d

/-- LSN_DECISION (R75 to R80, R280, R296). -/
def aloneLsnDecision (p : RxPort) (o : ReplyObs) (s : State) : Host.Outcome State Fault Refusal :=
  s.onUnit 2 (fun d => match p with
    | .uhf c => (d.guardFirst c.val o).uhfDecide c.val o
    | .hfr => d.portDecide 9 o
    | .act => d.portDecide 10 o)

/-- Counters cleared, each a field with an index; one that the latest classification incremented in this very tick counts that after
the clear, and reads 1 (R87). -/
def Dev.clearCounts (d : Dev) (u : Nat) (l : List (Fld × Nat)) : Dev :=
  l.foldl (fun d x =>
    d.put x.1 (bit ((d.chx u).slotTick == d.tick && (d.chx u).bumped.contains x)) u x.2) d

/-- A write of UHFn_RX_VCLR with VIO (R87). -/
def execVclrVio (c : ChainNo) (s : State) : Host.Outcome State Fault Refusal :=
  s.onIsland 2 .UHF_RX_VCLR c.val (fun d => d.clearCounts c.val
    [(UHF_RX_VCNT0.M_MISM, 0), (UHF_RX_VCNT0.FT_EDGE, 0), (UHF_RX_VCNT1.DRIFT, 0), (UHF_RX_VCNT1.LEN, 0),
      (UHF_RX_VCNT2.TRUNC, 0), (UHF_RX_VCNT2.PILOT, 0)])

/-- A write of UHFn_RX_VCLR with CLS (R87). -/
def execVclrCls (c : ChainNo) (s : State) : Host.Outcome State Fault Refusal :=
  s.onIsland 2 .UHF_RX_VCLR c.val (fun d => d.clearCounts c.val
    ((List.range 4).flatMap (fun k => [(UHF_RX_CCNT.CNT_LO, k), (UHF_RX_CCNT.CNT_HI, k)])))

/-- The IDX field of a receiving port's data window. -/
def rpyIdxFld : RxPort → Fld
  | .uhf _ => UHF_RPY_IDX.IDX
  | .hfr => HFR_RPY_IDX.IDX
  | .act => ACT_RPY_IDX.IDX

/-- The register unit of a receiving port. -/
def rpyUnit : RxPort → Nat
  | .uhf c => c.val
  | .hfr => 0
  | .act => 0

/-- What a read of a reply DATA register returns: word IDX of the viewed slot, 0 beyond LEN (R82, R90). -/
def Dev.replyWord (d : Dev) (p : RxPort) : Nat :=
  let k := min 143 (d.get (rpyIdxFld p) (rpyUnit p))
  match p with
  | .uhf c => d.slotData c.val (d.get UHF_RX_STATUS.VIEW c.val) k
  | .hfr => d.portData 9 (d.chx 9).view k
  | .act => d.portData 10 (d.chx 10).view k

/-- The read increments IDX up to 143 (R90). -/
def Dev.replyRead (d : Dev) (p : RxPort) : Dev :=
  d.put (rpyIdxFld p) (min 143 (min 143 (d.get (rpyIdxFld p) (rpyUnit p)) + 1)) (rpyUnit p)

/-- REPLY_DATA_READ. -/
def execReplyDataRead (p : RxPort) (s : State) : Host.Outcome State Fault Refusal := s.on (fun d => d.replyRead p)

/-! ### Capture (R88, R90) -/

/-- The UHFS receive registers do not apply while US is attached (R85). -/
def Dev.rxShut (d : Dev) (u : Nat) : Bool := u == 8 && d.attached.isSome

/-- The trigger sample is the one under way at tick `t`, with `n` samples before it. -/
def Dev.capFire (d : Dev) (c t n : Nat) : Dev :=
  let d := (d.put UHF_CAP_STATUS.STATE 2 c).put UHF_CAP_STATUS.TRIG_IDX n c
  let d := (d.put UHF_CAP_TAT_LO.TAT_LO t c).put UHF_CAP_TAT_HI.TAT_HI (t / 2 ^ 32) c
  let d := d.setCh c { d.chx c with capTrig := n }
  d.put UHF_CAP_STATUS.PRE_SHORT (bit (decide (n < 8192 * d.get UHF_CAP_CTRL.PRE c))) c

/-- CAP_ARM: refused while another owner holds the buffer, ignored while the unit itself is armed; TRIG 00 triggers at
once. Circular writing starts at index 0 of the buffer, which is TRIG_IDX of that trigger (assumption: DESIGN CHOICE). -/
def execCapArm (c : ChainNo) (s : State) : Host.Outcome State Fault Refusal :=
  s.onIsland 2 .UHF_CAP_CTRL c.val (fun d =>
    if d.rxShut c.val then d
    else match d.capOwner with
    | some o => if o = c.val then d else d.chainErr c.val stCapBusy
    | none =>
      let d := (d.put UHF_CAP_STATUS.STATE 1 c.val).put UHF_CAP_STATUS.PRE_SHORT 0 c.val
      let d := d.setCh c.val { d.chx c.val with capDone := 0, capAt := d.tick, capTrig := 0 }
      if d.get UHF_CAP_CTRL.TRIG c.val = 0 then d.capFire c.val d.tick 0 else d)

/-- CAP_ABORT: the unit stops and releases the buffer, in which the samples up to here stand. The write does nothing to a unit that
is not ARMED or RUNNING (assumption: DESIGN CHOICE). -/
def execCapAbort (c : ChainNo) (s : State) : Host.Outcome State Fault Refusal :=
  s.onIsland 2 .UHF_CAP_CTRL c.val (fun d =>
    if d.capOwner = some c.val then (d.capFill c.val (d.capCount c.val d.tick)).put UHF_CAP_STATUS.STATE 4 c.val else d)

/-- The tick of the happening that TRIG names, where it has happened or is next: the opening of the window, the validation of its
preamble, the decision tick of the latest class where that is CMATCH (R90). -/
def Dev.capWhen (d : Dev) (u : Nat) : Option Nat :=
  let x := d.chx u
  match d.get UHF_CAP_CTRL.TRIG u with
  | 1 => x.win.map (fun w => w.openAt)
  | 2 => (x.win.bind (fun w => w.pre)).map (fun p => p.tick)
  | 3 => if d.get UHF_RX_STATUS.LAST_CLASS u = d.get UHF_CAP_CTRL.CMATCH u then some x.slotTick else none
  | _ => none

/-- CAP_TRIGGER: what TRIG names happens, after the ARM. The index and the count come from the samples that State counts. -/
def execCapTrigger (c : ChainNo) (_idx : BitVec 16) (_written : Nat) (s : State) : Host.Outcome State Fault Refusal :=
  s.onUnit 2 (fun d =>
    let u := c.val
    match d.capWhen u with
    | some t =>
      if d.get UHF_CAP_STATUS.STATE u = 1 ∧ (d.chx u).capAt ≤ t ∧ 0 < t then (d.toTick t).capFire u t (d.capCount u t) else d
    | none => d)

/-- CAP_DONE: 8,192 × (8 − PRE) further samples are written from the trigger on; the unit stops and releases the buffer. The samples
that the command brings are the latest ones, of which those already in the buffer are not written again; what it brings none for is
a free value. -/
def execCapDone (c : ChainNo) (samples : List Word) (s : State) : Host.Outcome State Fault Refusal :=
  s.onUnit 2 (fun d =>
    let u := c.val
    if d.get UHF_CAP_STATUS.STATE u = 2 then
      let x := d.chx u
      let n := d.capLast u
      let t := x.capAt + (n - x.capDone) * d.capTicks u
      let last := samples.drop (samples.length - min (n - x.capDone) 65536)
      (((d.toTick t).capFill u n).capStore (n - last.length) last).put UHF_CAP_STATUS.STATE 3 u
    else d)

/-! ### Canopy groups (R210, R211) -/

/-- A refused write of a group's registers. -/
def Dev.brgErr (d : Dev) : Dev := d.put BRG_STATUS.LAST_ERR stBrgCfg

/-- The rule for a result-record address (R221). -/
def raddrOk (addr : Nat) : Bool := decide (0x10000 ≤ addr) && decide (addr ≤ 0x17FFF)

/-- A group may be enabled with these members and reference (R210). -/
def Dev.canEnable (d : Dev) (k mem r : Nat) : Bool :=
  let ms := (List.range 8).filter (fun n => bitOf mem n)
  let syn := d.get UHF_CTRL.SYN_SEL (ms.headD 0)
  ms != [] && ms.contains r &&
    ms.all (fun n => (List.range 4).all (fun j => j == k || !(d.grpEn j && (d.members j).contains n)) &&
      (d.binder n).isNone && d.get UHF_CTRL.SYN_SEL n == syn) &&
    (!d.isSet BRG_CAN_RADDR.WR k || raddrOk (d.get BRG_CAN_RADDR.ADDR k))

/-- BRG_CFG_WRITE. -/
def execBrgCfgWrite (k : Fin 4) (value : Word) (s : State) : Host.Outcome State Fault Refusal :=
  s.onIsland 2 .BRG_CAN_CFG k.val (fun d =>
    let x := value.toNat
    let g := k.val
    if (d.binder (0x0C + g)).isSome ∨ (bitOf x 31 = true ∧ d.canEnable g (bitsOf x 7 0) (bitsOf x 26 24) = false) then d.brgErr
    else
      (((d.put BRG_CAN_CFG.EN (bitsOf x 31 31) g).put BRG_CAN_CFG.TXCOMP (bitsOf x 30 30) g).put BRG_CAN_CFG.REF
        (bitsOf x 26 24) g).put BRG_CAN_CFG.MEMBERS (bitsOf x 7 0) g)

/-- BRG_RADDR_WRITE. -/
def execBrgRaddrWrite (k : Fin 4) (value : Word) (s : State) : Host.Outcome State Fault Refusal :=
  s.onIsland 2 .BRG_CAN_RADDR k.val (fun d =>
    let x := value.toNat
    let g := k.val
    if (d.binder (0x0C + g)).isSome ∨ (d.grpEn g = true ∧ bitOf x 31 = true ∧ raddrOk (bitsOf x 27 0) = false) then d.brgErr
    else (d.put BRG_CAN_RADDR.WR (bitsOf x 31 31) g).put BRG_CAN_RADDR.ADDR (bitsOf x 27 0) g)

/-! ### The match (R216, R220) -/

/-- MATCH_START: at the earlier of 64 ticks after the first validation and 4 after the last; an earlier match that is
ready by then is loaded, and an unfinished one is abandoned where this window starts a match of its own. A window with a member CUT by then has a class
that is CUT, and none is made (R216, R228). -/
def aloneMatchStart (k : Fin 4) (s : State) : Host.Outcome State Fault Refusal :=
  s.onUnit 2 (fun d =>
    let g := d.grpx k.val
    let ts := g.valid.map (fun x => x.2.1)
    match ts with
    | [] => d
    | t0 :: rest =>
      if g.started then d
      else
        let t := min (rest.foldl min t0 + 64) (rest.foldl max t0 + 4)
        let d := d.toTick t
        let made := if g.decided.any (fun x => x.2.1 == 7) then none else d.makeMatch k.val t
        let d := match g.run with
          | some m =>
            if max m.ready m.dec ≤ t then d.matchLoad k.val m
            else if made.isSome then (d.inc BRG_CAN_CNT1.ABANDONED k.val).setGrp k.val { d.grpx k.val with run := none }
            else d
          | none => d
        match made with
        | some m => d.setGrp k.val { d.grpx k.val with started := true, run := some m }
        | none => (d.inc BRG_CAN_CNT0.NOBEAR k.val).setGrp k.val { d.grpx k.val with started := true })

/-- MATCH_READY: at the later of the match's own end and the group's decision tick. -/
def aloneMatchReady (k : Fin 4) (s : State) : Host.Outcome State Fault Refusal :=
  s.onUnit 2 (fun d =>
    let g := d.grpx k.val
    match g.run with
    | some m => if g.opened = true ∧ m.window = g.window then d else (d.toTick (max m.ready m.dec)).matchLoad k.val m
    | none => d)

/-! ### Phase-reference measurement (R224 to R226) -/

/-- A measurement runs. -/
def Dev.pcalRuns (d : Dev) : Bool := d.get BRG_PCAL_ST.STATE == 1 || d.get BRG_PCAL_ST.STATE == 2

/-- The measurement ends with a state and a status; EV_BRG_PCAL is published. -/
def Dev.pcalFinish (d : Dev) (st result : Nat) : Dev :=
  ((d.put BRG_PCAL_ST.STATE st).put BRG_PCAL_ST.RESULT result).publish evBrgPcal

/-- A write of BRG_PCAL with ARM: its fields are stored; the ARM is ignored while a measurement runs. -/
def alonePcalArm (value : Word) (s : State) : Host.Outcome State Fault Refusal :=
  s.onIsland 2 .BRG_PCAL 0 (fun d =>
    let x := value.toNat
    let d := ((d.put BRG_PCAL.MODE (bitsOf x 29 28)).put BRG_PCAL.GROUP (bitsOf x 27 26)).put BRG_PCAL.TXMEM (bitsOf x 25 23)
    let d := ((d.put BRG_PCAL.WRITE (bitsOf x 22 22)).put BRG_PCAL.N (bitsOf x 19 12)).put BRG_PCAL.RBIN (bitsOf x 11 0)
    if d.pcalRuns then d
    else
      let d := (List.range 8).foldl (fun d m => d.put BRG_PCAL_R.VALID 0 0 m) d
      { (d.put BRG_PCAL_ST.STATE 1).put BRG_PCAL_ST.COUNT 0 with pcal := { since := d.tick } })

/-- A write of BRG_PCAL with ABORT: status 0xFFFF, nothing changed. -/
def execPcalAbort (s : State) : Host.Outcome State Fault Refusal :=
  s.onIsland 2 .BRG_PCAL 0 (fun d => if d.pcalRuns then d.pcalFinish 4 0xFFFF else d)

/-- The members a measurement reports: all of the group's, in MODE TX the transmitting one. -/
def Dev.pcalMembers (d : Dev) : List Nat :=
  if d.get BRG_PCAL.MODE = 1 then [d.get BRG_PCAL.TXMEM] else d.members (d.get BRG_PCAL.GROUP)

/-- MEAN and SPREAD of every measured member. -/
def Dev.pcalReport (d : Dev) : Dev :=
  d.pcalMembers.foldl (fun d m =>
    let l := pcalOf d.pcal.gathered m
    ((d.put BRG_PCAL_R.VALID 1 0 m).put BRG_PCAL_R.MEAN (circMean l) 0 m).put BRG_PCAL_R.SPREAD (circSpread l (circMean l)) 0 m) d

/-- RX_OFF of every member's entry after a successful measurement in MODE RX with WRITE = 1 (R226). -/
def Dev.pcalWrite (d : Dev) : Dev :=
  let k := d.get BRG_PCAL.GROUP
  let r := d.get BRG_CAN_CFG.REF k
  let b := d.get BRG_PCAL.RBIN
  match d.windowSteer k with
  | none => d
  | some (w, _) =>
    d.pcal.entries.foldl (fun d e =>
      let exp := phaseSub (d.steerPh w b e.1) (d.steerPh w b r)
      let off := if e.1 = r then 0 else phaseSub (d.get BRG_PCAL_R.MEAN 0 e.1) exp
      (d.put BRG_PODATA.RX_OFF off 0 e.2).put BRG_PODATA.VALID 1 0 e.2) d

/-- PCAL_END: N windows are gathered; a result that is not stationary repeats the measurement once. -/
def execPcalEnd (s : State) : Host.Outcome State Fault Refusal :=
  s.onUnit 2 (fun d =>
    if d.pcalRuns = false ∨ d.pcal.gathered.length < max 2 (d.get BRG_PCAL.N) then d
    else
      let ok := d.pcalMembers.all (fun m => circStable (pcalOf d.pcal.gathered m))
      let first := d.get BRG_PCAL_ST.STATE == 1
      let d := d.pcalReport
      if ok then
        (if d.get BRG_PCAL.MODE ≠ 1 ∧ d.isSet BRG_PCAL.WRITE = true then d.pcalWrite else d).pcalFinish 3 0
      else if first then
        { (d.put BRG_PCAL_ST.STATE 2).put BRG_PCAL_ST.COUNT 0 with pcal := { since := d.tick } }
      else d.pcalFinish 4 stCalDisturbed)

/-- PCAL_NO_LOAD: no window within 1 s of ARM. -/
def execPcalNoLoad (s : State) : Host.Outcome State Fault Refusal :=
  s.onUnit 2 (fun d =>
    if d.get BRG_PCAL_ST.STATE = 1 ∧ d.pcal.gathered = [] then
      (d.toTick (d.pcal.since + msTicks 1000)).pcalFinish 4 stCalNoLoad
    else d)

end Sys2Proof.Machine
end

