-- ==== Sys2Proof/Machine/Spe.lean ====
section
/-! DEFINITION. The single-pair wired ports: link states, host frames, faulty frames, Oluon over the wire (R332 to R340). -/

namespace Sys2Proof.Machine

/-- SPE_NO_LINK (R339). -/ def stSpeNoLink : Nat := 0x0412
/-- SPE_LENGTH (R339). -/ def stSpeLength : Nat := 0x0413

/-- The record of port `n`. -/
def Dev.spex (d : Dev) (n : Nat) : SpeX := fget (fun _ => {}) d.spe n
/-- The record of port `n` replaced. -/
def Dev.setSpe (d : Dev) (n : Nat) (x : SpeX) : Dev := { d with spe := fset (fun _ => {}) id d.spe n x }
/-- The state of a port's link. -/
def Dev.speState (d : Dev) (n : Nat) : Nat := d.get SPE_STATUS.STATE n

/-! States of a link (table "Link states"). -/
/-- DISABLED. -/ def speDisabled : Nat := 0
/-- AN. -/ def speAn : Nat := 1
/-- TRAINING. -/ def speTraining : Nat := 2
/-- UP. -/ def speUp : Nat := 3
/-- FAIL. -/ def speFail : Nat := 4

/-- The status item 0x53 of a request (R335): exactly one for each, which waits where RXQ has no room. -/
def Dev.speStatus (d : Dev) (n st tag : Nat) : Dev :=
  let k := d.get SPE_Q.RXQ n
  if k < 2 then d else d.qOwe k (epSpe n) 0x53 [st * 65536 + tag * 256]

/-- A port's link goes to another state (R334): leaving UP counts, publishes, and cuts off the frame on the line. An amplitude is in use
in TRAINING and UP alone. -/
def Dev.speGo (d : Dev) (n st : Nat) : Dev :=
  let d := if st = speTraining ∨ st = speUp then d else d.put SPE_STATUS.AMP24 0 n
  if d.speState n = speUp ∧ st ≠ speUp then
    let x := d.spex n
    let d := (d.put SPE_STATUS.STATE st n).put SPE_STATUS.LINK 0 n
    let d := (d.inc SPE_CNT.CNT_HI n 3).setSpe n { x with tx := none }
    let d := match x.tx with
      | some (tag, _) => d.speStatus n stSpeNoLink tag
      | none => d
    d.publish (evSpeDown n)
  else d.put SPE_STATUS.STATE st n

/-- QUAL of a port (table SPEn_QUAL): 0 without link, else by SNR and the present DOWN_SNR, never below 0. -/
def Dev.speQual (d : Dev) (n : Nat) : Nat :=
  if d.speState n = speUp then
    (min 7 (1 + ((d.get SPE_QUAL.SNR n : Int) - (d.get SPE_CTRL.DOWN_SNR n : Int)) / 12)).toNat
  else 0

/-- SPE_EN_WRITE. -/
def execSpeEnWrite (n : Fin 2) (en : Bool) (s : State) : Host.Outcome State Fault Refusal :=
  s.onIsland (8 + n.val) .SPE_CTRL n.val (fun d =>
    let st := d.speState n.val
    let d := d.put SPE_CTRL.EN (bit en) n.val
    if en = false then d.speGo n.val speDisabled
    else if st = speDisabled ∨ st = speFail then d.speGo n.val speAn else d)

/-- RETRAIN: back to AN from every state of an enabled port. -/
def execRetrain (n : Fin 2) (s : State) : Host.Outcome State Fault Refusal :=
  s.onIsland (8 + n.val) .SPE_CTRL n.val (fun d => if d.speState n.val = speDisabled then d else d.speGo n.val speAn)

/-- SPE_CNT_CLR. -/
def execSpeCntClr (n : Fin 2) (s : State) : Host.Outcome State Fault Refusal :=
  s.onIsland (8 + n.val) .SPE_CTRL n.val (fun d => (List.range 4).foldl (fun d k => (d.put SPE_CNT.CNT_HI 0 n.val k).put SPE_CNT.CNT_LO 0 n.val k) d)

/-- SPE_AN_DONE: the mode is forced, or the best amplitude both offer; without a common one the port fails. -/
def execSpeAnDone (n : Fin 2) (partner24 partner10 : Bool) (s : State) : Host.Outcome State Fault Refusal :=
  s.onUnit (8 + n.val) (fun d =>
    if d.speState n.val = speAn then
      let amp := d.get SPE_CTRL.AMP n.val
      let train (amp24 : Bool) := (d.put SPE_STATUS.AMP24 (bit amp24) n.val).speGo n.val speTraining
      if amp = 1 then train true
      else if amp = 2 then train false
      else if d.isSet SPE_CTRL.ADV24 n.val && partner24 then train true
      else if partner10 then train false
      else d.speGo n.val speFail
    else d)

/-- SPE_TRAINED: the SNR held at or above UP_SNR for 10 ms. -/
def execSpeTrained (n : Fin 2) (snr eye echo : BitVec 8) (s : State) : Host.Outcome State Fault Refusal :=
  s.onUnit (8 + n.val) (fun d =>
    if d.speState n.val = speTraining ∧ d.get SPE_CTRL.UP_SNR n.val ≤ snr.toNat then
      let d := ((d.put SPE_QUAL.SNR snr.toNat n.val).put SPE_QUAL.EYE eye.toNat n.val).put SPE_QUAL.ECHO echo.toNat n.val
      ((d.put SPE_STATUS.LINK 1 n.val).speGo n.val speUp).publish (evSpeUp n.val)
    else d)

/-- SPE_TRAIN_TIMEOUT: 1.0 s without success. -/
def execSpeTrainTimeout (n : Fin 2) (s : State) : Host.Outcome State Fault Refusal :=
  s.onUnit (8 + n.val) (fun d => if d.speState n.val = speTraining then d.speGo n.val speAn else d)

/-- SPE_LINK_LOSS. -/
def aloneSpeLinkLoss (n : Fin 2) (s : State) : Host.Outcome State Fault Refusal :=
  s.onUnit (8 + n.val) (fun d =>
    if d.speState n.val = speUp then
      let d := d.speGo n.val speAn
      d.setSpe n.val { d.spex n.val with lostAt := d.tick + 1 }
    else d)

/-- The bytes of a frame on the line (R335): preamble, SFD, the `n` bytes packed in words, FCS least significant byte first. -/
def speLine (n : Nat) (ws : List Nat) : List Byte :=
  let bytes := (List.range n).map (fun k => BitVec.ofNat 8 (ws.getD (k / 4) 0 / 256 ^ (k % 4)))
  List.replicate 7 0x55 ++ [0xD5] ++ bytes ++ wordBytes (crc32Bytes bytes)

/-- SPE_TX_REQUEST: the port takes the oldest item of its TXQ once its line is free. An item of another type is dropped. -/
def execSpeTxRequest (n : Fin 2) (s : State) : Host.Outcome State Fault Refusal :=
  s.onUnit (8 + n.val) (fun d =>
    let k := d.get SPE_Q.TXQ n.val
    if k < 2 ∨ d.qEn k = false ∨ d.qCons k ≠ epSpe n.val ∨ d.qReady k = false ∨ (d.spex n.val).tx ≠ none then d
    else
      let type := bitsOf (d.qHead k) 23 16
      let body := d.qBody k
      let d := d.qDrop k
      let w := body.getD 0 0
      let tag := bitsOf w 23 16
      if type ≠ 0x51 then d
      else if d.speState n.val ≠ speUp then (d.put SPE_STATUS.LAST_ERR stSpeNoLink n.val).speStatus n.val stSpeNoLink tag
      else if bitsOf w 10 0 < 60 ∨ 1514 < bitsOf w 10 0 then
        (d.put SPE_STATUS.LAST_ERR stSpeLength n.val).speStatus n.val stSpeLength tag
      else d.setSpe n.val { d.spex n.val with tx := some (tag, speLine (bitsOf w 10 0) (body.drop 1)) })

/-- SPE_TX_DONE: the FCS has been sent; one status item with 0x0000. -/
def execSpeTxDone (n : Fin 2) (s : State) : Host.Outcome State Fault Refusal :=
  s.onUnit (8 + n.val) (fun d =>
    match (d.spex n.val).tx with
    | some (tag, _) =>
      ((d.setSpe n.val { d.spex n.val with tx := none }).inc SPE_CNT.CNT_LO n.val 0).speStatus n.val 0 tag
    | none => d)

/-- A faulty frame is dropped, counted and logged at most once a second for each cause (R336). The causes are numbered; the
spec gives their entries no code. -/
def Dev.speDrop (d : Dev) (n : Nat) (f : Fld) (k cause : Nat) : Dev :=
  let x := d.spex n
  let (l, c) := onceEach x.logs cause d.tick
  let d := (d.inc f n k).setSpe n { x with logs := l }
  match c with
  | some c => d.logWarn (0x24 + n) 0 (Config.codeIn 0x04 (20 + cause)) [c]
  | none => d

/-- The port takes a frame of this destination (R335). -/
def Dev.speForUs (d : Dev) (n : Nat) (dst : BitVec 48) : Bool :=
  d.isSet SPE_CTRL.PROMISC n || bitOf dst.toNat 40 ||
    dst.toNat == d.get SPE_MAC_HI.ADDR_HI n * 2 ^ 32 + d.get SPE_MAC_LO.ADDR_LO n

/-- The item 0x52 of a received frame. -/
def speItem (sfd : Nat) (bytes : List Byte) : List Nat :=
  [bytes.length, sfd % 2 ^ 32, sfd / 2 ^ 32] ++
    (List.range ((bytes.length + 3) / 4)).map (fun w =>
      ((List.range 4).map (fun b => (bytes.getD (4 * w + b) 0).toNat * 256 ^ b)).sum)

/-- A receive link is active in the slot of a frame whose SFD came at tick `t`: the present slot, or the one before it (R337). -/
def Dev.wireLink (d : Dev) (t : Nat) : Bool :=
  match d.linkOf (if t < d.msh.bound then d.msh.asn - 1 else d.msh.asn) with
  | some k => d.isSet MSH_LDATA.RX 0 k
  | none => false

/-- A frame of EtherType 0x88B5 with its SFD at tick `t` is passed to the MAC, which checks it as one from the air in the link active
then (R337): in SCAN and DESYNC it takes every one, in SYNC those of a receive link. In a slot it is taken at the slot's end. -/
def Dev.speOluon (d : Dev) (f : Option MshFrame) (t : Nat) : Dev :=
  if d.mshState = mshOff ∨ (d.mshState = mshSync ∧ d.wireLink t = false) then d
  else match f with
    | some m =>
      if m.fcsOk && m.parsable && decide (m.len ≤ 127) then
        if d.mshState = mshScan then d.mshTake m true d.tick else d.setMsh { d.msh with wire := d.msh.wire ++ [m] }
      else (d.inc MSH_CNT.CNT_LO 0 3).mshLog stMshMalformed
    | none => (d.inc MSH_CNT.CNT_LO 0 3).mshLog stMshMalformed

/-- SPE_FRAME_RX: a frame in UP, dropped and counted, passed to the mesh, or delivered. One whose last FCS byte comes with a link loss is
dropped and counted in CODE (R338). -/
def aloneSpeFrameRx (n : Fin 2) (f : WireFrame) (s : State) : Host.Outcome State Fault Refusal :=
  s.onUnit (8 + n.val) (fun d =>
    let k := n.val
    if d.speState k ≠ speUp then (if (d.spex k).lostAt = d.tick + 1 then d.speDrop k SPE_CNT.CNT_HI 2 2 else d)
    else if f.codeOk = false then d.speDrop k SPE_CNT.CNT_HI 2 2
    else if f.bytes.length < 64 ∨ 1518 < f.bytes.length then d.speDrop k SPE_CNT.CNT_LO 1 1
    else if f.fcsOk = false then d.speDrop k SPE_CNT.CNT_HI 1 0
    else if f.control then d.speDrop k SPE_CNT.CNT_LO 3 3
    else if f.etherType.toNat = 0x88B5 ∧ d.isSet SPE_CTRL.OLUON k = true then
      (d.inc SPE_CNT.CNT_HI k 0).speOluon f.oluon f.sfdTick
    else if d.speForUs k f.dst then
      let q := d.get SPE_Q.RXQ k
      let (d', ok) := if q < 2 then (d, false) else d.qDeliver q (epSpe k) 0x52 (speItem f.sfdTick (f.bytes.dropLast.dropLast.dropLast.dropLast))
      if ok then d'.inc SPE_CNT.CNT_HI k 0 else d.speDrop k SPE_CNT.CNT_LO 2 4
    else d)

end Sys2Proof.Machine
end

