-- ==== Sys2Proof/Machine/RegView.lean ====
section
/-! DEFINITION. What a read of each register field returns: a field that follows from the rest of the state is computed
here, every other field is held in the register file (R7). -/

namespace Sys2Proof.Machine

/-- A field's value from a Bool. -/
def flag (b : Bool) : Option Nat := some (bit b)

/-- Bits `a + k` for the members of a list that satisfy a test. -/
def bitsWhere (l : List Nat) (p : Nat → Bool) : Nat := ((l.filter p).map (fun k => 2 ^ k)).sum

/-! ### Chains, synthesisers, capture (R41, R62 to R64, R90) -/

/-- UHFn_STATUS of electronics `c` (R41, R250); MOD while a template is on air, RAMP_DOWN while the ramp of a trip runs. -/
def Dev.viewUhf (d : Dev) (lo c : Nat) : Option Nat :=
  let u := d.cfg c
  let st := if d.tripRamps c then csDown else d.cst c
  if lo = 0 then
    let x := d.chx u
    some (if st = csCarrier ∧ x.txOn = true ∧ x.txStart ≤ d.tick ∧ (c = 8 ∨ d.feOf c = some c) then csMod else st)
  else if lo = 3 then flag (d.gate c)
  else if lo = 4 then flag (decide (csRx ≤ st) && decide (st ≤ csDown))
  else if lo = 5 then flag (d.settledAt u d.tick)
  else if lo = 6 then flag (d.locked (d.synOf c))
  else if lo = 7 then flag (d.get UHF_TRIP.CAUSE c != 0)
  else if lo = 8 then some (d.get UHF_ANT.PORT u)
  else none

/-- The 0.5 µs blocks that have ended since tick `t0`, and the tick at which block `k` from there ends. -/
def blocksSince (t0 t : Nat) : Nat := (t - t0) * 10 / 768
/-- The tick of block boundary `k` after tick `t0`. -/
def blockTick (t0 k : Nat) : Nat := t0 + (k * 768 + 9) / 10

/-- UHFn_RX_NOISE.GAIN (R73): AGC_FIX with AGC = FIXED; with FAST AGC_START from the opening of a window, and from its first 0.5 µs
block boundary to the validation a measured step that changes at those boundaries only. After a window that ended without a
validated preamble it reads AGC_START again (assumption: DESIGN CHOICE, the spec does not say what the step is outside a window). -/
def Dev.gainNow (d : Dev) (u : Nat) : Nat :=
  if d.get UHF_RX_CTRL.AGC u = 1 then min 14 (d.get UHF_RX_CTRL.AGC_FIX u)
  else match (d.chx u).win with
    | some w => if w.pre.isNone ∧ 0 < blocksSince w.openAt d.tick then
          min 14 (Config.agcStep u (blockTick w.openAt (blocksSince w.openAt d.tick)))
        else d.get UHF_RX_NOISE.GAIN u
    | none => d.get UHF_RX_NOISE.GAIN u

/-- Views of the chain, synthesiser and spare registers. SYN_Fm_STATUS.USERS is computed from SYN_SEL throughout, so it reads 0x1FF
for F0 right after reset, when all nine chains select F0; its table gives the reset value 0x000 (R64; assumption: DESIGN CHOICE, the
two disagree). -/
def Dev.viewChain (d : Dev) (f : Fld) (i : Nat) : Option Nat :=
  match f.r with
  | .UHF_DET => some (d.detNow i (if f.lo = 16 then 0 else 1))
  | .UHF_STATUS => d.viewUhf f.lo i
  | .UHF_PWR => if f.lo = 16 ∧ d.cfg (d.driver i) = i then some (d.driveNow (d.driver i)) else none
  | .UHF_LKC_TRIM => some (if f.lo = 16 then d.trimI i else d.trimQ i)
  | .UHF_LKC_RESID =>
    if f.lo = 31 then flag (d.converged i) else if f.lo = 30 then flag (d.trimSat i) else some (d.resid i)
  | .UHFS_SPARE => if f.lo = 16 then some ((d.namedFe d.tick).getD 0xF) else none
  | .UHFS_SPSEL => some (bitsWhere (List.range 8) (fun n => d.attached == some n))
  | .UHF_RX_STATUS =>
    if f.lo = 15 then
      flag (match (d.chx i).win with | some w => decide (w.openAt ≤ d.tick) && decide (d.tick < w.close) | none => false)
    else none
  | .UHF_RX_NOISE => if f.lo = 0 then some (d.gainNow i) else none
  | .SYN_F_STATUS =>
    if f.lo = 7 then some (bitsWhere chainIds (fun c => (d.synUsers i).contains c))
    else if f.lo = 3 then flag (d.shadowing i)
    else if f.lo = 2 then flag (d.synCal i)
    else none
  | .UHF_CAP_STATUS => if f.lo = 28 then some (d.capOwner.getD 0xF) else none
  | .UHFS_SPST => if f.lo = 7 then flag d.spareRdy else none
  | _ => none

/-! ### Vats (R125) -/

/-- VATn_STATUS.WAITON. -/
def Wait.waiton : Wait → Nat
  | .none => 0
  | .waita _ _ _ _ => 1
  | .waitt _ _ => 2
  | .carryOn _ => 3
  | .carryOff => 3
  | .txc _ _ => 3
  | .lsn _ => 3
  | .held _ => 3
  | .ledger => 4
  | .qpop _ _ _ _ _ => 6

/-- VATn_WDOG.REMAIN (R117): 0 before the watchdog is first loaded (R125). -/
def Dev.wdRemain (d : Dev) (v : Nat) : Nat :=
  if (d.vatx v).wdOn then (d.get VAT_WDOG.PERIOD v * 1024 - d.wdNow v) / 1024 else 0

/-- Views of the Vat registers. -/
def Dev.viewVat (d : Dev) (f : Fld) (i : Nat) : Option Nat :=
  match f.r with
  | .VAT_PC => some (d.shownPc i)
  | .VAT_STATUS =>
    if f.lo = 24 then some (if d.vShown i = vsWait then (d.vatx i).wait.waiton else 0)
    else if f.lo = 0 then some (d.vShown i) else none
  | .VAT_WDOG => if f.lo = 16 then some (d.wdRemain i) else none
  | .VAT_TRIG =>
    let fld := if f.lo = 0 then TRL_CSTAT.PEND else TRL_CSTAT.OVR
    some (bitsWhere (List.range 4) (fun k => d.isSet fld 0 (4 * i + k)))
  | .VAT_SUMMARY =>
    some (bitsWhere vatIds (fun v => if f.lo = 16 then d.vst v == vsFault else d.vActive v && !(d.vatx v).stepping))
  | _ => none

/-! ### Transactions, ledger, bearing, calibration (R208, R209, R230, R253) -/

/-- Views of these blocks. -/
def Dev.viewEngines (d : Dev) (f : Fld) (i : Nat) : Option Nat :=
  match f.r with
  | .TXN_STATUS => if f.lo = 0 then some d.freeHandles else none
  | .TXN_POOLST => some (if f.lo = 16 then d.freeBlocks else d.largestRun)
  | .TXN_PEND => some d.txPend.length
  | .BRG_STATUS => if f.lo = 0 then some (bitsWhere (List.range 4) (fun k => (d.grpx k).run.isSome)) else none
  | .BRG_CAN_CFG =>
    if f.lo = 8 then some (if d.grpEn i then d.get UHF_CTRL.SYN_SEL ((d.members i).headD 0) else 0) else none
  | .CAL_STATUS => if f.lo = 31 then flag (d.cal != []) else none
  | _ => none

/-! ### The guard (R270) -/

/-- The hold of OFF_MIN left for the front end and channel of RGU_OCIDX, ticks. -/
def Dev.holdLeft (d : Dev) : Nat := d.offHoldEnd (d.get RGU_OCIDX.FE) (d.get RGU_OCIDX.CH) - d.tick

/-- Views of the guard's registers. -/
def Dev.viewRgu (d : Dev) (f : Fld) (i j : Nat) : Option Nat :=
  match f.r with
  | .RGU_STATUS => if f.lo = 6 then flag (decide (2 ≤ d.lcs)) else none
  | .RGU_PRM => some (if 1 ≤ j ∧ j ≤ 5 then d.hdr j else 0)
  | .RGU_CHDATA =>
    let c := d.get RGU_CHIDX.IDX
    some (if f.lo = 20 then d.limitOf c else bitsOf (d.rgu.chan.getD c (0, 0)).1 19 0)
  | .RGU_ANTDATA => some (bitsOf (fget (fun _ => 0) d.rgu.ant (d.get RGU_ANTIDX.IDX)) f.hi f.lo)
  | .RGU_FE =>
    if f.lo = 31 then flag (d.fex i).onSince.isSome
    else if f.lo = 24 then some (d.fex i).ch
    else some (if (d.fex i).live then min 0xFFFF (d.onTime i d.tick / 153600) else 0)
  | .RGU_OCDATA => some (d.occupancy (d.get RGU_OCIDX.FE) (d.get RGU_OCIDX.CH) d.tick)
  | .RGU_OCHOLD =>
    if f.lo = 31 then flag (decide (0 < d.holdLeft)) else some (min 0xFFFF ((d.holdLeft + 153599) / 153600))
  | _ => none

/-! ### HF, ACT, mesh (R288, R304, R331) -/

/-- STATE of HFR or ACT: a frame in transmission reads 3 (R272, R290). -/
def Dev.portView (d : Dev) (p : Nat) : Nat :=
  let x := d.chx p
  if d.pst p = 2 ∧ x.txOn = true ∧ x.txStart ≤ d.tick then 3 else d.pst p

/-- Views of the narrow radios. The field phase is a measurement: a free value. IMEAS is the driver current while the field is on, and in
a card-watch pulse CW_I (R283). -/
def Dev.viewRadio (d : Dev) (f : Fld) (i : Nat) : Option Nat :=
  match f.r with
  | .HFR_STATUS =>
    if f.lo = 0 then some ((d.portSync 9).portView 9)
    else if f.lo = 5 then flag (d.cwSync.cw.pulse.isSome)
    else if f.lo = 6 then some ((d.portSync 9).get HFR_STATUS.PLL_LOCK)
    else if f.lo = 7 then flag (d.get HFR_TRIP.CAUSE != 0)
    else none
  | .HFR_MEAS =>
    let on := (d.portSync 9).pst 9 == 2
    if f.lo = 0 then some (if on || d.cwSync.cw.pulse.isSome then Config.fieldPhase d.tick else 0)
    else if f.lo = 16 then some (if on then d.get HFR_MEAS.IMEAS else if d.cwSync.cw.pulse.isSome then d.cwCurrent else 0)
    else none
  | .HFR_DRV => if f.lo = 0 then some ((d.portSync 9).get HFR_DRV.ITGT) else none
  | .HFR_CW_BASE => some (d.cwSync.get f)
  | .HFR_CW_LAST => some (d.cwSync.get f)
  | .HFR_CW_CNT => some (d.cwSync.get f)
  | .ACT_STATUS =>
    if f.lo = 0 then some ((d.portSync 10).portView 10)
    else if f.lo = 6 then some ((d.portSync 10).get ACT_STATUS.LOCK)
    else if f.lo = 7 then flag (d.get ACT_TRIP.CAUSE != 0) else none
  | .ACT_TXCFG => some (min ((d.portSync 10).get ACT_TXCFG.LEVEL) (d.get ACT_LIMIT.MAXP))
  | .ACT_DUTY => some ((d.dutySum - d.dutyAhead d.tick) / 153600)
  | .SPE_QUAL => if f.lo = 0 then some (d.speQual i) else none
  | .MSH_ASN_LO => some d.msh.asn
  | .MSH_TSRC =>
    if f.lo = 30 then flag d.cand1.isSome
    else if f.lo = 29 then flag d.cand2.isSome
    else if f.lo = 8 then some (d.cand1.getD 0)
    else if f.lo = 16 then some (d.cand2.getD 0)
    else none
  | .MSH_NDATA_W2 =>
    let n := d.get MSH_NIDX.IDX
    if f.lo = 30 then flag (d.nbrCand n)
    else if f.lo = 29 then flag (d.nbrLinked n)
    else if f.lo = 27 then some (if d.nbrValid n then d.nbrSf n else 0)
    else none
  | _ => none

/-! ### Time and queues (R357, R358, R380) -/

/-- Views of rings, PPS, AT, heartwood and queues. -/
def Dev.viewTime (d : Dev) (f : Fld) (i j : Nat) : Option Nat :=
  match f.r with
  | .RING_CNT_W0 => some (d.ringx i).cnt
  | .RING_CAP_W0 => some (((d.ringx i).caps j).headD 0)
  | .RING_CAPST =>
    if f.lo = 28 then some (d.ringx i).cap1.length
    else if f.lo = 24 then some (d.ringx i).cap0.length
    else if f.lo = 1 then flag (d.inWin i 1)
    else if f.lo = 0 then flag (d.inWin i 0)
    else none
  | .RING_PPS_W0 => some d.pps.stamp
  | .RING_AT_W0 => some d.tick
  | .AON_HW_W0 => some d.hw
  | .SNS_TEMP => some (d.sensorTemp (if f.lo = 16 then 2 * j + 1 else 2 * j))
  | .QMX_Q_CNT => some (if f.lo = 16 then (if d.rst.asserted then 0 else d.qFree i) else d.qFill i)
  | .QMX_Q_STAT => if f.lo = 2 then flag (d.qx i).mark.isSome else none
  | .QMX_Q_POP => some 0
  | _ => none

/-! ### Power, storage, log, life-cycle, host link (R397, R405, R420 to R423, R443, R444) -/

/-- A slot is torn: its generation is not 0 and its CRC does not match (R405). -/
def Nv.torn (n : Nv) (region slot : Nat) : Bool := n.gen region slot != 0 && !n.slotValid region slot

/-- The lowest SEQ of a list of log entries. -/
def firstSeq (l : List LogEntry) : Nat := match l.map (fun e => e.seq) with
  | [] => 0
  | x :: xs => xs.foldl min x

/-- Views of power, NVM, management, life-cycle, sensors and host link. READY tells that step 6 is done, also after
an island reset (assumption: DEDUCED). Whether a rail that fell is still low is a free value. -/
def State.viewMgt (s : State) (f : Fld) : Option Nat :=
  let d := s.dev
  let n := s.nv
  let r := d.get NVM_GIDX.REGION
  let boot := n.word ctrBoot
  match f.r with
  | .PWR_STATUS => if f.lo = 8 then some d.phase else if f.lo = 0 then some d.powerState else none
  | .PWR_DOM0 => if f.lo = 0 then some d.domUhf else none
  | .PWR_DOM1 => if f.lo = 4 then some d.domUnits else none
  | .NVM_GIDX =>
    if 4 < r then (if f.lo = 0 then none else some 0)
    else if f.lo = 5 then some ((n.current r).getD 0)
    else if f.lo = 4 then flag (n.torn r 1)
    else if f.lo = 3 then flag (n.torn r 0)
    else none
  | .NVM_STATUS => if f.lo = 8 then flag (decide (d.tick < d.rgr.busyTill)) else none
  | .NVM_GEN0 => some (if 4 < r then 0 else n.gen r 0)
  | .NVM_GEN1 => some (if 4 < r then 0 else n.gen r 1)
  | .NVM_BOOT =>
    if f.lo = 16 then some n.rollback
    else if f.lo = 2 then some (bitsOf boot 2 2)
    else if f.lo = 1 then some (bitsOf boot 1 1)
    else if f.lo = 0 then some (boot % 2)
    else none
  | .MGT_LOG_NEW => some (match d.log.ram.getLast?, d.log.mram.getLast? with
      | some e, _ => e.seq
      | none, some e => e.seq
      | none, none => 0)
  | .MGT_LOG_OLD => some (firstSeq (d.log.ram ++ d.log.mram))
  | .LCS_STATE =>
    if f.lo = 8 then flag (decide (d.lcs = 3) && decide (n.word ctrErase < 2)) else none
  | .SNS_SUPPLY =>
    if f.lo = 0 then some (Nat.land (d.get SNS_SUPPLY.NOW) (Config.freeValue d.fresh).toNat) else none
  | .SNS_TRNG_ST => if f.lo = 31 then flag d.trngReady else none
  | .HLK_STATUS =>
    if f.lo = 3 then flag (bitOf (d.get SYS_STEP.DONE) 5)
    else if f.lo = 0 then flag (d.isSet HLK_STATUS.LINK || d.isSet SYS_STRAP.HSEL)
    else none
  | _ => none

/-! ### The value of a field, a register -/

/-- The slot viewed on the receiving port of chain `i`. -/
def Dev.rpyView (d : Dev) (i : Nat) : Nat := d.get UHF_RX_STATUS.VIEW i

/-- Where a field read at unit `i`, index `j` is held: a window shows the entry its index register names. -/
def Dev.place (d : Dev) (r : Reg) (i j : Nat) : Nat × Nat :=
  match r with
  | .UHF_LKC_CDATA =>
    let k := d.get UHF_LKC_CIDX.IDX i
    (i, if i = 8 then d.get UHFS_CBANK.BANK * 128 + k else k)
  | .CAL_TDATA => (0, trimIdx (d.get CAL_TIDX.UNIT) (d.get CAL_TIDX.KIND) (d.get CAL_TIDX.SUB))
  | .BRG_PODATA => (0, d.get BRG_POIDX.IDX)
  | .TRL_PDATA => (0, d.get TRL_PIDX.ID)
  | .TRL_CMASK_LO => (0, d.get TRL_CIDX.ID)
  | .TRL_CMASK_HI => (0, d.get TRL_CIDX.ID)
  | .TRL_CSTAT => (0, d.get TRL_CIDX.ID)
  | .MSH_LDATA => (0, d.get MSH_LIDX.IDX)
  | .MSH_NDATA_W0 => (0, d.get MSH_NIDX.IDX)
  | .MSH_NDATA_W1 => (0, d.get MSH_NIDX.IDX)
  | .MSH_NDATA_W2 => (0, d.get MSH_NIDX.IDX)
  | .MSH_NDATA_W3 => (0, d.get MSH_NIDX.IDX)
  | .MSH_NDATA_W4 => (0, d.get MSH_NIDX.IDX)
  | .MSH_NDATA_W5 => (0, d.get MSH_NIDX.IDX)
  | .MSH_SDATA_W0 => (0, d.get MSH_SIDX.IDX)
  | .MSH_SDATA_W1 => (0, d.get MSH_SIDX.IDX)
  | .MSH_SDATA_W2 => (0, d.get MSH_SIDX.IDX)
  | .MSH_SDATA_W3 => (0, d.get MSH_SIDX.IDX)
  | .TXN_HINFO0 => (0, d.get TXN_HIDX.HANDLE)
  | .TXN_HINFO1 => (0, d.get TXN_HIDX.HANDLE)
  | .TXN_HINFO2 => (0, d.get TXN_HIDX.HANDLE)
  | .TXN_HINFO3 => (0, d.get TXN_HIDX.HANDLE)
  | .TXN_HINFO4 => (0, d.get TXN_HIDX.HANDLE)
  | .UHF_RPY_D0 => (i, d.rpyView i)
  | .UHF_RPY_D1 => (i, d.rpyView i)
  | .UHF_RPY_D2 => (i, d.rpyView i)
  | .UHF_RPY_D3 => (i, d.rpyView i)
  | .UHF_RPY_D4 => (i, d.rpyView i)
  | .UHF_RPY_D5 => (i, d.rpyView i)
  | .UHF_RPY_D6 => (i, d.rpyView i)
  | .UHF_RPY_D7 => (i, d.rpyView i)
  | .HFR_RPY_D0 => (0, (d.chx 9).view)
  | .HFR_RPY_D1 => (0, (d.chx 9).view)
  | .HFR_RPY_D2 => (0, (d.chx 9).view)
  | .HFR_RPY_D3 => (0, (d.chx 9).view)
  | .HFR_RPY_D4 => (0, (d.chx 9).view)
  | .HFR_RPY_D5 => (0, (d.chx 9).view)
  | .HFR_RPY_D6 => (0, (d.chx 9).view)
  | .HFR_RPY_D7 => (0, (d.chx 9).view)
  | .ACT_RPY_D0 => (0, (d.chx 10).view)
  | .ACT_RPY_D1 => (0, (d.chx 10).view)
  | .ACT_RPY_D2 => (0, (d.chx 10).view)
  | .ACT_RPY_D3 => (0, (d.chx 10).view)
  | .ACT_RPY_D4 => (0, (d.chx 10).view)
  | .ACT_RPY_D5 => (0, (d.chx 10).view)
  | .ACT_RPY_D6 => (0, (d.chx 10).view)
  | .ACT_RPY_D7 => (0, (d.chx 10).view)
  | _ => (i, j)

/-- The reply DATA word of a receiving register block. -/
def Dev.viewReply (d : Dev) (r : Reg) (i : Nat) : Option Nat :=
  match r with
  | .UHF_RPY_DATA => some (d.replyWord (.uhf (Fin.ofNat 9 i)))
  | .HFR_RPY_DATA => some (d.replyWord .hfr)
  | .ACT_RPY_DATA => some (d.replyWord .act)
  | _ => none

/-- The computed value of a field, where it has one. -/
def State.viewOf (s : State) (f : Fld) (i j : Nat) : Option Nat :=
  let d := s.dev
  (d.viewChain f i).or <| (d.viewVat f i).or <| (d.viewEngines f i).or <| (d.viewRgu f i j).or <|
    (d.viewRadio f i).or <| (d.viewTime f i j).or <| (s.viewMgt f).or <| d.viewReply f.r i

/-- A field's value as a read returns it: a WO field reads 0 (R7). -/
def State.fieldRead (s : State) (r : Reg) (w : Row) (i j : Nat) : Nat :=
  let f : Fld := ⟨r, w.hi, w.lo⟩
  if w.acc = .wo then 0
  else match s.viewOf f i j with
    | some v => v % 2 ^ f.width
    | none => let p := s.dev.place r i j; s.dev.get f p.1 p.2

/-- The word that a read of a register returns; reserved bits read 0 (R9). -/
def State.regRead (s : State) (r : Reg) (i j : Nat) : Nat :=
  (r.rows.map (fun w => s.fieldRead r w i j * 2 ^ w.lo)).sum

end Sys2Proof.Machine
end

