-- ==== Sys2Proof/Machine/RegBus.lean ====
section
/-! DEFINITION. The bus: where an address falls, what a write of a register does field by field, what a read returns and what
it changes besides, and the errors of an access (R5 to R9, R19, R23 to R26, R433, R462). -/

namespace Sys2Proof.Machine

/-- HLK_ADDR. -/ def stHlkAddr : Nat := 0x0801
/-- HLK_ACCESS. -/ def stHlkAccess : Nat := 0x0802
/-- MSH_BUSY (R329). -/ def stMshBusyReg : Nat := 0x040E

/-! ### Where an address falls (R23) -/

/-- The unit and index of a register at a distance from its first copy. -/
def Place.at' (p : Place) (off : Nat) : Option (Nat × Nat) :=
  let i := if p.si = 0 then 0 else min (p.ni - 1) (off / p.si)
  let r := off - i * p.si
  let j := if p.sj = 0 then 0 else min (p.nj - 1) (r / p.sj)
  if r = j * p.sj then some (i, j) else none

/-- The register at an address. -/
def regAt (a : Nat) : Option (Reg × Nat × Nat) :=
  Reg.all.findSome? (fun r =>
    let p := r.place
    if p.base ≤ a then (p.at' (a - p.base)).map (fun x => (r, x.1, x.2)) else none)

/-- The island of the block register space at an address (table "Block register bases"); none outside every block. -/
def blockIsland (a : Nat) : Option Nat :=
  let b := a / 0x10000 - 0x4000
  if a < 0x40000000 then none
  else if b = 0 ∨ (3 ≤ b ∧ b ≤ 7) ∨ b = 9 ∨ b = 0xA ∨ (0x10 ≤ b ∧ b ≤ 0x1A) then some 2
  else if b = 1 ∨ b = 2 ∨ b = 0x22 ∨ b = 0x2B then some 0
  else if b = 8 then some 3
  else if b = 0x20 then some 5
  else if b = 0x21 then some 6
  else if b = 0x23 then some 7
  else if b = 0x24 then some 8
  else if b = 0x25 then some 9
  else if b = 0x26 then some 4
  else if 0x27 ≤ b ∧ b ≤ 0x2A then some 1
  else none

/-- The memory windows (table "Memory windows"). -/
inductive MemWin where
  | hoop | sram | ranger | capture | cellar | mram
deriving DecidableEq, Repr

/-- First address, end and island of a window. -/
def MemWin.span : MemWin → Nat × Nat × Nat
  | .hoop => (0, 0x100000, 2)
  | .sram => (0x100000, 0x180000, 2)
  | .ranger => (0x200000, 0x240000, 1)
  | .capture => (0x300000, 0x340000, 2)
  | .cellar => (0x4000000, 0x4400000, 3)
  | .mram => (0x8000000, 0x8200000, 1)

/-- The window that holds `n` bytes from an address. -/
def memWin (a n : Nat) : Option MemWin :=
  [MemWin.hoop, .sram, .ranger, .capture, .cellar, .mram].find? (fun w => decide (w.span.1 ≤ a) && decide (a + n ≤ w.span.2.1))

/-- The bytes of a width. -/
def widthBytes : Width → Nat
  | .b1 => 1 | .b2 => 2 | .b4 => 4 | .b8 => 8

/-! ### A write of a register, field by field (R7 to R9, R462) -/

/-- The fields that a write sets by a rule of their own, by their lowest bit. RGU_ACTIVE.PROF is set by a selection alone (R265). -/
def Reg.special : Reg → List Nat
  | .UHF_CTRL => [16, 8]
  | .UHF_PWR => [0]
  | .UHF_FE => [3]
  | .UHF_ANT => [0]
  | .UHF_RAMP => [16, 0]
  | .UHF_TXW => [16, 0]
  | .UHF_TRIP => [0]
  | .UHF_LKC_CTRL => [0]
  | .RGU_ACTIVE => [16]
  | .UHF_LKC_TRIM => [16, 0]
  | .UHF_MODP_A => [30, 29, 16, 0]
  | .UHF_MODP_B => [16, 0]
  | .UHF_MODP_C => [16, 0]
  | .UHFS_SPARE => [24]
  | .SYN_F_FREQ => [0]
  | .SYN_SHADOW => [4, 0]
  | .UHF_RX_CTRL => [2]
  | .VAT_ENTRY => [0]
  | .VAT_OC => [0]
  | .VAT_G => [0]
  | .VAT_SWAP => [0]
  | .VAT_TRIG => [4]
  | .TXN_POOL => [16, 0]
  | .LDG_CTRL => [0]
  | .LDG_SEED => [0]
  | .LDG_OVF => [16, 0]
  | .BRG_CAN_CFG => [31, 30, 24, 0]
  | .BRG_CAN_RADDR => [31, 0]
  | .CAL_TDATA => [31, 0]
  | .HFR_CTRL => [16]
  | .HFR_DRV => [0]
  | .HFR_TRIP => [0]
  | .HFR_RX => [6]
  | .HFR_MODE => [28, 24, 22, 21, 20, 19, 8]
  | .ACT_CTRL => [16]
  | .ACT_TRIP => [0]
  | .ACT_TXCFG => [0]
  | .ACT_LIMIT => [0]
  | .WKR_CODE => [0]
  | .MSH_CTRL => [31, 30, 29]
  | .MSH_NET => [16, 0]
  | .MSH_PHY => [28, 24, 16, 12, 10, 5, 0]
  | .MSH_SYNC => [16, 0]
  | .MSH_SCAN => [16, 0]
  | .MSH_HOP => [24, 16, 8, 0]
  | .MSH_SF => [31, 0]
  | .SPE_CTRL => [31, 28]
  | .SPE_MAC_LO => [0]
  | .SPE_MAC_HI => [0]
  | .RING_CTRL => [31, 24]
  | .RING_CNT_W0 => [0]
  | .RING_CNT_W1 => [0]
  | .RING_CMP_W0 => [0]
  | .TRL_CH => [31, 30, 8, 0]
  | .TRL_PDATA => [31, 0]
  | .TRL_CMASK_LO => [0]
  | .TRL_CMASK_HI => [0]
  | .QMX_Q_BASE => [31, 16, 0]
  | .QMX_Q_EP => [24, 16, 0]
  | .PWR_CTRL => [28, 0]
  | .HLK_ERR => [16]
  | .HLK_IRQPEND => [0]
  | .HLK_DMA_CFG => [31, 8, 0]
  | .HLK_DMA_BASE_LO => [0]
  | .HLK_DMA_BASE_HI => [0]
  | .HLK_DMA_SHD_LO => [0]
  | .HLK_DMA_SHD_HI => [0]
  | .HLK_DMA_RD => [0]
  | _ => []

/-- One field written by its access code (R7): RWL only in MANUFACTURE and DEVELOP, whoever writes; RWO only by the Ranger. -/
def Dev.fieldWrite (d : Dev) (by' : Writer) (f : Fld) (acc : Access) (x i j : Nat) : Dev :=
  match acc with
  | .rw => d.put f x i j
  | .ro => d
  | .wo => d
  | .w1c => d.put f (Nat.land (d.get f i j) (2 ^ f.width - 1 - x)) i j
  | .w1s => d.put f (Nat.lor (d.get f i j) x) i j
  | .rwl => if d.open' then d.put f x i j else d
  | .rwo => if byRanger by' then d.put f x i j else d

/-- Every field of a register written by its access code, but for those of a list. -/
def Dev.plainWrite (d : Dev) (by' : Writer) (r : Reg) (skip : List Nat) (v i j : Nat) : Dev :=
  let p := d.place r i j
  r.rows.foldl (fun d w =>
    if skip.contains w.lo then d else d.fieldWrite by' ⟨r, w.hi, w.lo⟩ w.acc (bitsOf v w.hi w.lo) p.1 p.2) d

/-! ### Registers with behaviour of their own -/

/-- What a write sets in motion. -/
abbrev Act := State → Host.Outcome State Fault Refusal

/-- A device operation as an action. -/
def onDev (f : Dev → Dev) : Act := fun s => s.on f

/-- An action that a bit of the value asks for. -/
def when (b : Bool) (a : Act) : List Act := if b then [a] else []

/-- The state an action leads to. -/
def State.doAct (s : State) (a : Act) : State :=
  match a s with
  | .next t => t
  | _ => s

/-- Actions one after another. -/
def State.doActs (s : State) (l : List Act) : State := l.foldl State.doAct s

/-- The trip causes that are still asserted at a write that clears them: nothing in the write says which, so they are a free
value. -/
def Dev.stillAsserted (d : Dev) : Nat := (Config.freeValue d.fresh).toNat

/-- The next free value. -/
def freshNext : Act := onDev (fun d => { d with fresh := d.fresh + 1 })

/-- Whether a writer may set ENTRY and NEW_ENTRY (R124, R462). -/
def Dev.loads (d : Dev) (by' : Writer) : Bool := by' == .loader || d.open'

/-- A ramp time as it is stored (R51): outside 307 to 3,072 ticks the nearer limit. -/
def rampLimit (x : Nat) : Nat := max 307 (min 3072 x)

/-- Actions of a chain's registers. -/
def chainActs (r : Reg) (v i j : Nat) (d : Dev) : List Act :=
  let c : ChainNo := Fin.ofNat 9 i
  match r with
  | .UHF_CTRL => [execSynSelWrite c (BitVec.ofNat 2 (bitsOf v 9 8)), aloneUhfTargetWrite c (BitVec.ofNat 3 (bitsOf v 18 16))]
  | .UHF_PWR => [execSetptWrite c (BitVec.ofNat 9 v)]
  | .UHF_FE => [execPaenPolWrite c (bitOf v 3)]
  | .UHF_ANT => [alonePortWrite c (BitVec.ofNat 4 v)]
  | .UHF_RAMP =>
    [onDev (fun d => (d.put UHF_RAMP.RAMP_DN (rampLimit (bitsOf v 27 16)) i).put UHF_RAMP.RAMP_UP (rampLimit (bitsOf v 11 0)) i)]
  | .UHF_TXW => [execTxwWrite c (BitVec.ofNat 8 (bitsOf v 23 16)) (BitVec.ofNat 10 v)]
  | .UHF_TRIP =>
    when (bitsOf v 9 0 != 0) (execTripClear c (BitVec.ofNat 10 v) (BitVec.ofNat 10 d.stillAsserted)) ++
      when (bitsOf v 9 0 != 0) freshNext ++ when (bitOf v 31) (aloneTripForce c)
  | .UHF_LKC_CTRL => when (bitsOf v 1 0 != 3) (onDev (fun d =>
      (d.setCh (d.driver i) { d.chx (d.driver i) with trackAt := d.tick }).put UHF_LKC_CTRL.MODE (bitsOf v 1 0) i))
  | .UHF_LKC_TRIM =>
    when (d.get UHF_LKC_CTRL.MODE (d.cfg i) != 2)
      (onDev (fun d => (d.put UHF_LKC_TRIM.TRIM_I (bitsOf v 27 16) i).put UHF_LKC_TRIM.TRIM_Q (bitsOf v 11 0) i))
  | .UHF_MODP_A => [execModpWrite c (Fin.ofNat 4 j) 0 (BitVec.ofNat 32 v)]
  | .UHF_MODP_B => [execModpWrite c (Fin.ofNat 4 j) 1 (BitVec.ofNat 32 v)]
  | .UHF_MODP_C => [execModpWrite c (Fin.ofNat 4 j) 2 (BitVec.ofNat 32 v)]
  | .UHF_RX_CTRL => when (decide (bitsOf v 3 2 < 2)) (onDev (fun d => d.put UHF_RX_CTRL.AGC (bitsOf v 3 2) i))
  | .UHF_RX_VCLR => when (bitOf v 1) (execVclrVio c) ++ when (bitOf v 0) (execVclrCls c)
  | .UHF_CAP_CTRL => if bitOf v 30 then [execCapAbort c] else when (bitOf v 31) (execCapArm c)
  | .UHFS_SPARE => [execReadinessWrite (BitVec.ofNat 2 (bitsOf v 25 24))]
  | .UHFS_TAKE =>
    if bitOf v 4 && bitOf v 8 then [onDev (fun d => d.takeErr stTakeBlocked)]
    else when (bitOf v 4) (aloneTakeGo (BitVec.ofNat 4 v)) ++ when (bitOf v 8) execTakeRelease
  | .SYN_F_CTRL => when (bitOf v 8) (execRecal (Fin.ofNat 4 i))
  | .SYN_F_FREQ => [aloneSynFreqWrite (Fin.ofNat 4 i) (BitVec.ofNat 20 v)]
  | .SYN_SHADOW =>
    let store := onDev (fun d =>
      if d.shadowRuns then d else (d.put SYN_SHADOW.DST (bitsOf v 5 4)).put SYN_SHADOW.SRC (bitsOf v 1 0))
    if bitOf v 12 then [store, execShadowCancel]
    else if bitOf v 8 then [execShadowGo (BitVec.ofNat 2 v) (BitVec.ofNat 2 (bitsOf v 5 4))]
    else [store]
  | _ => []

/-- Actions of the Vat registers (R111, R122 to R124, R133). -/
def vatActs (by' : Writer) (r : Reg) (v i j : Nat) (d : Dev) : List Act :=
  let n : VatNo := Fin.ofNat 16 i
  let dbg := by' == .host || by' == .jtag
  match r with
  | .VAT_CTRL =>
    when (bitOf v 5) (execCntClr n) ++
      (if bitOf v 1 then [aloneStop n]
       else if bitOf v 2 then when dbg (execDbgHalt n)
       else if bitOf v 0 then [execStart n]
       else if bitOf v 3 then when dbg (aloneResume n)
       else when (bitOf v 4 && dbg) (execStep n))
  | .VAT_ENTRY => when (d.loads by' && d.vatWritable i) (onDev (fun d => d.put VAT_ENTRY.ENTRY v i))
  | .VAT_OC => when (d.open' && d.vatWritable i) (onDev (fun d => d.put VAT_OC.OC v i))
  | .VAT_G => when (d.open' && d.vatWritable i) (onDev (fun d => d.put VAT_G.G v i j))
  | .VAT_SWAP =>
    let store := when (d.loads by') (onDev (fun d => d.put VAT_SWAP.NEW_ENTRY v i))
    if bitOf v 31 then store ++ [execVatSwapCancel n]
    else if bitOf v 30 then [execVatSwapArm by' n (BitVec.ofNat 18 v)]
    else store
  | .VAT_TRIG =>
    [onDev (fun d => (List.range 4).foldl (fun d k => if bitOf v (4 + k) then d.put TRL_CSTAT.OVR 0 0 (4 * i + k) else d) d)]
  | .VAT_GSTART => [execVatGstart (BitVec.ofNat 16 v)]
  | .VAT_GSTOP => [aloneVatGstop (BitVec.ofNat 16 v)]
  | .VAT_ASTAT => when (bitOf v 9) (execUnbind n) ++ when (bitOf v 8) (execAclr n)
  | _ => []

/-- A write of LDG_CMD (R202): other operations are ignored. -/
def ldgCmdAct (op : Nat) (arg : BitVec 16) : List Act :=
  if op = 1 then [execLdgRead arg] else if op = 2 then [execLdgDelete arg] else if op = 3 then [execClearBank arg]
  else if op = 4 then [execAge] else if op = 5 then [execClearAll] else [onDev (fun d => d.ldgUnlisted)]

/-- Actions of the transaction engine, ledger, bearing matcher and calibration. -/
def engineActs (r : Reg) (v i : Nat) : List Act :=
  let w := BitVec.ofNat 32 v
  match r with
  | .TXN_POOL => [aloneTxnPoolWrite w]
  | .TXN_HCMD =>
    if bitOf v 30 then [aloneTxnAbort (BitVec.ofNat 8 v)] else when (bitOf v 31) (aloneTxnFree (BitVec.ofNat 8 v))
  | .LDG_CTRL => [execLdgRunWrite (bitOf v 0)]
  | .LDG_SEED => [execLdgSeedWrite w]
  | .LDG_OVF => [execLdgOvfWrite w]
  | .LDG_CMD => ldgCmdAct (bitsOf v 31 28) (BitVec.ofNat 16 v)
  | .BRG_CAN_CFG => [execBrgCfgWrite (Fin.ofNat 4 i) w]
  | .BRG_CAN_RADDR => [execBrgRaddrWrite (Fin.ofNat 4 i) w]
  | .BRG_PCAL =>
    if bitOf v 30 then [execPcalAbort] else when (bitOf v 31) (alonePcalArm w)
  | .CAL_CMD =>
    let u : BitVec 4 := BitVec.ofNat 4 (bitsOf v 23 20)
    if bitOf v 30 then [execCalAbort u]
    else when (bitOf v 31)
      (execCalGo u (BitVec.ofNat 4 (bitsOf v 15 12)) (BitVec.ofNat 4 (bitsOf v 11 8)) (BitVec.ofNat 3 v))
  | .CAL_TDATA => [execCalTdataWrite w]
  | _ => []

/-- A register of the mesh that RUN locks (R331). -/
def mshLocked (by' : Writer) (r : Reg) (v j : Nat) (d : Dev) : Dev :=
  if d.isSet MSH_CTRL.RUN then d.put MSH_STATUS.LAST_ERR stMshBusyReg else d.plainWrite by' r [] v 0 j

/-- A field of a wired port that only DISABLED lets change (R340). -/
def speLocked (n : Nat) (f : Fld) (v : Nat) (d : Dev) : Dev :=
  if d.speState n = speDisabled then d.put f v n else d.put SPE_STATUS.LAST_ERR stMshBusyReg n

/-- ACT_LIMIT.DUTY written: a duty check of the same tick still uses the old value (R302). -/
def Dev.dutyWrite (d : Dev) (duty : Nat) : Dev :=
  let x := d.chx 10
  let old := match x.hostSet with
    | some (t, old) => if t = d.tick then old else d.get ACT_LIMIT.DUTY
    | none => d.get ACT_LIMIT.DUTY
  (d.setCh 10 { x with hostSet := some (d.tick, old) }).put ACT_LIMIT.DUTY duty

/-- Actions of the HF reader, the 433 MHz port, the wake receivers, the mesh and the wired ports. -/
def radioActs (by' : Writer) (r : Reg) (v i j : Nat) (d : Dev) : List Act :=
  let w := BitVec.ofNat 32 v
  match r with
  | .HFR_CTRL => [aloneHfrTargetWrite (BitVec.ofNat 3 (bitsOf v 18 16))]
  | .HFR_DRV => [execHfrDrvWrite (BitVec.ofNat 9 v)]
  | .HFR_TRIP =>
    when (bitsOf v 5 0 != 0) (execHfrTripClear (BitVec.ofNat 6 v) (BitVec.ofNat 6 d.stillAsserted)) ++
      when (bitsOf v 5 0 != 0) freshNext ++ when (bitOf v 31) aloneHfrForce
  | .HFR_RX => when (decide (bitsOf v 7 6 < 2)) (onDev (fun d => d.put HFR_RX.AGC (bitsOf v 7 6)))
  | .HFR_MODE => [execHfrModeWrite (Fin.ofNat 4 j) w]
  | .ACT_CTRL => [aloneActTargetWrite (BitVec.ofNat 3 (bitsOf v 18 16))]
  | .ACT_TRIP =>
    when (bitsOf v 3 0 != 0) (execActTripClear (BitVec.ofNat 4 v) (BitVec.ofNat 4 d.stillAsserted)) ++
      when (bitsOf v 3 0 != 0) freshNext ++ when (bitOf v 31) aloneActForce
  | .ACT_TXCFG =>
    [onDev (fun d => (d.portSync 10).put ACT_TXCFG.LEVEL (min (bitsOf v 4 0) (min 30 (d.get ACT_LIMIT.MAXP))))]
  | .ACT_LIMIT => when d.open' (onDev (fun d => d.dutyWrite (bitsOf v 9 0)))
  | .HFR_CW_CTRL => when (!bitOf v 31) (onDev (fun d => { d with cw := { d.cw with due := 0 } }))
  | .WKR_CODE => [execWkrCodeWrite w]
  | .MSH_CTRL =>
    [execMshRunWrite (bitOf v 31) (bitOf v 30) (bitOf v 29)] ++ when (bitOf v 28) execRescan ++ when (bitOf v 27) execMshCntClr
  | .MSH_NET => [onDev (mshLocked by' r v j)]
  | .MSH_PHY => [onDev (mshLocked by' r v j)]
  | .MSH_SYNC => [onDev (mshLocked by' r v j)]
  | .MSH_SCAN => [onDev (mshLocked by' r v j)]
  | .MSH_HOP => [onDev (mshLocked by' r v j)]
  | .MSH_SF => [onDev (mshLocked by' r v j)]
  | .MSH_WAKE => when (bitOf v 31) execMshWake
  | .SPE_CTRL =>
    [onDev (speLocked i SPE_CTRL.AMP (bitsOf v 29 28)), execSpeEnWrite (Fin.ofNat 2 i) (bitOf v 31)] ++
      when (bitOf v 25) (execSpeCntClr (Fin.ofNat 2 i)) ++ when (bitOf v 24) (execRetrain (Fin.ofNat 2 i))
  | .SPE_MAC_LO => [onDev (speLocked i SPE_MAC_LO.ADDR_LO (bitsOf v 31 0))]
  | .SPE_MAC_HI => [onDev (speLocked i SPE_MAC_HI.ADDR_HI (bitsOf v 15 0))]
  | _ => []

/-! ### Trails and queues (R359, R360, R368 to R376) -/

/-- TRL_PDATA (R359): only the Ranger assigns producers to, or takes them from, a SECURE channel. -/
def Dev.pdataWrite (d : Dev) (by' : Writer) (v : Nat) : Dev :=
  let id := d.get TRL_PIDX.ID
  let en := bitOf v 31
  let ch := bitsOf v 5 0
  let taken := (en && d.isSet TRL_CH.SECURE 0 ch) || (d.isSet TRL_PDATA.EN 0 id && d.isSet TRL_CH.SECURE 0 (d.get TRL_PDATA.CH 0 id))
  if producerListed id = false then d
  else if taken && !byRanger by' then d.trlDenied
  else
    let was := (id, d.clk, d.get TRL_PDATA.EN 0 id, d.get TRL_PDATA.CH 0 id)
    ({ d with assigned := some was }.put TRL_PDATA.EN (bit en) 0 id).put TRL_PDATA.CH ch 0 id

/-- Whether a writer may change the subscription of consumer `id` to channel `ch` to `on` (R359). -/
def Dev.mayMask (d : Dev) (by' : Writer) (id ch : Nat) (on : Bool) : Bool :=
  if on then d.maySubscribe (byRanger by') id ch else byRanger by' || !d.isSet TRL_CH.SECURE 0 ch

/-- A consumer mask word for channels from `c0` (R359, R360): a write with a change that the table "Channel rights" does not allow is
ignored and sets TRL_DENIED. -/
def Dev.cmaskWrite (d : Dev) (by' : Writer) (f : Fld) (c0 v : Nat) : Dev :=
  let id := d.get TRL_CIDX.ID
  if consumerListed id = false then d
  else
    let old := d.get f 0 id
    let changed := (List.range 32).filter (fun k => bitOf v k != bitOf old k)
    if changed.all (fun k => d.mayMask by' id (c0 + k) (bitOf v k)) then d.put f v 0 id else d.trlDenied

/-- A write of PWR_CTRL (R386, R392, R395, R397): one with ENTER while ENTERING is ignored but for its LAST_ERR. -/
def pwrActs (by' : Writer) (v : Nat) : List Act :=
  let enter := bitOf v 31 && !bitOf v 30
  [onDev (fun d =>
    if enter && d.entering then d
    else (d.put PWR_CTRL.TARGET (bitsOf v 29 28)).fieldWrite by' PWR_CTRL.TEST .rwl (bitsOf v 0 0) 0 0)] ++
    (if bitOf v 30 then [alonePwrCancel] else when enter (execPwrEnter (BitVec.ofNat 2 (bitsOf v 29 28))))

/-- Actions of rings, trails, queues, power and system registers. -/
def timeActs (by' : Writer) (r : Reg) (v i j : Nat) : List Act :=
  let w := BitVec.ofNat 32 v
  let ring : Fin 8 := Fin.ofNat 8 i
  let q : QueueNo := Fin.ofNat 48 i
  match r with
  | .RING_CTRL =>
    [aloneRingSrcChange ring (BitVec.ofNat 4 (bitsOf v 27 24)), onDev (fun d => d.put RING_CTRL.EN (bitsOf v 31 31) i)]
  | .RING_CNT_W0 => [execRingCntWrite ring w]
  | .RING_CNT_W1 => [onDev (fun d => d.setRing i { d.ringx i with cntHi := v % 2 ^ 32 })]
  | .RING_CMP_W0 => [aloneRingCmpArm ring (Fin.ofNat 4 j) w]
  | .RING_CMPST => [execRingDisarm ring (BitVec.ofNat 4 (bitsOf v 27 24))]
  | .TRL_CH => [execTrlChWrite by' (Fin.ofNat 64 j) w]
  | .TRL_PDATA => [onDev (fun d => d.pdataWrite by' v)]
  | .TRL_CMASK_LO => [onDev (fun d => d.cmaskWrite by' TRL_CMASK_LO.MASK 0 v)]
  | .TRL_CMASK_HI => [onDev (fun d => d.cmaskWrite by' TRL_CMASK_HI.MASK 32 v)]
  | .TRL_CSTAT => when (bitOf v 31) (onDev (fun d => d.put TRL_CSTAT.MERGE 0 0 (d.get TRL_CIDX.ID)))
  | .TRL_SWPUB => [execTrlSwpub by' (BitVec.ofNat 6 v) (BitVec.ofNat 3 (bitsOf v 10 8))]
  | .QMX_Q_BASE => [execQmxConfigWrite by' q false w]
  | .QMX_Q_EP => [execQmxConfigWrite by' q true w]
  | .QMX_Q_CTRL => when (bitOf v 0) (aloneFlush q) ++ when (bitOf v 1) (execMark q) ++ when (bitOf v 2) (aloneRewind q)
  | .QMX_Q_PUSH => if by' = .host then [aloneQmxPush q w] else [onDev (fun d => d.qPushBy by' i w.toNat)]
  | .PWR_CTRL => pwrActs by' v
  | .SYS_RESET_REQ => [execSysResetReq (BitVec.ofNat 16 (bitsOf v 31 16)) (bitOf v 0)]
  | _ => []

/-- HLK_ERR: a write of 1s clears code, count and address. -/
def Dev.hlkErrClear (d : Dev) : Dev := ((d.put HLK_ERR.CODE 0).put HLK_ERR.COUNT 0).put HLK_ERRADDR.ADDR 0

/-- HLK_IRQPEND (R437): a bit cleared serves its consumer. -/
def Dev.irqClear (d : Dev) (v : Nat) : Dev :=
  ((List.range 32).filter (fun k => bitOf v k && bitOf (d.get HLK_IRQPEND.PEND) k)).foldl (fun d k =>
    (d.put HLK_IRQPEND.PEND (clearBit (d.get HLK_IRQPEND.PEND) k)).served (0x40 + k)) d

/-- Actions of the host link's registers. -/
def hlkActs (r : Reg) (v i : Nat) (d : Dev) : List Act :=
  let base := fun (f : Fld) => when (!d.dmaEn i) (onDev (fun d => d.put f v i))
  match r with
  | .HLK_ERR => when (bitsOf v 31 16 != 0) (onDev (fun d => d.hlkErrClear))
  | .HLK_IRQPEND => [onDev (fun d => d.irqClear v)]
  | .HLK_DMA_CFG => [execDmaCfgWrite (Fin.ofNat 16 i) (BitVec.ofNat 32 v)]
  | .HLK_DMA_BASE_LO => base HLK_DMA_BASE_LO.ADDR
  | .HLK_DMA_BASE_HI => base HLK_DMA_BASE_HI.ADDR
  | .HLK_DMA_SHD_LO => base HLK_DMA_SHD_LO.ADDR
  | .HLK_DMA_SHD_HI => base HLK_DMA_SHD_HI.ADDR
  | .HLK_DMA_RD => [execDmaRdWrite (Fin.ofNat 16 i) (BitVec.ofNat 32 v)]
  | _ => []

/-- Everything a write of a register sets in motion beside its plain fields. -/
def regActs (by' : Writer) (r : Reg) (v i j : Nat) (d : Dev) : List Act :=
  chainActs r v i j d ++ vatActs by' r v i j d ++ engineActs r v i ++ radioActs by' r v i j d ++
    timeActs by' r v i j ++ hlkActs r v i d

/-- The registers of the card watch: a pulse that is over samples before a write of one. -/
def Reg.cardWatch (r : Reg) : Bool :=
  r == .HFR_CW_CTRL || r == .HFR_CW_THR || r == .HFR_CW_BASE || r == .HFR_CW_LAST || r == .HFR_CW_CNT

/-- What the passing of time has done to a unit before a register of it is written. No PPS edge precedes the setting of EN (R353). -/
def Dev.regSync (d : Dev) (r : Reg) (i : Nat) : Dev :=
  if r.cardWatch then d.cwSync
  else if r == .RING_PPSCFG && !d.isSet RING_PPSCFG.EN then { d with pps := { d.pps with last := none } }
  else if r == .UHF_LKC_CTRL && d.cfg (d.driver i) == i then d.lkcFold (d.driver i) d.tick
  else d

/-- A register written: the access reaches its domain, its plain fields change, then what they set in motion follows. The write of
another than the host restarts no device idle timer that was running (R387). -/
def State.regWrite (s : State) (by' : Writer) (r : Reg) (v i j : Nat) : State :=
  let d := (s.dev.accessed r i by').regSync r i
  let t : State := { s with dev := d.plainWrite by' r r.special v i j }
  let t := t.doActs (regActs by' r v i j t.dev)
  if by' != .host && s.dev.entryIdle then { t with dev := { t.dev with busyAt := s.dev.busyAt } } else t

/-! ### Memory windows (R23 to R26) -/

/-- The `n` low bytes of a value, least significant first (R5). -/
def lowBytes (v : Nat) : Nat → List Byte
  | 0 => []
  | n + 1 => BitVec.ofNat 8 v :: lowBytes (v / 256) n

/-- Bytes written to hoop memory: the check codes of the words touched are good. -/
def Dev.hoopBytes (d : Dev) (a : Nat) (bs : List Byte) : Dev :=
  { d.setBytes a bs with ecc := d.ecc.filter (fun e => decide (e.1 < a / 4) || decide ((a + bs.length - 1) / 4 < e.1)) }

/-- Vats that were started in this cycle and whose entry point no valid hoop holds any more have no running hoop (R168, R182). -/
def Dev.hoopsGone (d : Dev) : Dev :=
  vatIds.foldl (fun d v =>
    if (d.vatx v).started = d.clk + 1 ∧ (d.hoopBase (d.get VAT_ENTRY.ENTRY v)).isNone = true then d.findHoop v else d) d

/-- A write in a memory window. -/
def Dev.memWrite (d : Dev) (by' : Writer) (w : MemWin) (a : Nat) (bs : List Byte) : Dev :=
  match w with
  | .hoop => if d.loads by' then (d.hoopBytes a bs).hoopsGone else d.busErr by' stHlkAddr a
  | .sram => d.setBytes a bs
  | .capture => d.capSync.setBytes a bs
  | .ranger => if byRanger by' || by' == .jtag then d.setBytes a bs else d.busErr by' stHlkAddr a
  | .cellar => if d.isSet LDG_STATUS.STOPPED then d.setBytes a bs else d.busErr by' stHlkAddr a
  | .mram => d.busErr by' stHlkAddr a

/-- The bytes that a read in a memory window returns; none where it is refused: the Ranger SRAM, and a poisoned Cellar bank
(R24, R206). -/
def State.memRead (s : State) (by' : Writer) (w : MemWin) (a n : Nat) : Option (List Byte) :=
  match w with
  | .ranger => if byRanger by' || by' == .jtag then some (s.dev.bytes a n) else none
  | .cellar => if s.dev.stale ((a - cellar) / 0x40000) || s.dev.stale ((a + n - 1 - cellar) / 0x40000) then none else some (s.dev.bytes a n)
  | .mram => some (s.mramBytes (a - 0x8000000) n)
  | .capture => some (s.dev.capSync.bytes a n)
  | _ => some (s.dev.bytes a n)

/-! ### The MSI-X table in the HLK block (R432) -/

/-- An address in the MSI-X table. -/
def inMsixTable (a : Nat) : Bool := decide (0x40261000 ≤ a) && decide (a < 0x40261200)

/-- The reserved bits of an entry's vector control are read-only 0. -/
def msixValue (a v : Nat) : Nat := if a % 16 = 12 then v % 2 else v

/-! ### A bus access -/

/-- A bus access arrives: a host's restarts the device idle timer (R387). -/
def Dev.busBy (d : Dev) (by' : Writer) : Dev := if by' = .host then d.busyNow else d

/-- An access to `n` bytes of a memory window: one of the Cellar's reaches the banks it touches (R382, R383). -/
def Dev.reachMem (d : Dev) (w : MemWin) (a n : Nat) : Dev :=
  match w with
  | .cellar => (d.reachBank ((a - cellar) / 0x40000)).reachBank ((a + n - 1 - cellar) / 0x40000)
  | _ => d

/-- A bus write. Past an entry's point of no return nothing is served (R388). -/
def State.busWrite (s : State) (by' : Writer) (n a v : Nat) : State :=
  let d := s.dev.busBy by'
  let s : State := { s with dev := d }
  let err := fun code => { s with dev := d.busErr by' code a }
  if d.pwr.asleep.isSome then s else
  match blockIsland a with
  | some k =>
    if d.present k = false then err stIsland
    else if n ≠ 4 ∨ a % 4 ≠ 0 then err stHlkAccess
    else if inMsixTable a then { s with dev := d.setWord a (msixValue a v) }
    else match regAt a with
      | some (r, i, j) => s.regWrite by' r v i j
      | none => s
  | none =>
    match memWin a n with
    | some w =>
      if d.present w.span.2.2 then { s with dev := (d.reachMem w a n).memWrite by' w a (lowBytes v n) } else err stIsland
    | none => err stHlkAddr

/-- The Ranger reads the status of one of its task inputs TK_RGR_IN0 to IN7: it has read the input, which is no longer busy (R366;
assumption: DESIGN CHOICE, the spec names no other access by which the Ranger reads an input). -/
def Dev.rangerReads (d : Dev) (id : Nat) : Dev := if 0x70 ≤ id ∧ id < 0x78 then d.served id else d

/-- A read of a register whose access does more than return data (R82, R342, R350, R357, R373, R401, R421, R331). -/
def State.regReadActs (s : State) (by' : Writer) (r : Reg) (i j : Nat) : State :=
  let ans : State := { s with dev := s.dev.answers [s.regRead r i j] }
  match r with
  | .UHF_RPY_DATA => ans.doAct (execReplyDataRead (.uhf (Fin.ofNat 9 i)))
  | .HFR_RPY_DATA => ans.doAct (execReplyDataRead .hfr)
  | .ACT_RPY_DATA => ans.doAct (execReplyDataRead .act)
  | .RING_CNT_W0 => s.doAct (execRingCntRead (Fin.ofNat 8 i))
  | .RING_CAP_W0 => s.doAct (aloneRingCapRead (Fin.ofNat 8 i) (Fin.ofNat 2 j))
  | .RING_PPS_W0 => ans.doAct (onDev (fun d => d.put RING_PPS_W1.PPS_HI (d.pps.stamp / 2 ^ 32)))
  | .RING_AT_W0 => ans.doAct (onDev (fun d => d.put RING_AT_W1.AT_HI (d.tick / 2 ^ 32)))
  | .AON_HW_W0 => s.doAct execAonHwRead
  | .MSH_ASN_LO => ans.doAct (onDev (fun d => d.put MSH_ASN_HI.ASN_HI (d.msh.asn / 2 ^ 32)))
  | .QMX_Q_POP => s.doAct (if by' = .host then execQmxPop (Fin.ofNat 48 i) else onDev (fun d => d.qPopBy by' i))
  | .TRL_CSTAT => if byRanger by' then ans.doAct (onDev (fun d => d.rangerReads (d.get TRL_CIDX.ID))) else ans
  | .SNS_TRNG => s.doAct aloneSnsTrngRead
  | .MGT_LOG_D => if j = 0 then s.doAct execMgtLogRead else ans
  | _ => ans

/-- The words of a list of bytes, least significant byte first. -/
def bytesWords : List Byte → List Nat
  | [] => []
  | [a] => [a.toNat]
  | [a, b] => [a.toNat + 256 * b.toNat]
  | [a, b, c] => [a.toNat + 256 * b.toNat + 65536 * c.toNat]
  | a :: b :: c :: e :: l => (a.toNat + 256 * b.toNat + 65536 * c.toNat + 16777216 * e.toNat) :: bytesWords l

/-- A bus read: the words it returns stand in the host link's record; one with an error returns 0. Past an entry's point of no return
nothing is served (R388). -/
def State.busRead (s : State) (by' : Writer) (n a : Nat) : State :=
  let d := s.dev.busBy by'
  let s : State := { s with dev := d }
  if d.pwr.asleep.isSome then s else
  let err := fun code => { s with dev := (d.busErr by' code a).answers [0] }
  match blockIsland a with
  | some k =>
    if d.present k = false then err stIsland
    else if n ≠ 4 ∨ a % 4 ≠ 0 then err stHlkAccess
    else if inMsixTable a then { s with dev := d.answers [d.word a] }
    else if a = 0x40261800 then { s with dev := d.answers [d.msixPending] }
    else match regAt a with
      | some (r, i, j) =>
        let t : State := { s with dev := d.accessed r i by' }.regReadActs by' r i j
        if by' = .host then t else { t with dev := { t.dev with busyAt := d.busyAt } }
      | none => { s with dev := d.answers [0] }
  | none =>
    match memWin a n with
    | some w =>
      if d.present w.span.2.2 then
        match s.memRead by' w a n with
        | some bs => { s with dev := (d.reachMem w a n).answers (bytesWords bs) }
        | none => err stHlkAddr
      else err stIsland
    | none => err stHlkAddr

/-- What Vat and Ranger debug reach from the JTAG port (R123, R415): the register block of the Vats, and the Ranger's SRAM
(assumption: DEDUCED). -/
def debugReach (a : Nat) : Bool := a / 0x10000 == 0x4006 || (decide (0x200000 ≤ a) && decide (a < 0x240000))

/-- The JTAG port has no access to an address (table "Life-cycle rights"): in DEVELOP outside Vat and Ranger debug, in FIELD none at
all, in RETURNED only reads, and those only after a vendor debug certificate. -/
def Dev.jtagShut (d : Dev) (read : Bool) (a : Nat) : Writer → Bool
  | .jtag => (d.lcs == 1 && !debugReach a) || d.lcs == 2 || (d.lcs == 3 && !(read && d.isSet LCS_STATE.DBG_OPEN))
  | _ => false

/-- A vendor debug certificate in Data SRAM is genuine (R408): it carries the vendor root key whose digest is fused, and that key's
signature over its first 192 bytes. Its layout follows the return token's, without MAGIC and challenge (assumption: DESIGN CHOICE). -/
def State.certOk (s : State) (a : Nat) : Bool :=
  let t := s.dev.bytes a 328
  let vkey := (t.drop 56).take 133
  sramOk a 328 && (t.drop 8).take 16 == s.nv.serialBytes && sha512Bytes vkey == s.nv.rootDigest &&
    p521Verify vkey (t.take 0xC0) (t.drop 0xC0)

/-- The vendor presents a debug certificate through the JTAG port in RETURNED: a write of LCS_STATE with the address of the
certificate in Data SRAM (R408, R415, R422; assumption: DESIGN CHOICE, the spec gives the certificate no command). -/
def State.debugCert (s : State) (a v : Nat) (by' : Writer) : State :=
  if by' = .jtag ∧ s.dev.lcs = 3 ∧ a = 0x40290000 ∧ s.certOk v = true then { s with dev := s.dev.put LCS_STATE.DBG_OPEN 1 } else s

/-- REGISTER_WRITE: a bus write of the width given (R6, R7, R24), for who has the right (R415). -/
def execRegisterWrite (by' : Writer) (width : Width) (addr : Word) (value : BitVec 64) (s : State) :
    Host.Outcome State Fault Refusal :=
  let n := widthBytes width
  .next (if s.dev.jtagShut false addr.toNat by' then s.debugCert addr.toNat (value.toNat % 256 ^ n) by'
    else s.busWrite by' n addr.toNat (value.toNat % 256 ^ n))

/-- REGISTER_READ: a bus read (R24, R433), for who has the right (R415). -/
def execRegisterRead (by' : Writer) (width : Width) (addr : Word) (s : State) : Host.Outcome State Fault Refusal :=
  .next (if s.dev.jtagShut true addr.toNat by' then s else s.busRead by' (widthBytes width) addr.toNat)

end Sys2Proof.Machine
end

