-- ==== Sys2Proof/Machine/HostLink.lean ====
section
/-! DEFINITION. The SPI target (R435, R436). -/

namespace Sys2Proof.Machine

/-- The SPI target answers: the strap selects it, and but for STATUS step 6 is done (R429, R436). -/
def Dev.spiOn (d : Dev) : Bool := d.isSet SYS_STRAP.HSEL && d.hlkReady

/-- The armed reset of the SPI target. -/
def Dev.spiArm (d : Dev) (b : Bool) : Dev := { d with hlk := { d.hlk with spiArmed := b } }

/-- The address after a word: it stays in the block register space and advances by 4 in memory windows (R436). -/
def spiNext (a : Nat) : Nat := if 0x40000000 ≤ a then a else a + 4

/-- The words of a WRITE transaction, one after another. -/
def State.spiWords (s : State) (a : Nat) : List Word → State
  | [] => s
  | w :: ws => (s.busWrite .host 4 a w.toNat).spiWords (spiNext a) ws

/-- The words of a READ transaction: `n` words from address `a`. A stalled POP holds the transaction there; the words of its
item come with the command that ends the stall (assumption: DESIGN CHOICE). -/
def State.spiTake (s : State) (a : Nat) (got : List Nat) : Nat → State
  | 0 => { s with dev := s.dev.answers got }
  | n + 1 =>
    let t := { s with dev := s.dev.answers [] }.busRead .host 4 a
    if t.dev.hlk.read.isEmpty then { t with dev := t.dev.answers got }
    else t.spiTake (spiNext a) (got ++ t.dev.hlk.read) n

/-- SPI_WRITE: address and data words. -/
def execSpiWrite (addr : Word) (words : List Word) (s : State) : Host.Outcome State Fault Refusal :=
  let s := { s with dev := s.dev.spiArm false }
  if s.dev.spiOn then .next (s.spiWords addr.toNat words) else .next s

/-- SPI_READ: address and count byte C, for C + 1 words. -/
def execSpiRead (addr : Word) (count : BitVec 8) (s : State) : Host.Outcome State Fault Refusal :=
  let s := { s with dev := s.dev.spiArm false }
  if s.dev.spiOn then .next (s.spiTake addr.toNat [] (count.toNat + 1)) else .next s

/-- The STATUS byte: [2] READY, [1] ERR, [0] BUSY. A write is applied in its own command, so BUSY reads 0. -/
def Dev.spiStatusByte (d : Dev) : Nat :=
  (if d.hlkReady then 4 else 0) + (if d.get HLK_ERR.CODE = 0 ∧ d.get HLK_ERR.COUNT = 0 then 0 else 2)

/-- SPI_STATUS. -/
def execSpiStatus (s : State) : Host.Outcome State Fault Refusal :=
  s.on (fun d =>
    let d := d.spiArm false
    if d.isSet SYS_STRAP.HSEL then d.answers [d.spiStatusByte] else d)

/-- SPI_RESET_ARM: the command byte 0x66. -/
def execSpiResetArm (s : State) : Host.Outcome State Fault Refusal := s.on (fun d => d.spiArm d.spiOn)

/-- SPI_RESET: 0x99, which resets the host-link island when the transaction before it armed. -/
def execSpiReset (s : State) : Host.Outcome State Fault Refusal :=
  s.on (fun d => if d.spiOn && d.hlk.spiArmed then d.hlkIsland else d.spiArm false)

end Sys2Proof.Machine
end

