-- ==== Sys2Proof/Machine/Rails.lean ====
section
/-! DEFINITION. The supply monitors: what the fall of a rail does (R27, R449, R451, R461). -/

namespace Sys2Proof.Machine

/-- SUPPLY as a trip cause of a chain (table "Trip causes"). -/
def tripSupply : Nat := 0x020

/-- The rails that an integrator may remove while SLEEPN is low (table "Supply rails"). -/
def railSwitched (r : Nat) : Bool := r == 0 || r == 1 || r == 2 || r == 5 || r == 6 || r == 7

/-- The fall stands in SNS_SUPPLY. -/
def Dev.railLow (d : Dev) (r : Nat) : Dev := (d.putBit SNS_SUPPLY.LOW r true).putBit SNS_SUPPLY.NOW r true

/-- Every chain with a cause that applies trips with SUPPLY. -/
def Dev.supplyTrips (d : Dev) : Dev := (chainIds.foldl (fun d c => d.trip c tripSupply) d).resumeHeld

/-- VDD_RF: every chain and ACT trip, and the mesh radio is off. -/
def Dev.railRf (d : Dev) : Dev := (d.supplyTrips.portTrip 10 0x2).gateOff .msh

/-- Both wired links go down. -/
def Dev.railLinks (d : Dev) : Dev :=
  [0, 1].foldl (fun d n => if d.speState n = speUp then d.speGo n speAn else d) d

/-- The power-on reset of a falling VDD_AON; the straps are those sampled last until the reset ends. -/
def Dev.railAon (d : Dev) : Dev :=
  let e := d.powerOn ⟨false, false, false⟩
  { e with rst := { e.rst with straps := d.rst.straps } }

/-- The monitor action of rail `r`. -/
def Dev.railAction (d : Dev) (r : Nat) : Dev :=
  match r with
  | 0 => d.deviceReset rcBrownout
  | 1 => (d.railLow 1).railRf
  | 2 => (d.railLow 2).supplyTrips
  | 3 => d.deviceReset rcBrownout
  | 4 => (d.railLow 4).portTrip 9 0x8
  | 5 => d.deviceReset rcBrownout
  | 6 => (d.railLow 6).railLinks
  | 7 => (d.railLow 7).hlkIsland
  | 8 => d.railAon
  | _ => d

/-- BROWN_OUT: a supply monitor below its threshold. While SLEEPN is low the switched rails' monitors are ignored, and those
of all rails but VDD_AON, VDD_DRAM and VDD_HF are such. -/
def execBrownOut (rail : BitVec 4) (s : State) : Host.Outcome State Fault Refusal :=
  s.on (fun d => if d.pwr.off && railSwitched rail.toNat then d else d.railAction rail.toNat)

end Sys2Proof.Machine
end

