-- ==== Sys2Proof/Machine/Startup.lean ====
section
/-! DEFINITION. The start-up sequence: what each step does and its end (R178, R205, R239, R265, R341 to R344, R391, R405, R407,
R424 to R428). -/

namespace Sys2Proof.Machine

/-- ROLL_MISSING. -/ def stRollMissing : Nat := 0x0806
/-- HLK_LINK_DOWN, with which step 6 ends. -/ def stStepLink : Nat := 0x0805
/-- AT_RESTORED_UNCERTAIN. -/ def stAtUncertain : Nat := 0x0A01

/-! ### Which step may end (R424, R425, R428) -/

/-- Step `k` is done. -/
def Dev.stepDone (d : Dev) (k : Nat) : Bool := bitOf (d.get SYS_STEP.DONE) (k - 1)
/-- Step `k` ended with a status. -/
def Dev.stepFailed (d : Dev) (k : Nat) : Bool := bitOf (d.get SYS_STEP.FAILED) (k - 1)

/-- What step 6 stands before: it, or without the HLK island the roll call. -/
def Dev.hostStep (d : Dev) : Bool := if d.present 4 then d.stepDone 6 else d.stepDone 4

/-- No calibration runs on the units of a list. -/
def Dev.calNone (d : Dev) (units : List Nat) : Bool := units.all (fun u => (d.calOf u).isNone)

/-- The mesh has been joined, or is rooted here (R320). -/
def Dev.meshJoined (d : Dev) : Bool := d.get MSH_STATUS.STATE == 2 || d.get MSH_STATUS.STATE == 3

/-- A wired port is configured. -/
def Dev.speUsed (d : Dev) : Bool := d.isSet SPE_CTRL.EN 0 || d.isSet SPE_CTRL.EN 1

/-- Every wired port with EN = 1 is UP (R334). -/
def Dev.speAllUp (d : Dev) : Bool := (List.range 2).all (fun n => !d.isSet SPE_CTRL.EN n || d.get SPE_STATUS.STATE n == 3)

/-- The steps before step `k` are done, its work has ended, and it runs in this start-up. Steps 12 and 13 end when the mesh is joined and
the ports are UP, or else when their time is up (R424). -/
def Dev.stepMay (d : Dev) (k : Nat) : Bool :=
  let full := !d.rgr.recovery
  let air := full && d.present 2
  match k with
  | 1 => true
  | 2 => d.stepDone 1
  | 3 => d.stepDone 2
  | 4 => d.stepDone 3
  | 5 => d.stepDone 4
  | 6 => d.stepDone 4 && d.present 4
  | 7 => air && d.hostStep && d.calNone [9, 10, 11, 12]
  | 8 => air && d.stepDone 7 && d.calNone chainIds
  | 9 => air && d.stepDone 8
  | 10 => air && d.stepDone 9
  | 11 => full && d.hostStep && d.calNone [13]
  | 12 => full && d.stepDone 9 && (d.meshJoined || decide (d.rst.step9 + msTicks (16 * d.get MSH_SCAN.SCAN_DWELL) ≤ d.tick))
  | 13 => full && d.stepDone 9 && (d.speAllUp || decide (d.rst.step9 + msTicks 1500 ≤ d.tick))
  | _ => false

/-! ### Step 2: identity, and AT from the heartwood edge after the system PLL locks (R341, R343, R344, R414) -/

/-- The increment of AT over `n` heartwood ticks. -/
def Dev.atGain (d : Dev) (n : Nat) : Nat :=
  n * (if d.isSet AON_ATCFG.RVALID then d.get AON_ATRATIO.RATIO else 0x927C0000) / 2 ^ 19

/-- The uncertainty of a restored AT, ticks. -/
def Dev.atUnc (d : Dev) (gain : Nat) : Nat :=
  let sd := if d.isSet AON_ATCFG.RVALID then 3 * d.get AON_ATCFG.SD else 5000
  2 + (gain * (sd + d.get AON_ATCFG.XDRIFT) + 99999999) / 100000000

/-- After a wake AT goes on from the entry. -/
def Dev.atRestore (d : Dev) : Dev :=
  let anc := d.get AON_ENT_W2.ANC_LO + 2 ^ 32 * d.get AON_ENT_W3.ANC_HI
  let n := (d.hw + 2 ^ 48 - anc) % 2 ^ 48
  let gain := d.atGain n
  let unc := d.atUnc gain
  let d := { d with clk := 2 * (d.get AON_ENT_W0.AT_LO + 2 ^ 32 * d.get AON_ENT_W1.AT_HI + gain) }
  let d := (d.put AON_ATST.RESTORED 1).put AON_ATST.UNC (min (2 ^ 30 - 1) unc)
  if d.get AON_ATCFG.THR * 65536 < unc then
    (d.put AON_ATST.UNCERTAIN 1).logWarn 0x02 0 stAtUncertain [unc, n, n / 2 ^ 32]
  else d.put AON_ATST.UNCERTAIN 0

/-- AT is loaded: 0, or after a wake the restored value; the edge is the new anchor, and the one from which the mirror of the mesh slot
count counts (R317). -/
def Dev.atLoad (d : Dev) : Dev :=
  let d := { d with hw := (d.hw + Config.heartwoodGap d.fresh) % 2 ^ 48, fresh := d.fresh + 1 }
  let d := if d.rst.wasWake then d.atRestore
    else (({ d with clk := 0 }.put AON_ATST.RESTORED 0).put AON_ATST.UNCERTAIN 0).put AON_ATST.UNC 0
  let d := { d with asn := { d.asn with tick := d.tick } }
  (d.put AON_ENT_W2.ANC_LO d.hw).put AON_ENT_W3.ANC_HI (d.hw / 2 ^ 32)

/-- Step 2; the ROM has read the eFuses: serial number, Vendor ID, subsystem IDs (R414, R430). -/
def State.step2 (s : State) : State :=
  let d := (List.range 4).foldl (fun d k => d.put LCS_SERIAL.SERIAL (s.nv.serialWord k) 0 k) s.dev
  let d := d.atLoad.put HLK_PCI_ID.VENDOR s.nv.vendor
  { s with dev := { d with hlk := { d.hlk with subsys := s.nv.subsys } } }

/-! ### Step 3: the ROM, and the torn slots (R405, R411, R412) -/

/-- Every torn slot is logged with its region and slot. -/
def State.logTorn (s : State) : State :=
  { s with dev := (List.range 5).foldl (fun d r =>
      (List.range 2).foldl (fun d k => if s.nv.torn r k then d.logWarn 0x27 (2 * r + k) stNvmTorn else d) d) s.dev }

/-! ### Step 4: roll call (R425) -/

/-- The islands that did not answer are logged and stay off; what runs on AIR can tell of the restored AT. -/
def Dev.rollCall (d : Dev) (present : Nat) : Dev :=
  let missing := (List.range 10).filter (fun i => !bitOf present i)
  let d := (d.put SYS_ROLL.PRESENT present).put SYS_ROLL.MISSING (missing.map (fun i => 2 ^ i)).sum
  let d := missing.foldl (fun d i => d.logWarn 0x00 i stRollMissing) d
  if d.isSet AON_ATST.RESTORED && d.present 2 then d.publish evAtRestored else d

/-! ### Step 5: the Cellar (R205) -/

/-- A retained bank fails its check: a missed refresh interval, or another signature. -/
def Dev.retFails (d : Dev) (k sig : Nat) : Bool := d.pwr.missed.contains k || d.bankSig k != sig

/-- Banks are poisoned, logged with the mask and a heartwood stamp, and told. -/
def Dev.poison (d : Dev) (banks : List Nat) (stamp : Nat) : Dev :=
  let m := (banks.map (fun k => 2 ^ k)).sum
  if banks = [] then d
  else ((d.put LDG_BANK.STALE (Nat.lor (d.get LDG_BANK.STALE) m)).logWarn 0x08 0 stLdgStale
    [m, stamp, stamp / 2 ^ 32]).publish evLdgStale

/-- Step 5: after a wake the retention check, else the self-test and zeroing; the engine serves unless RUN = 0
stopped it before (R203, R205). Every bank is out of self-refresh for it (R382). A retained bank is judged by its signature and its
refresh alone, so that one poisoned before the entry is in service again if it passes (assumption: DESIGN CHOICE, the spec does not say
whether it stays poisoned over the wake). FAILED keeps the banks of the last wake; those that a self-test finds are added in the same way (R205). -/
def Dev.cellarCheck (d : Dev) (failed : Nat) : Dev :=
  let d := (List.range 16).foldl (fun d k => d.reachBank k) d
  let d := if d.rst.wasWake then
      let kept := d.pwr.sigs
      let bad := (kept.filter (fun x => d.retFails x.1 x.2)).map (fun x => x.1)
      let good := (kept.filter (fun x => !d.retFails x.1 x.2)).map (fun x => x.1)
      let d := (d.put AON_RET_STATUS.FAILED (bad.map (fun k => 2 ^ k)).sum).put LDG_BANK.RET (good.map (fun k => 2 ^ k)).sum
      d.poison bad (d.get AON_WAKE_REC1.HW_LO + 2 ^ 32 * d.get AON_WAKE_REC2.HW_HI)
    else
      (((d.zero cellar 0x400000).put AON_RET_STATUS.FAILED (Nat.lor (d.get AON_RET_STATUS.FAILED) failed))).poison ((List.range 16).filter (fun k => bitOf failed k)) d.hw
  let d := { d with pwr := { d.pwr with sigs := [], missed := [] } }
  let d := d.recount
  if d.ldg.phase = 0 then d.put LDG_STATUS.READY 1 else d

/-! ### Steps 7, 8 and 11: stores, profile, calibrations (R239, R265, R324, R422) -/

/-- What the Ranger restores first: the calibration store and the profile.
Restoring the chains' trims is their first access (R42; assumption: DEDUCED). -/
def State.restore (s : State) : State :=
  let n := s.nv
  let d := s.dev.calRestore n
  let d := match n.startProfile with
    | some p => d.activate n p
    | none => d.put RGU_ACTIVE.PERMIT n.usableMask
  let d := chainIds.foldl (fun d c => if d.cst c = csOff then d.chainGo c csReady d.tick else d) d
  { s with dev := d }

/-- What the Ranger loads into the MSH island once it has answered the roll call: the extended address, and the frame counter at its
mark (R324). -/
def State.meshRestore (s : State) : State :=
  let n := s.nv
  let d := s.dev
  let addr := (Config.meshAddress n.serialBytes (n.word ctrEpoch)).toNat
  let mark := n.word ctrFcMark
  let d := ((d.put MSH_EXT_LO.EXT_LO addr).put MSH_EXT_HI.EXT_HI (addr / 2 ^ 32)).put MSH_FCOUT.FC mark
  if d.present 7 then { s with dev := d.setMsh { d.msh with mark := mark } } else s

/-- Calibrations of start-up begin on units of a list; their attempts end by the commands that end attempts. -/
def Dev.calStarts (d : Dev) (units : List Nat) (op : Nat) : Dev :=
  units.foldl (fun d u => if (d.calOf u).isNone then d.calBegin u op 0 0 else d) d

/-- What begins when step 6, or without the HLK island step 4, is done: step 7 and step 11. -/
def State.afterHost (s : State) : State :=
  if s.dev.rgr.recovery then s
  else
    let s := if s.dev.present 2 then let t := s.restore; { t with dev := t.dev.calStarts [9, 10, 11, 12] 1 } else s
    if s.dev.present 5 then { s with dev := s.dev.calStarts [13] 9 } else s

/-! ### Step 9: boot set, preloads, auto-start, the events of the wake (R178, R391, R407) -/

/-- A preload is bad or addressed to SYS, PWR, LCS, NVM or MGT. -/
def preloadBad (a : Nat) : Bool :=
  [0x4000, 0x4001, 0x4027, 0x4028, 0x4029].contains (a / 0x10000) || a % 4 != 0 || ((regAt a).isNone && !inMsixTable a)

/-- One preload pair; a pair with address 0 is empty (assumption: DESIGN CHOICE). -/
def State.preload (s : State) (a v : Nat) : State :=
  if a = 0 then s
  else if preloadBad a then { s with dev := s.dev.logWarn 0x27 2 (Config.codeIn 0x07 50) [a, v] }
  else s.busWrite .ranger 4 a v

/-- The preload pairs of the configuration store, in order, then the Vats of its auto-start mask. -/
def State.configApply (s : State) : State :=
  match s.nv.currentBase 2 with
  | none => s
  | some b =>
    let s := (List.range 1000).foldl (fun s k => s.preload (s.nv.word (b + 0x100 + 8 * k)) (s.nv.word (b + 0x104 + 8 * k))) s
    let m := BitVec.ofNat 16 (s.nv.word (b + 0x44))
    { s with dev := (maskVats m).foldl (fun d v => d.vatStart v) s.dev }

/-- The AON latch publishes the wake and those of its sources that are producers. -/
def Dev.wakeEvents (d : Dev) : Dev :=
  match d.rst.wakeMask with
  | none => d
  | some m =>
    let d := d.publish evPwrWake
    let d := if bitOf m 2 then d.publish evHfrCard else d
    let d := if bitOf m 0 then d.publish evWkr433 else d
    let d := if bitOf m 1 then d.publish evWkr24 else d
    { d with rst := { d.rst with wakeMask := none } }

/-- Step 9. -/
def State.step9 (s : State) : State :=
  let s := { s with dev := s.dev.bootSet s.nv }.configApply
  { s with dev := s.dev.wakeEvents }

/-! ### The end of a step (R426) -/

/-- SYS_STRAP from the latch in AON (R429). -/
def Dev.strapsLoad (d : Dev) : Dev :=
  let d := (d.put SYS_STRAP.HSEL d.rst.straps).put SYS_STRAP.QSPI4 (d.rst.straps / 2)
  d.put SYS_STRAP.RCVRY (d.rst.straps / 4)

/-- The work of step `k`. -/
def State.stepWork (s : State) (k : Nat) (o : StepObs) : State :=
  let d := s.dev
  match k with
  | 1 => { s with dev := d.strapsLoad }
  | 2 => s.step2
  | 3 => s.rangerUp.logTorn
  | 4 => { s with dev := d.rollCall o.present.toNat }.meshRestore
  | 5 => { s with dev := d.cellarCheck o.failedBanks.toNat }
  | 9 => s.step9
  | _ => s

/-- The status of a step that did not succeed and whose code no rule gives: the one observed, which is not 0. -/
def failStatus (o : StepObs) : Nat := if o.status = 0 then Config.codeAny 70 else o.status.toNat

/-- The status of step `k` where a rule gives it (roll call, Cellar, host link, mesh, wired ports), else the one observed. -/
def Dev.stepStatus (d : Dev) (k : Nat) (o : StepObs) : Nat :=
  if k = 4 then (if d.get SYS_ROLL.MISSING = 0 then 0 else stRollMissing)
  else if k = 5 then (if d.get LDG_BANK.STALE = 0 then 0 else stLdgStale)
  else if k = 6 then (if d.isSet HLK_STATUS.LINK || d.isSet SYS_STRAP.HSEL then 0 else stStepLink)
  else if k = 12 then (if d.meshJoined then 0 else failStatus o)
  else if k = 13 then (if d.speAllUp then 0 else failStatus o)
  else o.status.toNat

/-- Bits, log entry and event of a step that ends with a status. What steps 4 and 5 log they have logged. -/
def Dev.stepEnds (d : Dev) (k st : Nat) : Dev :=
  let d := d.put SYS_STEP.DONE (Nat.lor (d.get SYS_STEP.DONE) (2 ^ (k - 1)))
  let d := if st = 0 then d
    else
      let d := d.put SYS_STEP.FAILED (Nat.lor (d.get SYS_STEP.FAILED) (2 ^ (k - 1)))
      if k = 4 ∨ k = 5 then d else d.logWarn 0x00 k st
  d.publish (evSysStep k)

/-- The PLL locks as observed. -/
def Dev.pllLocks (d : Dev) (l : Nat) : Dev :=
  (((d.put SYS_CLK.SYS_LOCK l).put SYS_CLK.HF_LOCK (l / 2)).put SYS_CLK.SPE_LOCK (l / 4)).put SYS_CLK.HLK_LOCK (l / 8)

/-- A failed step 2 holds the device in reset until another reset comes (R424). -/
def Dev.holdReset (d : Dev) : Dev :=
  let n := d.get SYS_RESET_CAUSE.DEV_COUNT
  let d := d.wiped
  { d with rst := { d.rst with asserted := true, held := true } }.put SYS_RESET_CAUSE.DEV_COUNT n

/-- Steps 12 and 13 of a unit that is not configured are done with step 9 (R424). -/
def Dev.unusedSteps (d : Dev) : Dev :=
  let d := { d with rst := { d.rst with step9 := d.tick } }
  let d := if d.isSet MSH_CTRL.RUN then d else d.stepEnds 12 0
  if d.speUsed then d else d.stepEnds 13 0

/-- What begins at the end of step `k`. -/
def State.stepNext (s : State) (k : Nat) : State :=
  if k = 2 ∧ s.dev.stepFailed 2 = true then { s with dev := s.dev.holdReset } else
  if k = 9 then { s with dev := s.dev.unusedSteps } else
  if (k = 6 ∨ (k = 4 ∧ s.dev.present 4 = false)) then s.afterHost
  else if k = 7 then { s with dev := s.dev.calStarts chainIds 7 }
  else s

/-- STARTUP_STEP_END: step `k`, 1 to 13. A step that has ended, whose predecessors have not, or that this start-up does not
run changes nothing; after a failed step 2 the device is held in reset and no later one runs. -/
def execStartupStepEnd (k : Fin 14) (o : StepObs) (s : State) : Host.Outcome State Fault Refusal :=
  let d := s.dev
  if d.rst.asserted ∨ d.stepDone k.val = true ∨ d.stepFailed 2 = true ∨ d.stepMay k.val = false then .next s
  else
    let s := s.stepWork k.val o
    if s.dev.rst.asserted then .next s
    else
      let d := s.dev.pllLocks o.locks.toNat
      .next ({ s with dev := d.stepEnds k.val (d.stepStatus k.val o) }.stepNext k.val)

end Sys2Proof.Machine
end

