-- ==== Sys2Proof/Machine/Ties.lean ====
section
/-! DEFINITION. The order of what happens in one moment: the commands that a rule orders against others of the same AT tick or Vat cycle,
whichever of them stands first in the queue (R60, R80, R115, R120, R157, R194, R228, R302, R338, R346, R349, R355, R377, R395, R418). -/

namespace Sys2Proof.Machine

/-- The device after an outcome. -/
def Outcome.devOr (o : Host.Outcome State Fault Refusal) (d : Dev) : Dev :=
  match o with
  | .next t => t.dev
  | _ => d

/-- What a command that a rule orders against others does to the device by itself. -/
def State.alone (s : State) (c : Instr) : Dev :=
  match c with
  | .tripForce c => Outcome.devOr (aloneTripForce c s) s.dev
  | .chainTrip c causes => Outcome.devOr (aloneChainTrip c causes s) s.dev
  | .synFreqWrite m freq => Outcome.devOr (aloneSynFreqWrite m freq s) s.dev
  | .shadowSwap => Outcome.devOr (aloneShadowSwap s) s.dev
  | .uhfTargetWrite c target => Outcome.devOr (aloneUhfTargetWrite c target s) s.dev
  | .takeGo chain => Outcome.devOr (aloneTakeGo chain s) s.dev
  | .plannedSwitch => Outcome.devOr (alonePlannedSwitch s) s.dev
  | .releaseSwitch => Outcome.devOr (aloneReleaseSwitch s) s.dev
  | .rguLimitEnd fe => Outcome.devOr (aloneRguLimitEnd fe s) s.dev
  | .overpower fe fwd => Outcome.devOr (aloneOverpower fe fwd s) s.dev
  | .rguDesync => Outcome.devOr (aloneRguDesync s) s.dev
  | .hfrTargetWrite target => Outcome.devOr (aloneHfrTargetWrite target s) s.dev
  | .hfrForce => Outcome.devOr (aloneHfrForce s) s.dev
  | .hfrTrip causes => Outcome.devOr (aloneHfrTrip causes s) s.dev
  | .actTargetWrite target => Outcome.devOr (aloneActTargetWrite target s) s.dev
  | .actForce => Outcome.devOr (aloneActForce s) s.dev
  | .actTrip causes => Outcome.devOr (aloneActTrip causes s) s.dev
  | .stop v => Outcome.devOr (aloneStop v s) s.dev
  | .vatGstop mask => Outcome.devOr (aloneVatGstop mask s) s.dev
  | .trailsDelivery id => Outcome.devOr (aloneTrailsDelivery id s) s.dev
  | .resume v => Outcome.devOr (aloneResume v s) s.dev
  | .rangerDebugResume => Outcome.devOr (aloneRangerDebugResume s) s.dev
  | .tdone v ra => Outcome.devOr (aloneTdone v ra s) s.dev
  | .tfail v ra rb => Outcome.devOr (aloneTfail v ra rb s) s.dev
  | .txnFree h => Outcome.devOr (aloneTxnFree h s) s.dev
  | .topen v rd ra rb queue ext => Outcome.devOr (aloneTopen v rd ra rb queue ext s) s.dev
  | .matchReady k => Outcome.devOr (aloneMatchReady k s) s.dev
  | .pcalArm value => Outcome.devOr (alonePcalArm value s) s.dev
  | .speLinkLoss n => Outcome.devOr (aloneSpeLinkLoss n s) s.dev
  | .ringSrcChange n src => Outcome.devOr (aloneRingSrcChange n src s) s.dev
  | .ringCmpArm n k lo => Outcome.devOr (aloneRingCmpArm n k lo s) s.dev
  | .ringSourceTick n => Outcome.devOr (aloneRingSourceTick n s) s.dev
  | .ringCapRead n j => Outcome.devOr (aloneRingCapRead n j s) s.dev
  | .qmxPush q word => Outcome.devOr (aloneQmxPush q word s) s.dev
  | .flush q => Outcome.devOr (aloneFlush q s) s.dev
  | .qpush v ra rb w queue => Outcome.devOr (aloneQpush v ra rb w queue s) s.dev
  | .qpop v rd ra w queue => Outcome.devOr (aloneQpop v rd ra w queue s) s.dev
  | .pointOfNoReturn => Outcome.devOr (alonePointOfNoReturn s) s.dev
  | .trngHealthFail => Outcome.devOr (aloneTrngHealthFail s) s.dev
  | .lsnDecision p o => Outcome.devOr (aloneLsnDecision p o s) s.dev
  | .portWrite c port => Outcome.devOr (alonePortWrite c port s) s.dev
  | .clr v imm => Outcome.devOr (aloneClr v imm s) s.dev
  | .vatTimeout v => Outcome.devOr (aloneVatTimeout v s) s.dev
  | .txnAbort h => Outcome.devOr (aloneTxnAbort h s) s.dev
  | .txnPoolWrite value => Outcome.devOr (aloneTxnPoolWrite value s) s.dev
  | .lput v rd ra rb off => Outcome.devOr (aloneLput v rd ra rb off s) s.dev
  | .matchStart k => Outcome.devOr (aloneMatchStart k s) s.dev
  | .speFrameRx n f => Outcome.devOr (aloneSpeFrameRx n f s) s.dev
  | .ringCapture n j => Outcome.devOr (aloneRingCapture n j s) s.dev
  | .rewind q => Outcome.devOr (aloneRewind q s) s.dev
  | .ptrMismatch q => Outcome.devOr (alonePtrMismatch q s) s.dev
  | .pwrCancel => Outcome.devOr (alonePwrCancel s) s.dev
  | .wake sources detail => Outcome.devOr (aloneWake sources detail s) s.dev
  | .wakenPin => Outcome.devOr (aloneWakenPin s) s.dev
  | .wakeTimer => Outcome.devOr (aloneWakeTimer s) s.dev
  | .hwcmpWake => Outcome.devOr (aloneHwcmpWake s) s.dev
  | .snsTrngRead => Outcome.devOr (aloneSnsTrngRead s) s.dev
  | _ => s.dev

/-! ### Which comes first -/

/-- The place of a command in the table "Same-tick precedence" (R60), but for the launch; 0 where it has none. -/
def chainRank : Instr → Nat
  | .tripForce _ => 1
  | .chainTrip _ _ => 1
  | .synFreqWrite _ _ => 2
  | .shadowSwap => 3
  | .uhfTargetWrite _ _ => 4
  | .portWrite _ _ => 5
  | _ => 0

/-- Commands that may be the CUT cause of a window of a UHF chain (R80). -/
def uhfCut : Instr → Bool
  | .tripForce _ => true
  | .chainTrip _ _ => true
  | .uhfTargetWrite _ _ => true
  | .takeGo _ => true
  | .plannedSwitch => true
  | .releaseSwitch => true
  | .rguLimitEnd _ => true
  | .overpower _ _ => true
  | .rguDesync => true
  | _ => false

/-- Commands that may be the CUT cause of a window of the HF port (R281). -/
def hfrCut : Instr → Bool
  | .hfrTargetWrite _ => true
  | .hfrForce => true
  | .hfrTrip _ => true
  | _ => false

/-- Commands that may be the CUT cause of a window of the ACT port (R296, R302). -/
def actCut : Instr → Bool
  | .actTargetWrite _ => true
  | .actForce => true
  | .actTrip _ => true
  | _ => false

/-- A cause of a CUT comes before the decision on its window; an ARM of a phase measurement too (R80, R228, R302). -/
def beforeDecision (c : Instr) : RxPort → Bool
  | .uhf _ => uhfCut c || (c matches .pcalArm _)
  | .hfr => hfrCut c
  | .act => actCut c

/-- Command `c` comes before `x` where both fall in one AT tick. -/
def firstInTick (c x : Instr) : Bool :=
  match x with
  | .lsnDecision p _ => beforeDecision c p
  | .lput _ _ _ _ _ => (c matches .matchReady _)
  | .matchStart k => c == .matchReady k
  | .speFrameRx n _ => c == .speLinkLoss n
  | .ringSourceTick n =>
    match c with
    | .ringSrcChange m _ => m == n
    | .ringCmpArm m _ _ => m == n
    | .resume _ => true
    | .rangerDebugResume => true
    | _ => false
  | .ringCapture n j => c == .ringSourceTick n || c == .ringCapRead n j
  | .trailsDelivery id =>
    match c with
    | .ringSourceTick n => id.val == 0x60 + 2 * n.val || id.val == 0x61 + 2 * n.val
    | .ringCapRead n j => id.val == 0x60 + 2 * n.val + j.val
    | _ => false
  | .snsTrngRead => c == .trngHealthFail
  | .pwrCancel => c == .pointOfNoReturn
  | .wake _ _ => c == .pointOfNoReturn
  | .wakenPin => c == .pointOfNoReturn
  | .wakeTimer => c == .pointOfNoReturn
  | .hwcmpWake => c == .pointOfNoReturn
  | _ => decide (0 < chainRank c) && decide (chainRank c < chainRank x)

/-- Command `c` comes before `x` where both fall in one Vat cycle; `d` is the device that `x` found. -/
def firstInCycle (d : Dev) (c x : Instr) : Bool :=
  match x with
  | .clr v _ =>
    d.isSet VAT_STATUS.SWAP_PEND v.val && (match c with
      | .stop w => w == v
      | .vatGstop mask => mask.getLsbD v.val
      | _ => false)
  | .vatTimeout _ => (c matches .trailsDelivery _)
  | .txnAbort _ =>
    match c with
    | .tdone _ _ => true
    | .tfail _ _ _ => true
    | _ => false
  | .topen _ _ _ _ _ _ => (c matches .txnFree _)
  | .txnPoolWrite _ => (c matches .topen _ _ _ _ _ _)
  | .flush q =>
    match c with
    | .qmxPush p _ => p == q && (d.qx q.val).left.isSome
    | _ => false
  | .qmxPush q _ => c == .flush q && (d.qx q.val).left.isNone
  | .ptrMismatch q => c == .flush q
  | .rewind q =>
    match c with
    | .qmxPush p _ => p == q
    | .qpush _ _ _ _ p => p.toNat == q.val
    | _ => false
  | .qpush v _ _ _ q =>
    match c with
    | .qpush w _ _ _ p => decide (w < v) && p == q
    | .flush p => p.val == q.toNat
    | _ => false
  | .qpop v _ _ _ q =>
    match c with
    | .qpop w _ _ _ p => decide (w < v) && p == q
    | _ => false
  | _ => false

/-! ### The record of a moment -/

/-- The device after commands, one after another. -/
def State.rerun (s : State) (d : Dev) (l : List Instr) : Dev := l.foldl (fun d c => { s with dev := d }.alone c) d

/-- The commands of the present tick that have run, with the device before them; none where anything else has changed it since. -/
def State.record (s : State) : Dev × List Instr :=
  match s.same with
  | some r => if r.1.tick = s.dev.tick ∧ s.rerun r.1 r.2 = s.dev then r else (s.dev, [])
  | none => (s.dev, [])

/-- The commands `l` that ran from device `d`, cut before the first one that `c` comes before; `f` is the device after `c` alone. -/
def State.cutBefore (s : State) (c : Instr) (f : Dev) : Dev → List Instr → List Instr × List Instr
  | _, [] => ([], [])
  | d, x :: l =>
    let e := { s with dev := d }.alone x
    if (firstInTick c x && f.tick == e.tick) || (firstInCycle d c x && f.clk == e.clk) then ([], x :: l)
    else
      let r := s.cutBefore c f e l
      (x :: r.1, r.2)

/-- The commands of this moment that have run before `c` although `c` comes before them, and those it follows. -/
def State.around (s : State) (c : Instr) : List Instr × List Instr :=
  s.cutBefore c (s.alone c) s.record.1 s.record.2

/-- No command of this moment has run that `c` comes before. -/
def State.inTurn (s : State) (c : Instr) : Bool := (s.around c).2.isEmpty

/-- The record with one more command, run at a device that it left as `f`; a later moment begins a new one. -/
def State.noted (s : State) (l : List Instr) (c : Instr) (f : Dev) : Option (Dev × List Instr) :=
  let r := s.record
  if r.2 ≠ [] ∧ f.tick = r.1.tick then some (r.1, l) else some (s.dev.toClk f.clk, [c])

/-- A command runs, and is recorded for those that come before it. -/
def State.marks (s : State) (c : Instr) : Host.Outcome State Fault Refusal :=
  let f := s.alone c
  .next { s with dev := f, same := s.noted (s.record.2 ++ [c]) c f }

/-- A command runs; where commands of its moment that it comes before have run, they run anew after it. -/
def State.inOrder (s : State) (c : Instr) : Host.Outcome State Fault Refusal :=
  if s.inTurn c then s.marks c
  else
    let r := s.around c
    let l := r.1 ++ c :: r.2
    .next { s with dev := s.rerun s.record.1 l, same := some (s.record.1, l) }

/-! ### The commands -/

/-- A write of UHFn_TRIP, in its order within the moment. -/
def execTripForce (c : ChainNo) (s : State) : Host.Outcome State Fault Refusal := s.inOrder (.tripForce c)

/-- A chain detects trip causes, in its order within the moment. -/
def execChainTrip (c : ChainNo) (causes : BitVec 10) (s : State) : Host.Outcome State Fault Refusal := s.inOrder (.chainTrip c causes)

/-- A host write of SYN_Fm_FREQ, in its order within the moment. -/
def execSynFreqWrite (m : Fin 4) (freq : BitVec 20) (s : State) : Host.Outcome State Fault Refusal := s.inOrder (.synFreqWrite m freq)

/-- SHADOW_SWAP, in its order within the moment. -/
def execShadowSwap (s : State) : Host.Outcome State Fault Refusal := s.inOrder .shadowSwap

/-- A write of UHFn_CTRL, in its order within the moment. -/
def execUhfTargetWrite (c : ChainNo) (target : BitVec 3) (s : State) : Host.Outcome State Fault Refusal :=
  s.inOrder (.uhfTargetWrite c target)

/-- A write of UHFS_TAKE with GO, in its order within the moment. -/
def execTakeGo (chain : BitVec 4) (s : State) : Host.Outcome State Fault Refusal := s.inOrder (.takeGo chain)

/-- PLANNED_SWITCH, in its order within the moment. -/
def execPlannedSwitch (s : State) : Host.Outcome State Fault Refusal := s.inOrder .plannedSwitch

/-- RELEASE_SWITCH, in its order within the moment. -/
def execReleaseSwitch (s : State) : Host.Outcome State Fault Refusal := s.inOrder .releaseSwitch

/-- RGU_LIMIT_END, in its order within the moment. -/
def execRguLimitEnd (fe : Fin 8) (s : State) : Host.Outcome State Fault Refusal := s.inOrder (.rguLimitEnd fe)

/-- OVERPOWER, in its order within the moment. -/
def execOverpower (fe : Fin 8) (fwd : BitVec 12) (s : State) : Host.Outcome State Fault Refusal := s.inOrder (.overpower fe fwd)

/-- RGU_DESYNC, in its order within the moment. -/
def execRguDesync (s : State) : Host.Outcome State Fault Refusal := s.inOrder .rguDesync

/-- A write of HFR_CTRL, in its order within the moment. -/
def execHfrTargetWrite (target : BitVec 3) (s : State) : Host.Outcome State Fault Refusal := s.inOrder (.hfrTargetWrite target)

/-- A write of HFR_TRIP, in its order within the moment. -/
def execHfrForce (s : State) : Host.Outcome State Fault Refusal := s.inOrder .hfrForce

/-- The HF port detects trip causes, in its order within the moment. -/
def execHfrTrip (causes : BitVec 6) (s : State) : Host.Outcome State Fault Refusal := s.inOrder (.hfrTrip causes)

/-- A write of ACT_CTRL, in its order within the moment. -/
def execActTargetWrite (target : BitVec 3) (s : State) : Host.Outcome State Fault Refusal := s.inOrder (.actTargetWrite target)

/-- A write of ACT_TRIP, in its order within the moment. -/
def execActForce (s : State) : Host.Outcome State Fault Refusal := s.inOrder .actForce

/-- The ACT port detects trip causes, in its order within the moment. -/
def execActTrip (causes : BitVec 4) (s : State) : Host.Outcome State Fault Refusal := s.inOrder (.actTrip causes)

/-- STOP, in its order within the moment. -/
def execStop (v : VatNo) (s : State) : Host.Outcome State Fault Refusal := s.inOrder (.stop v)

/-- A write of VAT_GSTOP, in its order within the moment. -/
def execVatGstop (mask : BitVec 16) (s : State) : Host.Outcome State Fault Refusal := s.inOrder (.vatGstop mask)

/-- TRAILS_DELIVERY, in its order within the moment. -/
def execTrailsDelivery (id : Fin 128) (s : State) : Host.Outcome State Fault Refusal := s.inOrder (.trailsDelivery id)

/-- RESUME, in its order within the moment. -/
def execResume (v : VatNo) (s : State) : Host.Outcome State Fault Refusal := s.inOrder (.resume v)

/-- RANGER_DEBUG_RESUME, in its order within the moment. -/
def execRangerDebugResume (s : State) : Host.Outcome State Fault Refusal := s.inOrder .rangerDebugResume

/-- TDONE, in its order within the moment. -/
def execTdone (v : VatNo) (ra : RegNo) (s : State) : Host.Outcome State Fault Refusal := s.inOrder (.tdone v ra)

/-- TFAIL, in its order within the moment. -/
def execTfail (v : VatNo) (ra rb : RegNo) (s : State) : Host.Outcome State Fault Refusal := s.inOrder (.tfail v ra rb)

/-- FREE of a handle, in its order within the moment. -/
def execTxnFree (h : BitVec 8) (s : State) : Host.Outcome State Fault Refusal := s.inOrder (.txnFree h)

/-- TOPEN, in its order within the moment. -/
def execTopen (v : VatNo) (rd ra rb : RegNo) (queue : BitVec 6) (ext : Word) (s : State) : Host.Outcome State Fault Refusal :=
  s.inOrder (.topen v rd ra rb queue ext)

/-- MATCH_READY, in its order within the moment. -/
def execMatchReady (k : Fin 4) (s : State) : Host.Outcome State Fault Refusal := s.inOrder (.matchReady k)

/-- A write of BRG_PCAL with ARM, in its order within the moment. -/
def execPcalArm (value : Word) (s : State) : Host.Outcome State Fault Refusal := s.inOrder (.pcalArm value)

/-- SPE_LINK_LOSS, in its order within the moment. -/
def execSpeLinkLoss (n : Fin 2) (s : State) : Host.Outcome State Fault Refusal := s.inOrder (.speLinkLoss n)

/-- RING_SRC_CHANGE, in its order within the moment. -/
def execRingSrcChange (n : Fin 8) (src : BitVec 4) (s : State) : Host.Outcome State Fault Refusal := s.inOrder (.ringSrcChange n src)

/-- RING_CMP_ARM, in its order within the moment. -/
def execRingCmpArm (n : Fin 8) (k : Fin 4) (lo : Word) (s : State) : Host.Outcome State Fault Refusal := s.inOrder (.ringCmpArm n k lo)

/-- RING_SOURCE_TICK, in its order within the moment. -/
def execRingSourceTick (n : Fin 8) (s : State) : Host.Outcome State Fault Refusal := s.inOrder (.ringSourceTick n)

/-- RING_CAP_READ, in its order within the moment. -/
def execRingCapRead (n : Fin 8) (j : Fin 2) (s : State) : Host.Outcome State Fault Refusal := s.inOrder (.ringCapRead n j)

/-- QMX_PUSH, in its order within the moment. -/
def execQmxPush (q : QueueNo) (word : Word) (s : State) : Host.Outcome State Fault Refusal := s.inOrder (.qmxPush q word)

/-- FLUSH, in its order within the moment. -/
def execFlush (q : QueueNo) (s : State) : Host.Outcome State Fault Refusal := s.inOrder (.flush q)

/-- QPUSH, in its order within the moment. -/
def execQpush (v : VatNo) (ra rb : RegNo) (w : BitVec 8) (queue : BitVec 6) (s : State) : Host.Outcome State Fault Refusal :=
  s.inOrder (.qpush v ra rb w queue)

/-- QPOP, in its order within the moment. -/
def execQpop (v : VatNo) (rd ra : RegNo) (w : BitVec 8) (queue : BitVec 6) (s : State) : Host.Outcome State Fault Refusal :=
  s.inOrder (.qpop v rd ra w queue)

/-- POINT_OF_NO_RETURN, in its order within the moment. -/
def execPointOfNoReturn (s : State) : Host.Outcome State Fault Refusal := s.inOrder .pointOfNoReturn

/-- TRNG_HEALTH_FAIL, in its order within the moment. -/
def execTrngHealthFail (s : State) : Host.Outcome State Fault Refusal := s.inOrder .trngHealthFail

/-- LSN_DECISION, in its order within the moment. -/
def execLsnDecision (p : RxPort) (o : ReplyObs) (s : State) : Host.Outcome State Fault Refusal := s.marks (.lsnDecision p o)

/-- A host write of UHFn_ANT, in its order within the moment. -/
def execPortWrite (c : ChainNo) (port : BitVec 4) (s : State) : Host.Outcome State Fault Refusal := s.marks (.portWrite c port)

/-- CLR, in its order within the moment. -/
def execClr (v : VatNo) (imm : Imm) (s : State) : Host.Outcome State Fault Refusal := s.marks (.clr v imm)

/-- VAT_TIMEOUT, in its order within the moment. -/
def execVatTimeout (v : VatNo) (s : State) : Host.Outcome State Fault Refusal := s.marks (.vatTimeout v)

/-- ABORT of a handle, in its order within the moment. -/
def execTxnAbort (h : BitVec 8) (s : State) : Host.Outcome State Fault Refusal := s.marks (.txnAbort h)

/-- A write of TXN_POOL, in its order within the moment. -/
def execTxnPoolWrite (value : Word) (s : State) : Host.Outcome State Fault Refusal := s.marks (.txnPoolWrite value)

/-- LPUT, in its order within the moment. -/
def execLput (v : VatNo) (rd ra rb : RegNo) (off : BitVec 5) (s : State) : Host.Outcome State Fault Refusal :=
  s.marks (.lput v rd ra rb off)

/-- MATCH_START, in its order within the moment. -/
def execMatchStart (k : Fin 4) (s : State) : Host.Outcome State Fault Refusal := s.marks (.matchStart k)

/-- SPE_FRAME_RX, in its order within the moment. -/
def execSpeFrameRx (n : Fin 2) (f : WireFrame) (s : State) : Host.Outcome State Fault Refusal := s.marks (.speFrameRx n f)

/-- RING_CAPTURE, in its order within the moment. -/
def execRingCapture (n : Fin 8) (j : Fin 2) (s : State) : Host.Outcome State Fault Refusal := s.marks (.ringCapture n j)

/-- REWIND, in its order within the moment. -/
def execRewind (q : QueueNo) (s : State) : Host.Outcome State Fault Refusal := s.marks (.rewind q)

/-- PTR_MISMATCH, in its order within the moment. -/
def execPtrMismatch (q : QueueNo) (s : State) : Host.Outcome State Fault Refusal := s.marks (.ptrMismatch q)

/-- CANCEL, in its order within the moment. -/
def execPwrCancel (s : State) : Host.Outcome State Fault Refusal := s.marks .pwrCancel

/-- WAKE, in its order within the moment. -/
def execWake (sources : BitVec 8) (detail : Word) (s : State) : Host.Outcome State Fault Refusal := s.marks (.wake sources detail)

/-- WAKEN_PIN, in its order within the moment. -/
def execWakenPin (s : State) : Host.Outcome State Fault Refusal := s.marks .wakenPin

/-- WAKE_TIMER, in its order within the moment. -/
def execWakeTimer (s : State) : Host.Outcome State Fault Refusal := s.marks .wakeTimer

/-- HWCMP_WAKE, in its order within the moment. -/
def execHwcmpWake (s : State) : Host.Outcome State Fault Refusal := s.marks .hwcmpWake

/-- SNS_TRNG_READ, in its order within the moment. -/
def execSnsTrngRead (s : State) : Host.Outcome State Fault Refusal := s.marks .snsTrngRead

end Sys2Proof.Machine
end

