-- ==== Sys2Proof/Machine/Dispatch.lean ====
section
/-! DEFINITION. The meaning of every command, one arm per constructor. -/

namespace Sys2Proof.Machine

/-- The effect of a command on everything but the queue. -/
def exec (i : Instr) (s : State) : Host.Outcome State Fault Refusal :=
  match i with
  | .nop v imm => Sys2Proof.Machine.execNop v imm s
  | .ldi v rd imm => Sys2Proof.Machine.execLdi v rd imm s
  | .ldx v rd ext => Sys2Proof.Machine.execLdx v rd ext s
  | .mov v rd ra => Sys2Proof.Machine.execMov v rd ra s
  | .add v rd ra rb => Sys2Proof.Machine.execAdd v rd ra rb s
  | .addi v rd ra imm => Sys2Proof.Machine.execAddi v rd ra imm s
  | .sub v rd ra rb => Sys2Proof.Machine.execSub v rd ra rb s
  | .and v rd ra rb => Sys2Proof.Machine.execAnd v rd ra rb s
  | .or v rd ra rb => Sys2Proof.Machine.execOr v rd ra rb s
  | .xor v rd ra rb => Sys2Proof.Machine.execXor v rd ra rb s
  | .shl v rd ra rb imm => Sys2Proof.Machine.execShl v rd ra rb imm s
  | .shr v rd ra rb imm => Sys2Proof.Machine.execShr v rd ra rb imm s
  | .ldw v rd ra imm => Sys2Proof.Machine.execLdw v rd ra imm s
  | .stw v ra rb imm => Sys2Proof.Machine.execStw v ra rb imm s
  | .tst v ra imm => Sys2Proof.Machine.execTst v ra imm s
  | .halt v => Sys2Proof.Machine.execHalt v s
  | .jmp v ext => Sys2Proof.Machine.execJmp v ext s
  | .call v ext => Sys2Proof.Machine.execCall v ext s
  | .ret v => Sys2Proof.Machine.execRet v s
  | .dsp v ra mode k ext => Sys2Proof.Machine.execDsp v ra mode k ext s
  | .clr v imm => Sys2Proof.Machine.execClr v imm s
  | .waita v ra rb u => Sys2Proof.Machine.execWaita v ra rb u s
  | .waitaRelease v => Sys2Proof.Machine.execWaitaRelease v s
  | .stamp v rd src => Sys2Proof.Machine.execStamp v rd src s
  | .waitt v input => Sys2Proof.Machine.execWaitt v input s
  | .waittRelease v => Sys2Proof.Machine.execWaittRelease v s
  | .tmo v rb => Sys2Proof.Machine.execTmo v rb s
  | .vatTimeout v => Sys2Proof.Machine.execVatTimeout v s
  | .illegal v word => Sys2Proof.Machine.execIllegal v word s
  | .wdog v => Sys2Proof.Machine.execWdog v s
  | .bind v port => Sys2Proof.Machine.execBind v port s
  | .hop v ra im table idx => Sys2Proof.Machine.execHop v ra im table idx s
  | .pwr v ra im setpt => Sys2Proof.Machine.execPwr v ra im setpt s
  | .ant v ra im port => Sys2Proof.Machine.execAnt v ra im port s
  | .beam v ra im set => Sys2Proof.Machine.execBeam v ra im set s
  | .carry v on => Sys2Proof.Machine.execCarry v on s
  | .carryLaunch v => Sys2Proof.Machine.execCarryLaunch v s
  | .synTimeout v => Sys2Proof.Machine.execSynTimeout v s
  | .txc v rd rb launch tpl => Sys2Proof.Machine.execTxc v rd rb launch tpl s
  | .txcEnd v => Sys2Proof.Machine.execTxcEnd v s
  | .lsn v rd tpl => Sys2Proof.Machine.execLsn v rd tpl s
  | .preambleValidated p o => Sys2Proof.Machine.execPreambleValidated p o s
  | .lsnDecision p o => Sys2Proof.Machine.execLsnDecision p o s
  | .rxb v ra w => Sys2Proof.Machine.execRxb v ra w s
  | .lput v rd ra rb off => Sys2Proof.Machine.execLput v rd ra rb off s
  | .lget v rd ra rb off => Sys2Proof.Machine.execLget v rd ra rb off s
  | .ltouch v ra => Sys2Proof.Machine.execLtouch v ra s
  | .ledgerAnswer v => Sys2Proof.Machine.execLedgerAnswer v s
  | .topen v rd ra rb queue ext => Sys2Proof.Machine.execTopen v rd ra rb queue ext s
  | .tput v ra rb src w => Sys2Proof.Machine.execTput v ra rb src w s
  | .tdone v ra => Sys2Proof.Machine.execTdone v ra s
  | .tfail v ra rb => Sys2Proof.Machine.execTfail v ra rb s
  | .post v ch => Sys2Proof.Machine.execPost v ch s
  | .qpush v ra rb w queue => Sys2Proof.Machine.execQpush v ra rb w queue s
  | .qpop v rd ra w queue => Sys2Proof.Machine.execQpop v rd ra w queue s
  | .qpopTake v => Sys2Proof.Machine.execQpopTake v s
  | .start v => Sys2Proof.Machine.execStart v s
  | .stop v => Sys2Proof.Machine.execStop v s
  | .dbgHalt v => Sys2Proof.Machine.execDbgHalt v s
  | .resume v => Sys2Proof.Machine.execResume v s
  | .step v => Sys2Proof.Machine.execStep v s
  | .cntClr v => Sys2Proof.Machine.execCntClr v s
  | .vatGstart mask => Sys2Proof.Machine.execVatGstart mask s
  | .vatGstop mask => Sys2Proof.Machine.execVatGstop mask s
  | .vatSwapArm by' v entry => Sys2Proof.Machine.execVatSwapArm by' v entry s
  | .vatSwapCancel v => Sys2Proof.Machine.execVatSwapCancel v s
  | .unbind v => Sys2Proof.Machine.execUnbind v s
  | .aclr v => Sys2Proof.Machine.execAclr v s
  | .uhfTargetWrite c target => Sys2Proof.Machine.execUhfTargetWrite c target s
  | .synSelWrite c sel => Sys2Proof.Machine.execSynSelWrite c sel s
  | .setptWrite c setpt => Sys2Proof.Machine.execSetptWrite c setpt s
  | .txwWrite c amp phase => Sys2Proof.Machine.execTxwWrite c amp phase s
  | .portWrite c port => Sys2Proof.Machine.execPortWrite c port s
  | .portSettled c => Sys2Proof.Machine.execPortSettled c s
  | .modpWrite c k part value => Sys2Proof.Machine.execModpWrite c k part value s
  | .paenPolWrite c pol => Sys2Proof.Machine.execPaenPolWrite c pol s
  | .tripForce c => Sys2Proof.Machine.execTripForce c s
  | .chainTrip c causes => Sys2Proof.Machine.execChainTrip c causes s
  | .tripClear c mask asserted => Sys2Proof.Machine.execTripClear c mask asserted s
  | .rampUpDone c => Sys2Proof.Machine.execRampUpDone c s
  | .rampDownDone c => Sys2Proof.Machine.execRampDownDone c s
  | .chainTransitionDone c => Sys2Proof.Machine.execChainTransitionDone c s
  | .synFreqWrite m freq => Sys2Proof.Machine.execSynFreqWrite m freq s
  | .synLock m => Sys2Proof.Machine.execSynLock m s
  | .synUnlock m => Sys2Proof.Machine.execSynUnlock m s
  | .recal m => Sys2Proof.Machine.execRecal m s
  | .synRecalDone m ok temp => Sys2Proof.Machine.execSynRecalDone m ok temp s
  | .synDriftRecal m temp => Sys2Proof.Machine.execSynDriftRecal m temp s
  | .shadowGo src dst => Sys2Proof.Machine.execShadowGo src dst s
  | .shadowCancel => Sys2Proof.Machine.execShadowCancel s
  | .shadowSwap => Sys2Proof.Machine.execShadowSwap s
  | .shadowAbandon => Sys2Proof.Machine.execShadowAbandon s
  | .noiseMean c value => Sys2Proof.Machine.execNoiseMean c value s
  | .vclrVio c => Sys2Proof.Machine.execVclrVio c s
  | .vclrCls c => Sys2Proof.Machine.execVclrCls c s
  | .replyDataRead p => Sys2Proof.Machine.execReplyDataRead p s
  | .capArm c => Sys2Proof.Machine.execCapArm c s
  | .capAbort c => Sys2Proof.Machine.execCapAbort c s
  | .capTrigger c idx written => Sys2Proof.Machine.execCapTrigger c idx written s
  | .capDone c samples => Sys2Proof.Machine.execCapDone c samples s
  | .brgCfgWrite k value => Sys2Proof.Machine.execBrgCfgWrite k value s
  | .brgRaddrWrite k value => Sys2Proof.Machine.execBrgRaddrWrite k value s
  | .matchStart k => Sys2Proof.Machine.execMatchStart k s
  | .matchReady k => Sys2Proof.Machine.execMatchReady k s
  | .pcalArm value => Sys2Proof.Machine.execPcalArm value s
  | .pcalAbort => Sys2Proof.Machine.execPcalAbort s
  | .pcalEnd => Sys2Proof.Machine.execPcalEnd s
  | .pcalNoLoad => Sys2Proof.Machine.execPcalNoLoad s
  | .calGo unit op port chslot => Sys2Proof.Machine.execCalGo unit op port chslot s
  | .calAbort unit => Sys2Proof.Machine.execCalAbort unit s
  | .calDone unit o => Sys2Proof.Machine.execCalDone unit o s
  | .calTdataWrite value => Sys2Proof.Machine.execCalTdataWrite value s
  | .calAuto c temp => Sys2Proof.Machine.execCalAuto c temp s
  | .calAutoRetry c temp => Sys2Proof.Machine.execCalAutoRetry c temp s
  | .readinessWrite r => Sys2Proof.Machine.execReadinessWrite r s
  | .spareDcRerun o => Sys2Proof.Machine.execSpareDcRerun o s
  | .spareDcAged => Sys2Proof.Machine.execSpareDcAged s
  | .spareSwitchSettled => Sys2Proof.Machine.execSpareSwitchSettled s
  | .spareDcPassDone o => Sys2Proof.Machine.execSpareDcPassDone o s
  | .takeGo chain => Sys2Proof.Machine.execTakeGo chain s
  | .takeRelease => Sys2Proof.Machine.execTakeRelease s
  | .plannedSwitch => Sys2Proof.Machine.execPlannedSwitch s
  | .releaseSwitch => Sys2Proof.Machine.execReleaseSwitch s
  | .takeTimeout => Sys2Proof.Machine.execTakeTimeout s
  | .rguLimitEnd fe => Sys2Proof.Machine.execRguLimitEnd fe s
  | .overpower fe fwd => Sys2Proof.Machine.execOverpower fe fwd s
  | .occSubwindow => Sys2Proof.Machine.execOccSubwindow s
  | .rguDesync => Sys2Proof.Machine.execRguDesync s
  | .rguResync => Sys2Proof.Machine.execRguResync s
  | .hfrTargetWrite target => Sys2Proof.Machine.execHfrTargetWrite target s
  | .hfrDrvWrite itgt => Sys2Proof.Machine.execHfrDrvWrite itgt s
  | .hfrModeWrite k value => Sys2Proof.Machine.execHfrModeWrite k value s
  | .hfrForce => Sys2Proof.Machine.execHfrForce s
  | .hfrTrip causes => Sys2Proof.Machine.execHfrTrip causes s
  | .hfrTripClear mask asserted => Sys2Proof.Machine.execHfrTripClear mask asserted s
  | .hfrCarryEnd imeas => Sys2Proof.Machine.execHfrCarryEnd imeas s
  | .cwPulse amp phase => Sys2Proof.Machine.execCwPulse amp phase s
  | .actTargetWrite target => Sys2Proof.Machine.execActTargetWrite target s
  | .actForce => Sys2Proof.Machine.execActForce s
  | .actTrip causes => Sys2Proof.Machine.execActTrip causes s
  | .actTripClear mask asserted => Sys2Proof.Machine.execActTripClear mask asserted s
  | .actDutySubwindow => Sys2Proof.Machine.execActDutySubwindow s
  | .wkrCodeWrite code => Sys2Proof.Machine.execWkrCodeWrite code s
  | .wr433Match code => Sys2Proof.Machine.execWr433Match code s
  | .wr24Match pulses => Sys2Proof.Machine.execWr24Match pulses s
  | .mshRunWrite run root align => Sys2Proof.Machine.execMshRunWrite run root align s
  | .rescan => Sys2Proof.Machine.execRescan s
  | .mshCntClr => Sys2Proof.Machine.execMshCntClr s
  | .mshFrameRx f => Sys2Proof.Machine.execMshFrameRx f s
  | .mshFrameAbandon phrValid => Sys2Proof.Machine.execMshFrameAbandon phrValid s
  | .mshSlotBoundary o => Sys2Proof.Machine.execMshSlotBoundary o s
  | .mshMiss => Sys2Proof.Machine.execMshMiss s
  | .mshScanDwell => Sys2Proof.Machine.execMshScanDwell s
  | .asnPair asn tick => Sys2Proof.Machine.execAsnPair asn tick s
  | .asnPairMissing => Sys2Proof.Machine.execAsnPairMissing s
  | .mshTxRequest => Sys2Proof.Machine.execMshTxRequest s
  | .mshWake => Sys2Proof.Machine.execMshWake s
  | .mshWakeDone => Sys2Proof.Machine.execMshWakeDone s
  | .neighbourExpiry k => Sys2Proof.Machine.execNeighbourExpiry k s
  | .fcMarkRaise => Sys2Proof.Machine.execFcMarkRaise s
  | .speEnWrite n en => Sys2Proof.Machine.execSpeEnWrite n en s
  | .retrain n => Sys2Proof.Machine.execRetrain n s
  | .speCntClr n => Sys2Proof.Machine.execSpeCntClr n s
  | .speAnDone n partner24 partner10 => Sys2Proof.Machine.execSpeAnDone n partner24 partner10 s
  | .speTrained n snr eye echo => Sys2Proof.Machine.execSpeTrained n snr eye echo s
  | .speTrainTimeout n => Sys2Proof.Machine.execSpeTrainTimeout n s
  | .speLinkLoss n => Sys2Proof.Machine.execSpeLinkLoss n s
  | .speTxRequest n => Sys2Proof.Machine.execSpeTxRequest n s
  | .speFrameRx n f => Sys2Proof.Machine.execSpeFrameRx n f s
  | .ringSrcChange n src => Sys2Proof.Machine.execRingSrcChange n src s
  | .ringSourceTick n => Sys2Proof.Machine.execRingSourceTick n s
  | .ringCmpArm n k lo => Sys2Proof.Machine.execRingCmpArm n k lo s
  | .ringDisarm n mask => Sys2Proof.Machine.execRingDisarm n mask s
  | .ringCntWrite n lo => Sys2Proof.Machine.execRingCntWrite n lo s
  | .ringCntRead n => Sys2Proof.Machine.execRingCntRead n s
  | .ringCapture n j => Sys2Proof.Machine.execRingCapture n j s
  | .ringCapRead n j => Sys2Proof.Machine.execRingCapRead n j s
  | .ppsEdge => Sys2Proof.Machine.execPpsEdge s
  | .ppsHoldover => Sys2Proof.Machine.execPpsHoldover s
  | .ppsFree => Sys2Proof.Machine.execPpsFree s
  | .aonHwRead => Sys2Proof.Machine.execAonHwRead s
  | .trlSwpub by' ch gen => Sys2Proof.Machine.execTrlSwpub by' ch gen s
  | .trlChWrite by' k value => Sys2Proof.Machine.execTrlChWrite by' k value s
  | .trailsDelivery id => Sys2Proof.Machine.execTrailsDelivery id s
  | .mclr id => Sys2Proof.Machine.execMclr id s
  | .qmxPush q word => Sys2Proof.Machine.execQmxPush q word s
  | .qmxPop q => Sys2Proof.Machine.execQmxPop q s
  | .popCeiling q => Sys2Proof.Machine.execPopCeiling q s
  | .flush q => Sys2Proof.Machine.execFlush q s
  | .mark q => Sys2Proof.Machine.execMark q s
  | .rewind q => Sys2Proof.Machine.execRewind q s
  | .ptrMismatch q => Sys2Proof.Machine.execPtrMismatch q s
  | .qmxConfigWrite by' q ep value => Sys2Proof.Machine.execQmxConfigWrite by' q ep value s
  | .txnFree h => Sys2Proof.Machine.execTxnFree h s
  | .txnAbort h => Sys2Proof.Machine.execTxnAbort h s
  | .txnPoolWrite value => Sys2Proof.Machine.execTxnPoolWrite value s
  | .pendingMove q => Sys2Proof.Machine.execPendingMove q s
  | .ldgRunWrite run => Sys2Proof.Machine.execLdgRunWrite run s
  | .ldgStopDone => Sys2Proof.Machine.execLdgStopDone s
  | .ldgRebuildDone => Sys2Proof.Machine.execLdgRebuildDone s
  | .ldgSeedWrite seed => Sys2Proof.Machine.execLdgSeedWrite seed s
  | .ldgOvfWrite value => Sys2Proof.Machine.execLdgOvfWrite value s
  | .ldgRead arg => Sys2Proof.Machine.execLdgRead arg s
  | .ldgDelete arg => Sys2Proof.Machine.execLdgDelete arg s
  | .clearBank arg => Sys2Proof.Machine.execClearBank arg s
  | .age => Sys2Proof.Machine.execAge s
  | .clearAll => Sys2Proof.Machine.execClearAll s
  | .ldgCmdDone => Sys2Proof.Machine.execLdgCmdDone s
  | .pwrEnter target => Sys2Proof.Machine.execPwrEnter target s
  | .pwrCancel => Sys2Proof.Machine.execPwrCancel s
  | .autoEntry => Sys2Proof.Machine.execAutoEntry s
  | .signaturesStored => Sys2Proof.Machine.execSignaturesStored s
  | .entryLatch => Sys2Proof.Machine.execEntryLatch s
  | .pointOfNoReturn => Sys2Proof.Machine.execPointOfNoReturn s
  | .domainsOff => Sys2Proof.Machine.execDomainsOff s
  | .wake sources detail => Sys2Proof.Machine.execWake sources detail s
  | .gladeTempSample temp => Sys2Proof.Machine.execGladeTempSample temp s
  | .wakeTimer => Sys2Proof.Machine.execWakeTimer s
  | .hwcmpWake => Sys2Proof.Machine.execHwcmpWake s
  | .wakenPin => Sys2Proof.Machine.execWakenPin s
  | .domainGate dom => Sys2Proof.Machine.execDomainGate dom s
  | .domainWake dom => Sys2Proof.Machine.execDomainWake dom s
  | .refreshInterval temp incomplete => Sys2Proof.Machine.execRefreshInterval temp incomplete s
  | .powerOnReset straps => Sys2Proof.Machine.execPowerOnReset straps s
  | .pinReset straps => Sys2Proof.Machine.execPinReset straps s
  | .brownOut rail => Sys2Proof.Machine.execBrownOut rail s
  | .thermalReset sensor temp => Sys2Proof.Machine.execThermalReset sensor temp s
  | .thermalRelease => Sys2Proof.Machine.execThermalRelease s
  | .sysResetReq key device => Sys2Proof.Machine.execSysResetReq key device s
  | .rangerResetReq => Sys2Proof.Machine.execRangerResetReq s
  | .rgrWdogExpiry => Sys2Proof.Machine.execRgrWdogExpiry s
  | .hlkReset => Sys2Proof.Machine.execHlkReset s
  | .deviceResetRelease => Sys2Proof.Machine.execDeviceResetRelease s
  | .startupStepEnd k o => Sys2Proof.Machine.execStartupStepEnd k o s
  | .info => Sys2Proof.Machine.execInfo s
  | .stageOpen => Sys2Proof.Machine.execStageOpen s
  | .stageWrite => Sys2Proof.Machine.execStageWrite s
  | .store => Sys2Proof.Machine.execStore s
  | .stageDiscard => Sys2Proof.Machine.execStageDiscard s
  | .calCapture => Sys2Proof.Machine.execCalCapture s
  | .hoopLoad => Sys2Proof.Machine.execHoopLoad s
  | .hoopSwap => Sys2Proof.Machine.execHoopSwap s
  | .hoopFree => Sys2Proof.Machine.execHoopFree s
  | .hoopBootset => Sys2Proof.Machine.execHoopBootset s
  | .jointSwapStart => Sys2Proof.Machine.execJointSwapStart s
  | .jointSwapTimeout => Sys2Proof.Machine.execJointSwapTimeout s
  | .rguSelect => Sys2Proof.Machine.execRguSelect s
  | .mshKey => Sys2Proof.Machine.execMshKey s
  | .keySet => Sys2Proof.Machine.execKeySet s
  | .fwWrite => Sys2Proof.Machine.execFwWrite s
  | .fwActivate => Sys2Proof.Machine.execFwActivate s
  | .fwConfirm => Sys2Proof.Machine.execFwConfirm s
  | .fwTrialTimer => Sys2Proof.Machine.execFwTrialTimer s
  | .attest => Sys2Proof.Machine.execAttest s
  | .attestCert => Sys2Proof.Machine.execAttestCert s
  | .lcsAdvance => Sys2Proof.Machine.execLcsAdvance s
  | .returnAuth => Sys2Proof.Machine.execReturnAuth s
  | .returnToken => Sys2Proof.Machine.execReturnToken s
  | .mailboxUnknownType => Sys2Proof.Machine.execMailboxUnknownType s
  | .snsTrngRead => Sys2Proof.Machine.execSnsTrngRead s
  | .trngHealthFail => Sys2Proof.Machine.execTrngHealthFail s
  | .mgtLogRead => Sys2Proof.Machine.execMgtLogRead s
  | .spiWrite addr words => Sys2Proof.Machine.execSpiWrite addr words s
  | .spiRead addr count => Sys2Proof.Machine.execSpiRead addr count s
  | .spiStatus => Sys2Proof.Machine.execSpiStatus s
  | .spiResetArm => Sys2Proof.Machine.execSpiResetArm s
  | .spiReset => Sys2Proof.Machine.execSpiReset s
  | .pcieLinkUp speed5 => Sys2Proof.Machine.execPcieLinkUp speed5 s
  | .linkDown => Sys2Proof.Machine.execLinkDown s
  | .msixMessage vec => Sys2Proof.Machine.execMsixMessage vec s
  | .dmaItem k => Sys2Proof.Machine.execDmaItem k s
  | .dmaCfgWrite k value => Sys2Proof.Machine.execDmaCfgWrite k value s
  | .dmaRdWrite k rd => Sys2Proof.Machine.execDmaRdWrite k rd s
  | .registerWrite by' width addr value => Sys2Proof.Machine.execRegisterWrite by' width addr value s
  | .actLock => Sys2Proof.Machine.execActLock s
  | .hfrFieldOff => Sys2Proof.Machine.execHfrFieldOff s
  | .portReadyDone act => Sys2Proof.Machine.execPortReadyDone act s
  | .mshAckWindowEnd => Sys2Proof.Machine.execMshAckWindowEnd s
  | .speTxDone n => Sys2Proof.Machine.execSpeTxDone n s
  | .rangerRestart => Sys2Proof.Machine.execRangerRestart s
  | .rangerDebugHalt => Sys2Proof.Machine.execRangerDebugHalt s
  | .rangerDebugResume => Sys2Proof.Machine.execRangerDebugResume s
  | .recoveryEnd => Sys2Proof.Machine.execRecoveryEnd s
  | .trngHealthPass => Sys2Proof.Machine.execTrngHealthPass s
  | .pcieConfigRequest write => Sys2Proof.Machine.execPcieConfigRequest write s
  | .registerRead by' width addr => Sys2Proof.Machine.execRegisterRead by' width addr s

end Sys2Proof.Machine
end

