-- ==== Sys2Proof/Machine/Pins.lean ====
section
/-! DEFINITION. The output balls as the state drives them (R28, R32, R54, R384, R385, R437, R451, R460): pure views, so that a
ball holds nothing of its own. -/

namespace Sys2Proof.Machine

/-- The isolation clamps of the CORE domain are engaged: in a device reset and past an entry's point of no return (R28,
R384). -/
def Dev.clamped (d : Dev) : Bool := d.rst.asserted || d.pwr.asleep.isSome

/-- A chain state with the PA enabled: RX and every carrier state (table "Chain states"). -/
def paenState (st : Nat) : Bool := decide (2 ≤ st) && decide (st ≤ 6)

/-- The electronics that carry front end `n` enable its PA. -/
def Dev.paActive (d : Dev) (n : Nat) : Bool :=
  !d.clamped && (paenState (d.cst (d.carrierOf n)) || d.tripRamps (d.carrierOf n))

/-- The level of PAENn: active low where the polarity bit says so, which AON holds through every reset but power-on (R385). -/
def Dev.pinPaen (d : Dev) (n : Nat) : Bool := d.paActive n != bitOf (d.get AON_PAPOL.POL) n

/-- The levels of ANTn_S0 to ANTn_S3 as a number, S0 least significant. -/
def Dev.pinAnt (d : Dev) (n : Nat) : Nat := if d.clamped then 0 else d.get UHF_ANT.PORT n

/-- The level of SPSELn: 1 while US carries front end n (R54). -/
def Dev.pinSpsel (d : Dev) (n : Nat) : Bool := !d.clamped && d.attached == some n

/-! The output drivers (table "Clamp values"): none drives while its clamp is engaged. -/

/-- The TX balls of the electronics that carry front end `n` are driven: the TX gate is open. -/
def Dev.driveUhf (d : Dev) (n : Nat) : Bool := !d.clamped && d.gate (d.carrierOf n)

/-- HF TX1 and TX2 are driven: the field is on. -/
def Dev.driveHf (d : Dev) : Bool := !d.clamped && d.pst 9 == 2

/-- The ACT output is driven: a transmission is under way. -/
def Dev.driveAct (d : Dev) : Bool :=
  !d.clamped && (d.chx 10).txOn && decide ((d.chx 10).txStart ≤ d.tick) && decide (d.tick < (d.chx 10).txEnd)

/-- The mesh RF output is driven: a frame or a wake train is on air. -/
def Dev.driveMesh (d : Dev) : Bool :=
  !d.clamped && ((d.msh.train.bind (fun x => x.here)).any (fun t => decide (t ≤ d.tick)) ||
    (decide (d.msh.txFrom ≤ d.tick) && d.msh.txEnd.any (fun t => decide (d.tick < t))))

/-- The line outputs of wired port `n` are driven: the port is not DISABLED. Where they are not, they are high impedance. -/
def Dev.driveSpe (d : Dev) (n : Nat) : Bool := !d.clamped && d.speState n != speDisabled

/-- The level of IRQN: in SPI mode low while a pending bit drives it. HLK_IRQMASK bit v = 1: vector v drives IRQN (R437, R444). -/
def Dev.pinIrqn (d : Dev) : Bool :=
  !(d.isSet SYS_STRAP.HSEL && Nat.land (d.get HLK_IRQPEND.PEND) (d.get HLK_IRQMASK.MASK) != 0)

/-- The level of SLEEPN: low from step 6 of an entry to the reset of the wake (R451). -/
def Dev.pinSleepn (d : Dev) : Bool := !d.pwr.off

end Sys2Proof.Machine
end

