-- ==== Sys2Proof/Safety.lean ====
section
/-! DEFINITION. The terms that claims use: what is sound, what a command leaves alone, that a command completes, and when
a Vat's instruction issues. -/

namespace Sys2Proof.Machine

/-! ### What is sound -/

/-- Both memories are in canonical form. -/
def State.memOk (s : State) : Bool := memWf s.dev.mem && memWf s.nv.mram

/-- The volatile memories of the device, and of the device that the record of the present moment holds, are in canonical form. -/
def State.volatileOk (s : State) : Bool :=
  memWf s.dev.mem && match s.same with
    | some r => memWf r.1.mem
    | none => true

/-- The life-cycle fuses blown in `s` are blown in `t` (R414, R416, R417). -/
def State.lifeForward (s t : State) : Prop := s.nv.fuses ≤ t.nv.fuses

/-- At most one SPSELn is 1 (R457). -/
def Dev.oneSelect (d : Dev) : Prop := ∀ m n, m < 8 → n < 8 → d.pinSpsel m = true → d.pinSpsel n = true → m = n

/-! ### What a command leaves alone -/

/-- `t` is `s` but for the device: the queue and what is non-volatile are as they were. -/
def State.devOnly (s t : State) : Prop := t.pending = s.pending ∧ t.nv = s.nv

/-- Every register field is as it was, but for the fields of the units that `ks` lists. -/
def Dev.keeps (d e : Dev) (ks : List (Fld × Nat)) : Prop := ∀ f i j, (f, i) ∉ ks → e.get f i j = d.get f i j

/-- Every byte of memory outside the `n` bytes at `a` reads as it did. -/
def Dev.memBut (d e : Dev) (a n : Nat) : Prop := ∀ b, b < a ∨ a + n ≤ b → e.byte b = d.byte b

/-- Every one of the `n` bytes at `a` reads as 0. -/
def Dev.zeroed (e : Dev) (a n : Nat) : Prop := ∀ b, a ≤ b → b < a + n → e.byte b = 0

/-- What the other Vats hold beside their registers is as it was. -/
def Dev.vatsBut (d e : Dev) (v : Nat) : Prop := ∀ n, n ≠ v → e.vatx n = d.vatx n

/-- What the other ports hold beside their registers is as it was. -/
def Dev.chsBut (d e : Dev) (c : Nat) : Prop := ∀ n, n ≠ c → e.chx n = d.chx n

/-- All of a device but its registers and the moments from which it and its domains are idle (R382, R387). -/
def Dev.sans (d : Dev) : Dev := { d with regs := [], idle := [], busyAt := 0 }

/-- All of a device but its registers and its time. -/
def Dev.sansTime (d : Dev) : Dev := { d.sans with clk := 0, hw := 0 }

/-- All of a device but its registers, its time and what the Vats hold. -/
def Dev.sansVats (d : Dev) : Dev := { d.sansTime with vat := [] }

/-- `e` is `d` but for the register fields that `ks` lists. -/
def Dev.writes (d e : Dev) (ks : List (Fld × Nat)) : Prop := d.keeps e ks ∧ e.sans = d.sans

/-- An event of producer `id` is on its way to every consumer that subscribes to the producer's channel (R360). -/
def Dev.told (d e : Dev) (id : Nat) : Prop :=
  if d.isSet TRL_PDATA.EN 0 id then
    ∀ c, c ∈ consumerIds → d.subscribes c (d.get TRL_PDATA.CH 0 id) = true →
      ∃ f, f ∈ e.flights ∧ f.cons = c ∧ f.ch = d.get TRL_PDATA.CH 0 id ∧ f.at' = e.clk
  else e.flights = d.flights

/-- `e` is `d` but for the register fields that `ks` lists and an event of producer `id` that has been published. -/
def Dev.writesTells (d e : Dev) (ks : List (Fld × Nat)) (id : Nat) : Prop :=
  d.keeps e ((TRL_CH.SEEN, 0) :: ks) ∧ { e.sans with flights := [] } = { d.sans with flights := [] } ∧ d.told e id

/-- `e` is `d` but for the register fields that `ks` lists and what `strip` takes away. -/
def Dev.alters (d e : Dev) (ks : List (Fld × Nat)) (strip : Dev → Dev) : Prop := d.keeps e ks ∧ strip e.sans = strip d.sans

/-- Every register field is as it was, but for the fields `fs` and the fields of the units that `ks` lists. -/
def Dev.keepsBut (d e : Dev) (fs : List Fld) (ks : List (Fld × Nat)) : Prop :=
  ∀ f i j, f ∉ fs → (f, i) ∉ ks → e.get f i j = d.get f i j

/-- The registers that `keep` holds of are as they were, and every other holds its reset value; the fields `fs` apart. -/
def Dev.keepsReset (d e : Dev) (keep : RKey → Bool) (fs : List Fld) : Prop :=
  ∀ f i j, f ∉ fs → e.get f i j = if keep ⟨f, i, j⟩ then d.get f i j else f.reset i j

/-- The bytes at the addresses that `keep` holds of read as they did, and every other as memory that nothing has written. -/
def Dev.keepsMem (d e : Dev) (keep : Nat → Bool) : Prop := ∀ b, e.byte b = if keep b then d.byte b else memDefault b

/-- Every value of a field of unit `i` but the one at index `j` is as it was. -/
def Dev.indexBut (d e : Dev) (f : Fld) (i j : Nat) : Prop := ∀ k, k ≠ j → e.get f i k = d.get f i k

/-- The log has one entry more: its severity, block, number and code, stamped with heartwood (R402). -/
def Dev.logged (d e : Dev) (sev block inst code : Nat) : Prop :=
  e.log.next = d.log.next + 1 ∧
    ∃ x, x ∈ e.log.ram ∧ x.seq = d.log.next % 2 ^ 32 ∧ x.hw = e.hw ∧ x.sev = sev ∧ x.block = block ∧ x.inst = inst ∧ x.code = code

/-! ### Completion -/

/-- Command `c` in state `s` answers a next state: the queue and what is non-volatile are as they were, and the device is
one of which `P` holds. -/
def completes (c : Instr) (s : State) (P : Dev → Prop) : Prop :=
  ∃ t, exec c s = .next t ∧ s.devOnly t ∧ P t.dev

/-- Command `c` in state `s` answers a next state with the queue as it was, and of which `P` holds. -/
def completesNv (c : Instr) (s : State) (P : State → Prop) : Prop :=
  ∃ t, exec c s = .next t ∧ t.pending = s.pending ∧ P t

/-- Command `c` in state `s` answers that very state. -/
def changesNothing (c : Instr) (s : State) : Prop := exec c s = .next s

/-- On an empty queue the block's tick in state `s` answers a next state: the queue and what is non-volatile are as they were, and
the device is one of which `P` holds. -/
def ticks (s : State) (P : Dev → Prop) : Prop := ∃ t, step s = .next t ∧ s.devOnly t ∧ P t.dev

/-- No host read of a queue is stalled (R371). -/
def Dev.qCalm (d : Dev) : Prop := d.q.all (fun x => x.2.stall.isNone) = true

/-! ### When a command acts, and on what -/

/-- An access that a command is: the island, the register with its unit and index, and who makes it. -/
structure RegAccess where
  island : Nat
  reg : Reg
  unit : Nat
  index : Nat
  by' : Writer
deriving DecidableEq, Repr

/-- The access that a command is which writes or reads one register (R19, R23). -/
def accessOf : Instr → Option RegAccess
  | .start v => some ⟨2, .VAT_CTRL, v.val, 0, .host⟩
  | .stop v => some ⟨2, .VAT_CTRL, v.val, 0, .host⟩
  | .dbgHalt v => some ⟨2, .VAT_CTRL, v.val, 0, .host⟩
  | .resume v => some ⟨2, .VAT_CTRL, v.val, 0, .host⟩
  | .step v => some ⟨2, .VAT_CTRL, v.val, 0, .host⟩
  | .cntClr v => some ⟨2, .VAT_CTRL, v.val, 0, .host⟩
  | .vatGstart _ => some ⟨2, .VAT_GSTART, 0, 0, .host⟩
  | .vatGstop _ => some ⟨2, .VAT_GSTOP, 0, 0, .host⟩
  | .vatSwapArm by' v _ => some ⟨2, .VAT_SWAP, v.val, 0, by'⟩
  | .vatSwapCancel v => some ⟨2, .VAT_SWAP, v.val, 0, .host⟩
  | .unbind v => some ⟨2, .VAT_ASTAT, v.val, 0, .host⟩
  | .aclr v => some ⟨2, .VAT_ASTAT, v.val, 0, .host⟩
  | .uhfTargetWrite c _ => some ⟨2, .UHF_CTRL, c.val, 0, .host⟩
  | .synSelWrite c _ => some ⟨2, .UHF_CTRL, c.val, 0, .host⟩
  | .setptWrite c _ => some ⟨2, .UHF_PWR, c.val, 0, .host⟩
  | .txwWrite c _ _ => some ⟨2, .UHF_TXW, c.val, 0, .host⟩
  | .portWrite c _ => some ⟨2, .UHF_ANT, c.val, 0, .host⟩
  | .modpWrite c k part _ => some ⟨2, (if part = 0 then .UHF_MODP_A else if part = 1 then .UHF_MODP_B else .UHF_MODP_C), c.val, k.val, .host⟩
  | .paenPolWrite c _ => some ⟨2, .UHF_FE, c.val, 0, .host⟩
  | .tripForce c => some ⟨2, .UHF_TRIP, c.val, 0, .host⟩
  | .tripClear c _ _ => some ⟨2, .UHF_TRIP, c.val, 0, .host⟩
  | .synFreqWrite m _ => some ⟨2, .SYN_F_FREQ, m.val, 0, .host⟩
  | .recal m => some ⟨2, .SYN_F_CTRL, m.val, 0, .host⟩
  | .shadowGo _ _ => some ⟨2, .SYN_SHADOW, 0, 0, .host⟩
  | .shadowCancel => some ⟨2, .SYN_SHADOW, 0, 0, .host⟩
  | .vclrVio c => some ⟨2, .UHF_RX_VCLR, c.val, 0, .host⟩
  | .vclrCls c => some ⟨2, .UHF_RX_VCLR, c.val, 0, .host⟩
  | .capArm c => some ⟨2, .UHF_CAP_CTRL, c.val, 0, .host⟩
  | .capAbort c => some ⟨2, .UHF_CAP_CTRL, c.val, 0, .host⟩
  | .brgCfgWrite k _ => some ⟨2, .BRG_CAN_CFG, k.val, 0, .host⟩
  | .brgRaddrWrite k _ => some ⟨2, .BRG_CAN_RADDR, k.val, 0, .host⟩
  | .pcalArm _ => some ⟨2, .BRG_PCAL, 0, 0, .host⟩
  | .pcalAbort => some ⟨2, .BRG_PCAL, 0, 0, .host⟩
  | .calGo _ _ _ _ => some ⟨2, .CAL_CMD, 0, 0, .host⟩
  | .calAbort _ => some ⟨2, .CAL_CMD, 0, 0, .host⟩
  | .calTdataWrite _ => some ⟨2, .CAL_TDATA, 0, 0, .host⟩
  | .readinessWrite _ => some ⟨2, .UHFS_SPARE, 0, 0, .host⟩
  | .takeGo _ => some ⟨2, .UHFS_TAKE, 0, 0, .host⟩
  | .takeRelease => some ⟨2, .UHFS_TAKE, 0, 0, .host⟩
  | .hfrTargetWrite _ => some ⟨5, .HFR_CTRL, 0, 0, .host⟩
  | .hfrDrvWrite _ => some ⟨5, .HFR_DRV, 0, 0, .host⟩
  | .hfrModeWrite _ _ => some ⟨5, .HFR_MODE, 0, 0, .host⟩
  | .hfrForce => some ⟨5, .HFR_TRIP, 0, 0, .host⟩
  | .hfrTripClear _ _ => some ⟨5, .HFR_TRIP, 0, 0, .host⟩
  | .actTargetWrite _ => some ⟨6, .ACT_CTRL, 0, 0, .host⟩
  | .actForce => some ⟨6, .ACT_TRIP, 0, 0, .host⟩
  | .actTripClear _ _ => some ⟨6, .ACT_TRIP, 0, 0, .host⟩
  | .wkrCodeWrite _ => some ⟨0, .WKR_CODE, 0, 0, .host⟩
  | .mshRunWrite _ _ _ => some ⟨7, .MSH_CTRL, 0, 0, .host⟩
  | .rescan => some ⟨7, .MSH_CTRL, 0, 0, .host⟩
  | .mshCntClr => some ⟨7, .MSH_CTRL, 0, 0, .host⟩
  | .mshWake => some ⟨7, .MSH_WAKE, 0, 0, .host⟩
  | .speEnWrite n _ => some ⟨8 + n.val, .SPE_CTRL, n.val, 0, .host⟩
  | .retrain n => some ⟨8 + n.val, .SPE_CTRL, n.val, 0, .host⟩
  | .speCntClr n => some ⟨8 + n.val, .SPE_CTRL, n.val, 0, .host⟩
  | .ringSrcChange n _ => some ⟨2, .RING_CTRL, n.val, 0, .host⟩
  | .ringCmpArm n k _ => some ⟨2, .RING_CMP_W0, n.val, k.val, .host⟩
  | .ringDisarm n _ => some ⟨2, .RING_CMPST, n.val, 0, .host⟩
  | .ringCntWrite n _ => some ⟨2, .RING_CNT_W0, n.val, 0, .host⟩
  | .ringCntRead n => some ⟨2, .RING_CNT_W0, n.val, 0, .host⟩
  | .ringCapRead n j => some ⟨2, .RING_CAP_W0, n.val, j.val, .host⟩
  | .aonHwRead => some ⟨0, .AON_HW_W0, 0, 0, .host⟩
  | .trlSwpub by' _ _ => some ⟨2, .TRL_SWPUB, 0, 0, by'⟩
  | .trlChWrite by' k _ => some ⟨2, .TRL_CH, 0, k.val, by'⟩
  | .qmxPush q _ => some ⟨2, .QMX_Q_PUSH, q.val, 0, .host⟩
  | .qmxPop q => some ⟨2, .QMX_Q_POP, q.val, 0, .host⟩
  | .flush q => some ⟨2, .QMX_Q_CTRL, q.val, 0, .host⟩
  | .mark q => some ⟨2, .QMX_Q_CTRL, q.val, 0, .host⟩
  | .rewind q => some ⟨2, .QMX_Q_CTRL, q.val, 0, .host⟩
  | .qmxConfigWrite by' q ep _ => some ⟨2, (if ep then .QMX_Q_EP else .QMX_Q_BASE), q.val, 0, by'⟩
  | .txnFree _ => some ⟨2, .TXN_HCMD, 0, 0, .host⟩
  | .txnAbort _ => some ⟨2, .TXN_HCMD, 0, 0, .host⟩
  | .txnPoolWrite _ => some ⟨2, .TXN_POOL, 0, 0, .host⟩
  | .ldgRunWrite _ => some ⟨3, .LDG_CTRL, 0, 0, .host⟩
  | .ldgSeedWrite _ => some ⟨3, .LDG_SEED, 0, 0, .host⟩
  | .ldgOvfWrite _ => some ⟨3, .LDG_OVF, 0, 0, .host⟩
  | .ldgRead _ => some ⟨3, .LDG_CMD, 0, 0, .host⟩
  | .ldgDelete _ => some ⟨3, .LDG_CMD, 0, 0, .host⟩
  | .clearBank _ => some ⟨3, .LDG_CMD, 0, 0, .host⟩
  | .age => some ⟨3, .LDG_CMD, 0, 0, .host⟩
  | .clearAll => some ⟨3, .LDG_CMD, 0, 0, .host⟩
  | .pwrEnter _ => some ⟨0, .PWR_CTRL, 0, 0, .host⟩
  | .pwrCancel => some ⟨0, .PWR_CTRL, 0, 0, .host⟩
  | .sysResetReq _ _ => some ⟨2, .SYS_RESET_REQ, 0, 0, .host⟩
  | .snsTrngRead => some ⟨1, .SNS_TRNG, 0, 0, .host⟩
  | .mgtLogRead => some ⟨1, .MGT_LOG_D, 0, 0, .host⟩
  | .dmaCfgWrite k _ => some ⟨4, .HLK_DMA_CFG, k.val, 0, .host⟩
  | .dmaRdWrite k _ => some ⟨4, .HLK_DMA_RD, k.val, 0, .host⟩
  | _ => none

/-- The island in which an event happens (R15). -/
def eventIsland : Instr → Option Nat
  | .preambleValidated _ _ => some 2
  | .lsnDecision _ _ => some 2
  | .portSettled _ => some 2
  | .chainTrip _ _ => some 2
  | .rampUpDone _ => some 2
  | .rampDownDone _ => some 2
  | .chainTransitionDone _ => some 2
  | .synLock _ => some 2
  | .synUnlock _ => some 2
  | .synRecalDone _ _ _ => some 2
  | .synDriftRecal _ _ => some 2
  | .shadowSwap => some 2
  | .shadowAbandon => some 2
  | .noiseMean _ _ => some 2
  | .capTrigger _ _ _ => some 2
  | .capDone _ _ => some 2
  | .matchStart _ => some 2
  | .matchReady _ => some 2
  | .pcalEnd => some 2
  | .pcalNoLoad => some 2
  | .calDone _ _ => some 2
  | .calAuto _ _ => some 2
  | .calAutoRetry _ _ => some 2
  | .spareDcRerun _ => some 2
  | .spareDcAged => some 2
  | .spareSwitchSettled => some 2
  | .spareDcPassDone _ => some 2
  | .plannedSwitch => some 2
  | .releaseSwitch => some 2
  | .takeTimeout => some 2
  | .rguLimitEnd _ => some 2
  | .overpower _ _ => some 2
  | .occSubwindow => some 2
  | .rguDesync => some 2
  | .rguResync => some 2
  | .hfrTrip _ => some 5
  | .hfrCarryEnd _ => some 5
  | .actTrip _ => some 6
  | .actDutySubwindow => some 6
  | .mshFrameRx _ => some 7
  | .mshFrameAbandon _ => some 7
  | .mshSlotBoundary _ => some 7
  | .mshMiss => some 7
  | .mshScanDwell => some 7
  | .asnPair _ _ => some 2
  | .asnPairMissing => some 2
  | .mshTxRequest => some 7
  | .mshWakeDone => some 7
  | .neighbourExpiry _ => some 7
  | .speAnDone n _ _ => some (8 + n.val)
  | .speTrained n _ _ _ => some (8 + n.val)
  | .speTrainTimeout n => some (8 + n.val)
  | .speLinkLoss n => some (8 + n.val)
  | .speTxRequest n => some (8 + n.val)
  | .speFrameRx n _ => some (8 + n.val)
  | .ringSourceTick _ => some 2
  | .ringCapture _ _ => some 2
  | .ppsEdge => some 2
  | .ppsHoldover => some 2
  | .ppsFree => some 2
  | .popCeiling _ => some 2
  | .ptrMismatch _ => some 2
  | .pendingMove _ => some 2
  | .ldgStopDone => some 3
  | .ldgRebuildDone => some 3
  | .ldgCmdDone => some 3
  | .domainGate dom => some (domainIsland dom)
  | .domainWake dom => some (domainIsland dom)
  | .trngHealthFail => some 1
  | .pcieLinkUp _ => some 4
  | .linkDown => some 4
  | .msixMessage _ => some 4
  | .dmaItem _ => some 4
  | .actLock => some 6
  | .hfrFieldOff => some 5
  | .mshAckWindowEnd => some 7
  | .speTxDone n => some (8 + n.val)
  | .trngHealthPass => some 1
  | .pcieConfigRequest _ => some 4
  | _ => none

/-- The commands that a rule puts before others of their moment. -/
def leads : Instr → Bool
  | .topen _ _ _ _ _ _ => true
  | .tdone _ _ => true
  | .tfail _ _ _ => true
  | .qpush _ _ _ _ _ => true
  | .qpop _ _ _ _ _ => true
  | .stop _ => true
  | .resume _ => true
  | .vatGstop _ => true
  | .uhfTargetWrite _ _ => true
  | .tripForce _ => true
  | .chainTrip _ _ => true
  | .synFreqWrite _ _ => true
  | .shadowSwap => true
  | .matchReady _ => true
  | .pcalArm _ => true
  | .takeGo _ => true
  | .plannedSwitch => true
  | .releaseSwitch => true
  | .rguLimitEnd _ => true
  | .overpower _ _ => true
  | .rguDesync => true
  | .hfrTargetWrite _ => true
  | .hfrForce => true
  | .hfrTrip _ => true
  | .actTargetWrite _ => true
  | .actForce => true
  | .actTrip _ => true
  | .speLinkLoss _ => true
  | .ringSrcChange _ _ => true
  | .ringSourceTick _ => true
  | .ringCmpArm _ _ _ => true
  | .ringCapRead _ _ => true
  | .trailsDelivery _ => true
  | .qmxPush _ _ => true
  | .flush _ => true
  | .txnFree _ => true
  | .pointOfNoReturn => true
  | .trngHealthFail => true
  | .rangerDebugResume => true
  | _ => false

/-- Command `c` acts in state `s`, on device `d`: no command of its moment has run that it comes before; its island is present and the
device awake (R19, R388); and where it is an access, `d` is the device whose domain it has reached (R383, R387). -/
def State.acts (s : State) (c : Instr) (d : Dev) : Prop :=
  (leads c = true → s.inTurn c = true) ∧
    match accessOf c with
    | some a => s.dev.live a.island = true ∧ d = s.dev.accessed a.reg a.unit a.by'
    | none => (match eventIsland c with | some k => s.dev.live k | none => true) = true ∧ d = s.dev

/-- The address of an access. -/
def RegAccess.addr (a : RegAccess) : Nat := a.reg.place.base + a.reg.place.si * a.unit + a.reg.place.sj * a.index

/-! ### The Vats -/

/-- Instruction `i` is the next that Vat `v` issues, with nothing in its way: the Vat is in RUN, waits for nothing and executes
no STEP, the words of the instruction and the place it advances to lie in hoop memory (R101), and no word of it carries
an ECC mark (R105). -/
def Dev.mayIssue (d : Dev) (v : Nat) (i : Isrin) : Prop :=
  d.vst v = vsRun ∧ (d.vatx v).wait = .none ∧ (d.vatx v).stepping = false ∧ d.pc v + (Isrin.len i - 1) ≤ 0x3FFFF ∧
    (Isrin.advances i = true → d.pc v + Isrin.len i ≤ 0x3FFFF) ∧ ∀ k, k < Isrin.len i → d.eccOf (d.pc v + k) = none

/-- The Vat cycle at which Vat `v` issues its next instruction (R94, R100). -/
def Dev.issueAt (d : Dev) (v : Nat) : Nat := max d.clk (d.vatx v).ready

/-- General register `r` of Vat `v` as a word. -/
def Dev.g32 (d : Dev) (v : Nat) (r : RegNo) : BitVec 32 := BitVec.ofNat 32 (d.gr v r)

/-- Vat `v` of `d` has executed an instruction of `cycles` cycles and is in RUN in `e` with PC at `pc`; its latest sighting
and its hoop are as they were. -/
def Dev.ran (d e : Dev) (v pc cycles : Nat) : Prop :=
  e.vst v = vsRun ∧ (e.vatx v).wait = .none ∧ e.pc v = pc ∧ (e.vatx v).ready = d.issueAt v + cycles ∧
    (e.vatx v).sight = (d.vatx v).sight ∧ (e.vatx v).hoop = (d.vatx v).hoop

/-- The frame of an instruction of Vat `v` that writes the fields `fs` of its registers and no memory. -/
def Dev.vatFrame (d e : Dev) (v : Nat) (fs : List Fld) : Prop :=
  d.keeps e (fs.map (fun f => (f, v))) ∧ d.vatsBut e v ∧ e.sansVats = d.sansVats

/-- Every general register of Vat `v` but `r` is as it was. -/
def Dev.grBut (d e : Dev) (v : Nat) (r : RegNo) : Prop := ∀ x, x ≠ r → e.gr v x = d.gr v x

/-- Vat `v` has put `x` into `rd` by an instruction of `len` words and `cycles` cycles, and changed nothing else. -/
def Dev.loaded (d e : Dev) (v : Nat) (rd : RegNo) (x : BitVec 32) (len cycles : Nat) : Prop :=
  e.g32 v rd = x ∧ d.grBut e v rd ∧ d.ran e v (d.pc v + len) cycles ∧ d.vatFrame e v [VAT_G.G, VAT_PC.PC]

/-- Vat `v` of `d` executes an instruction that writes the fields `fs` of its registers and what `strip` takes away. -/
def Dev.vatAlters (d e : Dev) (v : Nat) (fs : List Fld) (strip : Dev → Dev) : Prop :=
  d.keeps e (fs.map (fun f => (f, v))) ∧ d.vatsBut e v ∧ strip e.sansVats = strip d.sansVats

/-- Every general register of Vat `v` but the pair `r` is as it was. -/
def Dev.grPairBut (d e : Dev) (v : Nat) (r : RegNo) : Prop := ∀ x, x ≠ r → x ≠ regPlus r 1 → e.gr v x = d.gr v x

/-- Vat `v` of `d` has issued a blocking instruction and waits for `w` in `e`, with PC at the instruction (R94, R95). -/
def Dev.waits (d e : Dev) (v : Nat) (w : Wait) : Prop :=
  e.vst v = vsWait ∧ (e.vatx v).wait = w ∧ e.pc v = d.pc v ∧ (e.vatx v).sight = (d.vatx v).sight ∧
    (e.vatx v).hoop = (d.vatx v).hoop

/-- Vat `v` waits for `w` and executes no STEP, and the word after the instruction lies in hoop memory. -/
def Dev.waiting (d : Dev) (v : Nat) (w : Wait) : Prop :=
  d.vst v = vsWait ∧ (d.vatx v).wait = w ∧ (d.vatx v).stepping = false ∧ d.pc v + 1 ≤ 0x3FFFF

/-- Vat `v`, which waited in `d`, is in RUN in `e` with PC past the instruction, and its next instruction may issue at cycle
`c` (R94). -/
def Dev.released (d e : Dev) (v c : Nat) : Prop :=
  e.vst v = vsRun ∧ (e.vatx v).wait = .none ∧ e.pc v = d.pc v + 1 ∧ (e.vatx v).ready = c

/-- The carriers of the port of Vat `v` ramp down, its field is off, or the transmitter of ACT is, which stays in RX (R96, R282,
R298). -/
def Dev.portStopped (d e : Dev) (v : Nat) : Prop :=
  (∀ c, c ∈ d.vatUnits v → d.carrierOn c = true → e.cst c = csDown) ∧
    (d.get VAT_BIND.PORT v = 9 → d.pst 9 = 2 → e.pst 9 = 1) ∧
    (d.get VAT_BIND.PORT v = 10 → (e.chx 10).txOn = false ∧ e.pst 10 = d.pst 10)

/-- The classification of this tick on registers `u` incremented counter `f` at index `j` (R87). -/
def Dev.countedNow (d : Dev) (u : Nat) (f : Fld) (j : Nat) : Bool :=
  (d.chx u).slotTick == d.tick && (d.chx u).bumped.contains (f, j)

/-- The fields that the start of a carrier's end writes: its drive and its trims as they stand, and the trim cache (R47, R57,
R58). -/
def carrierEndFlds : List Fld :=
  [UHF_PWR.DRIVE, UHF_LKC_TRIM.TRIM_I, UHF_LKC_TRIM.TRIM_Q, UHF_LKC_RESID.RESID, UHF_LKC_CDATA.VALID, UHF_LKC_CDATA.C_I,
    UHF_LKC_CDATA.C_Q]

/-- The register fields that the stop of a port writes. -/
def portStopFlds : List Fld :=
  [UHF_STATUS.STATE, UHF_TXW.AMP, UHF_TXW.PHASE, HFR_STATUS.STATE, HFR_MEAS.IMEAS, HFR_DRV.ITGT, ACT_TXCFG.LEVEL] ++
    carrierEndFlds

/-- Vat `v` of `d` has left RUN or WAIT for state `st` in `e`: PC is at `pc`, nothing is awaited, its port has stopped (R94
to R96), and no other Vat, no memory, and no other register than those `ks` lists has changed. -/
def Dev.leftFor (d e : Dev) (v st pc : Nat) (ks : List (Fld × Nat)) : Prop :=
  e.vst v = st ∧ e.pc v = pc ∧ (e.vatx v).wait = .none ∧ (e.vatx v).stepping = false ∧ d.portStopped e v ∧
    d.keepsBut e portStopFlds ((VAT_STATUS.STATE, v) :: ks) ∧ d.vatsBut e v ∧
    { e.sansVats with ch := [], duty := [], wkr := {}, flights := [], log := {} } =
      { d.sansVats with ch := [], duty := [], wkr := {}, flights := [], log := {} }

/-- The causes of a fault `cause` of Vat `v` that is detected now: WDOG among them where the watchdog expires by then (R118). -/
def Dev.causesOf (d : Dev) (v cause : Nat) : Nat :=
  if (d.wdDue v).any (fun t => decide (t ≤ d.tick)) then Nat.lor cause fcWdog else cause

/-- No CARRY of this tick has launched a carrier (R60). -/
def Dev.noLaunchNow (d : Dev) : Prop := d.launched.all (fun b => b.tick != d.tick) = true

/-- US takes its own registers' settings: ATTACHED names no front end (R63). -/
def Dev.usFree (d : Dev) : Prop := d.attached = none ∧ d.cfg 8 = 8

/-- Nothing timed runs on port 9 or 10, and no level that PWR wrote is to come. -/
def Dev.portCalm (d : Dev) (p : Nat) : Prop := (d.chx p).goal = none ∧ (d.chx p).levels = []

/-- Vat `v` has faulted: the causes, FPC, the tick of detection, the event and the log entry (R118, R119). -/
def Dev.faulted (d e : Dev) (v cause pc : Nat) : Prop :=
  d.leftFor e v vsFault (d.pc v) [(VAT_FAULT.FCAUSE, v), (VAT_FAULT.FPC, v), (VAT_FAT_LO.FAT_LO, v), (VAT_FAT_HI.FAT_HI, v),
      (TRL_CH.SEEN, 0), (MGT_LOG_CNT.DROPPED, 0)] ∧
    e.get VAT_FAULT.FCAUSE v = Nat.lor (d.get VAT_FAULT.FCAUSE v) cause % 2 ^ 7 ∧ e.get VAT_FAULT.FPC v = pc % 2 ^ 18 ∧
    e.get VAT_FAT_LO.FAT_LO v = e.tick % 2 ^ 32 ∧ e.get VAT_FAT_HI.FAT_HI v = e.tick / 2 ^ 32 % 2 ^ 32 ∧
    d.told e (evVatFault v) ∧ d.logged e 2 0x06 v Config.vatFaultCode

/-- Vat `v` of `d` starts in `e` at its entry point `entry`, two ticks on, with an empty return stack, its timeout disarmed, its watchdog reloaded and
OC = NONE (R121). -/
def Dev.started (d e : Dev) (v entry : Nat) : Prop :=
  e.vst v = vsRun ∧ (e.vatx v).wait = .none ∧ (e.vatx v).stepping = false ∧ (e.vatx v).ready = 2 * (d.tick + 2) ∧
    e.pc v = entry ∧ e.get VAT_ENTRY.ENTRY v % 2 ^ 18 = entry ∧ e.get VAT_STATUS.RDEPTH v = 0 ∧ e.get VAT_STATUS.TMO_ARMED v = 0 ∧
    e.get VAT_STATUS.SWAP_PEND v = 0 ∧ e.get VAT_OC.OC v = 0 ∧ e.get VAT_GEN.GVALID v = 0 ∧ e.clk = d.clk ∧
    (e.vatx v).wdCount = 0 ∧ (e.vatx v).wdFrom = d.tick + 2 ∧
    d.vatsBut e v ∧ e.sansVats = d.sansVats

/-- START is accepted: no entry runs, and the Vat is STOPPED, HALTED, or in FAULT with no cause left (R121, R388). -/
def Dev.mayStart (d : Dev) (v : Nat) : Prop :=
  d.entering = false ∧ (d.vst v = vsStopped ∨ d.vst v = vsHalted ∨ (d.vst v = vsFault ∧ d.get VAT_FAULT.FCAUSE v = 0))

/-- The entry point a start takes: that of a pending swap, else ENTRY (R121). -/
def Dev.startEntry (d : Dev) (v : Nat) : Nat :=
  (if d.isSet VAT_STATUS.SWAP_PEND v then d.get VAT_SWAP.NEW_ENTRY v else d.get VAT_ENTRY.ENTRY v) % 2 ^ 18

/-- Vat `v` in RUN to issue the instruction at PC as a STEP, in phase 0 of the next tick (R123). -/
def Dev.toStep (d : Dev) (v : Nat) : Dev :=
  let d := d.setVst v vsRun
  d.setVat v { d.vatx v with ready := 2 * (d.tick + 1), wait := .none, stepping := true, left := none }

/-- The registers a start of Vat `v` writes. -/
def startFlds : List Fld :=
  [VAT_STATUS.STATE, VAT_STATUS.RDEPTH, VAT_STATUS.TMO_ARMED, VAT_STATUS.SWAP_PEND, VAT_ENTRY.ENTRY, VAT_PC.PC, VAT_OC.OC,
    VAT_GEN.GVALID, VAT_GEN.GEN]

/-- The device at the cycle at which Vat `v` issues its next instruction. -/
def Dev.atIssue (d : Dev) (v : Nat) : Dev := d.toClk (d.vatx v).ready

/-- The named tick of an air instruction that Vat `v` issues next (R128). -/
def Dev.namedAt (d : Dev) (v : Nat) : Nat := (d.issueAt v + 1) / 2

/-- The last change of the SPSEL lines has been made (R54). -/
def Dev.feSettled (d : Dev) : Prop := d.spare.selAt ≤ d.tick

/-- Nothing stands before an air instruction of Vat `v`, bound to port code `p`: the port's island is present, no switch-over
runs on its front ends, and UHFS is not US in use elsewhere (R131, R147). -/
def Dev.airOpen (d : Dev) (v p : Nat) : Prop :=
  d.feSettled ∧ d.get VAT_BIND.PORT v = p ∧ p ≠ 0x1F ∧ d.portMissing p = false ∧ (d.portFes p).any d.switching = false ∧
    (p = 8 → d.usTaken = false)

/-- The registers in which an outward instruction reports, with PC (R130). -/
def airFlds : List Fld :=
  [VAT_OC.OC, VAT_ASTAT.LAST_ERR, VAT_ASTAT.LAST_OP, VAT_ACNT.CUTS, VAT_ACNT.REFUSED, VAT_PC.PC]

/-- The outcome of an outward instruction of Vat `v` (R130): OC, and for a status other than 0 LAST_ERR and LAST_OP. -/
def Dev.outcomeIs (e : Dev) (v op oc st : Nat) : Prop :=
  e.get VAT_OC.OC v = oc ∧ (st ≠ 0 → e.get VAT_ASTAT.LAST_ERR v = st ∧ e.get VAT_ASTAT.LAST_OP v = op)

/-- An event on channel `ch` at generation `gen` or above is on its way to every consumer that subscribes to the channel
(R360, R362). -/
def Dev.toldOn (d e : Dev) (ch gen : Nat) : Prop :=
  ∀ c, c ∈ consumerIds → d.subscribes c ch = true →
    ∃ f, f ∈ e.flights ∧ f.cons = c ∧ f.ch = ch ∧ f.at' = e.clk ∧ gen ≤ f.gen

/-- The fields of the register window of a handle. -/
def handleFlds : List Fld :=
  [TXN_HINFO0.STATE, TXN_HINFO0.VAT, TXN_HINFO0.QUEUE, TXN_HINFO0.STATUS, TXN_HINFO1.DECL, TXN_HINFO1.FILL, TXN_HINFO2.ADDR,
    TXN_HINFO3.RECORD, TXN_HINFO4.TAG]

/-- Every handle but `h` is as it was. -/
def Dev.handlesBut (d e : Dev) (h : Nat) : Prop := ∀ f, f ∈ handleFlds → d.indexBut e f 0 h

/-- What the other queues hold is as it was. -/
def Dev.queuesBut (d e : Dev) (q : Nat) : Prop := ∀ n, n ≠ q → e.qx n = d.qx n

/-- What the other rings hold is as it was. -/
def Dev.ringsBut (d e : Dev) (n : Nat) : Prop := ∀ m, m ≠ n → e.ringx m = d.ringx m

/-- The words of queue `q` from position `pos` on are `ws`, cut to 32 bits. -/
def Dev.qHolds (e : Dev) (q pos : Nat) (ws : List Nat) : Prop :=
  (List.range ws.length).map (fun i => e.qWord q (pos + i)) = ws.map (fun w => w % 2 ^ 32)

/-- The register fields of a receiver that a decision writes. -/
def rxFlds : List Fld :=
  [UHF_RPY_D0.CLASS, UHF_RPY_D0.M, UHF_RPY_D0.FHYP, UHF_RPY_D0.CRC_OK, UHF_RPY_D0.HDR, UHF_RPY_D0.MISM_M, UHF_RPY_D0.TRUNC,
    UHF_RPY_D0.CLIP, UHF_RPY_D0.PILOT_LONG, UHF_RPY_D0.LEN, UHF_RPY_D1.START_LO, UHF_RPY_D2.START_HI, UHF_RPY_D3.T1_MEAS,
    UHF_RPY_D4.RSSI, UHF_RPY_D4.SNR, UHF_RPY_D4.GAIN, UHF_RPY_D4.LOWC, UHF_RPY_D5.PHASE, UHF_RPY_D5.BLF_MEAS, UHF_RPY_D6.DUR,
    UHF_RPY_D7.SEQ, UHF_RPY_D7.CUTC, UHF_RPY_DATA.DATA, UHF_RX_STATUS.SEQ, UHF_RX_STATUS.LAST_CLASS, UHF_RX_STATUS.DECODING,
    UHF_RX_STATUS.VIEW, UHF_RX_CCNT.CNT_LO, UHF_RX_CCNT.CNT_HI, UHF_RX_VCNT0.M_MISM, UHF_RX_VCNT0.FT_EDGE,
    UHF_RX_VCNT1.DRIFT, UHF_RX_VCNT1.LEN, UHF_RX_VCNT2.TRUNC, UHF_RX_VCNT2.PILOT]

/-- Nothing is in progress on the front end of electronics `c` beside its own state: no window, no template, no calibration, and
no Vat acts on it. -/
def Dev.unattended (d : Dev) (c : Nat) : Prop :=
  (d.chx (d.cfg c)).win = none ∧ (d.chx (d.cfg c)).txOn = false ∧ d.calOf c = none ∧ d.vatOf c = none

/-- No Vat holds an instruction because of a switch-over (R147). -/
def Dev.noneHeld (d : Dev) : Prop :=
  vatIds.all (fun v => match (d.vatx v).wait with | .held _ => false | _ => true) = true

/-- The device is neither in reset, nor asleep, nor entering sleep. -/
def Dev.awake (d : Dev) : Prop := d.rst.asserted = false ∧ d.pwr.asleep = none ∧ d.pwr.entry = none

/-- The gating of a domain took effect in this very tick. -/
def Dev.gatedNow (d : Dev) (dom : Domain) : Bool := d.gated.any (fun g => g.1 == domNo dom && g.2.1 == d.tick)

/-- The device sleeps in state `t` (1 GLADE, 2 FALLOW) with its domains off. -/
def Dev.sleeps (d : Dev) (t : Nat) : Prop := d.rst.asserted = false ∧ d.pwr.asleep = some t ∧ d.pwr.off = true

/-- The AON island's registers are as they were, and every other register holds its reset value (R10); the fields `fs` apart. -/
def Dev.resetRegs (d e : Dev) (fs : List Fld) : Prop :=
  (∀ f i j, RKey.aon ⟨f, i, j⟩ = true → f ∉ fs → e.get f i j = d.get f i j) ∧
    (∀ f i j, RKey.aon ⟨f, i, j⟩ = false → f ∉ fs → e.get f i j = f.reset i j)

/-- A device reset has been asserted (R10, R27, R28, R292, R399): the AON island's registers, the memories outside the HLK block and the
Ranger's SRAM and the ECC marks are as they were, the duty account but for what an ACT frame has not sent; every other register holds
its reset value; nothing is in progress. The fields `fs` apart. -/
def Dev.wasReset (d e : Dev) (fs : List Fld) : Prop :=
  e.rst.asserted = true ∧ d.resetRegs e fs ∧
    (∀ a, a < 0x200000 ∨ (0x240000 ≤ a ∧ a < 0x40261000) ∨ 0x40262000 ≤ a → e.byte a = d.byte a) ∧ e.ecc = d.ecc ∧
    e.duty = (d.dutyCharge (d.dutyAhead d.tick) true).duty ∧
    e.log.mram = d.log.mram ∧ e.log.ram = [] ∧
    { e.sans with hw := 0, fresh := 0, mem := [], ecc := [], duty := [], log := {}, pwr := {}, rst := {}, hlk := {} } = ({} : Dev)

/-- The fields of the wake record. -/
def wakeRecFlds : List Fld :=
  [AON_WAKE_REC0.VALID, AON_WAKE_REC0.MASK, AON_WAKE_REC0.SRC, AON_WAKE_REC1.HW_LO, AON_WAKE_REC2.HW_HI,
    AON_WAKE_REC3.DETAIL, SYS_RESET_CAUSE.DEV_COUNT]

/-- The device has woken from sleep (R391): the wake record names the source and its detail, and the device is reset with
cause WAKE. -/
def Dev.woken (d e : Dev) (src detail : Nat) : Prop :=
  e.get AON_WAKE_REC0.VALID = 1 ∧ e.get AON_WAKE_REC0.SRC = src ∧ bitOf (e.get AON_WAKE_REC0.MASK) src = true ∧
    e.get AON_WAKE_REC3.DETAIL = detail % 2 ^ 32 ∧ e.rst.causes = 2 ^ rcWake ∧ d.wasReset e wakeRecFlds

/-- Step `k` of start-up may end: it runs in this start-up, its predecessors have ended, and it has not (R424, R425, R428). -/
def Dev.mayEnd (d : Dev) (k : Nat) : Prop :=
  d.rst.asserted = false ∧ d.stepDone k = false ∧ d.stepFailed 2 = false ∧ d.stepMay k = true

/-- Step `k` of start-up has been posted with status `st` (R426): its bits in SYS_STEP, the PLL locks and its event. -/
def Dev.stepPosted (d e : Dev) (k st locks : Nat) : Prop :=
  (∀ j : Nat, j < 14 → 1 ≤ j → e.stepDone j = (d.stepDone j || j == k) ∧
    e.stepFailed j = (d.stepFailed j || (j == k && st != 0))) ∧
    e.get SYS_CLK.SYS_LOCK = locks % 2 ∧ e.get SYS_CLK.HF_LOCK = locks / 2 % 2 ∧ e.get SYS_CLK.SPE_LOCK = locks / 4 % 2 ∧
    e.get SYS_CLK.HLK_LOCK = locks / 8 % 2 ∧ (d.isSet TRL_PDATA.EN 0 (evSysStep k) = true → d.told e (evSysStep k))

/-- The register fields that the posting of a step writes. -/
def postFlds : List Fld :=
  [SYS_STEP.DONE, SYS_STEP.FAILED, SYS_CLK.SYS_LOCK, SYS_CLK.HF_LOCK, SYS_CLK.SPE_LOCK, SYS_CLK.HLK_LOCK, TRL_CH.SEEN,
    MGT_LOG_CNT.DROPPED]

/-- The fields of the neighbour table. -/
def nbrFlds : List Fld :=
  [MSH_NDATA_W0.EXT_LO, MSH_NDATA_W1.EXT_HI, MSH_NDATA_W2.VALID, MSH_NDATA_W2.RANK, MSH_NDATA_W2.SHORT, MSH_NDATA_W3.RSSI,
    MSH_NDATA_W3.DSN, MSH_NDATA_W4.FC, MSH_NDATA_W5.DUP, MSH_NDATA_W5.REPLAY]

/-- The fields of the table of strangers. -/
def strFlds : List Fld :=
  [MSH_SDATA_W0.ADDR_LO, MSH_SDATA_W1.ADDR_HI, MSH_SDATA_W2.VALID, MSH_SDATA_W2.KIND, MSH_SDATA_W2.CH, MSH_SDATA_W2.RSSI,
    MSH_SDATA_W3.PAN_ID, MSH_SDATA_W3.COUNT]

/-- Every neighbour but entry `i` is as it was. -/
def Dev.nbrsBut (d e : Dev) (i : Nat) : Prop :=
  (∀ f, f ∈ nbrFlds → d.indexBut e f 0 i) ∧ ∀ n, n ≠ i → e.nbrx n = d.nbrx n

/-- `e` is `d` but for the register fields `fs`, what the MAC holds, events, the log and time. -/
def Dev.mshFrame (d e : Dev) (fs : List Fld) : Prop :=
  d.keepsBut e (TRL_CH.SEEN :: MGT_LOG_CNT.DROPPED :: fs) [] ∧
    { e.sansTime with msh := {}, flights := [], log := {} } = { d.sansTime with msh := {}, flights := [], log := {} }

/-- As `mshFrame`, the MAC having sent until `txEnd`: the wake receiver is blanked at 2.4 GHz from the start of
the transmission until 2 ms after it (R301). -/
def Dev.mshFrameTx (d e : Dev) (fs : List Fld) : Prop :=
  d.keepsBut e (TRL_CH.SEEN :: MGT_LOG_CNT.DROPPED :: fs) [] ∧
    { e.sansTime with msh := {}, flights := [], log := {}, wkr := {} } = { d.sansTime with msh := {}, flights := [], log := {}, wkr := {} } ∧
    e.wkr.blank24 = e.msh.txEnd.getD 0 + msTicks 2 + 1 ∧ e.wkr.from24 = e.msh.txFrom ∧
    { e.wkr with blank24 := 0, blank24Hw := 0, from24 := 0, was24 := 0 } =
      { d.wkr with blank24 := 0, blank24Hw := 0, from24 := 0, was24 := 0 }

/-- The MAC acquires frame `f`, which is well formed and ends at tick `fin` (R306, R316). -/
def Dev.hears (d : Dev) (f : MshFrame) (fin : Nat) : Prop :=
  d.mshAcquires f = true ∧ f.fcsOk = true ∧ f.parsable = true ∧ f.len ≤ longest f.sf.toNat ∧
    fin = f.startTick + frameTicks f.sf.toNat f.len

/-- The window of timekeeping link `k` toward the time parent `p` has passed without a frame of it (R318). -/
def Dev.missed (d : Dev) (k p : Nat) : Prop :=
  d.linkOf d.msh.asn = some k ∧ d.parent = some p ∧ d.mshState = mshSync ∧ d.mshRoot = false ∧
    d.isSet MSH_LDATA.RX 0 k = true ∧ d.isSet MSH_LDATA.TK 0 k = true ∧
    (d.get MSH_LDATA.NBR 0 k = 0x7F ∨ d.get MSH_LDATA.NBR 0 k = p) ∧ (d.nbrx p).onAir.all (fun t => decide (t < d.msh.bound)) = true

/-- Frame `f` is whole and good, no control frame and none for the mesh, and addressed to wired port `n` (R335 to R337). -/
def Dev.takesFrame (d : Dev) (n : Nat) (f : WireFrame) : Prop :=
  f.codeOk = true ∧ 64 ≤ f.bytes.length ∧ f.bytes.length ≤ 1518 ∧ f.fcsOk = true ∧ f.control = false ∧
    (f.etherType ≠ 0x88B5 ∨ d.isSet SPE_CTRL.OLUON n = false) ∧ d.speForUs n f.dst = true

/-- What is non-volatile is as it was, but for the `n` bytes of MRAM at `a`. -/
def State.nvBut (s t : State) (a n : Nat) : Prop :=
  (∀ b, b < a ∨ a + n ≤ b → t.nv.byte b = s.nv.byte b) ∧ { t.nv with mram := [] } = { s.nv with mram := [] }

/-- Every byte of memory outside the runs (address, length) that `rs` lists reads as it did. -/
def Dev.memOutside (d e : Dev) (rs : List (Nat × Nat)) : Prop :=
  ∀ a, rs.all (fun r => decide (a < r.1) || decide (r.1 + r.2 ≤ a)) = true → e.byte a = d.byte a

/-- What is non-volatile is as it was, but for the runs (offset, length) of MRAM that `rs` lists. -/
def State.nvOutside (s t : State) (rs : List (Nat × Nat)) : Prop :=
  (∀ a, rs.all (fun r => decide (a < r.1) || decide (r.1 + r.2 ≤ a)) = true → t.nv.byte a = s.nv.byte a) ∧
    { t.nv with mram := [] } = { s.nv with mram := [] }

/-- The mailbox commands with a fixed number of arguments: TYPE and that number (table "Mailbox commands"). -/
def mailboxCmds : List (Instr × Nat × Nat) :=
  [(.info, 0x01, 0), (.stageOpen, 0x10, 1), (.store, 0x12, 1), (.stageDiscard, 0x13, 1), (.calCapture, 0x14, 0),
    (.hoopLoad, 0x20, 3), (.hoopSwap, 0x21, 4), (.hoopFree, 0x22, 1), (.hoopBootset, 0x23, 4), (.rguSelect, 0x30, 1),
    (.mshKey, 0x38, 1), (.fwWrite, 0x40, 3), (.fwActivate, 0x41, 0), (.fwConfirm, 0x42, 0), (.attest, 0x48, 9),
    (.attestCert, 0x49, 1), (.lcsAdvance, 0x50, 1), (.returnAuth, 0x51, 1), (.returnToken, 0x52, 1)]

/-- The Ranger takes a command of TYPE `type` with TAG and arguments from Q0, and its life-cycle state allows it (R403). -/
def Dev.offers (d : Dev) (type tag : Nat) (args : List Nat) : Prop :=
  d.mbxReady = true ∧ d.mbxType = type ∧ d.qBody 0 = tag :: args ∧ d.rgr.recovery = false ∧ mbxState type d.lcs = true ∧
    (d.qx 1).stall = none

/-- The command has been taken from Q0 and answered on Q1 with its TAG, status and results (R403). -/
def Dev.answered (d e : Dev) (type tag st : Nat) (res : List Nat) : Prop :=
  e.qHolds 1 (d.qx 1).prod (qHeader type (res.length + 2) :: tag :: st :: res) ∧
    (e.qx 1).vis = (d.qx 1).prod + res.length + 3 ∧ (e.qx 0).cons = (d.qx 0).cons + 1 + bitsOf (d.qHead 0) 15 0

/-- `e` is `d` but for Q0, Q1 and its storage, the log, what the Ranger keeps, the count of free values, the fields `fs`, and the runs of memory `rs`. -/
def Dev.mbxFrame (d e : Dev) (fs : List Fld) (rs : List (Nat × Nat)) : Prop :=
  d.keepsBut e (MGT_LOG_CNT.ERRORS :: MGT_LOG_CNT.DROPPED :: fs) [] ∧ (∀ n, 2 ≤ n → e.qx n = d.qx n) ∧
    d.memOutside e ((d.qAddr 1, 4 * d.qSize 1) :: rs) ∧
    { e.sans with q := [], mem := [], log := {}, rgr := {}, ecc := [], fresh := 0 } =
      { d.sans with q := [], mem := [], log := {}, rgr := {}, ecc := [], fresh := 0 }

/-- The fields of the trim cache. -/
def cacheFlds : List Fld := [UHF_LKC_CDATA.VALID, UHF_LKC_CDATA.C_I, UHF_LKC_CDATA.C_Q]

/-- No carrier that the guard ended has its gate closed by the decision tick of window `x` of UHF port `u` (R80). -/
def Dev.guardLater (d : Dev) (u : Nat) (x : Window) (o : ReplyObs) : Prop :=
  (d.chx (d.driver u)).guarded = none ∨ d.decideTick u x o < (d.chx (d.driver u)).due

/-- The quality floor that a window's qsel names (R77). -/
def Dev.floorOf (d : Dev) (u qsel : Nat) : Nat :=
  if qsel = 0 then d.get UHF_RX_QFLR.QF0 u else if qsel = 1 then d.get UHF_RX_QFLR.QF1 u
  else if qsel = 2 then d.get UHF_RX_QFLR.QF2 u else d.get UHF_RX_QFLR.QF3 u

/-- A byte of host memory that the device has written, else 0. -/
def Dev.hostByte (d : Dev) (a : Nat) : Byte := fget (fun _ => 0) d.hlk.host a

/-- The four bytes at `a` of host memory, as a word. -/
def Dev.hostAt (d : Dev) (a : Nat) : Nat :=
  (d.hostByte a).toNat + 256 * ((d.hostByte (a + 1)).toNat + 256 * ((d.hostByte (a + 2)).toNat + 256 * (d.hostByte (a + 3)).toNat))

/-- Every byte of host memory outside the runs (address, length) that `rs` lists is as it was. -/
def Dev.hostOutside (d e : Dev) (rs : List (Nat × Nat)) : Prop :=
  ∀ a, rs.all (fun r => decide (a < r.1) || decide (r.1 + r.2 ≤ a)) = true → e.hostByte a = d.hostByte a

/-- LINK and BME have taken the values `link` and `bme` and SPEED `speed`: enabled channels are held or go on, and what holds
them is logged once (R440). -/
def Dev.linkSet (d e : Dev) (link bme speed : Nat) : Prop :=
  e.get HLK_STATUS.LINK = link ∧ e.get HLK_STATUS.BME = bme ∧ e.get HLK_STATUS.SPEED = speed ∧
    (∀ k : Nat, k < 16 → e.get HLK_DMA_STAT.STOPPED k =
      if d.dmaEn k = false then d.get HLK_DMA_STAT.STOPPED k
      else if link = 1 ∧ bme = 1 ∧ d.qEn (d.get HLK_DMA_CFG.QUEUE k) = true then 0 else 1) ∧
    (link = 1 ∧ bme = 1 → e.hlk.downLogged = false ∧ e.log = d.log) ∧
    (link = 0 ∨ bme = 0 → e.hlk.downLogged = true ∧ (d.hlk.downLogged = true → e.log = d.log) ∧
      (d.hlk.downLogged = false → d.logged e 2 0x26 0 stHlkLinkDown)) ∧
    d.keepsBut e [HLK_STATUS.LINK, HLK_STATUS.BME, HLK_STATUS.SPEED, HLK_DMA_STAT.STOPPED, MGT_LOG_CNT.DROPPED] [] ∧
    { e.sans with hlk := {}, log := {} } = { d.sans with hlk := {}, log := {} }

/-- The registers of which a write sets more in motion than its fields (R7). -/
def actingRegs : List Reg :=
  [.UHF_RX_VCLR, .UHF_CAP_CTRL, .UHFS_TAKE, .SYN_F_CTRL, .VAT_CTRL, .VAT_GSTART, .VAT_GSTOP, .VAT_ASTAT, .TXN_HCMD, .LDG_CMD,
    .CAL_CMD, .MSH_WAKE, .RING_CMPST, .TRL_CSTAT, .TRL_SWPUB, .QMX_Q_CTRL, .QMX_Q_PUSH, .PWR_CTRL, .SYS_RESET_REQ]

/-- The registers of which a read does more than return data. -/
def readingRegs : List Reg :=
  [.UHF_RPY_DATA, .HFR_RPY_DATA, .ACT_RPY_DATA, .RING_CNT_W0, .RING_CAP_W0, .RING_PPS_W0, .RING_AT_W0, .AON_HW_W0, .MSH_ASN_LO,
    .QMX_Q_POP, .SNS_TRNG, .MGT_LOG_D]

/-- Every field but those of register `r` at unit and index `p` is as it was. -/
def Dev.regBut (d e : Dev) (r : Reg) (p : Nat × Nat) : Prop := ∀ f i j, f.r ≠ r ∨ (i, j) ≠ p → e.get f i j = d.get f i j

/-- Byte address `a` is the word address of register `r` at unit `i` and index `j`, in a block of an island that is present. -/
def Dev.isReg (d : Dev) (a : Nat) (r : Reg) (i j : Nat) : Prop :=
  regAt a = some (r, i, j) ∧ a % 4 = 0 ∧ inMsixTable a = false ∧ a ≠ 0x40261800 ∧
    (match blockIsland a with | some k => d.present k | none => false) = true

/-- The device whose window `w` an access to `n` bytes at `a` finds: a bank of the Cellar has power, and the samples taken so far stand
in the capture buffer (R88, R383). -/
def Dev.memAt (d : Dev) (w : MemWin) (a n : Nat) : Dev :=
  match w with
  | .capture => d.capSync
  | _ => d.reachMem w a n

/-- The JTAG port may write at `a`, when it is the one that asks (R415). -/
def Dev.mayWrite (d : Dev) (by' : Writer) (a : Nat) : Prop := by' = .jtag → d.lcs = 0 ∨ (d.lcs = 1 ∧ debugReach a = true)

/-- The JTAG port may read at `a`, when it is the one that asks (R415). -/
def Dev.mayRead (d : Dev) (by' : Writer) (a : Nat) : Prop :=
  by' = .jtag → d.lcs = 0 ∨ (d.lcs = 1 ∧ debugReach a = true) ∨ (d.lcs = 3 ∧ d.get LCS_STATE.DBG_OPEN = 1)

/-- Nothing has changed but that the host's access at `a` has ended with an error of status `code` (R433). -/
def Dev.hostErred (d e : Dev) (code a : Nat) : Prop :=
  e.get HLK_ERR.COUNT = min (d.get HLK_ERR.COUNT + 1) 0xFFFF ∧
    (d.get HLK_ERR.COUNT = 0 → e.get HLK_ERR.CODE = code % 2 ^ 16 ∧ e.get HLK_ERRADDR.ADDR = a % 2 ^ 32) ∧
    (d.get HLK_ERR.COUNT ≠ 0 → e.get HLK_ERR.CODE = d.get HLK_ERR.CODE ∧ e.get HLK_ERRADDR.ADDR = d.get HLK_ERRADDR.ADDR) ∧
    d.keeps e [(HLK_ERR.COUNT, 0), (HLK_ERR.CODE, 0), (HLK_ERRADDR.ADDR, 0)]

end Sys2Proof.Machine
end

