-- ==== Sys2Proof/WellFormed.lean ====
section
/-! DEFINITION. Which commands are well formed: the ranges of operands that their types do not already give. The meanings are
total, so a command that is not well formed has a meaning too; it is one that no bus, air or link can bring. -/

namespace Sys2Proof

/-- A value fits the bytes of an access (R6). -/
def fitsWidth (w : Width) (value : BitVec 64) : Bool :=
  match w with
  | .b1 => decide (value.toNat < 256)
  | .b2 => decide (value.toNat < 65536)
  | .b4 => decide (value.toNat < 4294967296)
  | .b8 => true

/-- A bus write carries no more bits than its width. -/
def Instr.widthOk : Instr → Bool
  | .registerWrite _ w _ value => fitsWidth w value
  | _ => true

/-- Start-up has steps 1 to 13 (R424). -/
def Instr.stepOk : Instr → Bool
  | .startupStepEnd k _ => decide (1 ≤ k.val)
  | _ => true

/-- The rails are 0 to 8 (table "Supply rails"). -/
def Instr.railOk : Instr → Bool
  | .brownOut rail => decide (rail.toNat ≤ 8)
  | _ => true

/-- The consumers are 0x00 to 0x7B (table "Consumers"). -/
def Instr.consumerOk : Instr → Bool
  | .trailsDelivery id => decide (id.val < 0x7C)
  | .mclr id => decide (id.val < 0x7C)
  | _ => true

/-- A write transaction of the SPI target carries a word (R435). -/
def Instr.spiOk : Instr → Bool
  | .spiWrite _ words => !words.isEmpty
  | _ => true

/-- An IEEE 802.15.4 frame has at most 127 bytes (R306). -/
def Instr.frameOk : Instr → Bool
  | .mshFrameRx f => decide (f.len ≤ 127)
  | _ => true

/-- A correlation is normalised: at most 256 (R70). -/
def Instr.corrOk : Instr → Bool
  | .preambleValidated _ o => o.hyps.all (fun h => decide (h.corr ≤ 256))
  | _ => true

/-- An illegal word's opcode is none of those R99 and R127 assign: 0x00, 0x16, 0x17, 0x1C to 0x1F, 0x29 to 0x2B, 0x2F, 0x34 to
0x37, 0x3B to 0x3F. -/
def Instr.illegalOk : Instr → Bool
  | .illegal _ word =>
    [0x00, 0x16, 0x17, 0x1C, 0x1D, 0x1E, 0x1F, 0x29, 0x2A, 0x2B, 0x2F, 0x34, 0x35, 0x36, 0x37, 0x3B, 0x3C, 0x3D, 0x3E,
      0x3F].contains (word.toNat / 2 ^ 26)
  | _ => true

/-- A command is well formed. -/
def Instr.wellFormed (i : Instr) : Bool :=
  i.widthOk && i.stepOk && i.railOk && i.consumerOk && i.spiOk && i.frameOk && i.corrOk && i.illegalOk

end Sys2Proof
end

