-- ==== Sys2Proof/Certificates/Slice0/Obligations.lean ====
section
/-! DEFINITION. The statements for the provers. -/

open Sys2Proof Sys2Proof.Machine

/-- The scalar instructions that put a value into g[RD] (R102): LDI, LDX, MOV, ADD, ADDI, SUB, AND, OR, XOR, SHL, SHR. Where
nothing is in the way of the instruction (`mayIssue`), it completes: g[RD] holds the value the instruction table gives, PC has
advanced by its words, the next instruction may issue after its cycles (R100), and nothing else has changed. -/
def Obligations.ScalarInstructionsComplete : Prop :=
  ∀ (s : State) (v : VatNo) (rd ra rb : RegNo) (imm : Imm) (ext : Word),
    (s.dev.mayIssue v (.ldi rd imm) →
      completes (.ldi v rd imm) s (fun e => s.dev.loaded e v rd (imm.signExtend 32) 1 1)) ∧
    (s.dev.mayIssue v (.ldx rd ext) → completes (.ldx v rd ext) s (fun e => s.dev.loaded e v rd ext 2 2)) ∧
    (s.dev.mayIssue v (.mov rd ra) → completes (.mov v rd ra) s (fun e => s.dev.loaded e v rd (s.dev.g32 v ra) 1 1)) ∧
    (s.dev.mayIssue v (.add rd ra rb) →
      completes (.add v rd ra rb) s (fun e => s.dev.loaded e v rd (s.dev.g32 v ra + s.dev.g32 v rb) 1 1)) ∧
    (s.dev.mayIssue v (.addi rd ra imm) →
      completes (.addi v rd ra imm) s (fun e => s.dev.loaded e v rd (s.dev.g32 v ra + imm.signExtend 32) 1 1)) ∧
    (s.dev.mayIssue v (.sub rd ra rb) →
      completes (.sub v rd ra rb) s (fun e => s.dev.loaded e v rd (s.dev.g32 v ra - s.dev.g32 v rb) 1 1)) ∧
    (s.dev.mayIssue v (.and rd ra rb) →
      completes (.and v rd ra rb) s (fun e => s.dev.loaded e v rd (s.dev.g32 v ra &&& s.dev.g32 v rb) 1 1)) ∧
    (s.dev.mayIssue v (.or rd ra rb) →
      completes (.or v rd ra rb) s (fun e => s.dev.loaded e v rd (s.dev.g32 v ra ||| s.dev.g32 v rb) 1 1)) ∧
    (s.dev.mayIssue v (.xor rd ra rb) →
      completes (.xor v rd ra rb) s (fun e => s.dev.loaded e v rd (s.dev.g32 v ra ^^^ s.dev.g32 v rb) 1 1)) ∧
    (s.dev.mayIssue v (.shl rd ra rb imm) →
      completes (.shl v rd ra rb imm) s (fun e => s.dev.loaded e v rd
        (s.dev.g32 v ra <<< (if imm.getLsbD 13 then imm.toNat % 32 else (s.dev.g32 v rb).toNat % 32)) 1 1)) ∧
    (s.dev.mayIssue v (.shr rd ra rb imm) →
      completes (.shr v rd ra rb imm) s (fun e => s.dev.loaded e v rd
        (let n := if imm.getLsbD 13 then imm.toNat % 32 else (s.dev.g32 v rb).toNat % 32
         if imm.getLsbD 12 then (s.dev.g32 v ra).sshiftRight n else s.dev.g32 v ra >>> n) 1 1))

/-- NOP, TST, TMO, STAMP, LDW and STW (R102 to R104, R114, R116). NOP idles IMM + 1 cycles; TST sets OC; TMO arms the timeout with
g[RB]; STAMP with an even RD puts the AT, or the mirrored ASN, into a register pair; LDW loads a word of its windows, which in
hoop memory carries no ECC mark; STW stores a word in Data SRAM, and every byte outside it reads as before; of two stores to
one word in one cycle that of the higher-numbered Vat remains (R104). -/
def Obligations.PlainInstructionsComplete : Prop :=
  ∀ (s : State) (v : VatNo) (rd ra rb : RegNo) (imm : Imm) (n : Nat),
    (s.dev.mayIssue v (.nop imm) → completes (.nop v imm) s (fun e =>
      s.dev.ran e v (s.dev.pc v + 1) (imm.toNat + 1) ∧ s.dev.vatFrame e v [VAT_PC.PC])) ∧
    (s.dev.mayIssue v (.tst ra imm) → completes (.tst v ra imm) s (fun e =>
      e.get VAT_OC.OC v = (if (if imm = 0 then s.dev.g32 v ra else s.dev.g32 v ra &&& imm.setWidth 32) = 0 then 0 else 1) ∧
      s.dev.ran e v (s.dev.pc v + 1) 1 ∧ s.dev.vatFrame e v [VAT_OC.OC, VAT_PC.PC])) ∧
    (s.dev.mayIssue v (.tmo rb) → completes (.tmo v rb) s (fun e =>
      e.get VAT_TMO.VALUE v = s.dev.gr v rb ∧ e.get VAT_STATUS.TMO_ARMED v = 1 ∧ s.dev.ran e v (s.dev.pc v + 1) 1 ∧
      s.dev.vatFrame e v [VAT_TMO.VALUE, VAT_STATUS.TMO_ARMED, VAT_PC.PC])) ∧
    (rd.getLsbD 0 = false → s.dev.mayIssue v (.stamp rd 0) → completes (.stamp v rd 0) s (fun e =>
      e.grPair v rd = s.dev.issueAt v / 2 % 2 ^ 64 ∧ e.get VAT_OC.OC v = 1 ∧ s.dev.grPairBut e v rd ∧
      s.dev.ran e v (s.dev.pc v + 1) 1 ∧ s.dev.vatFrame e v [VAT_G.G, VAT_OC.OC, VAT_PC.PC])) ∧
    (rd.getLsbD 0 = false → s.dev.mayIssue v (.stamp rd 1) → completes (.stamp v rd 1) s (fun e =>
      e.grPair v rd = s.dev.asn.at' (s.dev.issueAt v / 2) ∧ e.get VAT_OC.OC v = (if s.dev.meshSync then 1 else 6) ∧
      s.dev.grPairBut e v rd ∧ s.dev.ran e v (s.dev.pc v + 1) 1 ∧
      s.dev.vatFrame e v [VAT_G.G, VAT_OC.OC, VAT_PC.PC])) ∧
    (s.dev.mayIssue v (.ldw rd ra imm) → ldwReach (memAddr (s.dev.gr v ra) imm) = true →
      (memAddr (s.dev.gr v ra) imm < 0x100000 → s.dev.eccOf (memAddr (s.dev.gr v ra) imm / 4) = none) →
      completes (.ldw v rd ra imm) s (fun e =>
        s.dev.loaded e v rd (BitVec.ofNat 32 (s.dev.word (memAddr (s.dev.gr v ra) imm))) 1 4)) ∧
    (s.dev.mayIssue v (.stw ra rb imm) → stwReach (memAddr (s.dev.gr v ra) imm) = true →
      (∀ x, x ∈ s.dev.stws → x.1 = s.dev.issueAt v → x.2.1 = memAddr (s.dev.gr v ra) imm → x.2.2 ≤ v) →
      completes (.stw v ra rb imm) s (fun e =>
        e.word (memAddr (s.dev.gr v ra) imm) = s.dev.gr v rb ∧ s.dev.memBut e (memAddr (s.dev.gr v ra) imm) 4 ∧
        s.dev.ran e v (s.dev.pc v + 1) 2 ∧ s.dev.vatAlters e v [VAT_PC.PC] (fun x => { x with mem := [], stws := [] }))) ∧
    (s.dev.mayIssue v (.stw ra rb imm) → stwReach (memAddr (s.dev.gr v ra) imm) = true →
      (s.dev.issueAt v, memAddr (s.dev.gr v ra) imm, n) ∈ s.dev.stws → v < n → completes (.stw v ra rb imm) s (fun e =>
        e.mem = s.dev.mem ∧ s.dev.ran e v (s.dev.pc v + 1) 2 ∧
        s.dev.vatAlters e v [VAT_PC.PC] (fun x => { x with stws := [] })))

/-- JMP, CALL, RET, DSP and CLR (R106 to R110). CALL pushes the address of the word after its extension word, RET pops; DSP
reads the entry of its table, an entry of kind 00 jumps, of kind 01 calls, of kind 10 goes on, and in mode QOC an entry with
WQ writes NEWQ to g[RA][3:0]; CLR records its ID and counts; with a swap pending from an earlier cycle it starts the new hoop,
which empties the return stack, disarms the timeout, sets OC to NONE, and is published. -/
def Obligations.FlowInstructionsComplete : Prop :=
  ∀ (s : State) (v : VatNo) (ra : RegNo) (mode : BitVec 2) (k : BitVec 4) (imm : Imm) (ext : Word) (n w entry : Nat),
    (s.dev.mayIssue v (.jmp ext) → completes (.jmp v ext) s (fun e =>
      s.dev.ran e v (ext.toNat % 2 ^ 18) 2 ∧ s.dev.vatFrame e v [VAT_PC.PC])) ∧
    (s.dev.mayIssue v (.call ext) → s.dev.get VAT_STATUS.RDEPTH v = n → n < 8 → completes (.call v ext) s (fun e =>
      e.get VAT_STATUS.RDEPTH v = n + 1 ∧ e.get VAT_RSTK.RET v n = (s.dev.pc v + 2) % 2 ^ 18 ∧
      s.dev.indexBut e VAT_RSTK.RET v n ∧ s.dev.ran e v (ext.toNat % 2 ^ 18) 2 ∧
      s.dev.vatFrame e v [VAT_RSTK.RET, VAT_STATUS.RDEPTH, VAT_PC.PC])) ∧
    (s.dev.mayIssue v .ret → s.dev.get VAT_STATUS.RDEPTH v = n + 1 → n < 8 → completes (.ret v) s (fun e =>
      e.get VAT_STATUS.RDEPTH v = n ∧ s.dev.ran e v (s.dev.get VAT_RSTK.RET v n % 2 ^ 18) 2 ∧
      s.dev.vatFrame e v [VAT_STATUS.RDEPTH, VAT_PC.PC])) ∧
    (s.dev.mayIssue v (.dsp ra mode k ext) → mode ≠ 3 → (mode = 1 → 1 ≤ k.toNat ∧ k.toNat ≤ 8) →
      w = (ext.toNat + dspIndex mode.toNat (s.dev.gr v ra) k.toNat (s.dev.get VAT_OC.OC v)) % 2 ^ 18 →
      s.dev.eccOf w = none → entry = s.dev.hw' w → s.dev.get VAT_STATUS.RDEPTH v = n →
      (bitsOf entry 31 30 = 1 → n < 8) → (bitsOf entry 31 30 = 2 → s.dev.pc v + 2 ≤ 0x3FFFF) → bitsOf entry 31 30 ≠ 3 →
      completes (.dsp v ra mode k ext) s (fun e =>
        e.gr v ra = (if mode = 2 ∧ bitOf entry 29 = true then s.dev.gr v ra / 16 * 16 + bitsOf entry 27 24
          else s.dev.gr v ra) ∧
        s.dev.grBut e v ra ∧
        (bitsOf entry 31 30 = 1 → e.get VAT_STATUS.RDEPTH v = n + 1 ∧ e.get VAT_RSTK.RET v n = (s.dev.pc v + 2) % 2 ^ 18) ∧
        (bitsOf entry 31 30 ≠ 1 → e.get VAT_STATUS.RDEPTH v = n ∧ e.get VAT_RSTK.RET v n = s.dev.get VAT_RSTK.RET v n) ∧
        s.dev.indexBut e VAT_RSTK.RET v n ∧
        s.dev.ran e v (if bitsOf entry 31 30 = 2 then s.dev.pc v + 2 else bitsOf entry 17 0) 4 ∧
        s.dev.vatFrame e v [VAT_G.G, VAT_RSTK.RET, VAT_STATUS.RDEPTH, VAT_PC.PC])) ∧
    (s.dev.mayIssue v (.clr imm) → s.dev.isSet VAT_STATUS.SWAP_PEND v = false → s.dev.pc v + 1 ≤ 0x3FFFF →
      s.dev.isSet VAT_CTRL.STOP_AT_CLR v = false → completes (.clr v imm) s (fun e =>
        e.get VAT_CLRID.ID v = imm.toNat ∧ e.get VAT_CLRID.COUNT v = (s.dev.get VAT_CLRID.COUNT v + 1) % 2 ^ 18 ∧
        e.get VAT_GEN.GVALID v = 0 ∧ e.wdNow v = 0 ∧ s.dev.ran e v (s.dev.pc v + 1) 1 ∧
        s.dev.vatFrame e v [VAT_CLRID.ID, VAT_CLRID.COUNT, VAT_GEN.GVALID, VAT_GEN.GEN, VAT_PC.PC])) ∧
    (s.dev.mayIssue v (.clr imm) → s.dev.isSet VAT_STATUS.SWAP_PEND v = true → (s.dev.vatx v).swapFrom ≤ s.dev.issueAt v →
      s.dev.isSet VAT_CTRL.STOP_AT_CLR v = false → completes (.clr v imm) s (fun e =>
        e.get VAT_CLRID.ID v = imm.toNat ∧ e.get VAT_CLRID.COUNT v = (s.dev.get VAT_CLRID.COUNT v + 1) % 2 ^ 18 ∧
        e.pc v = s.dev.get VAT_SWAP.NEW_ENTRY v % 2 ^ 18 ∧ e.get VAT_ENTRY.ENTRY v = s.dev.get VAT_SWAP.NEW_ENTRY v % 2 ^ 18 ∧
        e.get VAT_STATUS.SWAP_PEND v = 0 ∧ e.get VAT_STATUS.RDEPTH v = 0 ∧ e.get VAT_STATUS.TMO_ARMED v = 0 ∧
        e.get VAT_OC.OC v = 0 ∧ e.vst v = vsRun ∧ (e.vatx v).ready = s.dev.issueAt v + 4 ∧
        s.dev.told e (evVatSwap v) ∧ s.dev.logged e 2 0x06 v Config.vatSwapCode ∧
        s.dev.keeps e [(VAT_CLRID.ID, v), (VAT_CLRID.COUNT, v), (VAT_GEN.GVALID, v), (VAT_GEN.GEN, v), (VAT_PC.PC, v),
          (VAT_ENTRY.ENTRY, v), (VAT_STATUS.SWAP_PEND, v), (VAT_STATUS.RDEPTH, v), (VAT_STATUS.TMO_ARMED, v), (VAT_OC.OC, v),
          (TRL_CH.SEEN, 0), (MGT_LOG_CNT.DROPPED, 0)] ∧
        s.dev.vatsBut e v ∧
        { e.sansVats with flights := [], log := {} } = { s.dev.sansVats with flights := [], log := {} }))

/-- Faults (R99, R101, R103, R105, R106, R117 to R120): an undefined or illegal word raises ILLEGAL, an advance past hoop memory
PC_RANGE, an uncorrectable word HOOP_ECC, both where both hold, an access outside its windows ACCESS, a full or empty return stack
RSTACK, and an expired watchdog WDOG at its tick, at the instruction in progress, unless a CLR issues in that cycle; one that
expires in the cycle of another fault adds its cause. The Vat is in FAULT with PC at the instruction, the causes, FPC and the tick of
detection are recorded, the event is published and the log has its entry. -/
def Obligations.FaultsAreTaken : Prop :=
  ∀ (s : State) (v : VatNo) (rd ra rb : RegNo) (imm : Imm) (word ext : Word) (src : BitVec 2) (t : Nat),
    (s.dev.mayIssue v (.illegal word) → completes (.illegal v word) s (fun e =>
      s.dev.faulted e v ((s.dev.atIssue v).causesOf v fcIllegal) (s.dev.pc v))) ∧
    (s.dev.mayIssue v (.stamp rd src) → rd.getLsbD 0 = true ∨ 2 ≤ src.toNat → completes (.stamp v rd src) s (fun e =>
      s.dev.faulted e v ((s.dev.atIssue v).causesOf v fcIllegal) (s.dev.pc v))) ∧
    (s.dev.vst v = vsRun → (s.dev.vatx v).wait = .none → 0x3FFFF < s.dev.pc v + 1 → s.dev.eccOf (s.dev.pc v) = none →
      completes (.nop v imm) s (fun e =>
        s.dev.faulted e v ((s.dev.atIssue v).causesOf v fcPcRange) (s.dev.pc v))) ∧
    (s.dev.vst v = vsRun → (s.dev.vatx v).wait = .none → s.dev.pc v = 0x3FFFF → s.dev.eccOf (s.dev.pc v) = some true →
      completes (.nop v imm) s (fun e =>
        s.dev.faulted e v ((s.dev.atIssue v).causesOf v (fcPcRange + fcHoopEcc)) (s.dev.pc v))) ∧
    (s.dev.vst v = vsRun → (s.dev.vatx v).wait = .none → s.dev.pc v + 1 ≤ 0x3FFFF → s.dev.eccOf (s.dev.pc v) = some true →
      completes (.nop v imm) s (fun e =>
        s.dev.faulted e v ((s.dev.atIssue v).causesOf v fcHoopEcc) (s.dev.pc v))) ∧
    (s.dev.mayIssue v (.ldw rd ra imm) → ldwReach (memAddr (s.dev.gr v ra) imm) = false → completes (.ldw v rd ra imm) s
      (fun e => s.dev.faulted e v ((s.dev.atIssue v).causesOf v fcAccess) (s.dev.pc v))) ∧
    (s.dev.mayIssue v (.stw ra rb imm) → stwReach (memAddr (s.dev.gr v ra) imm) = false → completes (.stw v ra rb imm) s
      (fun e => s.dev.faulted e v ((s.dev.atIssue v).causesOf v fcAccess) (s.dev.pc v))) ∧
    (s.dev.mayIssue v (.call ext) → 8 ≤ s.dev.get VAT_STATUS.RDEPTH v → completes (.call v ext) s (fun e =>
      s.dev.faulted e v ((s.dev.atIssue v).causesOf v fcRstack) (s.dev.pc v))) ∧
    (s.dev.mayIssue v .ret → s.dev.get VAT_STATUS.RDEPTH v = 0 → completes (.ret v) s (fun e =>
      s.dev.faulted e v ((s.dev.atIssue v).causesOf v fcRstack) (s.dev.pc v))) ∧
    (s.dev.wdDue v = some t → s.dev.clearsAt v t = false → completes (.wdog v) s (fun e =>
      s.dev.faulted e v fcWdog ((s.dev.toTick t).shownPc v) ∧ e.clk = max s.dev.clk (2 * t))) ∧
    (s.dev.wdDue v = some t → s.dev.clearsAt v t = true → changesNothing (.wdog v) s) ∧
    (s.dev.wdDue v = none → s.dev.wdExpired v = true → s.dev.vst v = vsFault → completes (.wdog v) s (fun e =>
      e.get VAT_FAULT.FCAUSE v = Nat.lor (s.dev.get VAT_FAULT.FCAUSE v) fcWdog % 2 ^ 7 ∧
      s.dev.writes e [(VAT_FAULT.FCAUSE, v)])) ∧
    (s.dev.wdDue v = none → s.dev.wdExpired v = false → changesNothing (.wdog v) s)

/-- WAITA, WAITT and their ends (R112, R113, R115, R116, R120). WAITA ahead of its target waits; one that is late goes on at the
next tick with OC = LATE, counts and is published; WAITT takes a pending trigger, polls with a timeout of 0, else waits. At
the target tick, at a visible trigger, and at the end of an armed timeout the wait ends. U = 1 advances the pair by g[RB]. -/
def Obligations.WaitsBeginAndEnd : Prop :=
  ∀ (s : State) (v : VatNo) (ra rb : RegNo) (u : Bool) (input : BitVec 2) (n target : Nat) (give : Option Nat),
    (ra.getLsbD 0 = false → s.dev.mayIssue v (.waita ra rb u) →
      n = waitaAhead (s.dev.grPair v ra) (s.dev.issueAt v / 2) → waitaOnTime n = true →
      completes (.waita v ra rb u) s (fun e =>
        s.dev.waits e v (.waita (s.dev.issueAt v / 2 + n) ra rb u) ∧ s.dev.vatFrame e v [VAT_STATUS.STATE])) ∧
    (ra.getLsbD 0 = false → s.dev.mayIssue v (.waita ra rb u) →
      n = waitaAhead (s.dev.grPair v ra) (s.dev.issueAt v / 2) → waitaOnTime n = false →
      completes (.waita v ra rb u) s (fun e =>
        e.get VAT_OC.OC v = 5 ∧ e.get VAT_LATE.COUNT v = min (s.dev.get VAT_LATE.COUNT v + 1) 0xFFFF ∧
        e.get VAT_LATE.LAST v = lateness n ∧
        e.grPair v ra = (if u then s.dev.grPair v ra + s.dev.gr v rb else s.dev.grPair v ra) % 2 ^ 64 ∧
        s.dev.grPairBut e v ra ∧ s.dev.released e v (2 * (s.dev.issueAt v / 2 + 1)) ∧ s.dev.told e (evVatLate v) ∧
        s.dev.keeps e [(VAT_OC.OC, v), (VAT_G.G, v), (VAT_LATE.COUNT, v), (VAT_LATE.LAST, v), (VAT_PC.PC, v),
          (TRL_CH.SEEN, 0)] ∧
        s.dev.vatsBut e v ∧ { e.sansVats with flights := [] } = { s.dev.sansVats with flights := [] })) ∧
    (s.dev.waiting v (.waita target ra rb u) → (∀ t, s.dev.wdDue v = some t → target < t) →
      completes (.waitaRelease v) s (fun e =>
        e.get VAT_OC.OC v = 1 ∧
        e.grPair v ra = (if u then s.dev.grPair v ra + s.dev.gr v rb else s.dev.grPair v ra) % 2 ^ 64 ∧
        s.dev.grPairBut e v ra ∧ s.dev.released e v (2 * target) ∧
        s.dev.vatFrame e v [VAT_OC.OC, VAT_G.G, VAT_PC.PC, VAT_STATUS.STATE])) ∧
    (s.dev.mayIssue v (.waitt input) → s.dev.isSet TRL_CSTAT.PEND 0 (taskInput v input.toNat) = true →
      completes (.waitt v input) s (fun e =>
        e.get VAT_OC.OC v = (if s.dev.isSet TRL_CSTAT.OVR 0 (taskInput v input.toNat) then 2 else 1) ∧
        e.get TRL_CSTAT.PEND 0 (taskInput v input.toNat) = 0 ∧ e.get TRL_CSTAT.OVR 0 (taskInput v input.toNat) = 0 ∧
        e.get VAT_GEN.GVALID v = 1 ∧
        e.get VAT_GEN.GEN v = fget (fun _ => 0) s.dev.cgen (taskInput v input.toNat) % 8 ∧
        e.get VAT_STATUS.TMO_ARMED v = 0 ∧ s.dev.ran e v (s.dev.pc v + 1) 2 ∧
        s.dev.keeps e [(VAT_OC.OC, v), (VAT_GEN.GVALID, v), (VAT_GEN.GEN, v), (VAT_PC.PC, v), (VAT_STATUS.TMO_ARMED, v),
          (TRL_CSTAT.PEND, 0), (TRL_CSTAT.OVR, 0)] ∧
        s.dev.indexBut e TRL_CSTAT.PEND 0 (taskInput v input.toNat) ∧
        s.dev.indexBut e TRL_CSTAT.OVR 0 (taskInput v input.toNat) ∧
        s.dev.vatsBut e v ∧ { e.sansVats with cgen := [] } = { s.dev.sansVats with cgen := [] })) ∧
    (s.dev.mayIssue v (.waitt input) → s.dev.isSet TRL_CSTAT.PEND 0 (taskInput v input.toNat) = false →
      s.dev.polls v = true → completes (.waitt v input) s (fun e =>
        e.get VAT_OC.OC v = 0 ∧ e.get VAT_STATUS.TMO_ARMED v = 0 ∧ s.dev.ran e v (s.dev.pc v + 1) 2 ∧
        s.dev.vatFrame e v [VAT_OC.OC, VAT_STATUS.TMO_ARMED, VAT_PC.PC])) ∧
    (s.dev.mayIssue v (.waitt input) → s.dev.isSet TRL_CSTAT.PEND 0 (taskInput v input.toNat) = false →
      s.dev.polls v = false → completes (.waitt v input) s (fun e =>
        s.dev.waits e v (.waitt input.toNat (if s.dev.isSet VAT_STATUS.TMO_ARMED v then
          some (s.dev.issueAt v / 2 + s.dev.get VAT_TMO.VALUE v) else none)) ∧
        e.get VAT_STATUS.TMO_ARMED v = 0 ∧ s.dev.vatFrame e v [VAT_STATUS.TMO_ARMED, VAT_STATUS.STATE])) ∧
    (s.dev.waiting v (.waitt n give) → s.dev.isSet TRL_CSTAT.PEND 0 (taskInput v n) = true →
      completes (.waittRelease v) s (fun e =>
        e.get VAT_OC.OC v = (if s.dev.isSet TRL_CSTAT.OVR 0 (taskInput v n) then 2 else 1) ∧
        e.get TRL_CSTAT.PEND 0 (taskInput v n) = 0 ∧ e.get VAT_GEN.GVALID v = 1 ∧ s.dev.released e v (s.dev.clk + 2) ∧
        s.dev.keeps e [(VAT_OC.OC, v), (VAT_GEN.GVALID, v), (VAT_GEN.GEN, v), (VAT_PC.PC, v), (VAT_STATUS.STATE, v),
          (TRL_CSTAT.PEND, 0), (TRL_CSTAT.OVR, 0)] ∧
        s.dev.indexBut e TRL_CSTAT.PEND 0 (taskInput v n) ∧ s.dev.indexBut e TRL_CSTAT.OVR 0 (taskInput v n) ∧
        s.dev.vatsBut e v ∧ { e.sansVats with cgen := [] } = { s.dev.sansVats with cgen := [] })) ∧
    (s.dev.waiting v (.waitt n (some target)) → s.dev.isSet TRL_CSTAT.PEND 0 (taskInput v n) = false →
      completes (.vatTimeout v) s (fun e =>
        e.get VAT_OC.OC v = 0 ∧ s.dev.released e v (2 * target) ∧
        s.dev.vatFrame e v [VAT_OC.OC, VAT_PC.PC, VAT_STATUS.STATE]))

/-- The control of a Vat (R94 to R96, R109, R117, R120 to R123, R129). An accepted START begins at the entry point, a pending swap's where
there is one; another START changes nothing; RESUME goes on at the next tick with the watchdog reloaded; STEP issues the
instruction at PC alone, at the next tick, as the same instruction does in RUN, with time standing still, and a NOP stepped
leaves the Vat in DEBUG at the next word. At a HALT, a STOP, a DBG_HALT, a VAT_GSTOP, and a CLR with STOP_AT_CLR set, the Vat leaves
RUN or WAIT, its port stops, and PC is past a HALT or CLR and at the instruction for the others. A STOP of a Vat in no such
state makes it STOPPED and changes nothing else, but in the cycle of a fault FAULT prevails; a STOP during a copy waits for the
copy's end; the group forms act on every Vat of their mask and leave the others. In FIELD and
RETURNED, DBG_HALT, RESUME and STEP change nothing. -/
def Obligations.VatControlCompletes : Prop :=
  ∀ (s : State) (v : VatNo) (mask : BitVec 16) (imm : Imm) (i : Isrin) (d : Dev),
    (s.acts (.start v) d → d.mayStart v → completes (.start v) s (fun e =>
      d.started e v (d.startEntry v) ∧ d.keeps e (startFlds.map (fun f => (f, v.val))))) ∧
    (s.acts (.start v) d → ¬ d.mayStart v → completes (.start v) s (fun e => e = d)) ∧
    (s.acts (.resume v) d → d.open' = true → d.vShown v = vsDebug → completes (.resume v) s (fun e =>
      e.vst v = vsRun ∧ (e.vatx v).ready = 2 * (d.tick + 1) ∧ (e.vatx v).wdCount = 0 ∧
      (e.vatx v).wdFrom = d.tick + 1 ∧ e.pc v = d.pc v ∧ e.clk = d.clk ∧
      d.vatFrame e v [VAT_STATUS.STATE])) ∧
    (s.acts (.step v) d → d.open' = true → d.vShown v = vsDebug →
      i = decodeIsrin (BitVec.ofNat 32 (d.hw' (d.pc v))) (BitVec.ofNat 32 (d.hw' (d.pc v + 1))) →
      completes (.step v) s (fun e =>
        e.clk = d.clk ∧ e.hw = d.hw ∧
        (i = .nop imm → d.pc v + 1 ≤ 0x3FFFF → d.eccOf (d.pc v) = none →
          e.vst v = vsDebug ∧ e.pc v = d.pc v + 1 ∧ d.vatFrame e v [VAT_STATUS.STATE, VAT_PC.PC]) ∧
        e = { (d.toStep v).issue v i with clk := d.clk, hw := d.hw })) ∧
    (s.acts (.vatGstart mask) d → (∀ n : Nat, n < 16 → mask.getLsbD n = true → d.mayStart n) → completes (.vatGstart mask) s (fun e =>
      (∀ n : Nat, n < 16 → mask.getLsbD n = true → e.vst n = vsRun ∧ e.pc n = d.startEntry n ∧
        (e.vatx n).ready = 2 * (d.tick + 2)) ∧
      (∀ n : Nat, n < 16 → mask.getLsbD n = false → e.vatx n = d.vatx n ∧ e.vst n = d.vst n ∧ e.pc n = d.pc n) ∧
      d.keepsBut e startFlds [] ∧ e.sansVats = d.sansVats)) ∧
    (s.dev.mayIssue v .halt → completes (.halt v) s (fun e =>
      s.dev.leftFor e v vsHalted (s.dev.pc v + 1) [(VAT_PC.PC, v)])) ∧
    (s.dev.mayIssue v (.clr imm) → s.dev.isSet VAT_STATUS.SWAP_PEND v = false → s.dev.pc v + 1 ≤ 0x3FFFF →
      s.dev.isSet VAT_CTRL.STOP_AT_CLR v = true → completes (.clr v imm) s (fun e =>
        e.get VAT_CLRID.ID v = imm.toNat ∧ s.dev.leftFor e v vsStopped (s.dev.pc v + 1)
          [(VAT_CLRID.ID, v), (VAT_CLRID.COUNT, v), (VAT_GEN.GVALID, v), (VAT_GEN.GEN, v), (VAT_PC.PC, v)])) ∧
    (s.acts (.stop v) d → d.vActive v = true → completes (.stop v) s (fun e => d.leftFor e v vsStopped (d.pc v) [])) ∧
    (s.acts (.stop v) d → d.vActive v = false → d.vst v ≠ vsFault ∨ d.leftNow v = false → completes (.stop v) s (fun e =>
      e.vst v = vsStopped ∧ d.vatFrame e v [VAT_STATUS.STATE] ∧ e.clk = d.clk)) ∧
    (s.acts (.stop v) d → d.vst v = vsFault → d.leftNow v = true → completes (.stop v) s (fun e => e = d)) ∧
    (s.acts (.dbgHalt v) d → d.open' = true → d.vActive v = true → (d.vatx v).stepping = false → completes (.dbgHalt v) s (fun e =>
      d.leftFor e v vsDebug (d.pc v) [])) ∧
    (s.acts (.stop v) d → d.vActive v = true → d.clk ≤ (d.vatx v).copyEnd →
      completes (.stop v) s (fun e => e.clk = (d.vatx v).copyEnd)) ∧
    (s.acts (.vatGstop mask) d → (∀ n : Nat, n < 16 → mask.getLsbD n = true → d.vst n = vsFault →
        (d.vatx n).left.all (fun l => decide (l.1 < d.clk)) = true) → completes (.vatGstop mask) s (fun e =>
      (∀ n : Nat, n < 16 → mask.getLsbD n = true → e.vst n = vsStopped ∧ e.pc n = d.pc n) ∧
      (∀ n : Nat, n < 16 → mask.getLsbD n = false → e.vatx n = d.vatx n) ∧
      d.keepsBut e portStopFlds ((List.range 16).filterMap (fun n =>
        if mask.getLsbD n then some (VAT_STATUS.STATE, n) else none)) ∧
      { e.sansVats with ch := [], duty := [], wkr := {} } = { d.sansVats with ch := [], duty := [], wkr := {} })) ∧
    (s.acts (.dbgHalt v) d → d.open' = false → completes (.dbgHalt v) s (fun e => e = d)) ∧
    (s.acts (.resume v) d → d.open' = false → completes (.resume v) s (fun e => e = d)) ∧
    (s.acts (.step v) d → d.open' = false → completes (.step v) s (fun e => e = d)) ∧
    (s.acts (.resume v) d → d.vShown v ≠ vsDebug → completes (.resume v) s (fun e => e = d)) ∧
    (s.acts (.step v) d → d.vShown v ≠ vsDebug → completes (.step v) s (fun e => e = d)) ∧
    (s.acts (.dbgHalt v) d → d.vActive v = false ∨ (d.vatx v).stepping = true → completes (.dbgHalt v) s (fun e => e = d))

/-- BIND, HOP, PWR, ANT and BEAM (R36, R132, R134 to R137, R157, R268, R276, R294). BIND makes the binding, or finds it made, or ends
with WEAK and PORT_TAKEN; a lower-numbered Vat takes a port bound in the same cycle. HOP retunes the synthesiser of the port and
sets CHSLOT, or gives way to a lower-numbered Vat or to an open gate; PWR sets the setpoint of every chain, which a setpoint that
the host wrote in the same tick overrides, and on HFR the current and on ACT the level, from the launch tick on; ANT drives the port of every chain; BEAM writes a weight set to every member. -/
def Obligations.PortInstructionsComplete : Prop :=
  ∀ (s : State) (v : VatNo) (ra : RegNo) (i : Bool) (port : BitVec 5) (table : BitVec 3) (idx set : BitVec 10)
    (setpt : BitVec 9) (ant : BitVec 4) (p old m x w y : Nat) (b : Won) (r : SynReq),
    (s.dev.mayIssue v (.bind port) → p = port.toNat → old = s.dev.get VAT_BIND.PORT v → p ≠ 0x0B → p ≤ 0x0F ∨ p = 0x1F →
      p ≠ old → (old ≠ 0x1F → (s.dev.portFes old).any s.dev.switching = false) → s.dev.portMissing p = false →
      (0x0C ≤ p → p ≤ 0x0F → s.dev.members (p - 0x0C) ≠ [] ∧ s.dev.grpEn (p - 0x0C) = true) →
      (p ≠ 0x1F → s.dev.portTaken v p = false) → (s.dev.atIssue v).anyGate (s.dev.portUnits old) = false →
      s.dev.bound.all (fun b => b.clk != s.dev.issueAt v) = true → (old = 8 → s.dev.usTaken = false) →
      completes (.bind v port) s (fun e =>
        e.get VAT_OC.OC v = 1 ∧ e.get VAT_BIND.PORT v = p ∧ (e.vatx v).sight = none ∧ e.vst v = vsRun ∧
        e.pc v = s.dev.pc v + 1 ∧ (e.vatx v).ready = s.dev.issueAt v + 2 ∧
        (s.dev.cal = [] → s.dev.calGone = none → old ≠ 8 →
          s.dev.vatAlters e v (VAT_BIND.PORT :: airFlds) (fun y => { y with grp := [], bound := [] })))) ∧
    (s.dev.mayIssue v (.bind port) → s.dev.get VAT_BIND.PORT v = 8 → s.dev.usTaken = true → port.toNat ≠ 0x0B →
      port.toNat ≤ 0x0F ∨ port.toNat = 0x1F → completes (.bind v port) s (fun e =>
        e.outcomeIs v opBind 6 stPortTaken ∧ s.dev.ran e v (s.dev.pc v + 1) 2 ∧ s.dev.vatFrame e v airFlds)) ∧
    (s.dev.mayIssue v (.bind port) → p = port.toNat → s.dev.get VAT_BIND.PORT v = 0x1F → p < 8 → s.dev.portTaken v p = true →
      s.dev.bound = [b] → b.clk = s.dev.issueAt v → v < b.vat → b.vat < 16 → b.what = p → b.was = 0x1F →
      ((s.dev.atIssue v).bindTake v p).portTaken v p = false → s.dev.cal = [] → s.dev.calGone = none →
      completes (.bind v port) s (fun e =>
        e.get VAT_OC.OC v = 1 ∧ e.get VAT_BIND.PORT v = p ∧ e.get VAT_BIND.PORT b.vat = 0x1F ∧
        e.outcomeIs b.vat opBind 6 stPortTaken ∧
        s.dev.keeps e ((VAT_BIND.PORT :: airFlds).flatMap (fun f => [(f, v.val), (f, b.vat)])))) ∧
    (s.dev.mayIssue v (.bind port) → s.dev.get VAT_BIND.PORT v = port.toNat → port.toNat ≠ 0x0B →
      (port.toNat = 8 → s.dev.usTaken = false) →
      port.toNat ≤ 0x0F ∨ port.toNat = 0x1F → (s.dev.portFes port.toNat).any s.dev.switching = false →
      completes (.bind v port) s (fun e =>
        e.get VAT_OC.OC v = 1 ∧ s.dev.ran e v (s.dev.pc v + 1) 2 ∧ s.dev.vatFrame e v airFlds)) ∧
    (s.dev.mayIssue v (.bind port) → p = port.toNat → s.dev.get VAT_BIND.PORT v = 0x1F → p ≠ 0x0B → p ≤ 0x0F →
      s.dev.portMissing p = false →
      (0x0C ≤ p → p ≤ 0x0F → s.dev.members (p - 0x0C) ≠ [] ∧ s.dev.grpEn (p - 0x0C) = true) →
      s.dev.portTaken v p = true → s.dev.bound.all (fun b => b.clk != s.dev.issueAt v) = true →
      completes (.bind v port) s (fun e =>
        e.outcomeIs v opBind 6 stPortTaken ∧ s.dev.ran e v (s.dev.pc v + 1) 2 ∧ s.dev.vatFrame e v airFlds)) ∧
    (s.dev.mayIssue v (.hop ra i table idx) → s.dev.airOpen v p → p ≠ 9 → p ≠ 10 →
      s.dev.hopEntry v table.toNat (if i then idx.toNat else s.dev.gr v ra % 1024) = some w →
      m = s.dev.synOf ((s.dev.portUnits p).headD 0) → s.dev.shadowRuns = false →
      (s.dev.atIssue v).retuneCheck m (bitsOf w 19 0) = 0 → (s.dev.synx m).reqClk ≠ s.dev.issueAt v →
      (s.dev.atIssue v).noLaunchNow → completes (.hop v ra i table idx) s (fun e =>
        e.get VAT_OC.OC v = 1 ∧ e.get SYN_F_FREQ.FREQ_KHZ m = bitsOf w 19 0 ∧ e.get SYN_F_STATUS.LOCK m = 0 ∧
        (∀ u : Nat, u ∈ s.dev.portRegs p → e.get UHF_CTRL.CHSLOT u = bitsOf w 26 24) ∧ s.dev.ran e v (s.dev.pc v + 1) 2 ∧
        bitOf (e.get PWR_DOM1.SYN) m = true ∧
        s.dev.keeps e ([(SYN_F_FREQ.FREQ_KHZ, m), (SYN_F_STATUS.LOCK, m), (PWR_DOM1.SYN, 0)] ++ airFlds.map (fun f => (f, v.val)) ++
          (s.dev.portRegs p).map (fun u => (UHF_CTRL.CHSLOT, u))) ∧
        s.dev.vatsBut e v ∧
        { e.sansVats with syn := [], ch := [] } = { s.dev.sansVats with syn := [], ch := [] })) ∧
    (s.dev.mayIssue v (.hop ra i table idx) → s.dev.airOpen v p → p ≠ 9 → p ≠ 10 →
      s.dev.hopEntry v table.toNat (if i then idx.toNat else s.dev.gr v ra % 1024) = some w →
      m = s.dev.synOf ((s.dev.portUnits p).headD 0) → (s.dev.atIssue v).retuneCheck m (bitsOf w 19 0) = 0 →
      (s.dev.synx m).reqClk = s.dev.issueAt v → (s.dev.synx m).reqs = [r] → r.vat < v → r.khz ≠ bitsOf w 19 0 →
      (s.dev.atIssue v).noLaunchNow → completes (.hop v ra i table idx) s (fun e =>
        e.outcomeIs v opHop 6 stSynBusy ∧ e.get SYN_F_STATUS.LAST_ERR m = stSynBusy ∧ s.dev.ran e v (s.dev.pc v + 1) 2 ∧
        s.dev.keeps e ((SYN_F_STATUS.LAST_ERR, m) :: airFlds.map (fun f => (f, v.val))) ∧ s.dev.vatsBut e v ∧
        { e.sansVats with syn := [] } = { s.dev.sansVats with syn := [] })) ∧
    (s.dev.mayIssue v (.hop ra i table idx) → s.dev.airOpen v p → p ≠ 9 → p ≠ 10 →
      s.dev.hopEntry v table.toNat (if i then idx.toNat else s.dev.gr v ra % 1024) = some w →
      m = s.dev.synOf ((s.dev.portUnits p).headD 0) → (s.dev.atIssue v).noLaunchNow → s.dev.shadowDst m = false →
      860000 ≤ bitsOf w 19 0 → bitsOf w 19 0 ≤ 960000 → (s.dev.atIssue v).anyGate (s.dev.synUsers m) = true →
      completes (.hop v ra i table idx) s (fun e =>
        e.outcomeIs v opHop 6 stSynBusy ∧ e.get SYN_F_STATUS.LAST_ERR m = stSynBusy ∧ s.dev.ran e v (s.dev.pc v + 1) 2 ∧
        s.dev.keeps e ((SYN_F_STATUS.LAST_ERR, m) :: airFlds.map (fun f => (f, v.val))) ∧ s.dev.vatsBut e v ∧
        e.sansVats = s.dev.sansVats)) ∧
    (s.dev.mayIssue v (.pwr ra i setpt) → s.dev.airOpen v p → p ≠ 9 → p ≠ 10 →
      x = min 330 (if i then setpt.toNat else s.dev.gr v ra % 512) →
      (∀ c : Nat, c ∈ s.dev.portUnits p → (s.dev.atIssue v).setptBad c x = false ∧
        (s.dev.chx (s.dev.cfg c)).hostSet.all (fun h => h.1 != s.dev.namedAt v) = true) →
      completes (.pwr v ra i setpt) s (fun e =>
        e.get VAT_OC.OC v = 1 ∧ (∀ c : Nat, c ∈ s.dev.portUnits p → e.get UHF_PWR.SETPT (s.dev.cfg c) = x) ∧
        s.dev.ran e v (s.dev.pc v + 1) 2 ∧
        s.dev.keeps e (airFlds.map (fun f => (f, v.val)) ++
          (s.dev.portUnits p).map (fun c => (UHF_PWR.SETPT, s.dev.cfg c))) ∧
        s.dev.vatsBut e v ∧ e.sansVats = s.dev.sansVats)) ∧
    (s.dev.mayIssue v (.pwr ra i setpt) → s.dev.airOpen v p → p < 8 → s.dev.attached = none →
      x = min 330 (if i then setpt.toNat else s.dev.gr v ra % 512) → (s.dev.chx p).hostSet = some (s.dev.namedAt v, y) →
      (s.dev.atIssue v).setptBad p y = false → (s.dev.atIssue v).setptBad p x = false → completes (.pwr v ra i setpt) s (fun e =>
        e.get VAT_OC.OC v = 1 ∧ e.get UHF_PWR.SETPT p = y % 2 ^ 9 ∧ s.dev.ran e v (s.dev.pc v + 1) 2 ∧
        s.dev.keeps e ((UHF_PWR.SETPT, p) :: airFlds.map (fun f => (f, v.val))) ∧ s.dev.vatsBut e v ∧
        e.sansVats = s.dev.sansVats)) ∧
    (s.dev.mayIssue v (.pwr ra i setpt) → s.dev.airOpen v p → p = 9 ∨ p = 10 → s.dev.portCalm p →
      x = (if i then setpt.toNat else s.dev.gr v ra % 512) → completes (.pwr v ra i setpt) s (fun e =>
        e.get VAT_OC.OC v = 1 ∧ e.chx p = { s.dev.chx p with
          levels := [(if p = 9 then min 350 x else min x (s.dev.get ACT_LIMIT.MAXP), s.dev.namedAt v + 154)] } ∧
        s.dev.ran e v (s.dev.pc v + 1) 2 ∧ s.dev.keeps e (airFlds.map (fun f => (f, v.val))) ∧
        s.dev.vatsBut e v ∧ s.dev.chsBut e p ∧ { e.sansVats with ch := [] } = { s.dev.sansVats with ch := [] })) ∧
    (s.dev.mayIssue v (.ant ra i ant) → s.dev.airOpen v p → p ≠ 9 → p ≠ 10 →
      x = (if i then ant.toNat else s.dev.gr v ra % 16) →
      (∀ u : Nat, u ∈ s.dev.portRegs p → (s.dev.atIssue v).portRefusal u x = 0) → (s.dev.atIssue v).noLaunchNow →
      completes (.ant v ra i ant) s (fun e =>
        e.get VAT_OC.OC v = 1 ∧
        (∀ u : Nat, u ∈ s.dev.portRegs p → e.get UHF_ANT.PORT u = x ∧ (s.dev.get UHF_ANT.PORT u ≠ x →
          (e.chx u).settleAt = s.dev.namedAt v + 16 * s.dev.get UHF_ANT.SETTLE u)) ∧
        s.dev.ran e v (s.dev.pc v + 1) 2 ∧
        s.dev.keeps e (airFlds.map (fun f => (f, v.val)) ++ (s.dev.portRegs p).map (fun u => (UHF_ANT.PORT, u))) ∧
        s.dev.vatsBut e v ∧ { e.sansVats with ch := [] } = { s.dev.sansVats with ch := [] })) ∧
    (s.dev.mayIssue v (.beam ra i set) → s.dev.airOpen v p → 0x0C ≤ p → p ≤ 0x0F →
      s.dev.weightSet v (if i then set.toNat else s.dev.gr v ra % 1024) = some w → x = bitsOf (s.dev.hw' w) 11 0 →
      x = 0xFFF ∨ x < s.dev.steerCount v → (∀ n : Nat, n ∈ s.dev.portRegs p → (s.dev.chx n).txOn = false) →
      completes (.beam v ra i set) s (fun e =>
        e.get VAT_OC.OC v = 1 ∧
        (∀ n : Nat, n ∈ s.dev.portRegs p → e.get UHF_TXW.AMP n = bitsOf (s.dev.hw' (w + 1 + n)) 23 16 ∧
          e.get UHF_TXW.PHASE n = bitsOf (s.dev.hw' (w + 1 + n)) 9 0) ∧
        (e.grpx (p - 0x0C)).steers = (s.dev.namedAt v, x) :: (s.dev.grpx (p - 0x0C)).steers ∧
        s.dev.ran e v (s.dev.pc v + 1) 2 ∧
        s.dev.keeps e (airFlds.map (fun f => (f, v.val)) ++ (s.dev.portRegs p).map (fun n => (UHF_TXW.AMP, n)) ++
          (s.dev.portRegs p).map (fun n => (UHF_TXW.PHASE, n))) ∧
        s.dev.vatsBut e v ∧
        { e.sansVats with ch := [], grp := [] } = { s.dev.sansVats with ch := [], grp := [] }))

/-- CARRY and the ends of its wait (R44 to R46, R138, R139, R260, R272, R277, R286, R290, R294). With every chain of the port in RX, CARRY ON waits
for its launch; with every carrier on it ends with ONE; CARRY OFF ramps every carrier down and waits, or ends with ONE. A
launch that the guard permits starts the ramp-up of every chain in one tick and ends the CARRY with ONE; one it refuses
ends it with CUT. On HFR a launch in READY puts the field on and abandons a card-watch pulse in progress, on ACT time goes on to it. A
CARRY ON that has waited 100 µs for lock ends with CUT and SYN_TIMEOUT. -/
def Obligations.CarrierInstructionsComplete : Prop :=
  ∀ (s : State) (v : VatNo) (p t n r fe : Nat),
    (s.dev.mayIssue v (.carry true) → s.dev.airOpen v p → p ≠ 9 → p ≠ 10 → s.dev.portUnits p ≠ [] →
      (∀ c : Nat, c ∈ s.dev.portUnits p → s.dev.inRx c = true) → completes (.carry v true) s (fun e =>
        s.dev.waits e v (.carryOn (s.dev.namedAt v)) ∧ s.dev.vatFrame e v [VAT_STATUS.STATE])) ∧
    (s.dev.mayIssue v (.carry true) → s.dev.airOpen v p → p ≠ 9 → p ≠ 10 →
      (∀ c : Nat, c ∈ s.dev.portUnits p → s.dev.carrierOn c = true ∧ (s.dev.chx c).goal = none) →
      completes (.carry v true) s (fun e =>
        e.get VAT_OC.OC v = 1 ∧ s.dev.ran e v (s.dev.pc v + 1) 2 ∧ s.dev.vatFrame e v airFlds)) ∧
    (s.dev.mayIssue v (.carry false) → s.dev.airOpen v p → p ≠ 9 → p ≠ 10 → s.dev.portUnits p ≠ [] →
      (∀ c : Nat, c ∈ s.dev.portUnits p → s.dev.carrierOn c = true ∧ (s.dev.chx c).goal = none) →
      completes (.carry v false) s (fun e =>
        s.dev.waits e v .carryOff ∧
        (∀ c : Nat, c ∈ s.dev.portUnits p → e.cst c = csDown ∧ (e.chx c).goal = some csRx ∧
          (e.chx c).due = s.dev.namedAt v + s.dev.get UHF_RAMP.RAMP_DN (s.dev.cfg c)) ∧
        s.dev.keepsBut e portStopFlds [(VAT_STATUS.STATE, v)] ∧ s.dev.vatsBut e v ∧
        { e.sansVats with ch := [] } = { s.dev.sansVats with ch := [] })) ∧
    (s.dev.mayIssue v (.carry false) → s.dev.airOpen v p → p ≠ 9 → p ≠ 10 →
      (∀ c : Nat, c ∈ s.dev.portUnits p → (s.dev.chx c).goal = none) → (s.dev.atIssue v).anyGate (s.dev.portUnits p) = false →
      completes (.carry v false) s (fun e =>
        e.get VAT_OC.OC v = 1 ∧ s.dev.ran e v (s.dev.pc v + 1) 2 ∧ s.dev.vatFrame e v airFlds)) ∧
    (s.dev.mayIssue v (.carry true) → s.dev.airOpen v p → p = 9 ∨ p = 10 → s.dev.pst p = 1 → s.dev.portCalm p →
      completes (.carry v true) s (fun e =>
        s.dev.waits e v (.carryOn (s.dev.namedAt v)) ∧ s.dev.vatFrame e v [VAT_STATUS.STATE])) ∧
    (s.dev.mayIssue v (.carry true) → s.dev.airOpen v p → p = 9 ∨ p = 10 → s.dev.pst p = 0 → s.dev.portCalm p →
      completes (.carry v true) s (fun e =>
        s.dev.waits e v (.carryOn (s.dev.namedAt v)) ∧
        e.chx p = { s.dev.chx p with goal := some 1, due := s.dev.namedAt v + portReadyTime p } ∧ s.dev.chsBut e p ∧
        s.dev.vatAlters e v [VAT_STATUS.STATE] (fun y => { y with ch := [] }))) ∧
    (s.dev.mayIssue v (.carry false) → s.dev.airOpen v 9 → s.dev.pst 9 = 2 → s.dev.portCalm 9 →
      completes (.carry v false) s (fun e =>
        s.dev.waits e v .carryOff ∧ (e.chx 9).goal = some 5 ∧ (e.chx 9).due = s.dev.namedAt v + 154 ∧
        s.dev.vatAlters e v [VAT_STATUS.STATE] (fun y => { y with ch := [] }) ∧ s.dev.chsBut e 9)) ∧
    (s.dev.mayIssue v (.carry false) → s.dev.airOpen v 10 → s.dev.pst 10 = 2 → s.dev.portCalm 10 →
      completes (.carry v false) s (fun e =>
        e.get VAT_OC.OC v = 1 ∧ e.vst v = vsRun ∧ e.pc v = s.dev.pc v + 1 ∧
        (e.vatx v).ready = 2 * (s.dev.namedAt v + 154 + 1) ∧ e.pst 10 = 2 ∧
        (e.chx 10).goal = some 5 ∧ (e.chx 10).due = s.dev.namedAt v + 154 ∧ s.dev.chsBut e 10 ∧
        s.dev.vatAlters e v (VAT_STATUS.STATE :: airFlds) (fun y => { y with ch := [] }))) ∧
    (s.dev.waiting v (.carryOn n) → s.dev.get VAT_BIND.PORT v = p → p ≠ 9 → p ≠ 10 → t = s.dev.launchTick (s.dev.portUnits p) n →
      (∀ c : Nat, c ∈ s.dev.portUnits p → s.dev.inRx c = true ∧ s.dev.settledAt (s.dev.cfg c) t = true ∧
        s.dev.locked (s.dev.synOf c) = true) → s.dev.feSettled →
      (s.dev.toTick t).launchChecks t (s.dev.portUnits p) = none → completes (.carryLaunch v) s (fun e =>
        (∀ c : Nat, c ∈ s.dev.portUnits p → e.cst c = csUp ∧ (e.chx c).goal = some csCarrier ∧
          (e.chx c).due = t + s.dev.get UHF_RAMP.RAMP_UP (s.dev.cfg c) ∧ (e.chx c).launched = t) ∧
        e.get VAT_OC.OC v = 1 ∧ s.dev.released e v (2 * (t + 1)) ∧
        e.launchers.contains v.val = true ∧
        s.dev.keepsBut e [UHF_STATUS.STATE, UHF_LKC_TRIM.TRIM_I, UHF_LKC_TRIM.TRIM_Q, UHF_LKC_RESID.RESID, UHF_PWR.DRIVE]
          [(VAT_OC.OC, v), (VAT_PC.PC, v), (VAT_STATUS.STATE, v)] ∧
        s.dev.vatsBut e v ∧
        { e.sansVats with ch := [], fe := [], launched := [] } =
          { s.dev.sansVats with ch := [], fe := [], launched := [] })) ∧
    (s.dev.waiting v (.carryOn n) → s.dev.get VAT_BIND.PORT v = p → p ≠ 9 → p ≠ 10 → t = s.dev.launchTick (s.dev.portUnits p) n →
      (∀ c : Nat, c ∈ s.dev.portUnits p → s.dev.inRx c = true ∧ s.dev.settledAt (s.dev.cfg c) t = true ∧
        s.dev.locked (s.dev.synOf c) = true) → s.dev.feSettled →
      (s.dev.toTick t).launchChecks t (s.dev.portUnits p) = some (r, fe) → completes (.carryLaunch v) s (fun e =>
        e.outcomeIs v opCarry 7 stRguRefused ∧ e.get RGU_STATUS.LAST_REASON = r ∧
        e.get RGU_CNT.REFUSED = min (s.dev.get RGU_CNT.REFUSED + 1) 0xFFFF ∧ s.dev.released e v (2 * (t + 1)) ∧
        s.dev.keeps e ([(RGU_STATUS.LAST_REASON, 0), (RGU_STATUS.LAST_FE, 0), (RGU_CNT.REFUSED, 0), (TRL_CH.SEEN, 0),
          (UHF_STATUS.LAST_ERR, fe), (VAT_STATUS.STATE, v)] ++ airFlds.map (fun f => (f, v.val))) ∧
        s.dev.vatsBut e v ∧ { e.sansVats with flights := [] } = { s.dev.sansVats with flights := [] })) ∧
    (s.dev.waiting v (.carryOn n) → s.dev.get VAT_BIND.PORT v = 9 → s.dev.pst 9 = 1 → s.dev.portCalm 9 →
      s.dev.isSet HFR_STATUS.PLL_LOCK = true → s.dev.cw.pulse = none → completes (.carryLaunch v) s (fun e =>
        e.get HFR_STATUS.STATE = 2 ∧ (e.chx 9).launched = max s.dev.tick (n + 154) ∧ e.vatx v = s.dev.vatx v ∧
        s.dev.keeps e [(HFR_STATUS.STATE, 0)] ∧ s.dev.chsBut e 9 ∧
        { e.sansTime with ch := [] } = { s.dev.sansTime with ch := [] })) ∧
    (s.dev.waiting v (.carryOn n) → s.dev.get VAT_BIND.PORT v = 9 → s.dev.pst 9 = 1 → s.dev.portCalm 9 →
      s.dev.isSet HFR_STATUS.PLL_LOCK = true → s.dev.pwr.asleep = none → s.dev.cw.pulse = some (r, fe, t) →
      max s.dev.tick (n + 154) < r + cwLength → completes (.carryLaunch v) s (fun e =>
        e.get HFR_STATUS.STATE = 2 ∧ (e.chx 9).launched = max s.dev.tick (n + 154) ∧ e.cw.pulse = none ∧
        e.get HFR_CW_CNT.SKIPPED = min (s.dev.get HFR_CW_CNT.SKIPPED + 1) 0xFF ∧
        s.dev.keeps e [(HFR_STATUS.STATE, 0), (HFR_CW_CNT.SKIPPED, 0)])) ∧
    (s.dev.waiting v (.carryOn n) → s.dev.get VAT_BIND.PORT v = 10 → s.dev.portCalm 10 →
      completes (.carryLaunch v) s (fun e =>
        e.tick = max s.dev.tick (n + 154) ∧ s.dev.keeps e [] ∧ e.sansTime = s.dev.sansTime)) ∧
    (s.dev.waiting v (.carryOn n) → s.dev.get VAT_BIND.PORT v = p → p ≠ 9 → p ≠ 10 →
      (s.dev.portUnits p).any (fun c => !s.dev.locked (s.dev.synOf c)) = true → completes (.synTimeout v) s (fun e =>
        e.outcomeIs v opCarry 7 stSynTimeout ∧ s.dev.released e v (2 * (n + 15360 + 1)) ∧
        e.get VAT_ACNT.CUTS v = min (s.dev.get VAT_ACNT.CUTS v + 1) 0xFFFF ∧
        s.dev.vatFrame e v (VAT_STATUS.STATE :: airFlds))) ∧
    (s.dev.waiting v (.carryOn n) → s.dev.get VAT_BIND.PORT v = p → p = 9 ∨ p = 10 → s.dev.portOn p = false →
      s.dev.pst p ≠ 4 → completes (.synTimeout v) s (fun e =>
        e.outcomeIs v opCarry 7 stSynTimeout ∧ s.dev.released e v (2 * (n + 15360 + 154 + 1)) ∧
        s.dev.vatFrame e v (VAT_STATUS.STATE :: airFlds)))

/-- TXC, its end, and RXB (R140, R141, R145, R169, R170, R278, R295). TXC AUTO launches at its named tick on UHF, at the launch tick on
HFR and ACT; TXC REL at g[RB] ticks after the reference; each waits for the end of the last symbol, with the bits of its
template on the port. At that end OC is ONE and the port's latest transmission ends there. RXB stores the descriptor and
the first words of the latest slot in Data SRAM. -/
def Obligations.TransmitInstructionsComplete : Prop :=
  ∀ (s : State) (v : VatNo) (rd ra rb : RegNo) (tpl : BitVec 10) (w8 : BitVec 8) (p w n l ref : Nat) (bits : List Bool),
    (s.dev.mayIssue v (.txc rd rb 0 tpl) → s.dev.airOpen v p → p ≠ 9 → p ≠ 10 → s.dev.template v 3 tpl.toNat = some w →
      bitsOf (s.dev.hw' w) 25 24 = 0 →
      (∀ c : Nat, c ∈ s.dev.portUnits p → s.dev.cst c = csCarrier ∧ (s.dev.chx c).goal = none) →
      (s.dev.portRegs p).all (fun u => s.dev.isSet UHF_MODP_A.VALID u (bitsOf (s.dev.hw' w) 31 30)) = true →
      bits = s.dev.txBits v rd w → n = ((s.dev.portRegs p).map (fun u => s.dev.uhfTicks u w bits)).foldl max 0 →
      completes (.txc v rd rb 0 tpl) s (fun e =>
        s.dev.waits e v (.txc (s.dev.namedAt v) (s.dev.namedAt v + n)) ∧
        (∀ u : Nat, u ∈ s.dev.portRegs p → (e.chx u).txOn = true ∧ (e.chx u).txStart = s.dev.namedAt v ∧
          (e.chx u).txEnd = s.dev.namedAt v + n ∧ (e.chx u).sent = bits) ∧
        s.dev.vatAlters e v [VAT_STATUS.STATE] (fun y => { y with ch := [] }))) ∧
    (s.dev.mayIssue v (.txc rd rb 1 tpl) → s.dev.airOpen v p → p ≠ 9 → p ≠ 10 → s.dev.template v 3 tpl.toNat = some w →
      bitsOf (s.dev.hw' w) 25 24 = 0 →
      (∀ c : Nat, c ∈ s.dev.portUnits p → s.dev.cst c = csCarrier ∧ (s.dev.chx c).goal = none) →
      (s.dev.portRegs p).all (fun u => s.dev.isSet UHF_MODP_A.VALID u (bitsOf (s.dev.hw' w) 31 30)) = true →
      bits = s.dev.txBits v rd w → n = ((s.dev.portRegs p).map (fun u => s.dev.uhfTicks u w bits)).foldl max 0 →
      (s.dev.chx (s.dev.refUnit p)).refE = some ref → l = ref + s.dev.gr v rb → s.dev.namedAt v ≤ l →
      completes (.txc v rd rb 1 tpl) s (fun e =>
        s.dev.waits e v (.txc l (l + n)) ∧
        (∀ u : Nat, u ∈ s.dev.portRegs p → (e.chx u).txOn = true ∧ (e.chx u).txStart = l ∧ (e.chx u).txEnd = l + n ∧
          (e.chx u).sent = bits) ∧
        s.dev.vatAlters e v [VAT_STATUS.STATE] (fun y => { y with ch := [] }))) ∧
    (s.dev.mayIssue v (.txc rd rb 1 tpl) → s.dev.airOpen v p → p ≠ 9 → p ≠ 10 → s.dev.template v 3 tpl.toNat = some w →
      bitsOf (s.dev.hw' w) 25 24 = 0 →
      (∀ c : Nat, c ∈ s.dev.portUnits p → s.dev.cst c = csCarrier ∧ (s.dev.chx c).goal = none) →
      (s.dev.portRegs p).all (fun u => s.dev.isSet UHF_MODP_A.VALID u (bitsOf (s.dev.hw' w) 31 30)) = true →
      s.dev.portRegs p ≠ [] →
      (s.dev.chx (s.dev.refUnit p)).refE = some ref → ref + s.dev.gr v rb < s.dev.namedAt v →
      completes (.txc v rd rb 1 tpl) s (fun e =>
        e.outcomeIs v opTxc 5 stLaunchPassed ∧ s.dev.ran e v (s.dev.pc v + 1) 2 ∧ s.dev.vatFrame e v airFlds)) ∧
    (s.dev.mayIssue v (.txc rd rb 0 tpl) → s.dev.airOpen v p → p = 9 ∨ p = 10 → s.dev.template v 3 tpl.toNat = some w →
      bitsOf (s.dev.hw' w) 25 24 = portKind p → s.dev.pst p = 2 → s.dev.portCalm p →
      (p = 9 → s.dev.isSet HFR_MODE.VALID 0 (bitsOf (s.dev.hw' w) 31 30) = true) → bits = s.dev.txBits v rd w →
      n = (if p = 9 then s.dev.hfTicks w bits else s.dev.actTicks w) →
      (p = 10 → s.dev.dutySum + n ≤ (s.dev.atIssue v).dutyLimit) →
      l = s.dev.namedAt v + 154 → completes (.txc v rd rb 0 tpl) s (fun e =>
        s.dev.waits e v (.txc l (l + n)) ∧ (e.chx p).txOn = true ∧ (e.chx p).txStart = l ∧ (e.chx p).txEnd = l + n ∧
        (e.chx p).sent = bits ∧ (e.chx p).txProf = bitsOf (s.dev.hw' w) 31 30 ∧ e.dutySum = s.dev.dutySum + (if p = 10 then n else 0) ∧
        s.dev.vatAlters e v [VAT_STATUS.STATE] (fun y => { y with ch := [], duty := [] }) ∧ s.dev.chsBut e p)) ∧
    (s.dev.waiting v (.txc l n) → s.dev.get VAT_BIND.PORT v = p → p ≠ 9 → p ≠ 10 → s.dev.feSettled →
      (∀ c : Nat, c ∈ s.dev.portUnits p → (s.dev.chx c).goal = none) →
      (∀ u : Nat, u ∈ s.dev.portRegs p → (s.dev.chx u).txOn = true) → completes (.txcEnd v) s (fun e =>
        e.get VAT_OC.OC v = 1 ∧ s.dev.released e v (2 * (n + 1)) ∧
        (∀ u : Nat, u ∈ s.dev.portRegs p → (e.chx u).txOn = false ∧ (e.chx u).lastTx = some n) ∧
        s.dev.keepsBut e [UHF_TXW.AMP, UHF_TXW.PHASE] ((VAT_STATUS.STATE :: airFlds).map (fun f => (f, v.val))) ∧
        s.dev.vatsBut e v ∧ { e.sansVats with ch := [] } = { s.dev.sansVats with ch := [] })) ∧
    (s.dev.waiting v (.txc l n) → s.dev.get VAT_BIND.PORT v = 10 → (s.dev.chx 10).levels = [] →
      completes (.txcEnd v) s (fun e =>
        e.get VAT_OC.OC v = 1 ∧ s.dev.released e v (2 * (n + 1)) ∧ (e.chx 10).txOn = false ∧ (e.chx 10).lastTx = some n ∧
        e.wkr.blank433 = n + msTicks 2 + 1 ∧
        s.dev.vatAlters e v (VAT_STATUS.STATE :: airFlds) (fun y => { y with ch := [], wkr := {} }) ∧ s.dev.chsBut e 10)) ∧
    (s.dev.waiting v (.txc l n) → s.dev.get VAT_BIND.PORT v = 9 → (s.dev.chx 9).levels = [] → completes (.txcEnd v) s (fun e =>
      e.get VAT_OC.OC v = 1 ∧ s.dev.released e v (2 * (n + 1)) ∧ (e.chx 9).txOn = false ∧
      (s.dev.get HFR_MODE.DEPTH 0 (s.dev.chx 9).txProf ≠ 100 → (e.chx 9).lastTx = some n) ∧
      s.dev.vatAlters e v (VAT_STATUS.STATE :: airFlds) (fun y => { y with ch := [] }) ∧ s.dev.chsBut e 9)) ∧
    (s.dev.mayIssue v (.rxb ra w8) → s.dev.airOpen v p → w8.toNat ≤ 144 →
      sramWords (s.dev.gr v ra) (8 + w8.toNat) = true → completes (.rxb v ra w8) s (fun e =>
        e.words (s.dev.gr v ra) (8 + w8.toNat) =
          (s.dev.slotDesc p ++ s.dev.slotWords p w8.toNat).map (fun x => x % 2 ^ 32) ∧
        s.dev.memBut e (s.dev.gr v ra) (4 * (8 + w8.toNat)) ∧ e.get VAT_OC.OC v = 1 ∧
        s.dev.ran e v (s.dev.pc v + 1) (4 + (8 + w8.toNat + 1) / 2) ∧
        s.dev.vatAlters e v airFlds (fun y => { y with mem := [] })))

/-- LSN, PREAMBLE_VALIDATED and LSN_DECISION (R66 to R79, R82, R84, R142, R143, R149, R213, R279, R280, R289, R296). LSN opens its window
on the port, or on every member of a canopy, and waits. A preamble whose start lies in an open window without one is taken,
with the better hypothesis in reach of its link frequency, and the gain, which the window opened with AGC_START or AGC_FIX, held. A
window without a preamble or energy is NONE; a decodable reply inside its times, with the expected length, a good CRC-16 and the
quality floor met is ONE: its slot holds class, length and bits, and the LSN that waits for it ends with the class and the first
word; the same on HFR with the mode's CRC and on ACT with that of R289. Where the guard ended the carrier and its gate is closed by the
decision tick, the window is CUT (R80, R157). -/
def Obligations.ReceptionCompletes : Prop :=
  ∀ (s : State) (v : VatNo) (c : ChainNo) (rd : RegNo) (tpl : BitVec 10) (p w reason : Nat) (x : Window) (o : PreambleObs)
    (r : ReplyObs) (h : Hyp) (pr : PreambleObs) (d : Dev),
    (s.dev.mayIssue v (.lsn rd tpl) → s.dev.airOpen v p → p ≤ 8 → s.dev.template v 4 tpl.toNat = some w →
      bitsOf (s.dev.hw' w) 25 24 = 0 → x = s.dev.windowOf w ((s.dev.chx p).lastTx.getD (s.dev.namedAt v)) v none →
      x.valid false = true → s.dev.namedAt v ≤ x.openAt →
      csRx ≤ s.dev.cst (s.dev.driver p) → s.dev.cst (s.dev.driver p) ≤ csCarrier →
      (s.dev.chx (s.dev.driver p)).goal = none → s.dev.capOn p = false → completes (.lsn v rd tpl) s (fun e =>
        s.dev.waits e v (.lsn rd) ∧ (e.chx p).win = some x ∧ (e.chx p).blf = x.blf ∧
        e.get UHF_RX_NOISE.GAIN p = s.dev.agcAt p ∧
        s.dev.keeps e [(VAT_STATUS.STATE, v), (UHF_RX_NOISE.GAIN, p)] ∧ s.dev.vatsBut e v ∧ s.dev.chsBut e p ∧
        { e.sansVats with ch := [] } = { s.dev.sansVats with ch := [] })) ∧
    (s.dev.mayIssue v (.lsn rd tpl) → s.dev.airOpen v p → 0x0C ≤ p → p ≤ 0x0F → s.dev.template v 4 tpl.toNat = some w →
      bitsOf (s.dev.hw' w) 25 24 = 0 →
      (∀ u : Nat, u ∈ s.dev.portRegs p →
        (s.dev.windowOf w ((s.dev.chx u).lastTx.getD (s.dev.namedAt v)) v none).valid false = true ∧
        s.dev.namedAt v ≤ (s.dev.windowOf w ((s.dev.chx u).lastTx.getD (s.dev.namedAt v)) v none).openAt ∧
        s.dev.cst (s.dev.driver u) = csCarrier ∧ (s.dev.chx (s.dev.driver u)).goal = none ∧ s.dev.capOn u = false) →
      completes (.lsn v rd tpl) s (fun e =>
        s.dev.waits e v (.lsn rd) ∧ (e.grpx (p - 0x0C)).window = (s.dev.grpx (p - 0x0C)).window + 1 ∧
        (e.grpx (p - 0x0C)).opened = true ∧
        (∀ u : Nat, u ∈ s.dev.portRegs p → (e.chx u).win =
          some (s.dev.windowOf w ((s.dev.chx u).lastTx.getD (s.dev.namedAt v)) v (some (p - 0x0C)))) ∧
        s.dev.keeps e ((VAT_STATUS.STATE, v.val) :: (s.dev.portRegs p).map (fun u => (UHF_RX_NOISE.GAIN, u))) ∧
        s.dev.vatsBut e v ∧ { e.sansVats with ch := [], grp := [] } = { s.dev.sansVats with ch := [], grp := [] })) ∧
    (s.acts (.preambleValidated (.uhf c) o) d → (d.chx c).win = some x → x.pre = none → x.openAt ≤ o.start → o.start < x.close → x.group = none →
      takeHyp (d.get UHF_RX_CTRL.PRE_THR c) x.m (o.hyps.filter (hypReach x.blf o.blf.toNat)) = some h →
      completes (.preambleValidated (.uhf c) o) s (fun e =>
        (e.chx c).win.bind (fun y => y.pre.map (fun q => (q.start, q.hyps))) = some (o.start, [h]) ∧
        e.get UHF_RX_STATUS.DECODING c = 1 ∧
        e.get UHF_RX_NOISE.GAIN c = (if d.get UHF_RX_CTRL.AGC c = 1 then min 14 (d.get UHF_RX_CTRL.AGC_FIX c)
          else min 14 o.gain.toNat) ∧
        e.clk = max d.clk (2 * o.tick) ∧
        d.keeps e [(UHF_RX_STATUS.DECODING, c), (UHF_RX_NOISE.GAIN, c)] ∧ d.chsBut e c ∧
        { e.sansTime with ch := [] } = { d.sansTime with ch := [] })) ∧
    (s.acts (.preambleValidated (if p = 9 then .hfr else .act) o) d → p = 9 ∨ p = 10 → (d.chx p).win = some x → x.pre = none → x.openAt ≤ o.start → o.start < x.close →
      completes (.preambleValidated (if p = 9 then .hfr else .act) o) s (fun e =>
        (e.chx p).win.bind (fun y => y.pre.map (fun q => q.start)) = some o.start ∧ e.clk = max d.clk (2 * o.tick) ∧
        d.keeps e [] ∧ d.chsBut e p ∧ { e.sansTime with ch := [] } = { d.sansTime with ch := [] })) ∧
    (s.acts (.lsnDecision (.uhf c) r) d → (d.chx c).win = some x → x.pre = none → x.group = none → x.vat = some v.val → d.waiting v (.lsn rd) →
      x.close ≤ x.openAt ∨ r.level < d.get UHF_RX_CTRL.EN_THR c → d.guardLater c x r →
      completes (.lsnDecision (.uhf c) r) s (fun e =>
        e.get UHF_RX_STATUS.LAST_CLASS c = 0 ∧ e.get UHF_RPY_D0.CLASS c (d.nextSlot c) = 0 ∧ (e.chx c).win = none ∧
        e.get VAT_OC.OC v = 0 ∧ e.gr v rd = 0 ∧ d.grBut e v rd ∧ e.tick = max d.tick (x.close + 384) ∧
        d.released e v (2 * (e.tick + 1)) ∧
        d.keeps e (rxFlds.map (fun f => (f, c.val)) ++ (VAT_G.G :: VAT_STATUS.STATE :: airFlds).map (fun f => (f, v.val))) ∧
        d.vatsBut e v ∧ d.chsBut e c ∧ { e.sansVats with ch := [] } = { d.sansVats with ch := [] })) ∧
    (s.acts (.lsnDecision (.uhf c) r) d → (d.chx c).win = some x → x.pre = some pr → pr.hyps.head? = some h → x.group = none → x.vat = some v.val →
      d.waiting v (.lsn rd) → (x.strict = true → h.coding.toNat = x.m) → x.crc16 = true → crc16Good r.bits = true →
      r.bits.length ≤ 4608 → (expectedLen x.lmode x.len r.bits).1 = some r.bits.length → r.overrun = false →
      x.t1Min ≤ pr.start → pr.start < x.t1Max → d.floorOf c x.qsel ≤ r.snr.toNat → 1 ≤ r.bits.length → d.guardLater c x r →
      completes (.lsnDecision (.uhf c) r) s (fun e =>
        e.get UHF_RX_STATUS.LAST_CLASS c = 1 ∧ e.get UHF_RPY_D0.CLASS c (d.nextSlot c) = 1 ∧
        e.get UHF_RPY_D0.CRC_OK c (d.nextSlot c) = 1 ∧ e.get UHF_RPY_D0.LEN c (d.nextSlot c) = r.bits.length ∧
        (List.range ((r.bits.length + 31) / 32)).map (fun k => e.slotData c (d.nextSlot c) k) = packWords r.bits ∧
        e.get UHF_RX_STATUS.SEQ c = (d.get UHF_RX_STATUS.SEQ c + 1) % 65536 ∧ (e.chx c).win = none ∧
        (e.chx c).refE = some r.eR ∧ e.get VAT_OC.OC v = 1 ∧ e.gr v rd = (packWords r.bits).headD 0 ∧
        d.grBut e v rd ∧ e.tick = max d.tick (max (r.eD + 384) r.eR) ∧ d.released e v (2 * (e.tick + 1)) ∧
        d.keeps e (rxFlds.map (fun f => (f, c.val)) ++ (VAT_G.G :: VAT_STATUS.STATE :: airFlds).map (fun f => (f, v.val))) ∧
        d.chsBut e c ∧ { e.sansVats with ch := [] } = { d.sansVats with ch := [] })) ∧
    (s.acts (.lsnDecision (.uhf c) r) d → (d.chx c).win = some x → c ≠ 8 → d.feSettled → d.feOf c = some c.val → d.driver c = c → d.cst c = csDown →
      (d.chx c).goal = some csRx → (d.chx c).target = none → (d.chx c).guarded = some reason →
      (d.chx c).due ≤ d.decideTick c x r → d.calOf c = none → (d.chx c).calBack = none → x.group = none →
      x.vat = some v.val → d.vatOf c = some v.val → d.get VAT_BIND.PORT v = c → d.waiting v (.lsn rd) →
      completes (.lsnDecision (.uhf c) r) s (fun e =>
        e.get UHF_RX_STATUS.LAST_CLASS c = 7 ∧ e.get UHF_RPY_D0.CLASS c (d.nextSlot c) = 7 ∧ (e.chx c).win = none ∧
        e.cst c = csRx ∧ e.outcomeIs v opLsn 7 stRguRefused ∧ e.clk = max d.clk (2 * (d.chx c).due) ∧
        d.released e v (2 * ((d.chx c).due + 1)) ∧ e.get RGU_STATUS.LAST_REASON = reason % 2 ^ 4 ∧ d.told e evRguEnd ∧
        d.chsBut e c ∧ d.vatsBut e v ∧
        d.keepsBut e [UHF_TXW.AMP, UHF_TXW.PHASE] (rxFlds.map (fun f => (f, c.val)) ++ [(UHF_STATUS.STATE, c.val),
          (RGU_STATUS.LAST_REASON, 0), (RGU_STATUS.LAST_FE, 0),
          (RGU_CNT.ENDED, 0), (TRL_CH.SEEN, 0)] ++
          (VAT_G.G :: VAT_STATUS.STATE :: airFlds).map (fun f => (f, v.val))))) ∧
    (s.acts (.lsnDecision (if p = 9 then .hfr else .act) r) d → p = 9 ∨ p = 10 → (d.chx p).win = some x → x.pre = none → x.vat = some v.val → d.binder p = some v.val →
      d.waiting v (.lsn rd) →
      x.close ≤ x.openAt ∨ r.level < (if p = 9 then d.get HFR_RX.EN_THR else d.get ACT_RX.EN_THR) →
      completes (.lsnDecision (if p = 9 then .hfr else .act) r) s (fun e =>
        (e.chx p).win = none ∧ e.get (rpyFld p 0) 0 (e.chx p).slot = portWord0 p 0 x ∧ e.get VAT_OC.OC v = 0 ∧ e.gr v rd = 0 ∧
        d.grBut e v rd ∧ e.tick = max d.tick (x.close + 384) ∧ d.released e v (2 * (e.tick + 1)) ∧
        d.keeps e ((List.range 8).map (fun k => (rpyFld p k, 0)) ++
          (VAT_G.G :: VAT_STATUS.STATE :: airFlds).map (fun f => (f, v.val))) ∧
        d.vatsBut e v ∧ d.chsBut e p ∧ { e.sansVats with ch := [] } = { d.sansVats with ch := [] })) ∧
    (s.acts (.lsnDecision (if p = 9 then .hfr else .act) r) d → p = 9 ∨ p = 10 → (d.chx p).win = some x → x.pre = some pr → x.vat = some v.val → d.binder p = some v.val →
      d.waiting v (.lsn rd) → r.violation = false → r.collisions = [] → r.parityErr = false → r.overrun = false →
      x.lmode = 0 → x.len = r.bits.length → r.bits.length ≤ 4608 → 1 ≤ r.bits.length → x.crc16 = true →
      crcHolds (d.portCrc p x.m).1 (d.portCrc p x.m).2 r.bits = true → x.t1Min ≤ pr.start → pr.start < x.t1Max →
      d.portFloor p x.qsel ≤ r.snr.toNat → completes (.lsnDecision (if p = 9 then .hfr else .act) r) s (fun e =>
        (e.chx p).win = none ∧ (e.chx p).refE = some r.eR ∧ e.get VAT_OC.OC v = 1 ∧
        e.get (rpyFld p 0) 0 (e.chx p).slot = portWord0 p 1 x + 2 ^ 24 + bit r.clip * 2 ^ 22 + r.bits.length ∧
        (List.range ((r.bits.length + 31) / 32)).map (fun k => e.portData p (e.chx p).slot k) = packWords r.bits ∧
        e.gr v rd = (packWords r.bits).headD 0 ∧ d.grBut e v rd ∧
        e.tick = max d.tick (max (r.eD + 384) r.eR) ∧ d.released e v (2 * (e.tick + 1)) ∧
        d.keeps e ((rpyData p, 0) :: (List.range 8).map (fun k => (rpyFld p k, 0)) ++
          (VAT_G.G :: VAT_STATUS.STATE :: airFlds).map (fun f => (f, v.val))) ∧
        d.chsBut e p ∧ { e.sansVats with ch := [] } = { d.sansVats with ch := [] }))

/-- LPUT, LGET, LTOUCH and the engine's answer (R148 to R150, R196 to R201). Each puts its request in the engine's list and waits.
With the engine serving, LGET of a recorded key ends with ONE and its record, of an absent one with NONE and 0xFFFFFFFF;
LPUT of a recorded key counts the sighting in its record and ends with NONE, of an absent one with room writes the record
and ends with ONE; LTOUCH of a record in use counts and ends with ONE, of another with CLASH and LDG_NO_RECORD. -/
def Obligations.LedgerInstructionsComplete : Prop :=
  ∀ (s : State) (v : VatNo) (rd ra rb : RegNo) (off : BitVec 5) (n r h : Nat) (q : LReq) (field : List Nat),
    (s.dev.mayIssue v (.lput rd ra rb off) → n = s.dev.gr v rb % 2048 → 1 ≤ n → n ≤ 1024 →
      sramWords (s.dev.gr v ra) ((off.toNat + n + 31) / 32) = true → completes (.lput v rd ra rb off) s (fun e =>
        s.dev.waits e v .ledger ∧
        { vat := v, at' := s.dev.issueAt v, op := opLput, rd := rd, key := s.dev.keyBits (s.dev.gr v ra) n off.toNat,
          sight := (s.dev.vatx v).sight : LReq } ∈ e.ldg.reqs ∧
        (s.dev.ldg.reqs.all (fun x => x.vat != v.val) = true → s.dev.vatAlters e v [VAT_STATUS.STATE] (fun y => { y with ldg := {} })))) ∧
    (s.dev.mayIssue v (.lget rd ra rb off) → n = s.dev.gr v rb % 2048 → 1 ≤ n → n ≤ 1024 →
      sramWords (s.dev.gr v ra) ((off.toNat + n + 31) / 32) = true → completes (.lget v rd ra rb off) s (fun e =>
        s.dev.waits e v .ledger ∧
        { vat := v, at' := s.dev.issueAt v, op := opLget, rd := rd, key := s.dev.keyBits (s.dev.gr v ra) n off.toNat : LReq }
          ∈ e.ldg.reqs ∧
        (s.dev.ldg.reqs.all (fun x => x.vat != v.val) = true → s.dev.vatAlters e v [VAT_STATUS.STATE] (fun y => { y with ldg := {} })))) ∧
    (s.dev.mayIssue v (.ltouch ra) → completes (.ltouch v ra) s (fun e =>
        s.dev.waits e v .ledger ∧
        { vat := v, at' := s.dev.issueAt v, op := opLtouch, rd := 0, recNo := s.dev.gr v ra,
          sight := (s.dev.vatx v).sight : LReq } ∈ e.ldg.reqs ∧
        (s.dev.ldg.reqs.all (fun x => x.vat != v.val) = true → s.dev.vatAlters e v [VAT_STATUS.STATE] (fun y => { y with ldg := {} })))) ∧
    (s.dev.waiting v .ledger → s.dev.ldg.reqs = [q] → q.vat = v → q.ans = none → q.bad = false → s.dev.present 3 = true →
      s.dev.isSet LDG_STATUS.READY = true → q.op = opLget → h = keyHash (s.dev.get LDG_SEED.SEED) q.key →
      s.dev.stale (bitsOf h 15 12) = false → field = keyField (s.dev.get LDG_SEED.SEED) q.key →
      r = ((probeSet h).find? (fun k => s.dev.recMatch k h q.key field)).getD 0xFFFFFFFF →
      completes (.ledgerAnswer v) s (fun e =>
        e.get VAT_OC.OC v = (if r = 0xFFFFFFFF then 0 else 1) ∧ e.gr v q.rd = r ∧
        s.dev.grBut e v q.rd ∧ s.dev.released e v s.dev.clk ∧ e.ldg.reqs = [] ∧
        bitOf (e.get PWR_DOM0.CLR) (bitsOf h 15 12) = true ∧
        s.dev.keeps e ((PWR_DOM0.CLR, 0) :: (VAT_G.G :: VAT_STATUS.STATE :: airFlds).map (fun f => (f, v.val))) ∧
        s.dev.vatsBut e v ∧ { e.sansVats with ldg := {} } = { s.dev.sansVats with ldg := {} })) ∧
    (s.dev.waiting v .ledger → s.dev.ldg.reqs = [q] → q.vat = v → q.ans = none → q.bad = false → s.dev.present 3 = true →
      s.dev.isSet LDG_STATUS.READY = true → q.op = opLput → h = keyHash (s.dev.get LDG_SEED.SEED) q.key →
      s.dev.stale (bitsOf h 15 12) = false → field = keyField (s.dev.get LDG_SEED.SEED) q.key →
      (probeSet h).find? (fun k => s.dev.recMatch k h q.key field) = some r → q.sight = none →
      completes (.ledgerAnswer v) s (fun e =>
        e.get VAT_OC.OC v = 0 ∧ e.gr v q.rd = r ∧ e.recWord r 8 % 65536 = min 0xFFFF (s.dev.recWord r 8 % 65536 + 1) ∧
        e.get LDG_CNT1.SEEN = (s.dev.get LDG_CNT1.SEEN + 1) % 2 ^ 32 ∧ s.dev.memBut e (cellar + 64 * r + 32) 28 ∧
        s.dev.released e v s.dev.clk ∧
        s.dev.keeps e ((PWR_DOM0.CLR, 0) :: (LDG_CNT1.SEEN, 0) :: (VAT_G.G :: VAT_STATUS.STATE :: airFlds).map (fun f => (f, v.val))) ∧
        s.dev.vatsBut e v ∧ { e.sansVats with ldg := {}, mem := [] } = { s.dev.sansVats with ldg := {}, mem := [] })) ∧
    (s.dev.waiting v .ledger → s.dev.ldg.reqs = [q] → q.vat = v → q.ans = none → q.bad = false → s.dev.present 3 = true →
      s.dev.isSet LDG_STATUS.READY = true → q.op = opLput → h = keyHash (s.dev.get LDG_SEED.SEED) q.key →
      s.dev.stale (bitsOf h 15 12) = false → field = keyField (s.dev.get LDG_SEED.SEED) q.key →
      (probeSet h).find? (fun k => s.dev.recMatch k h q.key field) = none →
      (probeSet h).find? (fun k => !s.dev.recValid k) = some r → 1 ≤ q.key.length → q.key.length ≤ 256 → q.sight = none →
      completes (.ledgerAnswer v) s (fun e =>
        e.get VAT_OC.OC v = 1 ∧ e.gr v q.rd = r ∧ e.words (cellar + 64 * r) 8 = field ∧ e.recValid r = true ∧
        e.recWord r 8 % 65536 = 1 ∧ bitsOf (e.recWord r 8) 26 16 = q.key.length ∧ e.recWord r 9 = h / 2 ^ 32 ∧
        s.dev.memBut e (cellar + 64 * r) 64 ∧ e.get LDG_CNT0.NEW = min (s.dev.get LDG_CNT0.NEW + 1) 0xFFFF ∧
        s.dev.told e evLdgNew ∧ s.dev.released e v s.dev.clk ∧
        s.dev.keeps e ([(PWR_DOM0.CLR, 0), (LDG_CNT0.NEW, 0), (LDG_COUNT.USED, 0), (LDG_OVFST.USED, 0), (TRL_CH.SEEN, 0)] ++
          (VAT_G.G :: VAT_STATUS.STATE :: airFlds).map (fun f => (f, v.val))) ∧
        s.dev.vatsBut e v ∧
        { e.sansVats with ldg := {}, mem := [], flights := [] } =
          { s.dev.sansVats with ldg := {}, mem := [], flights := [] })) ∧
    (s.dev.waiting v .ledger → s.dev.ldg.reqs = [q] → q.vat = v → q.ans = none → q.bad = false → s.dev.present 3 = true →
      s.dev.isSet LDG_STATUS.READY = true → q.op = opLtouch → q.recNo ≤ 65535 → s.dev.stale (q.recNo / 4096) = false →
      q.sight = none → completes (.ledgerAnswer v) s (fun e =>
        (if s.dev.recValid q.recNo then
          e.get VAT_OC.OC v = 1 ∧ e.recWord q.recNo 8 % 65536 = min 0xFFFF (s.dev.recWord q.recNo 8 % 65536 + 1)
        else e.outcomeIs v opLtouch 2 stLdgNoRecord) ∧
        s.dev.memBut e (cellar + 64 * q.recNo + 32) 28 ∧ s.dev.released e v s.dev.clk ∧
        s.dev.keeps e ((PWR_DOM0.CLR, 0) :: (VAT_STATUS.STATE :: airFlds).map (fun f => (f, v.val))) ∧ s.dev.vatsBut e v ∧
        { e.sansVats with ldg := {}, mem := [] } = { s.dev.sansVats with ldg := {}, mem := [] }))

/-- TOPEN, TPUT, TDONE and TFAIL (R151 to R153, R157, R184 to R192). TOPEN takes the lowest free handle and the lowest free run of the pool;
TPUT appends to the result; TDONE and TFAIL close the handle: its completion goes into its queue where that has room and no
earlier completion waits for it, with OC = ONE and the event, else it waits, with OC = NONE. A lower-numbered Vat takes a handle
opened in the same cycle where none is left, and a handle that the host freed in the cycle of its closing is free after it
(R157). -/
def Obligations.TransactionInstructionsComplete : Prop :=
  ∀ (s : State) (v : VatNo) (rd ra rb : RegNo) (queue : BitVec 6) (ext : Word) (w8 : BitVec 8) (src : Bool)
    (h b q st : Nat) (c : Instr) (i : Isrin) (o : Won) (d : Dev),
    (s.acts (.topen v rd ra rb queue ext) d → d.mayIssue v (.topen rd ra rb queue ext) → queue.toNat < 48 → d.mayFeed v queue.toNat = true →
      d.gr v rb % 65536 ≤ 16 * d.get TXN_POOL.SIZE → d.freeHandle = some h →
      (if blocksOf (d.gr v rb % 65536) = 0 then some 0 else d.lowestRun (blocksOf (d.gr v rb % 65536))) = some b →
      completes (.topen v rd ra rb queue ext) s (fun e =>
        e.gr v rd = h ∧ d.grBut e v rd ∧ e.hst h = 1 ∧ e.get TXN_HINFO0.VAT 0 h = v ∧
        e.get TXN_HINFO0.QUEUE 0 h = queue.toNat ∧ e.get TXN_HINFO0.STATUS 0 h = 0 ∧
        e.get TXN_HINFO1.DECL 0 h = d.gr v rb % 65536 ∧ e.get TXN_HINFO1.FILL 0 h = 0 ∧
        e.get TXN_HINFO2.ADDR 0 h = (if blocksOf (d.gr v rb % 65536) = 0 then 0 else (0x100000 + 64 * b) % 2 ^ 32) ∧
        e.get TXN_HINFO3.RECORD 0 h = d.gr v ra % 65536 ∧ e.get TXN_HINFO4.TAG 0 h = ext.toNat ∧
        e.get VAT_HOPEN.OPEN v = min (d.get VAT_HOPEN.OPEN v + 1) 511 ∧ e.get VAT_OC.OC v = 1 ∧
        d.handlesBut e h ∧ d.ran e v (d.pc v + 2) 4 ∧
        d.keeps e (handleFlds.map (fun f => (f, 0)) ++ (VAT_G.G :: VAT_HOPEN.OPEN :: airFlds).map (fun f => (f, v.val))) ∧
        d.vatsBut e v ∧ { e.sansVats with opened := [] } = { d.sansVats with opened := [] })) ∧
    (s.acts (.topen v rd ra rb queue ext) d → d.mayIssue v (.topen rd ra rb queue ext) → queue.toNat < 48 → d.mayFeed v queue.toNat = true →
      d.gr v rb % 65536 = 0 → d.freeHandle = none → d.opened = [o] → o.clk = d.issueAt v → v < o.vat →
      o.vat < 16 → o.what < 256 → completes (.topen v rd ra rb queue ext) s (fun e =>
        e.gr v rd = o.what ∧ e.hst o.what = 1 ∧ e.get TXN_HINFO0.VAT 0 o.what = v ∧ e.get VAT_OC.OC v = 1 ∧
        e.gr o.vat o.rd = o.was % 2 ^ 32 ∧ e.outcomeIs o.vat opTopen 6 stTxnNoroom ∧ d.handlesBut e o.what)) ∧
    (s.dev.mayIssue v (.tput ra rb src w8) → 1 ≤ w8.toNat → (src = true → w8.toNat ≤ 144) → h = s.dev.gr v ra →
      (src = false → sramWords (s.dev.gr v rb) w8.toNat = true) → s.dev.ownsHandle v h = true →
      s.dev.get TXN_HINFO1.FILL 0 h + w8.toNat ≤ s.dev.get TXN_HINFO1.DECL 0 h →
      b = s.dev.get TXN_HINFO2.ADDR 0 h + 4 * s.dev.get TXN_HINFO1.FILL 0 h → completes (.tput v ra rb src w8) s (fun e =>
        e.words b w8.toNat = (if src then (s.dev.slotWords (s.dev.get VAT_BIND.PORT v) w8.toNat).map (fun x => x % 2 ^ 32)
          else s.dev.words (s.dev.gr v rb) w8.toNat) ∧
        s.dev.memBut e b (4 * w8.toNat) ∧
        e.get TXN_HINFO1.FILL 0 h = (s.dev.get TXN_HINFO1.FILL 0 h + w8.toNat) % 65536 ∧ s.dev.handlesBut e h ∧
        e.get VAT_OC.OC v = 1 ∧ s.dev.ran e v (s.dev.pc v + 1) (4 + (w8.toNat + 1) / 2) ∧
        s.dev.keeps e ((TXN_HINFO1.FILL, 0) :: airFlds.map (fun f => (f, v.val))) ∧ s.dev.vatsBut e v ∧
        { e.sansVats with mem := [] } = { s.dev.sansVats with mem := [] })) ∧
    (s.acts c d → ((c, i) = (.tdone v ra, .tdone ra) ∧ st = 0 ∨ (c, i) = (.tfail v ra rb, .tfail ra rb) ∧
        st = (if d.gr v rb % 65536 = 0 then stTxnFailed else d.gr v rb % 65536)) →
      d.mayIssue v i → h = d.gr v ra → d.ownsHandle v h = true → q = d.get TXN_HINFO0.QUEUE 0 h →
      (d.atIssue v).hasRoom q = true → d.txPend = [] → (d.qx q).stall = none →
      d.freeing.all (fun f => f.1 != d.issueAt v || f.2.1 != h) = true → completes c s (fun e =>
        e.hst h = 3 ∧ e.get TXN_HINFO0.STATUS 0 h = st ∧
        e.get VAT_HOPEN.OPEN v = (d.get VAT_HOPEN.OPEN v - 1) % 512 ∧
        (e.qx q).vis = (d.qx q).prod + 8 ∧ (e.qx q).prod = (d.qx q).prod + 8 ∧
        e.qHolds q (d.qx q).prod (qHeader 0xC1 7 ::
          [h * 2 ^ 24 + st, d.get TXN_HINFO3.RECORD 0 h, d.issueAt v / 2 % 2 ^ 32,
            d.issueAt v / 2 / 2 ^ 32 % 2 ^ 32, d.get TXN_HINFO2.ADDR 0 h, d.get TXN_HINFO1.FILL 0 h,
            d.get TXN_HINFO4.TAG 0 h]) ∧
        d.memBut e (d.qAddr q) (4 * d.qSize q) ∧ d.queuesBut e q ∧ d.told e evTxnPosted ∧
        e.get VAT_OC.OC v = 1 ∧ d.ran e v (d.pc v + 1) 4 ∧ d.handlesBut e h ∧
        d.keeps e ([(TXN_HINFO0.STATE, 0), (TXN_HINFO0.STATUS, 0), (TRL_CH.SEEN, 0)] ++
          (VAT_HOPEN.OPEN :: airFlds).map (fun f => (f, v.val))) ∧
        d.vatsBut e v ∧
        { e.sansVats with mem := [], q := [], flights := [] } = { d.sansVats with mem := [], q := [], flights := [] })) ∧
    (s.acts c d → ((c, i) = (.tdone v ra, .tdone ra) ∧ st = 0 ∨ (c, i) = (.tfail v ra rb, .tfail ra rb) ∧
        st = (if d.gr v rb % 65536 = 0 then stTxnFailed else d.gr v rb % 65536)) →
      d.mayIssue v i → h = d.gr v ra → d.ownsHandle v h = true → q = d.get TXN_HINFO0.QUEUE 0 h →
      (d.atIssue v).hasRoom q = false → d.freeing.all (fun f => f.1 != d.issueAt v || f.2.1 != h) = true →
      completes c s (fun e =>
        e.hst h = 2 ∧ e.get TXN_HINFO0.STATUS 0 h = st ∧ e.txPend = d.txPend ++ [(h, d.issueAt v / 2)] ∧
        e.get TXN_CNT1.PENDED = min (d.get TXN_CNT1.PENDED + 1) 0xFFFF ∧ d.told e evTxnPended ∧
        e.get VAT_OC.OC v = 0 ∧ d.ran e v (d.pc v + 1) 4 ∧ d.handlesBut e h ∧
        d.keeps e ([(TXN_HINFO0.STATE, 0), (TXN_HINFO0.STATUS, 0), (TXN_CNT1.PENDED, 0), (TRL_CH.SEEN, 0)] ++
          (VAT_HOPEN.OPEN :: airFlds).map (fun f => (f, v.val))) ∧
        d.vatsBut e v ∧
        { e.sansVats with txPend := [], flights := [] } = { d.sansVats with txPend := [], flights := [] })) ∧
    (s.acts c d → ((c, i) = (.tdone v ra, .tdone ra) ∨ (c, i) = (.tfail v ra rb, .tfail ra rb)) → d.mayIssue v i →
      h = d.gr v ra → d.ownsHandle v h = true → d.freeing = some (d.issueAt v, h, b) → completes c s (fun e =>
        e.hst h = 0 ∧ e.get TXN_STATUS.LAST_ERR = b % 2 ^ 16 ∧ e.get VAT_HOPEN.OPEN v = (d.get VAT_HOPEN.OPEN v - 1) % 512 ∧
        d.ran e v (d.pc v + 1) 4 ∧ d.handlesBut e h))

/-- POST, QPUSH, QPOP and the ends of QPOP's wait (R116, R154 to R157, R360, R362, R369). POST publishes at generation 0, or one
above that of the trigger taken last; one on a channel that is not open to the Vat is refused. QPUSH puts an item of W words
into its queue, complete when the copy ends; QPOP takes the oldest item, polls with a timeout of 0, else waits until an item
is visible or its timeout ends. -/
def Obligations.QueueInstructionsComplete : Prop :=
  ∀ (s : State) (v : VatNo) (rd ra rb : RegNo) (ch queue : BitVec 6) (w8 : BitVec 8) (q n t : Nat) (give : Option Nat) (d : Dev),
    (s.dev.mayIssue v (.post ch) → s.dev.vatMayPost v ch.toNat = true →
      n = (if s.dev.isSet VAT_GEN.GVALID v then s.dev.get VAT_GEN.GEN v + 1 else 0) → n < 7 →
      completes (.post v ch) s (fun e =>
        s.dev.toldOn e ch.toNat n ∧ e.get TRL_CH.SEEN 0 ch.toNat = 1 ∧ s.dev.indexBut e TRL_CH.SEEN 0 ch.toNat ∧
        e.get VAT_OC.OC v = 1 ∧ s.dev.ran e v (s.dev.pc v + 1) 2 ∧
        s.dev.keeps e ((TRL_CH.SEEN, 0) :: airFlds.map (fun f => (f, v.val))) ∧ s.dev.vatsBut e v ∧
        { e.sansVats with flights := [] } = { s.dev.sansVats with flights := [] })) ∧
    (s.dev.mayIssue v (.post ch) → s.dev.vatMayPost v ch.toNat = false → completes (.post v ch) s (fun e =>
      e.outcomeIs v opPost 2 stTrlDenied ∧ s.dev.ran e v (s.dev.pc v + 1) 2 ∧ s.dev.vatFrame e v airFlds)) ∧
    (s.acts (.qpush v ra rb w8 queue) d → d.mayIssue v (.qpush ra rb w8 queue) → q = queue.toNat → q < 48 → d.qEn q = true → d.qProd q = v →
      sramWords (d.gr v ra) w8.toNat = true → w8.toNat + 1 ≤ d.qSize q → w8.toNat + 1 ≤ (d.atIssue v).qFree q →
      (d.qx q).stall = none ∨ (d.atIssue v).qReady q = false → n = 4 + (w8.toNat + 2) / 2 →
      d.gr v ra + 4 * w8.toNat ≤ d.qAddr q ∨ d.qAddr q + 4 * d.qSize q ≤ d.gr v ra →
      completes (.qpush v ra rb w8 queue) s (fun e =>
        e.qHolds q (d.qx q).prod (qHeader (d.gr v rb % 256) w8.toNat :: d.words (d.gr v ra) w8.toNat) ∧
        (e.qx q).prod = (d.qx q).prod + w8.toNat + 1 ∧ (e.qx q).vis = (d.qx q).prod + w8.toNat + 1 ∧
        (e.qx q).hidden = w8.toNat + 1 ∧ (e.qx q).shownAt = d.issueAt v + n ∧
        d.memBut e (d.qAddr q) (4 * d.qSize q) ∧ d.queuesBut e q ∧ e.get VAT_OC.OC v = 1 ∧
        d.ran e v (d.pc v + 1) n ∧ d.keeps e (airFlds.map (fun f => (f, v.val))) ∧ d.vatsBut e v ∧
        { e.sansVats with mem := [], q := [] } = { d.sansVats with mem := [], q := [] })) ∧
    (s.acts (.qpop v rd ra w8 queue) d → d.mayIssue v (.qpop rd ra w8 queue) → q = queue.toNat → q < 48 → d.qEn q = true → d.qCons q = v →
      sramWords (d.gr v ra) w8.toNat = true → (d.atIssue v).qReady q = true →
      n = bitsOf (d.qHead q) 15 0 → completes (.qpop v rd ra w8 queue) s (fun e =>
        e.words (d.gr v ra) (min w8.toNat n) = ((d.qBody q).take w8.toNat) ∧
        d.memBut e (d.gr v ra) (4 * w8.toNat) ∧ (e.qx q).cons = (d.qx q).cons + 1 + n ∧
        (e.qx q).freed = (e.qx q).cons ∧ d.queuesBut e q ∧ e.get VAT_STATUS.TMO_ARMED v = 0 ∧
        e.get VAT_OC.OC v = (if w8.toNat < n then 3 else 1) ∧ d.grBut e v rd ∧
        (d.gr v ra + 4 * w8.toNat ≤ d.qAddr q ∨ d.qAddr q + 4 * d.qSize q ≤ d.gr v ra →
          e.gr v rd = d.qHead q) ∧
        d.ran e v (d.pc v + 1) (4 + (w8.toNat + 1) / 2) ∧
        d.keeps e ((VAT_G.G :: VAT_STATUS.TMO_ARMED :: airFlds).map (fun f => (f, v.val))) ∧ d.vatsBut e v ∧
        { e.sansVats with mem := [], q := [] } = { d.sansVats with mem := [], q := [] })) ∧
    (s.acts (.qpop v rd ra w8 queue) d → d.mayIssue v (.qpop rd ra w8 queue) → q = queue.toNat → q < 48 → d.qEn q = true → d.qCons q = v →
      sramWords (d.gr v ra) w8.toNat = true → (d.atIssue v).qReady q = false → d.polls v = true →
      completes (.qpop v rd ra w8 queue) s (fun e =>
        e.gr v rd = 0 ∧ e.outcomeIs v opQpop 0 stQEmpty ∧ e.get VAT_STATUS.TMO_ARMED v = 0 ∧ d.grBut e v rd ∧
        d.ran e v (d.pc v + 1) 2 ∧ d.vatFrame e v (VAT_G.G :: VAT_STATUS.TMO_ARMED :: airFlds))) ∧
    (s.acts (.qpop v rd ra w8 queue) d → d.mayIssue v (.qpop rd ra w8 queue) → q = queue.toNat → q < 48 → d.qEn q = true → d.qCons q = v →
      sramWords (d.gr v ra) w8.toNat = true → (d.atIssue v).qReady q = false → d.polls v = false →
      completes (.qpop v rd ra w8 queue) s (fun e =>
        d.waits e v (.qpop rd ra w8.toNat q (if d.isSet VAT_STATUS.TMO_ARMED v then
          some (d.issueAt v / 2 + d.get VAT_TMO.VALUE v) else none)) ∧
        e.get VAT_STATUS.TMO_ARMED v = 0 ∧ d.vatFrame e v [VAT_STATUS.TMO_ARMED, VAT_STATUS.STATE])) ∧
    (s.dev.waiting v (.qpop rd ra t q give) → s.dev.qCopying q = false → s.dev.qReady q = true →
      n = bitsOf (s.dev.qHead q) 15 0 → completes (.qpopTake v) s (fun e =>
        (e.qx q).cons = (s.dev.qx q).cons + 1 + n ∧ e.words (s.dev.gr v ra) (min t n) = ((s.dev.qBody q).take t) ∧
        s.dev.memBut e (s.dev.gr v ra) (4 * t) ∧ s.dev.queuesBut e q ∧ e.get VAT_OC.OC v = (if t < n then 3 else 1) ∧
        s.dev.grBut e v rd ∧ s.dev.released e v (s.dev.clk + 4 + (t + 1) / 2) ∧
        s.dev.keeps e ((VAT_G.G :: VAT_STATUS.STATE :: airFlds).map (fun f => (f, v.val))) ∧ s.dev.vatsBut e v ∧
        { e.sansVats with mem := [], q := [] } = { s.dev.sansVats with mem := [], q := [] })) ∧
    (s.dev.waiting v (.qpop rd ra n q (some t)) → (s.dev.toTick t).qReady q = false → completes (.vatTimeout v) s (fun e =>
        e.gr v rd = 0 ∧ e.outcomeIs v opQpop 0 stQEmpty ∧ s.dev.grBut e v rd ∧ s.dev.released e v (2 * t) ∧
        s.dev.vatFrame e v (VAT_G.G :: VAT_STATUS.STATE :: airFlds)))

/-- The control of a Vat's counters, swap and binding (R111, R117, R122, R130, R133): CNT_CLR clears VATn_LATE and VATn_ECC, ACLR
clears VATn_ACNT; a swap armed by the loader, or by the host in MANUFACTURE and DEVELOP out of reset, is pending from the next
Vat cycle, and by the host otherwise changes nothing; a cancel takes a pending swap back; UNBIND unbinds a Vat that is
in STOPPED, HALTED or FAULT with every gate of its port closed, and changes nothing in RUN, WAIT and DEBUG. -/
def Obligations.HousekeepingCompletes : Prop :=
  ∀ (s : State) (v : VatNo) (by' : Writer) (entry : BitVec 18) (d : Dev),
    (s.acts (.cntClr v) d → completes (.cntClr v) s (fun e =>
      e.get VAT_LATE.COUNT v = 0 ∧ e.get VAT_LATE.LAST v = 0 ∧ e.get VAT_ECC.CORR v = 0 ∧
      d.writes e [(VAT_LATE.COUNT, v), (VAT_LATE.LAST, v), (VAT_ECC.CORR, v)])) ∧
    (s.acts (.aclr v) d → completes (.aclr v) s (fun e =>
      e.get VAT_ACNT.CUTS v = 0 ∧ e.get VAT_ACNT.REFUSED v = 0 ∧
      d.writes e [(VAT_ACNT.CUTS, v), (VAT_ACNT.REFUSED, v)])) ∧
    (s.acts (.vatSwapArm by' v entry) d → by' = .loader ∨ d.open' = true → completes (.vatSwapArm by' v entry) s (fun e =>
      e.get VAT_SWAP.NEW_ENTRY v = entry.toNat ∧ e.get VAT_STATUS.SWAP_PEND v = 1 ∧
      (e.vatx v).swapFrom = d.clk + 1 ∧ { e.vatx v with swapFrom := 0 } = { d.vatx v with swapFrom := 0 } ∧
      d.vatsBut e v ∧ d.keeps e [(VAT_SWAP.NEW_ENTRY, v), (VAT_STATUS.SWAP_PEND, v)] ∧
      { e.sansVats with clk := e.clk, hw := e.hw } = { d.sansVats with clk := d.clk, hw := d.hw })) ∧
    (s.acts (.vatSwapArm by' v entry) d → by' ≠ .loader → d.open' = false → completes (.vatSwapArm by' v entry) s (fun e => e = d)) ∧
    (s.acts (.vatSwapCancel v) d → completes (.vatSwapCancel v) s (fun e =>
      e.get VAT_STATUS.SWAP_PEND v = 0 ∧ d.writes e [(VAT_STATUS.SWAP_PEND, v)])) ∧
    (s.acts (.unbind v) d → d.vst v = vsStopped ∨ d.vst v = vsHalted ∨ d.vst v = vsFault →
      (∀ c : Nat, c ∈ d.portUnits (d.get VAT_BIND.PORT v) → d.gate c = false) →
      completes (.unbind v) s (fun e =>
        e.get VAT_BIND.PORT v = 0x1F ∧ d.keeps e [(VAT_BIND.PORT, v)] ∧
        { e.vatx v with sight := none } = { d.vatx v with sight := none } ∧ d.vatsBut e v ∧ d.chsBut e 8 ∧
        { e.sansVats with ch := [] } = { d.sansVats with ch := [] })) ∧
    (s.acts (.unbind v) d → d.vst v = vsRun ∨ d.vst v = vsWait ∨ d.vst v = vsDebug → completes (.unbind v) s (fun e => e = d))

/-- Writes of a chain's registers (R32, R35, R48, R49, R52, R53, R78, R85, R87, R211, R250, R260). Each completes in every state.
SYN_SEL takes the value written, and is refused with SYN_BUSY while a gate is open, for the destination of a hand-over and for a
member of an enabled group; SETPT takes the value, and above the guard's limit is refused while the gate is open; a weight written in
MOD is held, one written with the gate open is complete 257 ticks on; a port is driven at the next tick and settles after
SETTLE × 16 ticks, and is refused while the gate is open or where it is absent; VALID of a modulation profile is evaluated at each
write; PAEN_POL goes to AON_PAPOL; a noise mean is stored in CARRIER outside MOD and listen windows, and ignored elsewhere; the
clears of the violation and class counters leave at 1 what a classification of the same tick counts. -/
def Obligations.ChainRegisterWritesComplete : Prop :=
  ∀ (s : State) (c : ChainNo) (sel : BitVec 2) (setpt : BitVec 9) (amp : BitVec 8) (phase : BitVec 10) (port : BitVec 4)
    (k : Fin 4) (part : Fin 3) (value : Word) (pol : Bool) (mean : BitVec 12) (e0 : Nat) (d : Dev),
    (s.acts (.synSelWrite c sel) d → d.get UHF_CTRL.SYN_SEL c = sel.toNat → completes (.synSelWrite c sel) s (fun e => e = d)) ∧
    (s.acts (.synSelWrite c sel) d → d.get UHF_CTRL.SYN_SEL c ≠ sel.toNat → e0 = d.driver c →
      d.gate c = true ∨ d.gate e0 = true ∨ d.shadowDst sel.toNat = true ∨
        (∃ g : Fin 4, d.grpEn g = true ∧ (d.members g).contains c.val = true) →
      completes (.synSelWrite c sel) s (fun e =>
        e.get UHF_STATUS.LAST_ERR c = stSynBusy ∧ d.writes e [(UHF_STATUS.LAST_ERR, c)])) ∧
    (s.acts (.synSelWrite c sel) d → d.get UHF_CTRL.SYN_SEL c ≠ sel.toNat → e0 = d.driver c → d.gate c = false → d.gate e0 = false →
      d.shadowDst sel.toNat = false →
      (∀ g : Fin 4, d.grpEn g = true → (d.members g).contains c.val = false) →
      completes (.synSelWrite c sel) s (fun e =>
        e.get UHF_CTRL.SYN_SEL c = sel.toNat ∧ (e.chx e0).rxSince = (d.chx e0).rxSince.map (fun _ => d.tick) ∧
        { e.chx e0 with rxSince := none } = { d.chx e0 with rxSince := none } ∧ d.chsBut e e0 ∧
        bitOf (e.get PWR_DOM1.SYN) sel.toNat = true ∧
        d.alters e [(UHF_CTRL.SYN_SEL, c), (PWR_DOM1.SYN, 0)] (fun y => { y with ch := [] }))) ∧
    (s.acts (.setptWrite c setpt) d → d.setptBad (d.driver c) (min 330 setpt.toNat) = false → completes (.setptWrite c setpt) s (fun e =>
        e.get UHF_PWR.SETPT c = min 330 setpt.toNat ∧
        e.chx c = { d.chx c with hostSet := some (d.tick, min 330 setpt.toNat) } ∧ d.chsBut e c ∧
        d.alters e [(UHF_PWR.SETPT, c)] (fun y => { y with ch := [] }))) ∧
    (s.acts (.setptWrite c setpt) d → d.setptBad (d.driver c) (min 330 setpt.toNat) = true → completes (.setptWrite c setpt) s (fun e =>
        e.get UHF_STATUS.LAST_ERR c = stRguRefused ∧ e.get RGU_STATUS.LAST_REASON = 4 ∧
        e.get RGU_CNT.REFUSED = min (d.get RGU_CNT.REFUSED + 1) 0xFFFF ∧ d.told e evRguRefuse ∧ d.chsBut e c ∧
        d.keeps e [(UHF_STATUS.LAST_ERR, c), (RGU_STATUS.LAST_REASON, 0), (RGU_STATUS.LAST_FE, 0), (RGU_CNT.REFUSED, 0),
          (TRL_CH.SEEN, 0)] ∧
        { e.sans with ch := [], flights := [] } = { d.sans with ch := [], flights := [] })) ∧
    (s.acts (.txwWrite c amp phase) d → (d.chx c).txOn = false ∨ d.tick < (d.chx c).txStart → d.gate (d.driver c) = false →
      completes (.txwWrite c amp phase) s (fun e =>
        e.get UHF_TXW.AMP c = amp.toNat ∧ e.get UHF_TXW.PHASE c = phase.toNat ∧
        d.writes e [(UHF_TXW.AMP, c), (UHF_TXW.PHASE, c)])) ∧
    (s.acts (.txwWrite c amp phase) d → (d.chx c).txOn = false ∨ d.tick < (d.chx c).txStart → e0 = d.driver c → d.gate e0 = true →
      completes (.txwWrite c amp phase) s (fun e =>
        e.get UHF_TXW.AMP c = amp.toNat ∧ e.get UHF_TXW.PHASE c = phase.toNat ∧
        e.chx e0 = { d.chx e0 with txwDone := d.tick + 257 } ∧ d.chsBut e e0 ∧
        d.alters e [(UHF_TXW.AMP, c), (UHF_TXW.PHASE, c)] (fun y => { y with ch := [] }))) ∧
    (s.acts (.txwWrite c amp phase) d → (d.chx c).txOn = true → (d.chx c).txStart ≤ d.tick → e0 = d.driver c →
      completes (.txwWrite c amp phase) s (fun e =>
        e.get UHF_TXW.AMP c = amp.toNat ∧ e.get UHF_TXW.PHASE c = phase.toNat ∧
        (d.cfg e0 = c → e.rotator e0 = d.rotator e0) ∧ { e.chx e0 with txwHold := none } = { d.chx e0 with txwHold := none } ∧
        d.chsBut e e0 ∧ d.alters e [(UHF_TXW.AMP, c), (UHF_TXW.PHASE, c)] (fun y => { y with ch := [] }))) ∧
    (s.acts (.portWrite c port) d → d.get UHF_ANT.PORT c = port.toNat → completes (.portWrite c port) s (fun e => e = d)) ∧
    (s.acts (.portWrite c port) d → d.get UHF_ANT.PORT c ≠ port.toNat → d.gate (d.driver c) = false → d.noLaunchNow →
      bitOf (d.get UHF_ANT.FITTED c) port.toNat = true → completes (.portWrite c port) s (fun e =>
        e.get UHF_ANT.PORT c = port.toNat ∧ (e.chx c).settleAt = d.tick + 1 + 16 * d.get UHF_ANT.SETTLE c ∧
        (e.chx (d.driver c)).rxSince = (d.chx (d.driver c)).rxSince.map (fun _ => d.tick + 1) ∧
        (∀ n : Nat, n < 9 → { e.chx n with settleAt := 0, rxSince := none } =
          { d.chx n with settleAt := 0, rxSince := none }) ∧
        d.alters e [(UHF_ANT.PORT, c)] (fun y => { y with ch := [] }))) ∧
    (s.acts (.portWrite c port) d → d.get UHF_ANT.PORT c ≠ port.toNat → d.noLaunchNow → d.gate (d.driver c) = true ∨
        bitOf (d.get UHF_ANT.FITTED c) port.toNat = false → completes (.portWrite c port) s (fun e =>
      e.get UHF_STATUS.LAST_ERR c = (if d.gate (d.driver c) then stAntBusy else stPortAbsent) ∧
      d.writes e [(UHF_STATUS.LAST_ERR, c)])) ∧
    (s.acts (.portSettled c) d → d.calOf (d.driver c) = none → completes (.portSettled c) s (fun e =>
      (e.chx c).settleAt ≤ e.tick ∧ e.clk = max d.clk (2 * (d.chx c).settleAt) ∧ e.regs = d.regs ∧
      e.sansTime = d.sansTime)) ∧
    (s.acts (.modpWrite c k part value) d → completes (.modpWrite c k part value) s (fun e =>
      (part.val = 0 → e.get UHF_MODP_A.MODE c k = bitsOf value.toNat 31 30 ∧ e.get UHF_MODP_A.SB c k = bitsOf value.toNat 29 29 ∧
        e.get UHF_MODP_A.DEPTH c k = bitsOf value.toNat 22 16 ∧ e.get UHF_MODP_A.TARI c k = bitsOf value.toNat 12 0) ∧
      (part.val = 1 → e.get UHF_MODP_B.DATA1 c k = bitsOf value.toNat 28 16 ∧ e.get UHF_MODP_B.PW c k = bitsOf value.toNat 11 0) ∧
      (part.val = 2 → e.get UHF_MODP_C.FALL c k = bitsOf value.toNat 27 16 ∧ e.get UHF_MODP_C.RISE c k = bitsOf value.toNat 11 0) ∧
      e.get UHF_MODP_A.VALID c k = (if e.modpOk c k then 1 else 0) ∧
      (∀ f : Fld, f ∈ [UHF_MODP_A.MODE, UHF_MODP_A.SB, UHF_MODP_A.DEPTH, UHF_MODP_A.TARI, UHF_MODP_A.VALID, UHF_MODP_B.DATA1,
        UHF_MODP_B.PW, UHF_MODP_C.FALL, UHF_MODP_C.RISE] → d.indexBut e f c k) ∧
      d.writes e ([(UHF_MODP_A.VALID, c.val)] ++
        (if part.val = 0 then [(UHF_MODP_A.MODE, c.val), (UHF_MODP_A.SB, c.val), (UHF_MODP_A.DEPTH, c.val), (UHF_MODP_A.TARI, c.val)]
        else if part.val = 1 then [(UHF_MODP_B.DATA1, c.val), (UHF_MODP_B.PW, c.val)]
        else [(UHF_MODP_C.FALL, c.val), (UHF_MODP_C.RISE, c.val)])))) ∧
    (s.acts (.paenPolWrite c pol) d → completes (.paenPolWrite c pol) s (fun e =>
      e.get UHF_FE.PAEN_POL c = (if pol then 1 else 0) ∧
      (c.val < 8 → bitOf (e.get AON_PAPOL.POL) c = pol ∧
        ∀ n : Nat, n < 8 → n ≠ c → bitOf (e.get AON_PAPOL.POL) n = bitOf (d.get AON_PAPOL.POL) n) ∧
      (c.val = 8 → e.get AON_PAPOL.POL = d.get AON_PAPOL.POL) ∧
      d.writes e [(UHF_FE.PAEN_POL, c), (AON_PAPOL.POL, 0)])) ∧
    (s.acts (.noiseMean c mean) d → d.cst (d.driver c) = csCarrier → (d.chx c).txOn = false ∨ d.tick < (d.chx c).txStart →
      (d.chx c).win.all (fun w => decide (d.tick < w.openAt)) = true → (c.val = 8 → d.attached = none) →
      completes (.noiseMean c mean) s (fun e =>
        e.get UHF_RX_NOISE.NOISE c = mean.toNat ∧ d.writes e [(UHF_RX_NOISE.NOISE, c)])) ∧
    (s.acts (.noiseMean c mean) d → d.cst (d.driver c) ≠ csCarrier ∨ (d.chx c).txOn = true ∧ (d.chx c).txStart ≤ d.tick ∨
        (d.chx c).win.any (fun w => decide (w.openAt ≤ d.tick)) = true ∨ c.val = 8 ∧ d.attached ≠ none →
      completes (.noiseMean c mean) s (fun e => e = d)) ∧
    (s.acts (.vclrVio c) d → completes (.vclrVio c) s (fun e =>
      (∀ f : Fld, f ∈ [UHF_RX_VCNT0.M_MISM, UHF_RX_VCNT0.FT_EDGE, UHF_RX_VCNT1.DRIFT, UHF_RX_VCNT1.LEN, UHF_RX_VCNT2.TRUNC,
        UHF_RX_VCNT2.PILOT] → e.get f c = (if d.countedNow c f 0 then 1 else 0)) ∧
      d.writes e [(UHF_RX_VCNT0.M_MISM, c), (UHF_RX_VCNT0.FT_EDGE, c), (UHF_RX_VCNT1.DRIFT, c), (UHF_RX_VCNT1.LEN, c),
        (UHF_RX_VCNT2.TRUNC, c), (UHF_RX_VCNT2.PILOT, c)])) ∧
    (s.acts (.vclrCls c) d → completes (.vclrCls c) s (fun e =>
      (∀ n : Nat, n < 4 → e.get UHF_RX_CCNT.CNT_LO c n = (if d.countedNow c UHF_RX_CCNT.CNT_LO n then 1 else 0) ∧
        e.get UHF_RX_CCNT.CNT_HI c n = (if d.countedNow c UHF_RX_CCNT.CNT_HI n then 1 else 0)) ∧
      d.writes e [(UHF_RX_CCNT.CNT_LO, c), (UHF_RX_CCNT.CNT_HI, c)]))

/-- UHFn_CTRL.TARGET and the ends of a chain's transitions (R42, R44, R47, R51, R52, R57, R58, R138). A TARGET above RX is ignored; one
written with no carrier on starts the chain's transition, in the times of the table; one written during a carrier ramps it
down from the next tick, ends a TXC in progress with CUT and is followed at the ramp's end. RAMP_UP_DONE gives CARRIER;
RAMP_DOWN_DONE gives RX, with the detectors below range, and ends a CARRY OFF; CHAIN_TRANSITION_DONE gives the state aimed
at, and goes on where TARGET lies further. -/
def Obligations.ChainTransitionsComplete : Prop :=
  ∀ (s : State) (c : ChainNo) (target : BitVec 3) (v : VatNo) (g l n tg : Nat) (d : Dev),
    (s.acts (.uhfTargetWrite c target) d → 2 < target.toNat → completes (.uhfTargetWrite c target) s (fun e => e = d)) ∧
    (s.acts (.uhfTargetWrite c target) d → target.toNat ≤ 2 → d.unattended c → d.carrierOn c = false → d.cst c ≠ csDown → (d.chx c).goal = none →
      d.noLaunchNow → completes (.uhfTargetWrite c target) s (fun e =>
        e.get UHF_CTRL.TARGET c = target.toNat ∧
        (d.cst c = csOff → 1 ≤ target.toNat → (e.chx c).goal = some csReady ∧ (e.chx c).due = d.tick + usTicks 35) ∧
        (d.cst c = csReady → target.toNat = 2 →
          (e.chx c).goal = some csRx ∧ (e.chx c).due = d.tick + d.rxTime (d.cfg c)) ∧
        (d.cst c = csReady → target.toNat = 0 → (e.chx c).goal = some csOff ∧ (e.chx c).due = d.tick + 154) ∧
        (d.cst c = csRx → target.toNat < 2 → (e.chx c).goal = some target.toNat ∧ (e.chx c).due = d.tick + 154) ∧
        (d.cst c = csTrip ∨ d.cst c = target.toNat → (e.chx c).goal = none) ∧
        d.chsBut e c ∧ d.alters e [(UHF_CTRL.TARGET, c)] (fun y => { y with ch := [] }))) ∧
    (s.acts (.uhfTargetWrite c target) d → target.toNat ≤ 2 → d.unattended c → d.carrierOn c = true → (d.chx c).goal = none → d.noLaunchNow →
      completes (.uhfTargetWrite c target) s (fun e =>
        e.get UHF_CTRL.TARGET c = target.toNat ∧ e.cst c = csDown ∧ (e.chx c).goal = some csRx ∧
        (e.chx c).due = d.tick + 1 + d.get UHF_RAMP.RAMP_DN (d.cfg c) ∧ (e.chx c).target = some target.toNat ∧
        d.chsBut e c ∧ d.keepsBut e carrierEndFlds [(UHF_CTRL.TARGET, c), (UHF_STATUS.STATE, c)] ∧
        { e.sans with ch := [] } = { d.sans with ch := [] })) ∧
    (s.acts (.uhfTargetWrite c target) d → target.toNat ≤ 2 → d.feOf c = some c.val → d.get VAT_BIND.PORT v = c → d.vatOf c = some v.val →
      d.waiting v (.txc l n) → (d.chx c).win = none → d.calOf c = none → (d.chx c).goal = none →
      (d.chx c).txOn = true → d.carrierOn c = true → d.noLaunchNow →
      completes (.uhfTargetWrite c target) s (fun e =>
        e.outcomeIs v opTxc 7 stNoCarrier ∧ d.released e v (2 * (d.tick + 2)) ∧ (e.chx c).txOn = false ∧
        (e.chx c).lastTx = some (d.tick + 1) ∧ e.cst c = csDown ∧ e.get UHF_CTRL.TARGET c = target.toNat ∧
        d.keepsBut e (carrierEndFlds ++ [UHF_TXW.AMP, UHF_TXW.PHASE]) ([(UHF_CTRL.TARGET, c.val), (UHF_STATUS.STATE, c.val)] ++
          (VAT_STATUS.STATE :: airFlds).map (fun f => (f, v.val))) ∧
        d.chsBut e c ∧ d.vatsBut e v ∧ { e.sansVats with ch := [] } = { d.sansVats with ch := [] })) ∧
    (s.acts (.rampUpDone c) d → (d.chx c).goal = some csCarrier → d.spare.sw = none → d.noneHeld → d.feSettled →
      completes (.rampUpDone c) s (fun e =>
        e.cst c = csCarrier ∧ (e.chx c).goal = none ∧ e.clk = max d.clk (2 * (d.chx c).due) ∧
        { e.chx c with goal := (d.chx c).goal, trackAt := (d.chx c).trackAt } = d.chx c ∧ (e.chx c).trackAt = (d.chx c).due ∧
        d.chsBut e c ∧ d.keeps e [(UHF_STATUS.STATE, c.val)] ∧
        { e.sansTime with ch := [], fresh := 0 } = { d.sansTime with ch := [], fresh := 0 })) ∧
    (s.acts (.rampDownDone c) d → d.cst c = csDown → (d.chx c).goal = some csRx → d.calOf c = none → (d.chx c).calBack = none → c ≠ 8 →
      d.feSettled → (d.chx c).guarded = none → (d.vatOf c).all (fun v => decide ((d.vatx v).wait ≠ .carryOff)) = true → (d.chx c).target = none →
      completes (.rampDownDone c) s (fun e =>
        e.cst c = csRx ∧ (e.chx c).goal = none ∧ (e.chx c).rxSince = some (d.chx c).due ∧ e.gate c = false ∧
        (d.carrierOf c = c → e.detNow c 0 = 0x800 ∧ e.detNow c 1 = 0x800) ∧ e.clk = max d.clk (2 * (d.chx c).due) ∧
        d.chsBut e c ∧ d.keeps e [(UHF_STATUS.STATE, c.val)] ∧
        { e.sansTime with ch := [], fe := [] } = { d.sansTime with ch := [], fe := [] })) ∧
    (s.acts (.rampDownDone c) d → d.cst c = csDown → (d.chx c).goal = some csRx → d.calOf c = none → (d.chx c).calBack = none → c ≠ 8 →
      d.feSettled → (d.chx c).guarded = none → d.vatOf c = none → (d.chx c).target = some tg → tg < 2 →
      completes (.rampDownDone c) s (fun e =>
        e.cst c = csRx ∧ (e.chx c).goal = some tg ∧ (e.chx c).due = (d.chx c).due + 154 ∧ d.chsBut e c ∧
        d.keeps e [(UHF_STATUS.STATE, c.val)] ∧
        { e.sansTime with ch := [], fe := [] } = { d.sansTime with ch := [], fe := [] })) ∧
    (s.acts (.rampDownDone c) d → d.cst c = csDown → (d.chx c).goal = some csRx → d.calOf c = none → (d.chx c).calBack = none →
      d.feSettled → d.cfg c = c → (d.chx c).guarded = none → d.get VAT_BIND.PORT v = c →
      d.vatOf c = some v.val → d.portUnits c = [c.val] → (d.chx c).target = none → d.waiting v .carryOff → completes (.rampDownDone c) s (fun e =>
        e.cst c = csRx ∧ e.get VAT_OC.OC v = 1 ∧ d.released e v (2 * ((d.chx c).due + 1)) ∧
        d.keeps e ([(UHF_STATUS.STATE, c.val)] ++
          (VAT_STATUS.STATE :: airFlds).map (fun f => (f, v.val))) ∧
        d.vatsBut e v ∧ d.chsBut e c ∧
        { e.sansVats with ch := [], fe := [] } = { d.sansVats with ch := [], fe := [] })) ∧
    (s.acts (.rampDownDone 8) d → d.cst 8 = csDown → (d.chx 8).goal = some csRx → d.calOf 8 = none → (d.chx 8).calBack = none →
      d.usFree → d.feSettled → d.spare.sw = none → d.spare.waitTake = none → d.binder 8 = none →
      (d.chx 8).guarded = none → (d.chx 8).target = none → d.get UHFS_SPARE.READINESS < 2 → completes (.rampDownDone 8) s (fun e =>
        e.cst 8 = csRx ∧ (e.chx 8).goal = some (d.get UHFS_SPARE.READINESS) ∧ (e.chx 8).due = e.tick + 154 ∧
        d.chsBut e 8 ∧ d.keeps e [(UHF_STATUS.STATE, 8)] ∧
        { e.sansTime with ch := [] } = { d.sansTime with ch := [] })) ∧
    (s.acts (.rampDownDone c) d → d.cst c ≠ csDown → completes (.rampDownDone c) s (fun e => e = d)) ∧
    (s.acts (.chainTransitionDone c) d → (d.chx c).goal = some g → g < csCarrier → d.cst c ≠ csDown → d.calOf c = none → d.spare.sw = none →
      d.noneHeld → (d.chx c).calBack = none → (d.chx c).target = none ∨ (d.chx c).target = some g →
      completes (.chainTransitionDone c) s (fun e =>
        e.cst c = g ∧ (e.chx c).goal = none ∧ (e.chx c).rxSince = (if g = csRx then some (d.chx c).due else none) ∧
        e.clk = max d.clk (2 * (d.chx c).due) ∧ d.chsBut e c ∧ d.keeps e [(UHF_STATUS.STATE, c)] ∧
        { e.sansTime with ch := [] } = { d.sansTime with ch := [] })) ∧
    (s.acts (.chainTransitionDone c) d → (d.chx c).goal = some csReady → d.cst c = csOff → d.calOf c = none → d.spare.sw = none →
      d.noneHeld → (d.chx c).calBack = none → d.feSettled → (d.chx c).target = some csRx →
      completes (.chainTransitionDone c) s (fun e =>
        e.cst c = csReady ∧ (e.chx c).goal = some csRx ∧ (e.chx c).due = (d.chx c).due + d.rxTime (d.cfg c) ∧
        d.chsBut e c ∧ d.keeps e [(UHF_STATUS.STATE, c)] ∧
        { e.sansTime with ch := [] } = { d.sansTime with ch := [] })) ∧
    (s.acts (.chainTransitionDone c) d → (d.chx c).goal = none → completes (.chainTransitionDone c) s (fun e => e = d))

/-- Trips (R37, R42, R55, R56, R144, R245, R246, R250, R254). A cause that applies in the chain's state, by FORCE or by a detector, puts
the chain into TRIP: cause bits, the gate closed by the trip ramp or unramped, the event. A further cause in the trip ramp sets its
bit, and may close the gate earlier. One that an eligible chain and an
unattached US meet starts a fault takeover; one of US while it is attached to a chain in READY or RX starts an automatic
release; a TXC in progress ends with CUT. Clearing keeps the causes still asserted, and with none left the chain leaves TRIP
for READY in 2 µs. An unlock clears LOCK and trips every chain on the synthesiser with its gate open. -/
def Obligations.TripsComplete : Prop :=
  ∀ (s : State) (c : ChainNo) (causes mask asserted : BitVec 10) (cmd : Instr) (syn : Fin 4) (v : VatNo) (m0 m n l x : Nat) (d : Dev),
    (s.acts cmd d → cmd = .tripForce c ∧ m0 = tripHost ∨ cmd = .chainTrip c causes ∧ m0 = causes.toNat → (d.chx c).goal = none →
      d.noneHeld → d.noLaunchNow → d.tripMask c m0 = 0 → completes cmd s (fun e => e = d)) ∧
    (s.acts cmd d → cmd = .tripForce c ∧ m0 = tripHost ∨ cmd = .chainTrip c causes ∧ m0 = causes.toNat → (d.chx c).goal = none →
      d.noneHeld → d.noLaunchNow → m = d.tripMask c m0 → m ≠ 0 → d.tripRamps c = false → d.unattended c →
      d.takesOver c m = false → d.spare.sw = none → (c = 8 → d.usFree) → completes cmd s (fun e =>
        e.cst c = csTrip ∧ e.get UHF_TRIP.CAUSE c = Nat.lor (d.get UHF_TRIP.CAUSE c) m % 2 ^ 10 ∧
        (d.gate c = true → (e.chx c).gateShut = d.tick + (if Nat.land m tripUnramped = 0 then 154 else 16)) ∧
        e.get UHFS_SPST.MISSED = (if d.missesFault c m then min (d.get UHFS_SPST.MISSED + 1) 15
          else d.get UHFS_SPST.MISSED) ∧
        d.told e (evUhfTrip c) ∧ d.chsBut e c ∧
        d.keepsBut e carrierEndFlds
          [(UHF_STATUS.STATE, c), (UHF_TRIP.CAUSE, c), (UHFS_SPST.MISSED, 0), (TRL_CH.SEEN, 0)] ∧
        { e.sans with ch := [], fe := [], flights := [] } = { d.sans with ch := [], fe := [], flights := [] })) ∧
    (s.acts cmd d → cmd = .tripForce c ∧ m0 = tripHost ∨ cmd = .chainTrip c causes ∧ m0 = causes.toNat → (d.chx c).goal = none →
      d.noneHeld → d.noLaunchNow → m0 ≠ 0 → d.tripRamps c = true → d.spare.sw = none → completes cmd s (fun e =>
        e.cst c = csTrip ∧ e.get UHF_TRIP.CAUSE c = Nat.lor (d.get UHF_TRIP.CAUSE c) m0 % 2 ^ 10 ∧
        (e.chx c).gateShut = (if Nat.land m0 tripUnramped = 0 then (d.chx c).gateShut
          else min (d.chx c).gateShut (d.tick + 16)) ∧
        d.told e (evUhfTrip c) ∧ d.chsBut e c ∧ d.keeps e [(UHF_TRIP.CAUSE, c), (TRL_CH.SEEN, 0)] ∧
        { e.sans with ch := [], fe := [], flights := [] } = { d.sans with ch := [], fe := [], flights := [] })) ∧
    (s.acts cmd d → cmd = .tripForce c ∧ m0 = tripHost ∨ cmd = .chainTrip c causes ∧ m0 = causes.toNat → (d.chx c).goal = none →
      d.noneHeld → d.noLaunchNow → m = d.tripMask c m0 → m ≠ 0 → d.tripRamps c = false →
      d.takesOver c m = false → d.spare.sw = none → d.feOf c = some c.val → d.get VAT_BIND.PORT v = c → d.vatOf c = some v.val → d.waiting v (.txc l n) →
      (d.chx c).win = none → d.calOf c = none → completes cmd s (fun e =>
        e.cst c = csTrip ∧ e.outcomeIs v opTxc 7 (if m = tripSynUnl then stSynUnlock else stChainTrip) ∧
        d.released e v (2 * (d.tick + 1)) ∧ (e.chx c).txOn = false ∧ d.told e (evUhfTrip c) ∧
        d.keepsBut e (UHF_TXW.AMP :: UHF_TXW.PHASE :: carrierEndFlds) ([(UHF_STATUS.STATE, c.val),
          (UHF_TRIP.CAUSE, c.val), (UHFS_SPST.MISSED, 0), (TRL_CH.SEEN, 0)] ++ (VAT_STATUS.STATE :: airFlds).map (fun f => (f, v.val))) ∧
        d.chsBut e c ∧ d.vatsBut e v ∧
        { e.sansVats with ch := [], fe := [], flights := [] } = { d.sansVats with ch := [], fe := [], flights := [] })) ∧
    (s.acts cmd d → cmd = .tripForce c ∧ m0 = tripHost ∨ cmd = .chainTrip c causes ∧ m0 = causes.toNat → (d.chx c).goal = none →
      d.noneHeld → d.noLaunchNow → m = d.tripMask c m0 → m ≠ 0 → d.tripRamps c = false →
      d.takesOver c m = true → d.unattended c → d.unattended 8 → d.gate 8 = false → d.usFree →
      d.spare.waitTake = none → completes cmd s (fun e =>
        e.cst c = csTrip ∧ e.get UHFS_SPARE.ATTACHED = c ∧ e.get UHFS_SPST.LASTCH = c ∧ e.get UHFS_SPST.PHASE = 2 ∧
        e.pinSpsel c = false ∧
        (∃ w, e.spare.sw = some w ∧ w.fe = c ∧ w.take = true ∧ w.restore = d.carrierOn c ∧
          w.start = d.tick ∧ max d.tick (e.chx c).gateShut < w.selAt ∧
          w.settled = w.selAt + 16 * d.get UHFS_SPARE.SW_SETTLE ∧ (e.toTick w.selAt).pinSpsel c = !d.clamped) ∧
        d.told e (evUhfTrip c) ∧ (∀ k : Nat, k < 11 → k ≠ c → k ≠ 8 → e.chx k = d.chx k) ∧
        d.keepsBut e carrierEndFlds [(UHF_STATUS.STATE, c), (UHF_TRIP.CAUSE, c), (UHFS_SPARE.ATTACHED, 0),
          (UHFS_SPST.LASTCH, 0), (UHFS_SPST.PHASE, 0), (TRL_CH.SEEN, 0)] ∧
        { e.sans with ch := [], fe := [], flights := [], spare := {} } =
          { d.sans with ch := [], fe := [], flights := [], spare := {} })) ∧
    (s.acts cmd d → cmd = .tripForce 8 ∧ m0 = tripHost ∨ cmd = .chainTrip 8 causes ∧ m0 = causes.toNat → (d.chx 8).goal = none →
      d.noneHeld → d.noLaunchNow → m = d.tripMask 8 m0 → m ≠ 0 → d.tripRamps 8 = false →
      d.spare.sw = none → d.attached = some n → n < 8 → d.cfg 8 = n → d.spare.waitRel = none → Nat.land m tripChainKind ≠ 0 → d.cst n = csReady ∨ d.cst n = csRx →
      d.unattended 8 → d.calOf n = none → completes cmd s (fun e =>
        e.cst 8 = csTrip ∧ e.get UHFS_SPST.PHASE = 4 ∧ e.pinSpsel n = !d.clamped ∧
        (∃ w, e.spare.sw = some w ∧ w.fe = n ∧ w.take = false ∧ w.restore = d.carrierOn 8 ∧
          w.start = d.tick ∧ max d.tick (e.chx 8).gateShut < w.selAt ∧
          w.settled = w.selAt + 16 * d.get UHFS_SPARE.SW_SETTLE ∧ (e.toTick w.selAt).pinSpsel n = false) ∧
        d.told e (evUhfTrip 8) ∧
        d.keepsBut e carrierEndFlds [(UHF_STATUS.STATE, 8), (UHF_TRIP.CAUSE, 8), (UHFS_SPST.PHASE, 0), (TRL_CH.SEEN, 0)] ∧
        { e.sans with ch := [], fe := [], flights := [], spare := {} } =
          { d.sans with ch := [], fe := [], flights := [], spare := {} })) ∧
    (s.acts (.tripClear c mask asserted) d → x = Nat.land (d.get UHF_TRIP.CAUSE c) (Nat.lor asserted.toNat (0x3FF - mask.toNat)) →
      x ≠ 0 ∨ d.cst c ≠ csTrip ∨ (d.chx c).goal ≠ none → completes (.tripClear c mask asserted) s (fun e =>
        (∀ b : Nat, b < 10 → bitOf (e.get UHF_TRIP.CAUSE c) b =
          (bitOf (d.get UHF_TRIP.CAUSE c) b && (!mask.getLsbD b || asserted.getLsbD b))) ∧
        d.writes e [(UHF_TRIP.CAUSE, c)])) ∧
    (s.acts (.tripClear c mask asserted) d → Nat.land (d.get UHF_TRIP.CAUSE c) (Nat.lor asserted.toNat (0x3FF - mask.toNat)) = 0 → d.cst c = csTrip →
      (d.chx c).goal = none → (d.chx c).calBack = none → completes (.tripClear c mask asserted) s (fun e =>
        e.get UHF_TRIP.CAUSE c = 0 ∧ (e.chx c).goal = some csReady ∧
        (e.chx c).due = max d.tick (d.chx c).gateShut + usTicks 2 ∧
        (c ≠ 8 ∨ d.usTaken = true ∨ d.binder 8 ≠ none →
          (e.chx c).target = (if d.get UHF_CTRL.TARGET c = csRx then some csRx else none)) ∧
        (c = 8 → d.usTaken = false → d.binder 8 = none → (e.chx c).target =
          (if d.get UHFS_SPARE.READINESS = 1 then none else some (min 2 (d.get UHFS_SPARE.READINESS)))) ∧
        d.chsBut e c ∧
        d.alters e [(UHF_TRIP.CAUSE, c)] (fun y => { y with ch := [] }))) ∧
    (s.acts (.synUnlock syn) d → d.locked syn = false → completes (.synUnlock syn) s (fun e => e = d)) ∧
    (s.acts (.synUnlock syn) d → d.locked syn = true → d.noneHeld → (d.synUsers syn).all (fun k => !d.gate k) = true →
      (∀ k : Nat, k < 9 → (d.chx k).goal = none) → completes (.synUnlock syn) s (fun e =>
        e.locked syn = false ∧ d.alters e [(SYN_F_STATUS.LOCK, syn)] (fun y => { y with syn := [] }))) ∧
    (s.acts (.synUnlock syn) d → d.locked syn = true → d.noneHeld → (d.synUsers syn).filter d.gate = [c.val] → d.cst c ≠ csTrip →
      (∀ k : Nat, k < 9 → (d.chx k).goal = none) → d.unattended c → d.takesOver c tripSynUnl = false →
      d.noLaunchNow → d.spare.sw = none → (c = 8 → d.usFree) → completes (.synUnlock syn) s (fun e =>
        e.locked syn = false ∧ e.cst c = csTrip ∧
        e.get UHF_TRIP.CAUSE c = Nat.lor (d.get UHF_TRIP.CAUSE c) tripSynUnl % 2 ^ 10 ∧
        (e.chx c).gateShut = d.tick + 16 ∧ d.told e (evSynUnlock syn) ∧ d.chsBut e c ∧
        d.keepsBut e carrierEndFlds [(SYN_F_STATUS.LOCK, syn), (UHF_STATUS.STATE, c), (UHF_TRIP.CAUSE, c),
          (UHFS_SPST.MISSED, 0), (TRL_CH.SEEN, 0)] ∧
        { e.sans with ch := [], fe := [], flights := [], syn := [] } =
          { d.sans with ch := [], fe := [], flights := [], syn := [] }))

/-- The synthesisers (R33 to R40, R60, R235 to R237). A host's frequency out of range is refused with SYN_RANGE, one of a
synthesiser whose chains have a gate open (but for a CARRY that launched in the very tick, which comes later), that is the
destination of a hand-over, or that a Vat tuned elsewhere in the cycle, with SYN_BUSY; an accepted one clears LOCK, and follows
to the destination of a hand-over that tunes or waits. LOCK and LOCK_TICKS at the lock event; a recalibration needs a
synthesiser without chains; its end gives CAL_OK, TCAL and LOCK; drift beyond DT starts one, in place or by a hand-over. GO,
CANCEL, the swap that moves every chain in one tick, and the end after 10 s. -/
def Obligations.SynthesisersComplete : Prop :=
  ∀ (s : State) (m : Fin 4) (freq : BitVec 20) (ok : Bool) (temp : BitVec 8) (org dst : BitVec 2) (cmd : Instr)
    (r : CalRun) (k o : Nat) (d : Dev) (q : SynReq) (x0 : Dev),
    (s.acts (.synFreqWrite m freq) x0 → freq.toNat < 860000 ∨ 960000 < freq.toNat → completes (.synFreqWrite m freq) s (fun e =>
      e.get SYN_F_STATUS.LAST_ERR m = stSynRange ∧ x0.writes e [(SYN_F_STATUS.LAST_ERR, m)])) ∧
    (s.acts (.synFreqWrite m freq) x0 → d = x0.unlaunchs (x0.synUsers m) → 860000 ≤ freq.toNat → freq.toNat ≤ 960000 →
      d.anyGate (d.synUsers m) = true ∨ d.shadowDst m = true → completes (.synFreqWrite m freq) s (fun e =>
        e.get SYN_F_STATUS.LAST_ERR m = stSynBusy ∧ x0.writes e [(SYN_F_STATUS.LAST_ERR, m)])) ∧
    (s.acts (.synFreqWrite m freq) x0 → d = x0.unlaunchs (x0.synUsers m) → 860000 ≤ freq.toNat → freq.toNat ≤ 960000 →
      d.anyGate (d.synUsers m) = false → d.shadowDst m = false → firstReq (x0.synReqs m) = some q → q.khz ≠ freq.toNat →
      completes (.synFreqWrite m freq) s (fun e =>
        e.get SYN_F_STATUS.LAST_ERR m = stSynBusy ∧ x0.writes e [(SYN_F_STATUS.LAST_ERR, m)])) ∧
    (s.acts (.synFreqWrite m freq) x0 → d = x0.unlaunchs (x0.synUsers m) → 860000 ≤ freq.toNat → freq.toNat ≤ 960000 →
      d.anyGate (d.synUsers m) = false → d.shadowDst m = false → firstReq (x0.synReqs m) = some q → q.khz = freq.toNat →
      completes (.synFreqWrite m freq) s (fun e => e = x0)) ∧
    (s.acts (.synFreqWrite m freq) x0 → d = x0.unlaunchs (x0.synUsers m) → 860000 ≤ freq.toNat → freq.toNat ≤ 960000 →
      d.anyGate (d.synUsers m) = false → d.shadowDst m = false → d.shadowEarly = false ∨ d.get SYN_SHADOW.SRC ≠ m →
      x0.synReqs m = [] → completes (.synFreqWrite m freq) s (fun e =>
        e.get SYN_F_FREQ.FREQ_KHZ m = freq.toNat ∧ e.locked m = false ∧ (e.synx m).tuneTick = d.tick ∧
        (∀ c : Nat, c < 9 → (e.chx c).rxSince = (if d.synOf c = m then (d.chx c).rxSince.map (fun _ => d.tick)
          else (d.chx c).rxSince) ∧ { e.chx c with rxSince := none } = { d.chx c with rxSince := none }) ∧
        d.alters e [(SYN_F_FREQ.FREQ_KHZ, m), (SYN_F_STATUS.LOCK, m)] (fun y => { y with ch := [], syn := [] }))) ∧
    (s.acts (.synFreqWrite m freq) x0 → d = x0.unlaunchs (x0.synUsers m) → 860000 ≤ freq.toNat → freq.toNat ≤ 960000 →
      d.anyGate (d.synUsers m) = false → d.shadowDst m = false → d.shadowEarly = true → d.get SYN_SHADOW.SRC = m →
      d.get SYN_SHADOW.DST = k → x0.synReqs m = [] → completes (.synFreqWrite m freq) s (fun e =>
        e.get SYN_F_FREQ.FREQ_KHZ m = freq.toNat ∧ e.get SYN_F_FREQ.FREQ_KHZ k = freq.toNat ∧ e.locked m = false ∧
        e.locked k = false ∧ e.get SYN_SHADOW.STATE = 1 ∧
        d.alters e [(PWR_DOM1.SYN, 0), (SYN_F_FREQ.FREQ_KHZ, m), (SYN_F_STATUS.LOCK, m), (SYN_F_FREQ.FREQ_KHZ, k), (SYN_F_STATUS.LOCK, k),
          (SYN_SHADOW.STATE, 0)] (fun y => { y with ch := [], syn := [] }))) ∧
    (s.acts (.synLock m) x0 → x0.locked m = false → x0.cal = [] → x0.spare.sw = none → x0.noneHeld → completes (.synLock m) s (fun e =>
      e.locked m = true ∧ e.get SYN_F_CAL.LOCK_TICKS m = min 0xFFFF (x0.tick - (x0.synx m).tuneTick) ∧
      e.get SYN_SHADOW.STATE = (if x0.get SYN_SHADOW.STATE = 1 ∧ x0.get SYN_SHADOW.DST = m then 2
        else x0.get SYN_SHADOW.STATE) ∧
      bitOf (e.get PWR_DOM1.SYN) m = true ∧
      x0.writes e [(SYN_F_STATUS.LOCK, m), (SYN_F_CAL.LOCK_TICKS, m), (SYN_SHADOW.STATE, 0), (PWR_DOM1.SYN, 0)])) ∧
    (s.acts (.synLock m) x0 → x0.synCal m = true ∨ x0.locked m = true → completes (.synLock m) s (fun e => e = x0)) ∧
    (s.acts cmd d → cmd = .recal m ∨ (cmd = .synDriftRecal m temp ∧
        (d.get SYN_DRIFT.DT : Int) < (temp.toInt - signedOf 8 (d.get SYN_F_CAL.TCAL m)).natAbs) →
      d.synUsers m = [] → d.shadowing m = false → d.synCal m = false → completes cmd s (fun e =>
        e.locked m = false ∧ e.calOf (9 + m) = some { op := 1, sub := 1, since := d.tick } ∧
        (∀ u : Nat, u < 15 → u ≠ 9 + m → e.calOf u = d.calOf u) ∧ e.get CAL_STATUS.OP = 1 ∧
        e.get CAL_STATUS.UNIT = 9 + m ∧
        bitOf (e.get PWR_DOM1.SYN) m = true ∧
        d.alters e [(SYN_F_STATUS.LOCK, m), (CAL_STATUS.OP, 0), (CAL_STATUS.UNIT, 0), (PWR_DOM1.SYN, 0)]
          (fun y => { y with cal := [] }))) ∧
    (s.acts cmd d → (cmd = .recal m ∧ d.synUsers m ≠ []) ∨
        ((cmd = .recal m ∨ (cmd = .synDriftRecal m temp ∧ d.synUsers m = [] ∧
          (d.get SYN_DRIFT.DT : Int) < (temp.toInt - signedOf 8 (d.get SYN_F_CAL.TCAL m)).natAbs)) ∧
          (d.shadowing m = true ∨ d.synCal m = true)) → completes cmd s (fun e =>
      e.get SYN_F_STATUS.LAST_ERR m = stSynBusy ∧ d.writes e [(SYN_F_STATUS.LAST_ERR, m)])) ∧
    (s.acts (.synRecalDone m ok temp) x0 → d = x0.calUncut (9 + m) → d.calOf (9 + m) = some r → d.spare.auto = none → completes (.synRecalDone m ok temp) s (fun e =>
      e.locked m = true ∧ e.get SYN_F_STATUS.CAL_OK m = (if ok then 1 else 0) ∧
      (ok = true → e.get SYN_F_CAL.TCAL m = temp.toNat ∧ e.get CAL_STATUS.RESULT = 0 ∧
        e.trimValid (9 + m) 0x10 0 = true ∧ e.trimValid (9 + m) 0x11 0 = true) ∧
      (ok = false → e.get SYN_F_CAL.TCAL m = d.get SYN_F_CAL.TCAL m ∧
        e.get CAL_STATUS.RESULT ∈ [stCalDisturbed, stCalNoLoad, stCalRange] ∧
        d.logged e 2 0x1A (9 + m) (e.get CAL_STATUS.RESULT)) ∧
      e.get SYN_SHADOW.STATE = (if d.get SYN_SHADOW.STATE = 3 ∧ d.get SYN_SHADOW.SRC = m then 4
        else d.get SYN_SHADOW.STATE) ∧
      (∀ u : Nat, u < 15 → e.calOf u = (if u = 9 + m then none else d.calOf u)) ∧ d.told e evCalDone ∧
      d.keepsBut e [CAL_TDATA.VALUE, CAL_TDATA.VALID, CAL_TDATA.QUAL, CAL_STATUS.RESULT, CAL_STATUS.RETRIED, CAL_QUAL.QUAL,
          CAL_QUAL.VR1, CAL_QUAL.VR2]
        [(SYN_F_STATUS.LOCK, m), (SYN_F_STATUS.CAL_OK, m), (SYN_F_CAL.TCAL, m), (SYN_SHADOW.STATE, 0), (TRL_CH.SEEN, 0),
          (MGT_LOG_CNT.DROPPED, 0)] ∧
      { e.sans with cal := [], flights := [], log := {}, fresh := 0 } =
        { d.sans with cal := [], flights := [], log := {}, fresh := 0 })) ∧
    (s.acts (.synRecalDone m ok temp) x0 → (x0.calUncut (9 + m)).calOf (9 + m) = none → completes (.synRecalDone m ok temp) s (fun e => e = x0)) ∧
    (s.acts (.synDriftRecal m temp) x0 → x0.synUsers m ≠ [] → x0.shadowRuns = true ∨ (List.range 4).find? (fun j => j != m.val &&
        (x0.synUsers j).isEmpty && !x0.synCal j && !x0.shadowing j) = none →
      completes (.synDriftRecal m temp) s (fun e => e = x0)) ∧
    (s.acts (.synDriftRecal m temp) x0 → (temp.toInt - signedOf 8 (x0.get SYN_F_CAL.TCAL m)).natAbs ≤ (x0.get SYN_DRIFT.DT : Int) →
      completes (.synDriftRecal m temp) s (fun e => e = x0)) ∧
    (s.acts cmd d → cmd = .shadowGo org dst ∧ o = org.toNat ∧ k = dst.toNat ∨ (cmd = .synDriftRecal m temp ∧ o = m ∧ d.synUsers m ≠ [] ∧
        (d.get SYN_DRIFT.DT : Int) < (temp.toInt - signedOf 8 (d.get SYN_F_CAL.TCAL m)).natAbs ∧
        (List.range 4).find? (fun j => j != m.val && (d.synUsers j).isEmpty && !d.synCal j && !d.shadowing j) =
          some k) →
      d.shadowRuns = false → k ≠ o → d.synUsers k = [] → d.synCal k = false → completes cmd s (fun e =>
        e.get SYN_SHADOW.STATE = 1 ∧ e.get SYN_SHADOW.SRC = o ∧ e.get SYN_SHADOW.DST = k ∧
        e.get SYN_F_FREQ.FREQ_KHZ k = d.get SYN_F_FREQ.FREQ_KHZ o % 2 ^ 20 ∧ e.locked k = false ∧ e.shadowGo = d.tick ∧
        d.alters e [(SYN_SHADOW.STATE, 0), (SYN_SHADOW.SRC, 0), (SYN_SHADOW.DST, 0), (SYN_F_FREQ.FREQ_KHZ, k),
          (SYN_F_STATUS.LOCK, k), (PWR_DOM1.SYN, 0)] (fun y => { y with syn := [], shadowGo := 0 }))) ∧
    (s.acts (.shadowGo org dst) x0 → x0.shadowRuns = true → o = x0.get SYN_SHADOW.SRC → completes (.shadowGo org dst) s (fun e =>
        e.get SYN_F_STATUS.LAST_ERR o = stSynBusy ∧ x0.writes e [(SYN_F_STATUS.LAST_ERR, o)])) ∧
    (s.acts (.shadowGo org dst) x0 → x0.shadowRuns = false → o = org.toNat →
      dst = org ∨ x0.synUsers dst.toNat ≠ [] ∨ x0.synCal dst.toNat = true → completes (.shadowGo org dst) s (fun e =>
        e.get SYN_F_STATUS.LAST_ERR o = stSynBusy ∧
        x0.writes e [(SYN_F_STATUS.LAST_ERR, o), (SYN_SHADOW.SRC, 0), (SYN_SHADOW.DST, 0)])) ∧
    (s.acts .shadowCancel x0 → x0.shadowEarly = true → completes .shadowCancel s (fun e =>
      e.get SYN_SHADOW.STATE = 5 ∧ x0.writesTells e [(SYN_SHADOW.STATE, 0)] evSynShadow)) ∧
    (s.acts .shadowCancel x0 → x0.shadowEarly = false → completes .shadowCancel s (fun e => e = x0)) ∧
    (s.acts .shadowAbandon x0 → x0.shadowEarly = false → completes .shadowAbandon s (fun e => e = x0)) ∧
    (s.acts .shadowAbandon x0 → x0.shadowEarly = true → o = x0.get SYN_SHADOW.SRC → completes .shadowAbandon s (fun e =>
      e.get SYN_SHADOW.STATE = 5 ∧ e.get SYN_F_STATUS.LAST_ERR o = stShadowAbandoned ∧
      e.clk = max x0.clk (2 * (x0.shadowGo + msTicks 10000)) ∧ x0.logged e 2 0x0A o stShadowAbandoned ∧
      x0.told e evSynShadow ∧
      x0.keeps e [(SYN_SHADOW.STATE, 0), (SYN_F_STATUS.LAST_ERR, o), (TRL_CH.SEEN, 0), (MGT_LOG_CNT.DROPPED, 0)] ∧
      { e.sansTime with flights := [], log := {} } = { x0.sansTime with flights := [], log := {} })) ∧
    (s.acts .shadowSwap x0 → o = x0.get SYN_SHADOW.SRC → k = x0.get SYN_SHADOW.DST → x0.get SYN_SHADOW.STATE = 2 → x0.locked k = true →
      x0.anyGate (x0.synUsers o) = false → k < 4 → x0.noLaunchNow → completes .shadowSwap s (fun e =>
        e.get SYN_SHADOW.STATE = 3 ∧ e.locked o = false ∧
        e.calOf (9 + o) = some { op := 1, sub := 1, since := x0.tick } ∧
        (∀ c : Nat, c ∈ x0.synUsers o → e.synOf c = k) ∧
        (∀ c : Nat, c < 9 → c ∉ x0.synUsers o → c ∉ (x0.synUsers o).map x0.cfg →
          e.get UHF_CTRL.SYN_SEL c = x0.get UHF_CTRL.SYN_SEL c) ∧
        x0.keepsBut e [UHF_CTRL.SYN_SEL] [(SYN_SHADOW.STATE, 0), (SYN_F_STATUS.LOCK, o), (CAL_STATUS.OP, 0),
          (CAL_STATUS.UNIT, 0), (PWR_DOM1.SYN, 0)] ∧
        { e.sans with cal := [] } = { x0.sans with cal := [] })) ∧
    (s.acts .shadowSwap x0 → x0.get SYN_SHADOW.STATE ≠ 2 ∨ x0.locked (x0.get SYN_SHADOW.DST) = false ∨
        (x0.unlaunchs (x0.synUsers (x0.get SYN_SHADOW.SRC))).anyGate (x0.synUsers (x0.get SYN_SHADOW.SRC)) = true →
      completes .shadowSwap s (fun e => e = x0))

/-- Reply data reads and captures (R85, R88, R90): a read of a DATA register increments IDX up to 143; ARM is refused while another
unit holds the buffer, ignored on UHFS while US is attached, and with TRIG 00 triggers at once (at index 0: assumption
63); ABORT stops; a trigger at what TRIG names notes its index and tick and whether the samples before it are short; at the end,
8192 × (8 − PRE) samples after the trigger, the latest 65536 samples stand in the buffer, each at its number modulo that, the last
ones as the command brings them. -/
def Obligations.RepliesAndCapturesComplete : Prop :=
  ∀ (s : State) (p : RxPort) (c : ChainNo) (idx : BitVec 16) (written : Nat) (samples : List Word) (t n o : Nat) (d : Dev),
    (completes (.replyDataRead p) s (fun e =>
      e.get (rpyIdxFld p) (rpyUnit p) = min 143 (s.dev.get (rpyIdxFld p) (rpyUnit p) + 1) ∧
      s.dev.writes e [(rpyIdxFld p, rpyUnit p)])) ∧
    (s.acts (.capArm c) d → d.rxShut c = true → completes (.capArm c) s (fun e => e = d)) ∧
    (s.acts (.capArm c) d → d.rxShut c = false → d.capOwner = none → d.get UHF_CAP_CTRL.TRIG c ≠ 0 → completes (.capArm c) s (fun e =>
      e.get UHF_CAP_STATUS.STATE c = 1 ∧ e.get UHF_CAP_STATUS.PRE_SHORT c = 0 ∧
      e.chx c = { d.chx c with capDone := 0, capAt := d.tick, capTrig := 0 } ∧ d.chsBut e c ∧
      d.alters e [(UHF_CAP_STATUS.STATE, c), (UHF_CAP_STATUS.PRE_SHORT, c)] (fun y => { y with ch := [] }))) ∧
    (s.acts (.capArm c) d → d.rxShut c = false → d.capOwner = none → d.get UHF_CAP_CTRL.TRIG c = 0 → completes (.capArm c) s (fun e =>
      e.get UHF_CAP_STATUS.STATE c = 2 ∧ e.get UHF_CAP_STATUS.TRIG_IDX c = 0 ∧
      e.get UHF_CAP_TAT_LO.TAT_LO c = d.tick % 2 ^ 32 ∧ e.get UHF_CAP_TAT_HI.TAT_HI c = d.tick / 2 ^ 32 % 2 ^ 32 ∧
      e.get UHF_CAP_STATUS.PRE_SHORT c = (if d.get UHF_CAP_CTRL.PRE c = 0 then 0 else 1) ∧
      e.chx c = { d.chx c with capDone := 0, capAt := d.tick, capTrig := 0 } ∧ d.chsBut e c ∧
      d.alters e [(UHF_CAP_STATUS.STATE, c), (UHF_CAP_STATUS.PRE_SHORT, c), (UHF_CAP_STATUS.TRIG_IDX, c),
        (UHF_CAP_TAT_LO.TAT_LO, c), (UHF_CAP_TAT_HI.TAT_HI, c)] (fun y => { y with ch := [] }))) ∧
    (s.acts (.capArm c) d → d.rxShut c = false → d.capOwner = some o → o ≠ c → completes (.capArm c) s (fun e =>
      e.get UHF_STATUS.LAST_ERR c = stCapBusy ∧ d.writes e [(UHF_STATUS.LAST_ERR, c)])) ∧
    (s.acts (.capArm c) d → d.capOwner = some c.val → completes (.capArm c) s (fun e => e = d)) ∧
    (s.acts (.capAbort c) d → d.capOwner = some c.val → completes (.capAbort c) s (fun e =>
      e.get UHF_CAP_STATUS.STATE c = 4 ∧ (e.chx c).capDone = d.capCount c d.tick ∧ d.chsBut e c ∧
      d.memBut e 0x300000 0x40000 ∧
      d.alters e [(UHF_CAP_STATUS.STATE, c)] (fun y => { y with mem := [], ch := [] }))) ∧
    (s.acts (.capAbort c) d → d.capOwner ≠ some c.val → completes (.capAbort c) s (fun e => e = d)) ∧
    (s.acts (.capTrigger c idx written) d → d.get UHF_CAP_STATUS.STATE c = 1 →
      (d.get UHF_CAP_CTRL.TRIG c = 1 ∧ (d.chx c).win.map (fun w => w.openAt) = some t) ∨
        (d.get UHF_CAP_CTRL.TRIG c = 2 ∧ ((d.chx c).win.bind (fun w => w.pre)).map (fun y => y.tick) = some t) ∨
        (d.get UHF_CAP_CTRL.TRIG c = 3 ∧ d.get UHF_RX_STATUS.LAST_CLASS c = d.get UHF_CAP_CTRL.CMATCH c ∧
          t = (d.chx c).slotTick) →
      (d.chx c).capAt ≤ t → 0 < t → n = d.capCount c t → completes (.capTrigger c idx written) s (fun e =>
      e.clk = max d.clk (2 * t) ∧ e.get UHF_CAP_STATUS.STATE c = 2 ∧ e.get UHF_CAP_STATUS.TRIG_IDX c = n % 65536 ∧
      e.get UHF_CAP_TAT_LO.TAT_LO c = t % 2 ^ 32 ∧ e.get UHF_CAP_TAT_HI.TAT_HI c = t / 2 ^ 32 % 2 ^ 32 ∧
      e.get UHF_CAP_STATUS.PRE_SHORT c = (if n < 8192 * d.get UHF_CAP_CTRL.PRE c then 1 else 0) ∧
      e.chx c = { d.chx c with capTrig := n } ∧ d.chsBut e c ∧
      d.keeps e [(UHF_CAP_STATUS.STATE, c), (UHF_CAP_STATUS.PRE_SHORT, c), (UHF_CAP_STATUS.TRIG_IDX, c),
        (UHF_CAP_TAT_LO.TAT_LO, c), (UHF_CAP_TAT_HI.TAT_HI, c)] ∧
      { e.sansTime with ch := [] } = { d.sansTime with ch := [] })) ∧
    (s.acts (.capTrigger c idx written) d → d.get UHF_CAP_STATUS.STATE c ≠ 1 ∨ d.capWhen c = none ∨
        (d.capWhen c = some t ∧ (t < (d.chx c).capAt ∨ t = 0)) → completes (.capTrigger c idx written) s (fun e => e = d)) ∧
    (s.acts (.capDone c samples) d → d.get UHF_CAP_STATUS.STATE c = 2 → n = (d.chx c).capTrig + 8192 * (8 - d.get UHF_CAP_CTRL.PRE c) →
      o = (d.chx c).capDone → completes (.capDone c samples) s (fun e =>
        e.get UHF_CAP_STATUS.STATE c = 3 ∧ e.clk = max d.clk (2 * ((d.chx c).capAt + (n - o) * d.capTicks c)) ∧
        (∀ k : Nat, o ≤ k → k < n → n ≤ k + 65536 → e.word (0x300000 + 4 * (k % 65536)) =
          (if n ≤ k + samples.length then samples.getD (samples.length + k - n) 0
            else Config.capSample c (d.capRate c) ((d.chx c).capAt + (k + 1 - o) * d.capTicks c)).toNat) ∧
        (e.chx c).capDone = n ∧ d.chsBut e c ∧ d.memBut e 0x300000 0x40000 ∧
        d.keeps e [(UHF_CAP_STATUS.STATE, c)] ∧
        { e.sansTime with mem := [], ch := [] } = { d.sansTime with mem := [], ch := [] })) ∧
    (s.acts (.capDone c samples) d → d.get UHF_CAP_STATUS.STATE c ≠ 2 → completes (.capDone c samples) s (fun e => e = d))

/-- Canopies, bearing and phase reference (R210, R215 to R222, R224 to R226). A group's registers are refused with BRG_CFG while a
Vat is bound to it or the new values break its rules; a match starts at the earlier of 64 ticks after the first validation
and 4 after the last, and abandons one that is not ready; where none can be made NOBEAR counts, and the earlier one goes on; its result is loaded, its
record written, and the sighting of its window takes the bearing. A phase-reference measurement is armed, aborted, ended
with its means, or ended after 1 s without a window. -/
def Obligations.CanopiesComplete : Prop :=
  ∀ (s : State) (k : Fin 4) (value : Word) (x t t0 : Nat) (ts : List Nat) (m : Match)
    (bear : Option (Nat × Nat × Nat)) (d : Dev),
    (s.acts (.brgCfgWrite k value) d → x = value.toNat → d.binder (0x0C + k) = none →
      bitOf x 31 = false ∨ d.canEnable k (bitsOf x 7 0) (bitsOf x 26 24) = true → completes (.brgCfgWrite k value) s (fun e =>
        e.get BRG_CAN_CFG.EN k = bitsOf x 31 31 ∧ e.get BRG_CAN_CFG.TXCOMP k = bitsOf x 30 30 ∧
        e.get BRG_CAN_CFG.REF k = bitsOf x 26 24 ∧ e.get BRG_CAN_CFG.MEMBERS k = bitsOf x 7 0 ∧
        d.writes e [(BRG_CAN_CFG.EN, k), (BRG_CAN_CFG.TXCOMP, k), (BRG_CAN_CFG.REF, k), (BRG_CAN_CFG.MEMBERS, k)])) ∧
    (s.acts (.brgCfgWrite k value) d → x = value.toNat → (d.binder (0x0C + k)).isSome = true ∨
        bitOf x 31 = true ∧ d.canEnable k (bitsOf x 7 0) (bitsOf x 26 24) = false →
      completes (.brgCfgWrite k value) s (fun e =>
        e.get BRG_STATUS.LAST_ERR = stBrgCfg ∧ d.writes e [(BRG_STATUS.LAST_ERR, 0)])) ∧
    (s.acts (.brgRaddrWrite k value) d → x = value.toNat → d.binder (0x0C + k) = none →
      d.grpEn k = false ∨ bitOf x 31 = false ∨ 0x10000 ≤ bitsOf x 27 0 ∧ bitsOf x 27 0 ≤ 0x17FFF →
      completes (.brgRaddrWrite k value) s (fun e =>
        e.get BRG_CAN_RADDR.WR k = bitsOf x 31 31 ∧ e.get BRG_CAN_RADDR.ADDR k = bitsOf x 27 0 ∧
        d.writes e [(BRG_CAN_RADDR.WR, k), (BRG_CAN_RADDR.ADDR, k)])) ∧
    (s.acts (.brgRaddrWrite k value) d → x = value.toNat → (d.binder (0x0C + k)).isSome = true ∨ d.grpEn k = true ∧ bitOf x 31 = true ∧
        (bitsOf x 27 0 < 0x10000 ∨ 0x17FFF < bitsOf x 27 0) → completes (.brgRaddrWrite k value) s (fun e =>
      e.get BRG_STATUS.LAST_ERR = stBrgCfg ∧ d.writes e [(BRG_STATUS.LAST_ERR, 0)])) ∧
    (s.acts (.matchStart k) d → (d.grpx k).valid.map (fun y => y.2.1) = t0 :: ts → (d.grpx k).started = false →
      (d.grpx k).run = none ∨ (d.grpx k).run = some m ∧ t < max m.ready m.dec →
      t = min (ts.foldl min t0 + 64) (ts.foldl max t0 + 4) → completes (.matchStart k) s (fun e =>
        e.clk = max d.clk (2 * t) ∧ e.grpx k = { d.grpx k with started := true, run := (d.makeMatch k t).or (d.grpx k).run } ∧
        (∀ j : Nat, j < 4 → j ≠ k → e.grpx j = d.grpx j) ∧
        e.get BRG_CAN_CNT0.NOBEAR k = (if d.makeMatch k t = none then min (d.get BRG_CAN_CNT0.NOBEAR k + 1) 0xFFFF
          else d.get BRG_CAN_CNT0.NOBEAR k) ∧
        e.get BRG_CAN_CNT1.ABANDONED k = (if (d.grpx k).run = none ∨ d.makeMatch k t = none then d.get BRG_CAN_CNT1.ABANDONED k
          else min (d.get BRG_CAN_CNT1.ABANDONED k + 1) 0xFFFF) ∧
        d.keeps e [(BRG_CAN_CNT0.NOBEAR, k), (BRG_CAN_CNT1.ABANDONED, k)] ∧
        { e.sansTime with grp := [] } = { d.sansTime with grp := [] })) ∧
    (s.acts (.matchStart k) d → (d.grpx k).valid = [] ∨ (d.grpx k).started = true → completes (.matchStart k) s (fun e => e = d)) ∧
    (s.acts (.matchReady k) d → (d.grpx k).run = some m → (d.grpx k).opened = false ∨ m.window ≠ (d.grpx k).window →
      bear = (if m.score = 0 then none else some (m.bin, m.runner, m.score)) → completes (.matchReady k) s (fun e =>
        e.clk = max d.clk (2 * max m.ready m.dec) ∧
        e.get BRG_CAN_RES0.SEQ k = m.seq % 2 ^ 16 ∧ e.get BRG_CAN_RES0.USED k = m.used % 2 ^ 8 ∧
        e.get BRG_CAN_RES1.BIN k = m.bin % 2 ^ 16 ∧ e.get BRG_CAN_RES1.RUNNER k = m.runner % 2 ^ 16 ∧
        e.get BRG_CAN_RES2.SCORE k = m.score % 2 ^ 8 ∧ e.get BRG_CAN_RES2.RSCORE k = m.rscore % 2 ^ 8 ∧
        (d.isSet BRG_CAN_RADDR.WR k = true → e.words (d.get BRG_CAN_RADDR.ADDR k * 16) 4 =
          [m.seq * 65536 + m.used * 256 + m.pivot * 16, m.bin * 65536 + m.runner,
            m.steer * 65536 + m.score * 256 + m.rscore, 0].map (fun w => w % 2 ^ 32)) ∧
        d.memBut e (d.get BRG_CAN_RADDR.ADDR k * 16) (if d.isSet BRG_CAN_RADDR.WR k then 16 else 0) ∧
        (if m.score = 0 then e.get BRG_CAN_CNT0.NOBEAR k = min (d.get BRG_CAN_CNT0.NOBEAR k + 1) 0xFFFF
          else e.get BRG_CAN_CNT0.MATCHES k = min (d.get BRG_CAN_CNT0.MATCHES k + 1) 0xFFFF) ∧
        e.grpx k = { d.grpx k with run := none, loaded := m.window } ∧
        (∀ v : Nat, v < 16 → { e.vatx v with sight := none } = { d.vatx v with sight := none } ∧
          (e.vatx v).sight = (d.vatx v).sight.map (fun g =>
            if d.binder (0x0C + k) = some v ∧ g.group = some k.val ∧ g.window = m.window then
              { g with ready := true, bear := bear } else g)) ∧
        d.keeps e ([BRG_CAN_RES0.SEQ, BRG_CAN_RES0.USED, BRG_CAN_RES0.PIVOT, BRG_CAN_RES1.BIN, BRG_CAN_RES1.RUNNER,
          BRG_CAN_RES2.STEER, BRG_CAN_RES2.SCORE, BRG_CAN_RES2.RSCORE, BRG_CAN_CNT0.NOBEAR, BRG_CAN_CNT0.MATCHES].map
            (fun f => (f, k.val))) ∧
        { e.sansVats with grp := [], mem := [] } = { d.sansVats with grp := [], mem := [] })) ∧
    (s.acts (.matchReady k) d → (d.grpx k).run = none → completes (.matchReady k) s (fun e => e = d)) ∧
    (s.acts (.pcalArm value) d → d.pcalRuns = true → x = value.toNat → completes (.pcalArm value) s (fun e =>
      e.get BRG_PCAL.MODE = bitsOf x 29 28 ∧ e.get BRG_PCAL.GROUP = bitsOf x 27 26 ∧ e.get BRG_PCAL.TXMEM = bitsOf x 25 23 ∧
      e.get BRG_PCAL.WRITE = bitsOf x 22 22 ∧ e.get BRG_PCAL.N = bitsOf x 19 12 ∧ e.get BRG_PCAL.RBIN = bitsOf x 11 0 ∧
      d.writes e [(BRG_PCAL.MODE, 0), (BRG_PCAL.GROUP, 0), (BRG_PCAL.TXMEM, 0), (BRG_PCAL.WRITE, 0), (BRG_PCAL.N, 0),
        (BRG_PCAL.RBIN, 0)])) ∧
    (s.acts (.pcalArm value) d → d.pcalRuns = false → x = value.toNat → completes (.pcalArm value) s (fun e =>
      e.get BRG_PCAL.MODE = bitsOf x 29 28 ∧ e.get BRG_PCAL.GROUP = bitsOf x 27 26 ∧ e.get BRG_PCAL.TXMEM = bitsOf x 25 23 ∧
      e.get BRG_PCAL.WRITE = bitsOf x 22 22 ∧ e.get BRG_PCAL.N = bitsOf x 19 12 ∧ e.get BRG_PCAL.RBIN = bitsOf x 11 0 ∧
      e.get BRG_PCAL_ST.STATE = 1 ∧ e.get BRG_PCAL_ST.COUNT = 0 ∧ e.pcal = { since := d.tick } ∧
      (∀ n : Nat, n < 8 → e.get BRG_PCAL_R.VALID 0 n = 0) ∧
      d.alters e [(BRG_PCAL.MODE, 0), (BRG_PCAL.GROUP, 0), (BRG_PCAL.TXMEM, 0), (BRG_PCAL.WRITE, 0), (BRG_PCAL.N, 0),
        (BRG_PCAL.RBIN, 0), (BRG_PCAL_ST.STATE, 0), (BRG_PCAL_ST.COUNT, 0), (BRG_PCAL_R.VALID, 0)]
          (fun y => { y with pcal := {} }))) ∧
    (s.acts .pcalAbort d → d.pcalRuns = true → completes .pcalAbort s (fun e =>
      e.get BRG_PCAL_ST.STATE = 4 ∧ e.get BRG_PCAL_ST.RESULT = 0xFFFF ∧
      d.writesTells e [(BRG_PCAL_ST.STATE, 0), (BRG_PCAL_ST.RESULT, 0)] evBrgPcal)) ∧
    (s.acts .pcalAbort d → d.pcalRuns = false → completes .pcalAbort s (fun e => e = d)) ∧
    (s.acts .pcalEnd d → d.pcalRuns = false → completes .pcalEnd s (fun e => e = d)) ∧
    (s.acts .pcalNoLoad d → d.get BRG_PCAL_ST.STATE = 1 → d.pcal.gathered = [] → completes .pcalNoLoad s (fun e =>
      e.get BRG_PCAL_ST.STATE = 4 ∧ e.get BRG_PCAL_ST.RESULT = stCalNoLoad ∧
      e.clk = max d.clk (2 * (d.pcal.since + msTicks 1000)) ∧ d.told e evBrgPcal ∧
      d.keeps e [(BRG_PCAL_ST.STATE, 0), (BRG_PCAL_ST.RESULT, 0), (TRL_CH.SEEN, 0)] ∧
      { e.sansTime with flights := [] } = { d.sansTime with flights := [] })) ∧
    (s.acts .pcalEnd d → d.pcalRuns = true → max 2 (d.get BRG_PCAL.N) ≤ d.pcal.gathered.length →
      d.pcalMembers.all (fun n => circStable (pcalOf d.pcal.gathered n)) = true →
      completes .pcalEnd s (fun e =>
        e.get BRG_PCAL_ST.STATE = 3 ∧ e.get BRG_PCAL_ST.RESULT = 0 ∧ d.told e evBrgPcal ∧
        (∀ n : Nat, n ∈ d.pcalMembers → e.get BRG_PCAL_R.VALID 0 n = 1 ∧
          e.get BRG_PCAL_R.MEAN 0 n = circMean (pcalOf d.pcal.gathered n) ∧
          e.get BRG_PCAL_R.SPREAD 0 n = circSpread (pcalOf d.pcal.gathered n) (circMean (pcalOf d.pcal.gathered n))) ∧
        d.keepsBut e [BRG_PODATA.RX_OFF, BRG_PODATA.VALID] [(BRG_PCAL_ST.STATE, 0), (BRG_PCAL_ST.RESULT, 0),
          (BRG_PCAL_R.VALID, 0), (BRG_PCAL_R.MEAN, 0), (BRG_PCAL_R.SPREAD, 0), (TRL_CH.SEEN, 0)] ∧
        (d.get BRG_PCAL.MODE = 1 ∨ d.isSet BRG_PCAL.WRITE = false →
          ∀ n : Nat, n < 2304 → e.get BRG_PODATA.RX_OFF 0 n = d.get BRG_PODATA.RX_OFF 0 n) ∧
        { e.sans with flights := [] } = { d.sans with flights := [] })) ∧
    (s.acts .pcalEnd d → d.pcalRuns = true → max 2 (d.get BRG_PCAL.N) ≤ d.pcal.gathered.length →
      d.pcalMembers.all (fun n => circStable (pcalOf d.pcal.gathered n)) = false →
      completes .pcalEnd s (fun e =>
        (if d.get BRG_PCAL_ST.STATE = 1 then
          e.get BRG_PCAL_ST.STATE = 2 ∧ e.get BRG_PCAL_ST.COUNT = 0 ∧ e.pcal = { since := d.tick }
        else e.get BRG_PCAL_ST.STATE = 4 ∧ e.get BRG_PCAL_ST.RESULT = stCalDisturbed ∧ d.told e evBrgPcal) ∧
        d.keeps e [(BRG_PCAL_ST.STATE, 0), (BRG_PCAL_ST.COUNT, 0), (BRG_PCAL_ST.RESULT, 0), (BRG_PCAL_R.VALID, 0),
          (BRG_PCAL_R.MEAN, 0), (BRG_PCAL_R.SPREAD, 0), (TRL_CH.SEEN, 0)] ∧
        { e.sans with flights := [], pcal := {} } = { d.sans with flights := [], pcal := {} }))

/-- Calibrations start and are aborted (R231 to R234, R237, R241, R251, R253). GO is refused where the table has no such calibration
or the unit is not available, and ignored during an entry; an accepted one runs on its unit, RECAL with LOCK cleared, LKC on
its port and channel slot, its carrier launched as the guard permits; ABORT ends it with CAL_ABORTED and no trim changed. A
trim write is refused while its unit calibrates. The Ranger starts RX_ALL on a chain that has moved by DT: at once, behind
the spare, or deferred. -/
def Obligations.CalibrationStartsComplete : Prop :=
  ∀ (s : State) (unit op port : BitVec 4) (ch : BitVec 3) (value : Word) (c : ChainNo) (temp : BitVec 12) (cmd : Instr)
    (r : CalRun) (n u k moved : Nat) (d : Dev) (x0 : Dev),
    (s.acts (.calGo unit op port ch) x0 → x0.entering = true → completes (.calGo unit op port ch) s (fun e => e = x0)) ∧
    (s.acts (.calGo unit op port ch) x0 → x0.entering = false → calListed op.toNat unit.toNat = false ∨ x0.calAvailable op.toNat unit.toNat = false →
      completes (.calGo unit op port ch) s (fun e =>
        e.get CAL_ERR.LAST_ERR = (if calListed op.toNat unit.toNat then stCalBusy else stCalRange) ∧
        x0.writes e [(CAL_ERR.LAST_ERR, 0)])) ∧
    (s.acts (.calGo unit op port ch) x0 → x0.entering = false → calListed op.toNat unit.toNat = true → x0.calAvailable op.toNat unit.toNat = true →
      op ≠ 6 → completes (.calGo unit op port ch) s (fun e =>
        e.calOf unit.toNat = some { op := op.toNat, sub := if op = 7 then 2 else op.toNat, since := x0.tick } ∧
        (∀ j : Nat, j < 15 → j ≠ unit.toNat → e.calOf j = x0.calOf j) ∧ e.get CAL_STATUS.OP = op.toNat ∧
        e.get CAL_STATUS.UNIT = unit.toNat ∧ (op = 1 → e.locked (unit.toNat - 9) = false) ∧
        x0.alters e ([(CAL_STATUS.OP, 0), (CAL_STATUS.UNIT, 0)] ++
          (if op = 1 then [(SYN_F_STATUS.LOCK, unit.toNat - 9)] else [])) (fun y => { y with cal := [], calGone := none }))) ∧
    (s.acts (.calGo unit 6 port ch) x0 → x0.entering = false → n = unit.toNat → calListed 6 n = true → x0.calAvailable 6 n = true → u = x0.cfg n →
      x0.cst n = csReady → (x0.chx n).goal = none → completes (.calGo unit 6 port ch) s (fun e =>
        e.calOf n = some { op := 6, sub := 6, since := x0.tick } ∧
        (e.chx n).calBack = some (x0.get UHF_ANT.PORT u, x0.get UHF_CTRL.CHSLOT u, csReady) ∧
        e.get UHF_ANT.PORT u = port.toNat ∧ e.get UHF_CTRL.CHSLOT u = ch.toNat ∧ (e.chx n).goal = some csRx ∧
        (e.chx n).due = x0.tick + x0.rxTime u ∧
        x0.alters e [(CAL_STATUS.OP, 0), (CAL_STATUS.UNIT, 0), (UHF_ANT.PORT, u), (UHF_CTRL.CHSLOT, u)]
          (fun y => { y with cal := [], ch := [], calGone := none }))) ∧
    (s.acts (.calGo unit 6 port ch) x0 → x0.entering = false → n = unit.toNat → calListed 6 n = true → x0.calAvailable 6 n = true → u = x0.cfg n →
      x0.inRx n = true → x0.get UHF_ANT.PORT u = port.toNat → x0.settledAt u x0.tick = true →
      x0.locked (x0.synOf n) = true → x0.launchCheck n x0.tick false = 0 →
      completes (.calGo unit 6 port ch) s (fun e =>
        e.calOf n = some { op := 6, sub := 6, since := x0.tick, stage := 1 } ∧ e.cst n = csUp ∧ (e.chx n).goal = some csCarrier ∧
        (e.chx n).due = x0.tick + x0.get UHF_RAMP.RAMP_UP u ∧ (e.chx n).byCal = true ∧
        e.get UHF_CTRL.CHSLOT u = ch.toNat ∧
        x0.keepsBut e [UHF_STATUS.STATE, UHF_LKC_TRIM.TRIM_I, UHF_LKC_TRIM.TRIM_Q, UHF_LKC_RESID.RESID, UHF_PWR.DRIVE] [(CAL_STATUS.OP, 0), (CAL_STATUS.UNIT, 0), (UHF_CTRL.CHSLOT, u)] ∧
        { e.sans with cal := [], ch := [], fe := [], calGone := none, launched := [] } =
          { x0.sans with cal := [], ch := [], fe := [], calGone := none, launched := [] })) ∧
    (s.acts (.calAbort unit) x0 → x0.calOf unit.toNat = none → completes (.calAbort unit) s (fun e => e = x0)) ∧
    (s.acts (.calAbort unit) x0 → x0.calOf unit.toNat = some r → r.op ≠ 6 → x0.spare.auto = none → (x0.chx unit.toNat).calBack = none →
      completes (.calAbort unit) s (fun e =>
        e.calOf unit.toNat = none ∧ e.get CAL_STATUS.RESULT = stCalAborted ∧
        (9 ≤ unit.toNat → unit.toNat ≤ 12 → e.locked (unit.toNat - 9) = true ∧ e.get SYN_F_STATUS.CAL_OK (unit.toNat - 9) = 0) ∧
        x0.told e evCalDone ∧ x0.logged e 2 0x1A unit.toNat stCalAborted ∧
        x0.keepsBut e [CAL_STATUS.RESULT, CAL_STATUS.RETRIED, CAL_QUAL.QUAL, CAL_QUAL.VR1, CAL_QUAL.VR2]
          ([(TRL_CH.SEEN, 0), (MGT_LOG_CNT.DROPPED, 0), (SYN_SHADOW.STATE, 0)] ++
          (if 9 ≤ unit.toNat then [(SYN_F_STATUS.LOCK, unit.toNat - 9), (SYN_F_STATUS.CAL_OK, unit.toNat - 9)] else [])) ∧
        e.calCut = some (x0.tick, unit.toNat, r) ∧ x0.chsBut e 8 ∧ (unit ≠ 8 → e.ch = x0.ch) ∧
        { e.sans with cal := [], flights := [], log := {}, ch := [], calCut := none } =
          { x0.sans with cal := [], flights := [], log := {}, ch := [], calCut := none })) ∧
    (s.acts (.calAbort unit) x0 → x0.calOf unit.toNat = some r → r.op = 6 → x0.spare.auto = none → unit.toNat ≤ 8 → x0.gate unit.toNat = false →
      (x0.chx unit.toNat).calBack = some (n, u, k) → completes (.calAbort unit) s (fun e =>
        e.calOf unit.toNat = none ∧ e.get CAL_STATUS.RESULT = stCalAborted ∧ (e.chx unit.toNat).calBack = none ∧
        e.get UHF_ANT.PORT (x0.cfg unit.toNat) = n % 16 ∧ e.get UHF_CTRL.CHSLOT (x0.cfg unit.toNat) = u % 8 ∧
        x0.told e evCalDone ∧ x0.logged e 2 0x1A unit.toNat stCalAborted ∧
        x0.keepsBut e [CAL_STATUS.RESULT, CAL_STATUS.RETRIED, CAL_QUAL.QUAL, CAL_QUAL.VR1, CAL_QUAL.VR2]
          [(UHF_ANT.PORT, x0.cfg unit.toNat), (UHF_CTRL.CHSLOT, x0.cfg unit.toNat), (TRL_CH.SEEN, 0),
            (MGT_LOG_CNT.DROPPED, 0)] ∧
        { e.sans with cal := [], ch := [], flights := [], log := {}, calCut := none } =
          { x0.sans with cal := [], ch := [], flights := [], log := {}, calCut := none })) ∧
    (s.acts (.calAbort unit) x0 → x0.calOf unit.toNat = some r → r.op = 6 → x0.spare.auto = none → unit.toNat ≤ 8 →
      x0.carrierOn unit.toNat = true → completes (.calAbort unit) s (fun e =>
        e.calOf unit.toNat = none ∧ e.get CAL_STATUS.RESULT = stCalAborted ∧ e.cst unit.toNat = csDown ∧
        (e.chx unit.toNat).due = x0.tick + x0.get UHF_RAMP.RAMP_DN (x0.cfg unit.toNat) ∧ x0.told e evCalDone ∧
        ((x0.chx unit.toNat).byCal = true → ∀ f : Fld, f ∈ cacheFlds → ∀ i j : Nat, e.get f i j = x0.get f i j) ∧
        x0.keepsBut e (carrierEndFlds ++ [CAL_STATUS.RESULT, CAL_STATUS.RETRIED, CAL_QUAL.QUAL, CAL_QUAL.VR1, CAL_QUAL.VR2,
          UHF_TXW.AMP, UHF_TXW.PHASE]) [(UHF_STATUS.STATE, unit.toNat), (TRL_CH.SEEN, 0), (MGT_LOG_CNT.DROPPED, 0)] ∧
        { e.sans with cal := [], ch := [], flights := [], log := {}, calCut := none } =
          { x0.sans with cal := [], ch := [], flights := [], log := {}, calCut := none })) ∧
    (s.acts (.calTdataWrite value) x0 → n = x0.get CAL_TIDX.UNIT → x0.calOf n ≠ none → completes (.calTdataWrite value) s (fun e =>
      e.get CAL_ERR.LAST_ERR = stCalBusy ∧ x0.writes e [(CAL_ERR.LAST_ERR, 0)])) ∧
    (s.acts (.calTdataWrite value) x0 → n = x0.get CAL_TIDX.UNIT → k = trimIdx n (x0.get CAL_TIDX.KIND) (x0.get CAL_TIDX.SUB) → x0.calOf n = none →
      trimListed n (x0.get CAL_TIDX.KIND) (x0.get CAL_TIDX.SUB) = true → completes (.calTdataWrite value) s (fun e =>
        e.get CAL_TDATA.VALUE 0 k = trimValue (x0.get CAL_TIDX.KIND) (bitsOf value.toNat 11 0) ∧ e.get CAL_TDATA.VALID 0 k = bitsOf value.toNat 31 31 ∧
        x0.indexBut e CAL_TDATA.VALUE 0 k ∧ x0.indexBut e CAL_TDATA.VALID 0 k ∧
        x0.writes e [(CAL_TDATA.VALUE, 0), (CAL_TDATA.VALID, 0)])) ∧
    (s.acts (.calTdataWrite value) x0 → n = x0.get CAL_TIDX.UNIT → x0.calOf n = none →
      trimListed n (x0.get CAL_TIDX.KIND) (x0.get CAL_TIDX.SUB) = false → completes (.calTdataWrite value) s (fun e => e = x0)) ∧
    (s.acts cmd d → cmd = .calAuto c temp ∧ d = d ∨ cmd = .calAutoRetry c temp ∧ d = (d.toTick k).undefer c ∧
        d.spare.deferred.find? (fun x => x.1 == c.val) = some (c.val, k) →
      moved = (temp.toInt - signedOf 12 (d.get CAL_TDATA.VALUE 0 (trimIdx c kindTcal 0))).natAbs →
      d.isSet CAL_CTRL.AUTO = false ∨ moved < d.get CAL_CTRL.DT → completes cmd s (fun e => e = d)) ∧
    (s.acts cmd d → cmd = .calAuto c temp ∧ d = d ∨ cmd = .calAutoRetry c temp ∧ d = (d.toTick k).undefer c ∧
        d.spare.deferred.find? (fun x => x.1 == c.val) = some (c.val, k) →
      moved = (temp.toInt - signedOf 12 (d.get CAL_TDATA.VALUE 0 (trimIdx c kindTcal 0))).natAbs →
      d.isSet CAL_CTRL.AUTO = true → d.get CAL_CTRL.DT ≤ moved → d.calAvailable 7 c = true → completes cmd s (fun e =>
        e.calOf c = some { op := 7, sub := 2, since := d.tick } ∧ (∀ j : Nat, j < 15 → j ≠ c → e.calOf j = d.calOf j) ∧
        e.get CAL_STATUS.OP = 7 ∧ e.get CAL_STATUS.UNIT = c ∧ d.logged e 2 0x1A c (Config.codeIn 0x03 0) ∧
        e.spare = (d.undefer c).spare ∧
        d.alters e [(CAL_STATUS.OP, 0), (CAL_STATUS.UNIT, 0), (MGT_LOG_CNT.DROPPED, 0)]
          (fun y => { y with cal := [], spare := {}, log := {} }))) ∧
    (s.acts cmd d → cmd = .calAuto c temp ∧ d = d ∨ cmd = .calAutoRetry c temp ∧ d = (d.toTick k).undefer c ∧
        d.spare.deferred.find? (fun x => x.1 == c.val) = some (c.val, k) →
      moved = (temp.toInt - signedOf 12 (d.get CAL_TDATA.VALUE 0 (trimIdx c kindTcal 0))).natAbs →
      d.isSet CAL_CTRL.AUTO = true → d.get CAL_CTRL.DT ≤ moved → d.calAvailable 7 c = false →
      c = 8 ∨ d.isSet CAL_CTRL.VIA_SPARE = false ∨ bitOf (d.get UHFS_SPARE.ELIGIBLE) c = false ∨ d.usTaken = true ∨
        d.binder 8 ≠ none ∨ d.spare.waitTake ≠ none ∨ d.spare.waitRel ≠ none ∨ d.cst c = csTrip ∨ d.cst c = csOff ∨
        d.calOf 8 ≠ none → completes cmd s (fun e =>
        d.logged e 2 0x1A c (Config.codeIn 0x03 1) ∧
        e.spare = { d.spare with deferred := (c.val, d.tick + msTicks 10000) :: (d.undefer c).spare.deferred } ∧
        d.alters e [(MGT_LOG_CNT.DROPPED, 0)] (fun y => { y with spare := {}, log := {} }))) ∧
    (s.acts cmd d → cmd = .calAuto c temp ∧ d = d ∨ cmd = .calAutoRetry c temp ∧ d = (d.toTick k).undefer c ∧
        d.spare.deferred.find? (fun x => x.1 == c.val) = some (c.val, k) →
      moved = (temp.toInt - signedOf 12 (d.get CAL_TDATA.VALUE 0 (trimIdx c kindTcal 0))).natAbs →
      d.isSet CAL_CTRL.AUTO = true → d.get CAL_CTRL.DT ≤ moved → d.calAvailable 7 c = false →
      c ≠ 8 → d.isSet CAL_CTRL.VIA_SPARE = true → bitOf (d.get UHFS_SPARE.ELIGIBLE) c = true → d.usTaken = false →
      d.binder 8 = none → d.spare.waitTake = none → d.spare.waitRel = none → d.cst c ≠ csTrip →
      d.cst c ≠ csOff → d.calOf 8 = none → completes cmd s (fun e =>
        e.spare = { (d.undefer c).spare with waitTake := some (c.val, d.tick), auto := some c.val } ∧ e.get UHFS_SPST.PHASE = 1 ∧
        d.logged e 2 0x1A c (Config.codeIn 0x03 0) ∧ d.chsBut e 8 ∧
        d.alters e [(UHFS_SPST.PHASE, 0), (MGT_LOG_CNT.DROPPED, 0)] (fun y => { y with ch := [], spare := {}, log := {} }))) ∧
    (s.acts (.calAutoRetry c temp) x0 → x0.spare.deferred.find? (fun x => x.1 == c.val) = none → completes (.calAutoRetry c temp) s (fun e => e = x0))

/-- A calibration attempt ends (R233, R235 to R237, R243). A disturbed window is repeated once; RX_ALL goes on to its next step; an
operation that passed writes its trims with VALID and the sensor's reading, and one that did not changes none; the result,
the event and the log; at the end of LKC's search its carrier ramps down, and the cache stands until that has ended well. LKC without
a carrier ends only where its synthesiser has not locked within 100 µs. An end in the tick of an ABORT stands for it (R251). -/
def Obligations.CalibrationEndsComplete : Prop :=
  ∀ (s : State) (unit : Fin 15) (o : CalObs) (r : CalRun) (x : Nat) (ts : List TrimVal)
    (d : Dev) (x0 : Dev),
    (s.acts (.calDone unit o) x0 → (x0.calUncut unit).calOf unit = none → completes (.calDone unit o) s (fun e => e = x0)) ∧
    (s.acts (.calDone unit o) x0 → x0.calOf unit = none → (((x0.calUncut unit).calAttempt unit r o).calOf unit).isSome = true →
      (x0.calUncut unit).calOf unit = some r → completes (.calDone unit o) s (fun e => e = x0)) ∧
    (s.acts (.calDone unit o) x0 → x0.calOf unit = some r → x0.attempt o = stCalDisturbed → r.attempt = 1 → r.op ≠ 6 ∨ r.stage = 1 → completes (.calDone unit o) s (fun e =>
      e.calOf unit = some { r with attempt := 2, retried := true, vr1 := o.vr, vr2 := 0 } ∧
      (∀ j : Nat, j < 15 → j ≠ unit → e.calOf j = x0.calOf j) ∧ x0.alters e [] (fun y => { y with cal := [] }))) ∧
    (s.acts (.calDone unit o) x0 → x0.calOf unit = some r → r.op = 7 → r.sub < 5 → x0.attempt o ≠ stCalDisturbed ∨ r.attempt ≠ 1 →
      completes (.calDone unit o) s (fun e =>
        (e.calOf unit).map (fun y => (y.op, y.sub, y.attempt, y.first, y.acc)) = some (7, r.sub + 1, 1,
          if r.first = 0 then x0.attempt o else r.first,
          if x0.attempt o = 0 then r.acc ++ foundTrims r.sub x0.fresh o else r.acc) ∧
        (∀ j : Nat, j < 15 → j ≠ unit → e.calOf j = x0.calOf j) ∧
        x0.alters e [] (fun y => { y with cal := [] }))) ∧
    (s.acts (.calDone unit o) x0 → d = x0.calUncut unit → d.calOf unit = some r → r.op ≠ 6 → r.op ≠ 7 → calListed r.op unit = true → d.attempt o = 0 →
      d.spare.auto = none → (d.chx unit).calBack = none → completes (.calDone unit o) s (fun e =>
        e.calOf unit = none ∧ e.get CAL_STATUS.RESULT = 0 ∧ e.get CAL_QUAL.QUAL = o.qual.toNat ∧
        (∀ ks : Nat × Nat, ks ∈ opTrims r.op → e.trimValid unit ks.1 ks.2 = true ∧
          (o.trims.find? (fun t => t.kind.toNat == ks.1 && t.sub.toNat == ks.2)).all (fun t =>
            decide (e.get CAL_TDATA.VALUE 0 (trimIdx unit ks.1 ks.2) = trimValue ks.1 t.value.toNat)) = true) ∧
        (unit.val ≤ 13 → e.get CAL_TDATA.VALUE 0 (trimIdx unit kindTcal 0) = o.temp.toNat) ∧
        (r.op = 8 → e.get AON_ATRATIO.RATIO = o.ratio.toNat ∧ e.get AON_ATCFG.SD = o.sd.toNat ∧ e.get AON_ATCFG.RVALID = 1) ∧
        (r.op = 1 → e.locked (unit.val - 9) = true ∧ e.get SYN_F_STATUS.CAL_OK (unit.val - 9) = 1) ∧
        (r.op = 9 → e.get HFR_CW_BASE.AMP = e.get CAL_TDATA.VALUE 0 (trimIdx 13 0x21 0) ∧
          e.get HFR_CW_BASE.PH = e.get CAL_TDATA.VALUE 0 (trimIdx 13 0x20 0)) ∧
        e.spare = { d.spare with dcTick := if r.op = 2 ∧ unit = 8 then some d.tick else d.spare.dcTick } ∧ d.told e evCalDone ∧
        d.chsBut e 8 ∧ (unit ≠ 8 → e.ch = d.ch) ∧
        d.keepsBut e [CAL_TDATA.VALUE, CAL_TDATA.VALID, CAL_TDATA.QUAL, CAL_STATUS.RESULT, CAL_STATUS.RETRIED, CAL_QUAL.QUAL,
            CAL_QUAL.VR1, CAL_QUAL.VR2]
          ([(TRL_CH.SEEN, 0)] ++
          (if r.op = 8 then [(AON_ATRATIO.RATIO, 0), (AON_ATCFG.SD, 0), (AON_ATCFG.RVALID, 0)] else []) ++
          (if r.op = 9 then [(HFR_CW_BASE.AMP, 0), (HFR_CW_BASE.PH, 0)] else []) ++
          (if r.op = 1 then [(SYN_F_STATUS.LOCK, unit.val - 9), (SYN_F_STATUS.CAL_OK, unit.val - 9), (SYN_F_CAL.TCAL, unit.val - 9),
            (SYN_SHADOW.STATE, 0)] else [])) ∧
        { e.sans with cal := [], flights := [], fresh := 0, spare := {}, ch := [] } =
          { d.sans with cal := [], flights := [], fresh := 0, spare := {}, ch := [] })) ∧
    (s.acts (.calDone unit o) x0 → d = x0.calUncut unit → d.calOf unit = some r → r.op ≠ 6 → r.op ≠ 7 ∨ r.sub = 5 → calListed r.op unit = true →
      x = (if r.op = 7 ∧ r.first ≠ 0 then r.first else d.attempt o) → x ≠ 0 →
      d.attempt o ≠ stCalDisturbed ∨ r.attempt ≠ 1 → d.spare.auto = none → (d.chx unit).calBack = none →
      completes (.calDone unit o) s (fun e =>
        e.calOf unit = none ∧ e.get CAL_STATUS.RESULT = x % 2 ^ 16 ∧ e.get CAL_STATUS.RETRIED = (if r.retried then 1 else 0) ∧
        d.told e evCalDone ∧ d.logged e 2 0x1A unit x ∧
        d.keepsBut e [CAL_STATUS.RESULT, CAL_STATUS.RETRIED, CAL_QUAL.QUAL, CAL_QUAL.VR1, CAL_QUAL.VR2]
          ([(TRL_CH.SEEN, 0), (MGT_LOG_CNT.DROPPED, 0)] ++
          (if r.op = 1 then [(SYN_F_STATUS.LOCK, unit.val - 9), (SYN_F_STATUS.CAL_OK, unit.val - 9), (SYN_SHADOW.STATE, 0)] else [])) ∧
        d.chsBut e 8 ∧ (unit ≠ 8 → e.ch = d.ch) ∧
        { e.sans with cal := [], flights := [], log := {}, ch := [] } = { d.sans with cal := [], flights := [], log := {}, ch := [] })) ∧
    (s.acts (.calDone unit o) x0 → d = x0.calUncut unit → d.calOf unit = some r → r.op = 7 → r.sub = 5 → r.first = 0 → d.attempt o = 0 → unit.val ≤ 8 →
      ts = r.acc ++ foundTrims 5 d.fresh o → d.spare.auto = none → (d.chx unit).calBack = none →
      completes (.calDone unit o) s (fun e =>
        e.calOf unit = none ∧ e.get CAL_STATUS.RESULT = 0 ∧ (∀ t : TrimVal, t ∈ ts → e.trimValid unit t.kind.toNat t.sub.toNat = true) ∧
        e.get CAL_TDATA.VALUE 0 (trimIdx unit kindTcal 0) = o.temp.toNat ∧ d.told e evCalDone ∧
        d.keepsBut e [CAL_TDATA.VALUE, CAL_TDATA.VALID, CAL_TDATA.QUAL, CAL_STATUS.RESULT, CAL_STATUS.RETRIED, CAL_QUAL.QUAL,
          CAL_QUAL.VR1, CAL_QUAL.VR2] [(TRL_CH.SEEN, 0)] ∧
        e.spare = { d.spare with dcTick := if unit = 8 then some d.tick else d.spare.dcTick } ∧
        d.chsBut e 8 ∧ (unit ≠ 8 → e.ch = d.ch) ∧
        { e.sans with cal := [], flights := [], fresh := 0, spare := {}, ch := [] } =
          { d.sans with cal := [], flights := [], fresh := 0, spare := {}, ch := [] })) ∧
    (s.acts (.calDone unit o) x0 → x0.calOf unit = some r → r.op = 6 → r.stage = 1 → unit.val ≤ 8 → x0.carrierOn unit = true →
      x0.attempt o ≠ stCalDisturbed ∨ r.attempt ≠ 1 → completes (.calDone unit o) s (fun e =>
        (e.calOf unit).map (fun y => (y.stage, y.res, y.qual, y.temp)) = some (2, x0.attempt o, o.qual.toNat, o.temp.toNat) ∧
        e.cst unit = csDown ∧ (e.chx unit).due = x0.tick + x0.get UHF_RAMP.RAMP_DN (x0.cfg unit) ∧
        ((x0.chx unit).byCal = true → ∀ f : Fld, f ∈ cacheFlds → ∀ i j : Nat, e.get f i j = x0.get f i j) ∧
        x0.keepsBut e (carrierEndFlds ++ [UHF_TXW.AMP, UHF_TXW.PHASE]) [(UHF_STATUS.STATE, unit.val)] ∧
        { e.sans with cal := [], ch := [], fresh := 0 } = { x0.sans with cal := [], ch := [], fresh := 0 })) ∧
    (s.acts (.calDone unit o) x0 → x0.calOf unit = some r → r.op = 6 → r.stage = 0 → unit.val ≤ 8 → x0.locked (x0.synOf unit) = false →
      r.since + 15360 ≤ x0.tick → x0.spare.auto = none → (x0.chx unit).calBack = none →
      completes (.calDone unit o) s (fun e =>
        e.calOf unit = none ∧ e.get CAL_STATUS.RESULT = stSynTimeout ∧ x0.told e evCalDone ∧
        x0.logged e 2 0x1A unit stSynTimeout ∧ x0.chsBut e 8 ∧ (unit ≠ 8 → e.ch = x0.ch) ∧
        x0.keepsBut e [CAL_STATUS.RESULT, CAL_STATUS.RETRIED, CAL_QUAL.QUAL, CAL_QUAL.VR1, CAL_QUAL.VR2]
          [(TRL_CH.SEEN, 0), (MGT_LOG_CNT.DROPPED, 0)] ∧
        { e.sans with cal := [], flights := [], log := {}, ch := [] } =
          { x0.sans with cal := [], flights := [], log := {}, ch := [] })) ∧
    (s.acts (.calDone unit o) x0 → x0.calOf unit = some r → r.op = 6 → r.stage ≠ 1 →
      r.stage ≠ 0 ∨ x0.locked (x0.synOf unit) = true ∨ x0.tick < r.since + 15360 →
      completes (.calDone unit o) s (fun e => e = x0))

/-- The spare chain (R242, R243, R246 to R250, R252, R254). READINESS 11 is ignored; another value moves an idle US to its state; a
DC pass that passed writes US's DC trims and dates them; a takeover or release asked for waits, or is refused; the planned
switch happens when both gates are closed and US is hot, the release when US's gate is closed and chain n is in RX; a switch
that has settled ends, or waits for its DC pass, or restores the carrier; a request not met within 1 s ends. -/
def Obligations.SpareCompletes : Prop :=
  ∀ (s : State) (r : BitVec 2) (o : CalObs) (chain : BitVec 4) (n t c k : Nat) (w : Switch) (d : Dev) (x0 : Dev),
    (s.acts (.readinessWrite r) x0 → r = 3 → completes (.readinessWrite r) s (fun e => e = x0)) ∧
    (s.acts (.readinessWrite r) x0 → r ≠ 3 → x0.attached ≠ none ∨ x0.spare.sw ≠ none ∨ x0.spare.waitTake ≠ none ∨ x0.binder 8 ≠ none ∨
        x0.gate 8 = true ∨ x0.cst 8 = csTrip ∨ x0.calOf 8 ≠ none → completes (.readinessWrite r) s (fun e =>
      e.get UHFS_SPARE.READINESS = r.toNat ∧ x0.writes e [(UHFS_SPARE.READINESS, 0)])) ∧
    (s.acts (.readinessWrite r) x0 → r ≠ 3 → x0.attached = none → x0.spare.sw = none → x0.spare.waitTake = none → x0.binder 8 = none →
      x0.gate 8 = false → x0.calOf 8 = none → (x0.chx 8).goal = none → completes (.readinessWrite r) s (fun e =>
        e.get UHFS_SPARE.READINESS = r.toNat ∧
        (x0.cst 8 = csOff → r ≠ 0 → (e.chx 8).goal = some csReady ∧ (e.chx 8).due = x0.tick + usTicks 35) ∧
        (x0.cst 8 = csReady → r = 2 → (e.chx 8).goal = some csRx ∧
          (e.chx 8).due = x0.tick + x0.rxTime (x0.cfg 8)) ∧
        (x0.cst 8 = csReady → r = 0 → (e.chx 8).goal = some csOff ∧ (e.chx 8).due = x0.tick + 154) ∧
        (x0.cst 8 = csRx → r ≠ 2 → (e.chx 8).goal = some r.toNat ∧ (e.chx 8).due = x0.tick + 154) ∧
        (x0.cst 8 = r.toNat ∨ x0.cst 8 = csTrip → (e.chx 8).goal = none) ∧ x0.chsBut e 8 ∧
        x0.alters e [(UHFS_SPARE.READINESS, 0)] (fun y => { y with ch := [] }))) ∧
    (s.acts (.spareDcRerun o) x0 → x0.dcMayRun = true → x0.attempt o = 0 → completes (.spareDcRerun o) s (fun e =>
      e.spare = { x0.spare with dcTick := some x0.tick } ∧
      (∀ ks : Nat × Nat, ks ∈ opTrims 2 → e.trimValid 8 ks.1 ks.2 = true) ∧
      x0.alters e [(CAL_TDATA.VALUE, 0), (CAL_TDATA.VALID, 0), (CAL_TDATA.QUAL, 0)]
        (fun y => { y with spare := {}, fresh := 0 }))) ∧
    (s.acts (.spareDcRerun o) x0 → x0.dcMayRun = false ∨ x0.attempt o ≠ 0 → completes (.spareDcRerun o) s (fun e => e = x0)) ∧
    (s.acts .spareDcAged x0 → x0.spare.dcTick = some t → completes .spareDcAged s (fun e =>
      e.clk = max x0.clk (2 * (t + msTicks 200 + 1)) ∧ e.dcFresh = false ∧ e.regs = x0.regs ∧
      e.sansTime = x0.sansTime)) ∧
    (s.acts .spareDcAged x0 → x0.spare.dcTick = none → completes .spareDcAged s (fun e => e = x0)) ∧
    (s.acts .spareSwitchSettled x0 → x0.spare.sw = none → completes .spareSwitchSettled s (fun e => e = x0)) ∧
    (s.acts .spareSwitchSettled x0 → x0.spare.sw = some w → c = (if w.take then 8 else w.fe) → w.launched = false → w.needDc = false → w.restore = false →
      (x0.chx c).goal = none → x0.spare.auto = none → w.take = true → x0.noneHeld →
      completes .spareSwitchSettled s (fun e =>
        e.spare = { x0.spare with sw := none } ∧ e.get UHFS_SPST.GAP = (if w.hadCarrier then 0xFFFF else 0) ∧
        e.get UHFS_SPST.PHASE = 3 ∧ e.clk = max x0.clk (2 * w.settled) ∧ x0.told e evSpareTake ∧
        x0.chsBut e w.fe ∧ (w.hadCarrier = false → e.ch = x0.ch) ∧
        x0.keeps e [(UHFS_SPST.GAP, 0), (UHFS_SPST.PHASE, 0), (TRL_CH.SEEN, 0)] ∧
        { e.sansTime with spare := {}, fe := [], flights := [], ch := [] } =
          { x0.sansTime with spare := {}, fe := [], flights := [], ch := [] })) ∧
    (s.acts .spareSwitchSettled x0 → x0.spare.sw = some w → w.launched = false → w.needDc = false → w.restore = false → w.take = false →
      (x0.chx w.fe).goal = none → x0.noneHeld → completes .spareSwitchSettled s (fun e =>
        e.spare = { x0.spare with sw := none } ∧ e.get UHFS_SPARE.ATTACHED = 0xF ∧ e.get UHFS_SPST.PHASE = 0 ∧
        e.get UHFS_SPST.GAP = (if w.hadCarrier then 0xFFFF else 0) ∧
        e.clk = max x0.clk (2 * w.settled) ∧ x0.told e evSpareRelease ∧
        (∀ j : Nat, j ≠ 8 → j ≠ w.fe → e.chx j = x0.chx j) ∧
        x0.keeps e [(UHFS_SPST.GAP, 0), (UHFS_SPST.PHASE, 0), (UHFS_SPARE.ATTACHED, 0), (TRL_CH.SEEN, 0)] ∧
        { e.sansTime with spare := {}, fe := [], ch := [], flights := [] } =
          { x0.sansTime with spare := {}, fe := [], ch := [], flights := [] })) ∧
    (s.acts .spareSwitchSettled x0 → x0.spare.sw = some w → w.launched = false → w.needDc = true → w.dcDue = none → w.take = true → x0.inRx 8 = true →
      x0.noneHeld → completes .spareSwitchSettled s (fun e =>
        e.spare.sw = some { w with dcDue := some (e.tick + 19200) } ∧ e.clk = max x0.clk (2 * w.settled) ∧
        e.regs = x0.regs ∧ { e.sansTime with spare := {} } = { x0.sansTime with spare := {} })) ∧
    (s.acts .spareSwitchSettled x0 → x0.spare.sw = some w → c = (if w.take then 8 else w.fe) → w.launched = false → w.needDc = false → w.restore = true →
      w.t4 = none → d = x0.toTick w.settled → d.inRx c = true → d.locked (d.synOf c) = true → t = max x0.tick w.settled →
      d.launchCheck c t true = 0 → x0.noneHeld → completes .spareSwitchSettled s (fun e =>
        e.cst c = csUp ∧ (e.chx c).goal = some csCarrier ∧ (e.chx c).due = t + x0.get UHF_RAMP.RAMP_UP (d.cfg c) ∧
        e.spare = { x0.spare with sw := some { w with t4 := some t, launched := true } } ∧ e.clk = d.clk ∧
        x0.keepsBut e [UHF_STATUS.STATE, UHF_LKC_TRIM.TRIM_I, UHF_LKC_TRIM.TRIM_Q, UHF_LKC_RESID.RESID, UHF_PWR.DRIVE] [] ∧
        { e.sansTime with spare := {}, fe := [], ch := [], launched := [] } =
          { x0.sansTime with spare := {}, fe := [], ch := [], launched := [] })) ∧
    (s.acts .spareSwitchSettled x0 → x0.spare.sw = some w → w.take = true → w.launched = false → w.needDc = false → w.restore = true → w.t4 = none →
      d = x0.toTick w.settled → d.inRx 8 = true → d.locked (d.synOf 8) = true → k = d.launchCheck 8 d.tick true → k ≠ 0 →
      x0.spare.auto = none → x0.noneHeld → completes .spareSwitchSettled s (fun e =>
        e.spare = { x0.spare with sw := none } ∧ e.get UHFS_SPST.GAP = 0xFFFF ∧ e.get UHFS_SPST.PHASE = 3 ∧
        e.get RGU_STATUS.LAST_REASON = k ∧ e.get RGU_STATUS.LAST_FE = w.fe % 16 ∧
        e.get RGU_CNT.REFUSED = min (x0.get RGU_CNT.REFUSED + 1) 0xFFFF ∧ x0.told e evSpareTake ∧
        x0.chsBut e w.fe ∧ x0.keeps e [(UHFS_SPST.GAP, 0), (UHFS_SPST.PHASE, 0), (RGU_STATUS.LAST_REASON, 0),
          (RGU_STATUS.LAST_FE, 0), (RGU_CNT.REFUSED, 0), (TRL_CH.SEEN, 0)] ∧
        { e.sansTime with spare := {}, fe := [], flights := [], ch := [] } =
          { x0.sansTime with spare := {}, fe := [], flights := [], ch := [] })) ∧
    (s.acts (.spareDcPassDone o) x0 → x0.spare.sw = some w → w.needDc = true → w.dcDue = some t → w.take = true → w.restore = false → w.launched = false →
      w.settled ≤ t → x0.spare.auto = none → x0.noneHeld → completes (.spareDcPassDone o) s (fun e =>
        e.spare.sw = none ∧ e.clk = max x0.clk (2 * t) ∧ e.get UHFS_SPST.PHASE = 3 ∧ x0.told e evSpareTake ∧
        (x0.attempt o = 0 → e.spare.dcTick = some e.tick ∧
          ∀ ks : Nat × Nat, ks ∈ opTrims 2 → e.trimValid 8 ks.1 ks.2 = true) ∧
        (x0.attempt o ≠ 0 → e.get UHFS_SPST.DCSTALE = 1 ∧ ∀ ks : Nat × Nat, ks ∈ opTrims 2 →
          e.get CAL_TDATA.VALUE 0 (trimIdx 8 ks.1 ks.2) = x0.get CAL_TDATA.VALUE 0 (trimIdx 8 ks.1 ks.2)) ∧
        x0.keeps e [(UHFS_SPST.GAP, 0), (UHFS_SPST.PHASE, 0), (UHFS_SPST.DCSTALE, 0), (TRL_CH.SEEN, 0), (CAL_TDATA.VALUE, 0),
          (CAL_TDATA.VALID, 0), (CAL_TDATA.QUAL, 0)] ∧
        x0.chsBut e w.fe ∧
        { e.sansTime with spare := {}, fe := [], flights := [], fresh := 0, ch := [] } =
          { x0.sansTime with spare := {}, fe := [], flights := [], fresh := 0, ch := [] })) ∧
    (s.acts (.takeGo chain) x0 → n = chain.toNat → x0.usTaken = false → x0.spare.waitTake = none → x0.spare.waitRel = none → n < 8 →
      bitOf (x0.get UHFS_SPARE.ELIGIBLE) n = true → x0.binder 8 = none → x0.cst n ≠ csTrip → x0.cst n ≠ csOff →
      x0.calOf 8 = none → (x0.chx 8).goal = none → completes (.takeGo chain) s (fun e =>
        e.spare = { x0.spare with waitTake := some (n, x0.tick) } ∧ e.get UHFS_SPST.PHASE = 1 ∧
        (x0.cst 8 = csOff → (e.chx 8).goal = some csReady ∧ (e.chx 8).target = some csRx) ∧
        (x0.cst 8 = csReady → (e.chx 8).goal = some csRx) ∧ x0.chsBut e 8 ∧
        x0.alters e [(UHFS_SPST.PHASE, 0)] (fun y => { y with ch := [], spare := {} }))) ∧
    (s.acts (.takeGo chain) x0 → n = chain.toNat → x0.spare.sw = none → x0.usTaken = true ∨ x0.spare.waitTake ≠ none ∨ x0.spare.waitRel ≠ none ∨
        8 ≤ n ∨ bitOf (x0.get UHFS_SPARE.ELIGIBLE) n = false ∨ x0.binder 8 ≠ none ∨ x0.cst n = csTrip ∨
        x0.cst n = csOff ∨ x0.calOf 8 ≠ none → completes (.takeGo chain) s (fun e =>
      e.get UHF_STATUS.LAST_ERR 8 = (if x0.usTaken = true ∨ x0.spare.waitTake ≠ none ∨ x0.spare.waitRel ≠ none
        then stSpareBusy else stTakeBlocked) ∧ x0.writes e [(UHF_STATUS.LAST_ERR, 8)])) ∧
    (s.acts (.takeGo chain) x0 → x0.spare.sw = some w → completes (.takeGo chain) s (fun e =>
      e.get UHF_STATUS.LAST_ERR 8 = (if w.take = true ∧ w.planned = false ∧ w.start = x0.tick then stTakeBlocked
        else stSpareBusy) ∧ x0.writes e [(UHF_STATUS.LAST_ERR, 8)])) ∧
    (s.acts .takeRelease x0 → x0.attached = some n → x0.spare.sw = none → x0.spare.waitRel = none → x0.cst n ≠ csTrip →
      (x0.chx n).goal = none → completes .takeRelease s (fun e =>
        e.spare = { x0.spare with waitRel := some x0.tick } ∧ e.get UHFS_SPST.PHASE = 4 ∧
        (x0.cst n = csReady → (e.chx n).goal = some csRx ∧ (e.chx n).due = x0.tick + x0.rxTime (x0.cfg n)) ∧
        x0.chsBut e n ∧ x0.alters e [(UHFS_SPST.PHASE, 0)] (fun y => { y with ch := [], spare := {} }))) ∧
    (s.acts .takeRelease x0 → x0.attached = none ∧ x0.spare.sw = none ∧ t = stSpareBusy ∨ (x0.spare.sw = none ∧ t = stTakeBlocked ∧
        x0.attached = some n ∧ (x0.cst n = csTrip ∨ x0.spare.waitRel ≠ none)) ∨ (x0.spare.sw = some w ∧
        t = if x0.attached = none ∧ w.take = true then stSpareBusy else stTakeBlocked) →
      completes .takeRelease s (fun e =>
        e.get UHF_STATUS.LAST_ERR 8 = t ∧ x0.writes e [(UHF_STATUS.LAST_ERR, 8)])) ∧
    (s.acts .plannedSwitch x0 → x0.spare.waitTake = some (n, t) → n < 8 → x0.gate n = false → x0.gate 8 = false → x0.usHot = true →
      x0.spare.sw = none → x0.attached = none → (x0.chx n).goal = none → x0.calOf n = none → x0.calOf 8 = none →
      (x0.chx n).win = none → x0.feVat n = none → completes .plannedSwitch s (fun e =>
        e.get UHFS_SPARE.ATTACHED = n ∧ e.get UHFS_SPST.LASTCH = n ∧ e.get UHFS_SPST.PHASE = 2 ∧
        e.attached = some n ∧ e.spare.waitTake = none ∧
        e.spare.sw.map (fun y => (y.fe, y.take, y.planned, y.restore, y.start, y.settled)) = some (n, true, true, false, x0.tick,
          x0.tick + 16 * x0.get UHFS_SPARE.SW_SETTLE) ∧
        e.chx 8 = { x0.chx 8 with rxSince := (x0.chx 8).rxSince.map (fun _ =>
          x0.tick + 16 * x0.get UHFS_SPARE.SW_SETTLE) } ∧ x0.chsBut e 8 ∧
        x0.alters e [(UHFS_SPARE.ATTACHED, 0), (UHFS_SPST.LASTCH, 0), (UHFS_SPST.PHASE, 0)]
          (fun y => { y with spare := {}, ch := [] }))) ∧
    (s.acts .plannedSwitch x0 → x0.spare.waitTake = none ∨ (x0.spare.waitTake = some (n, t) ∧ (x0.chx n).goal = none ∧ (x0.chx 8).goal = none ∧
        (x0.gate n = true ∨ x0.gate 8 = true ∨ x0.usHot = false)) → completes .plannedSwitch s (fun e => e = x0)) ∧
    (s.acts .releaseSwitch x0 → x0.spare.waitRel = some t → x0.attached = some n → x0.gate n = false → x0.gate 8 = false →
      x0.inRx n = true → (x0.chx 8).goal = none → x0.calOf n = none → x0.calOf 8 = none →
      x0.spare.sw = none → (x0.chx n).win = none → x0.feVat n = none → completes .releaseSwitch s (fun e =>
        e.attached = none ∧ e.spare.waitRel = none ∧
        e.spare.sw.map (fun y => (y.fe, y.take, y.planned, y.restore, y.start, y.settled)) = some (n, false, true, false, x0.tick,
          x0.tick + 16 * x0.get UHFS_SPARE.SW_SETTLE) ∧
        e.chx n = { x0.chx n with rxSince := (x0.chx n).rxSince.map (fun _ =>
          x0.tick + 16 * x0.get UHFS_SPARE.SW_SETTLE) } ∧ x0.chsBut e n ∧
        x0.alters e [] (fun y => { y with spare := {}, ch := [] }))) ∧
    (s.acts .releaseSwitch x0 → x0.spare.waitRel = none ∨ x0.attached = none ∨ (x0.attached = some n ∧ (x0.chx n).goal = none ∧
        (x0.chx 8).goal = none ∧ (x0.gate n = true ∨ x0.gate 8 = true ∨ x0.cst n ≠ csRx)) →
      completes .releaseSwitch s (fun e => e = x0)) ∧
    (s.acts .takeTimeout x0 → x0.spare.waitTake = some (n, t) → x0.spare.auto = none → completes .takeTimeout s (fun e =>
      e.get UHF_STATUS.LAST_ERR 8 = stTakeTimeout ∧ e.spare.waitTake = none ∧ e.get UHFS_SPST.PHASE = 0 ∧
      e.clk = max x0.clk (2 * (t + msTicks 1000)) ∧ x0.chsBut e 8 ∧
      x0.keeps e [(UHF_STATUS.LAST_ERR, 8), (UHFS_SPST.PHASE, 0)] ∧
      { e.sansTime with ch := [], spare := {} } = { x0.sansTime with ch := [], spare := {} })) ∧
    (s.acts .takeTimeout x0 → x0.spare.waitTake = some (n, t) → x0.spare.auto ≠ none → completes .takeTimeout s (fun e =>
      e.get UHF_STATUS.LAST_ERR 8 = stTakeTimeout ∧ e.get UHFS_SPST.PHASE = 0 ∧ e.clk = max x0.clk (2 * (t + msTicks 1000)) ∧
      e.spare =
        { x0.spare with
          waitTake := none
          auto := none
          deferred := (n, e.tick + msTicks 10000) :: x0.spare.deferred.filter (fun x => x.1 != n) } ∧
      x0.logged e 2 0x1A n (Config.codeIn 0x03 1) ∧ x0.chsBut e 8 ∧
      x0.keeps e [(UHF_STATUS.LAST_ERR, 8), (UHFS_SPST.PHASE, 0), (MGT_LOG_CNT.DROPPED, 0)] ∧
      { e.sansTime with ch := [], spare := {}, log := {} } = { x0.sansTime with ch := [], spare := {}, log := {} })) ∧
    (s.acts .takeTimeout x0 → x0.spare.waitTake = none → x0.spare.waitRel = some t → completes .takeTimeout s (fun e =>
      e.get UHF_STATUS.LAST_ERR 8 = stTakeTimeout ∧ e.spare = { x0.spare with waitRel := none } ∧ e.get UHFS_SPST.PHASE = 3 ∧
      e.clk = max x0.clk (2 * (t + msTicks 1000)) ∧ x0.keeps e [(UHF_STATUS.LAST_ERR, 8), (UHFS_SPST.PHASE, 0)] ∧
      { e.sansTime with spare := {} } = { x0.sansTime with spare := {} })) ∧
    (s.acts .takeTimeout x0 → x0.spare.waitTake = none → x0.spare.waitRel = none → completes .takeTimeout s (fun e => e = x0))

/-- The guard during a carrier (R260 to R262, R266, R267). At the earliest running limit it ends the carrier: the ramp-down over
RAMP_DN ticks before the limit, or the trip ramp before a slot-edge guard known less far ahead; a forward reading above the
limit by more than 1 dB ends it with the trip ramp. Once the gate is closed the reason is recorded and counted, the event
published, and what was in progress ends with CUT (that it is then, and not at the start of the ramp: assumption 66). The occupancy account passes to its
next sub-window. Unsynchronised mode begins, and ends at a slot boundary; it ends a carrier on a channel that needs mesh time. -/
def Obligations.GuardEndsComplete : Prop :=
  ∀ (s : State) (fe : Fin 8) (fwd : BitVec 12) (v : VatNo) (u : ChainNo) (c l t dn n reason : Nat) (d : Dev),
    (s.acts (.rguLimitEnd fe) d → d.carrierOn (d.carrierOf fe) = false → completes (.rguLimitEnd fe) s (fun e => e = d)) ∧
    (s.acts (.rguLimitEnd fe) d → c = d.carrierOf fe → d.carrierOn c = true → d.calOf c = none → d.spare.sw = none →
      firstLimit (d.limits fe d.tick) = some (reason, l) →
      dn = (if reason = 10 ∧ l < d.tick + d.get UHF_RAMP.RAMP_DN (d.cfg c) then 154
        else d.get UHF_RAMP.RAMP_DN (d.cfg c)) → t = max d.tick (l - dn) → n = (d.toTick t).cfg c →
      completes (.rguLimitEnd fe) s (fun e =>
        e.cst c = csDown ∧ (e.chx c).goal = some csRx ∧ (e.chx c).due = t + dn ∧ (e.chx c).guarded = some reason ∧
        e.clk = max d.clk (2 * t) ∧ (e.chx n).txOn = false ∧ (∀ k : Nat, k ≠ c → k ≠ n → e.chx k = d.chx k) ∧
        d.keepsBut e (UHF_TXW.AMP :: UHF_TXW.PHASE :: carrierEndFlds) [(UHF_STATUS.STATE, c)] ∧
        { e.sansTime with ch := [] } = { d.sansTime with ch := [] })) ∧
    (s.acts (.rampDownDone u) d → u ≠ 8 → d.cst u = csDown → (d.chx u).goal = some csRx → (d.chx u).guarded = some reason →
      d.calOf u = none → (d.chx u).calBack = none → d.feSettled → d.vatOf u = none →
      (d.chx u).win = none → (d.chx u).target = none → d.feOf u = some u.val →
      completes (.rampDownDone u) s (fun e =>
        e.cst u = csRx ∧ (e.chx u).guarded = none ∧ e.clk = max d.clk (2 * (d.chx u).due) ∧
        e.get RGU_STATUS.LAST_REASON = reason % 2 ^ 4 ∧ e.get RGU_STATUS.LAST_FE = u ∧
        e.get RGU_CNT.ENDED = min (d.get RGU_CNT.ENDED + 1) 0xFFFF ∧ d.told e evRguEnd ∧ d.chsBut e u ∧
        d.keeps e [(UHF_STATUS.STATE, u.val), (RGU_STATUS.LAST_REASON, 0),
          (RGU_STATUS.LAST_FE, 0), (RGU_CNT.ENDED, 0), (TRL_CH.SEEN, 0)] ∧
        { e.sansTime with ch := [], fe := [], flights := [] } = { d.sansTime with ch := [], fe := [], flights := [] })) ∧
    (s.acts (.rampDownDone u) d → u ≠ 8 → d.cst u = csDown → (d.chx u).goal = some csRx → (d.chx u).guarded = some reason →
      d.calOf u = none → (d.chx u).calBack = none → d.feSettled → d.get VAT_BIND.PORT v = u →
      d.vatOf u = some v.val → d.waiting v (.txc n l) → (d.chx u).win = none → (d.chx u).target = none →
      d.feOf u = some u.val → completes (.rampDownDone u) s (fun e =>
        e.cst u = csRx ∧ e.outcomeIs v opTxc 7 stRguRefused ∧ e.vst v = vsRun ∧ (e.vatx v).wait = .none ∧
        e.pc v = d.pc v + 1 ∧ (e.chx u).txOn = false ∧ e.get RGU_STATUS.LAST_REASON = reason % 2 ^ 4 ∧
        e.get RGU_STATUS.LAST_FE = u ∧ d.told e evRguEnd ∧ d.chsBut e u ∧ d.vatsBut e v ∧
        d.keepsBut e [UHF_TXW.AMP, UHF_TXW.PHASE] ([(UHF_STATUS.STATE, u.val),
          (RGU_STATUS.LAST_REASON, 0), (RGU_STATUS.LAST_FE, 0), (RGU_CNT.ENDED, 0), (TRL_CH.SEEN, 0)] ++
          (VAT_STATUS.STATE :: airFlds).map (fun f => (f, v.val))))) ∧
    (s.acts (.overpower fe fwd) d → c = d.carrierOf fe → d.onAir c = false ∨
        fwd.toInt ≤ d.setptMax (d.fex fe).ch fe (d.get UHF_ANT.PORT (d.cfg c)) + 10 →
      completes (.overpower fe fwd) s (fun e =>
        (d.gate c = true → d.cfg c = fe → e.detNow fe 0 = fwd.toNat) ∧
        { e.chx fe with detAt := 0 } = { d.chx fe with detAt := 0 } ∧ d.chsBut e fe ∧
        d.alters e [(UHF_DET.FWD, fe)] (fun y => { y with ch := [] }))) ∧
    (s.acts (.overpower fe fwd) d → c = d.carrierOf fe → d.carrierOn c = true →
      d.setptMax (d.fex fe).ch fe (d.get UHF_ANT.PORT (d.cfg c)) + 10 < fwd.toInt → d.calOf c = none →
      d.spare.sw = none → completes (.overpower fe fwd) s (fun e =>
        e.get UHF_DET.FWD fe = fwd.toNat ∧ e.cst c = csDown ∧ (e.chx c).due = d.tick + 154 ∧
        (e.chx c).guarded = some 11 ∧ (∀ k : Nat, k ≠ c → k ≠ d.cfg c → e.chx k = d.chx k) ∧
        d.keepsBut e (UHF_TXW.AMP :: UHF_TXW.PHASE :: carrierEndFlds) [(UHF_DET.FWD, fe), (UHF_STATUS.STATE, c)] ∧
        { e.sans with ch := [] } = { d.sans with ch := [] })) ∧
    (s.acts .occSubwindow d → d.occLen = 0 → completes .occSubwindow s (fun e => e = d)) ∧
    (s.acts .occSubwindow d → d.occLen ≠ 0 → t = (d.tick / d.occLen + 1) * d.occLen → completes .occSubwindow s (fun e =>
      e.clk = 2 * t ∧
      (∀ k : Nat, k < 8 → { e.fex k with past := [] } = { d.fex k with past := [] } ∧
        (e.fex k).past = (d.fex k).past.filter (fun r => decide ((t / d.occLen - 16) * d.occLen < r.upto))) ∧
      e.regs = d.regs ∧ { e.sansTime with fe := [] } = { d.sansTime with fe := [] })) ∧
    (s.acts .rguDesync d → (∀ k : Nat, k < 9 → d.carrierOn k = false) → d.noLaunchNow → completes .rguDesync s (fun e =>
      e.get RGU_STATUS.DESYNC = 1 ∧ d.writes e [(RGU_STATUS.DESYNC, 0)])) ∧
    (s.acts .rguDesync d → c = d.carrierOf fe → d.carrierOn c = true → (∀ k : Nat, k < 9 → k ≠ c → d.carrierOn k = false) →
      bitOf (d.get RGU_SLOT.FE) fe = false → d.chanOf (d.get SYN_F_FREQ.FREQ_KHZ (d.synOf c)) = some n →
      d.unsyncOk n = false → d.calOf c = none → d.spare.sw = none → d.noLaunchNow → completes .rguDesync s (fun e =>
        e.get RGU_STATUS.DESYNC = 1 ∧ e.cst c = csDown ∧ (e.chx c).due = d.tick + 154 ∧ (e.chx c).guarded = some 2 ∧
        (∀ k : Nat, k ≠ c → k ≠ d.cfg c → e.chx k = d.chx k) ∧
        d.keepsBut e (UHF_TXW.AMP :: UHF_TXW.PHASE :: carrierEndFlds) [(RGU_STATUS.DESYNC, 0), (UHF_STATUS.STATE, c)] ∧
        { e.sans with ch := [] } = { d.sans with ch := [] })) ∧
    (s.acts .rguResync d → d.isSet RGU_STATUS.DESYNC = true → d.meshSync = true → completes .rguResync s (fun e =>
      e.get RGU_STATUS.DESYNC = 0 ∧ e.clk = max d.clk (2 * d.asn.following d.tick) ∧
      d.keeps e [(RGU_STATUS.DESYNC, 0)] ∧ e.sansTime = d.sansTime)) ∧
    (s.acts .rguResync d → d.isSet RGU_STATUS.DESYNC = false ∨ d.meshSync = false → completes .rguResync s (fun e => e = d))

/-- The states of the HF and ACT ports (R19, R271 to R273, R277, R290 to R292, R294). TARGET OFF or READY, another value
ignored; the field goes off at the next tick, the receiver of ACT in 1 µs, and what was in progress ends with CUT; trips for the
causes that apply in the state, with the event, and a further cause in TRIP sets its bit; the way back to READY; the ends of
CARRY ON and CARRY OFF; the driver current; a mode profile is valid where the table has it; the duty account, charged in each
sub-window for its own ticks. Without the island the host's writes end with an error and change nothing else. -/
def Obligations.PortStatesComplete : Prop :=
  ∀ (s : State) (v : VatNo) (target : BitVec 3) (hc hm ha : BitVec 6) (ac am aa : BitVec 4) (imeas : BitVec 9) (k : Fin 4)
    (value : Word) (act : Bool) (cmd : Instr) (p c0 m n l x t : Nat) (reg : Reg) (d : Dev),
    ((cmd, m, reg) ∈ [(Instr.hfrTargetWrite target, 5, Reg.HFR_CTRL), (.hfrForce, 5, .HFR_TRIP), (.hfrTripClear hm ha, 5, .HFR_TRIP),
        (.hfrDrvWrite imeas, 5, .HFR_DRV), (.hfrModeWrite k value, 5, .HFR_MODE), (.actTargetWrite target, 6, .ACT_CTRL),
        (.actForce, 6, .ACT_TRIP), (.actTripClear am aa, 6, .ACT_TRIP)] → s.dev.present m = false → s.dev.pwr.asleep = none → completes cmd s (fun e =>
      s.dev.hostErred e stIsland reg.place.base ∧ e.sans = s.dev.sans)) ∧
    (s.acts cmd d → cmd = .hfrTargetWrite target ∧ p = 9 ∨ cmd = .actTargetWrite target ∧ p = 10 → 1 < target.toNat →
      completes cmd s (fun e => e = d)) ∧
    (s.acts cmd d → cmd = .hfrTargetWrite target ∧ p = 9 ∨ cmd = .actTargetWrite target ∧ p = 10 → target.toNat ≤ 1 → d.pst p ≠ 2 → d.portCarryHeld p = false → d.portCalm p → completes cmd s (fun e =>
        e.get (portTargetFld p) = target.toNat ∧ e.pst p = d.pst p ∧
        (d.pst p = 0 → target = 1 → (e.chx p).goal = some 1 ∧ (e.chx p).due = d.tick + portReadyTime p) ∧
        (d.pst p ≠ 0 → target = 0 → (e.chx p).goal = some 0 ∧ (e.chx p).due = d.tick + usTicks 1) ∧
        (d.pst p = target.toNat → (e.chx p).goal = none) ∧ d.chsBut e p ∧
        d.alters e [(portTargetFld p, 0)] (fun y => { y with ch := [] }))) ∧
    (s.acts cmd d → cmd = .hfrTargetWrite target ∧ p = 9 ∨ cmd = .actTargetWrite target ∧ p = 10 → target.toNat ≤ 1 → d.pst p = 2 → d.binder p = none → (d.chx p).win = none → (d.chx p).txOn = false →
      d.portCalm p → t = (if p = 9 then d.tick + 1 else d.tick + usTicks 1) → completes cmd s (fun e =>
        e.get (portTargetFld p) = target.toNat ∧ e.pst p = 2 ∧ (e.chx p).goal = some 5 ∧ (e.chx p).due = t ∧
        (e.chx p).target = (if target = 0 then some 0 else none) ∧ ((e.toTick (t + portOffTime p)).portSync p).pst p = 1 ∧
        d.chsBut e p ∧ d.alters e [(portTargetFld p, 0)] (fun y => { y with ch := [] }))) ∧
    (s.acts cmd d → cmd = .hfrTargetWrite target ∧ p = 9 ∨ cmd = .actTargetWrite target ∧ p = 10 → target.toNat ≤ 1 → d.pst p = 2 → d.get VAT_BIND.PORT v = p → d.binder p = some v.val →
      (d.chx p).win = none → d.portCalm p → d.waiting v (.txc n l) → completes cmd s (fun e =>
        (e.chx p).goal = some 5 ∧ e.outcomeIs v opTxc 7 stNoCarrier ∧ d.released e v (2 * (d.tick + 2)) ∧
        (e.chx p).txOn = false ∧ d.chsBut e p ∧ d.vatsBut e v ∧
        d.keeps e ((portTargetFld p, 0) :: (VAT_STATUS.STATE :: airFlds).map (fun f => (f, v.val))) ∧
        { e.sansVats with ch := [], duty := [], wkr := {} } = { d.sansVats with ch := [], duty := [], wkr := {} })) ∧
    (s.acts cmd d → cmd = .hfrForce ∧ p = 9 ∧ c0 = 0x10 ∨ cmd = .hfrTrip hc ∧ p = 9 ∧ c0 = hc.toNat ∨ cmd = .actForce ∧ p = 10 ∧ c0 = 4 ∨
        cmd = .actTrip ac ∧ p = 10 ∧ c0 = ac.toNat →
      (cmd = .hfrForce ∨ cmd = .actForce → d.present (portIsland p) = true) → d.portCalm p → d.portMask p c0 = 0 →
      completes cmd s (fun e => e = d)) ∧
    (s.acts cmd d → cmd = .hfrForce ∧ p = 9 ∧ c0 = 0x10 ∨ cmd = .hfrTrip hc ∧ p = 9 ∧ c0 = hc.toNat ∨ cmd = .actForce ∧ p = 10 ∧ c0 = 4 ∨
        cmd = .actTrip ac ∧ p = 10 ∧ c0 = ac.toNat →
      (cmd = .hfrForce ∨ cmd = .actForce → d.present (portIsland p) = true) → d.portCalm p → m = d.portMask p c0 → m ≠ 0 →
      d.pst p = 4 → completes cmd s (fun e =>
        e.get (portCauseFld p) = Nat.lor (d.get (portCauseFld p)) m % 2 ^ (portCauseFld p).width ∧ d.chsBut e p ∧
        (e.chx p).goal = none ∧ d.alters e [(portCauseFld p, 0)] (fun y => { y with ch := [] }))) ∧
    (s.acts cmd d → cmd = .hfrForce ∧ p = 9 ∧ c0 = 0x10 ∨ cmd = .hfrTrip hc ∧ p = 9 ∧ c0 = hc.toNat ∨ cmd = .actForce ∧ p = 10 ∧ c0 = 4 ∨
        cmd = .actTrip ac ∧ p = 10 ∧ c0 = ac.toNat →
      (cmd = .hfrForce ∨ cmd = .actForce → d.present (portIsland p) = true) → d.portCalm p → m = d.portMask p c0 → m ≠ 0 →
      d.pst p ≠ 4 → d.binder p = none → (d.chx p).win = none → (d.chx p).txOn = false → completes cmd s (fun e =>
        e.pst p = 4 ∧ e.get (portCauseFld p) = Nat.lor (d.get (portCauseFld p)) m % 2 ^ (portCauseFld p).width ∧
        d.told e (portTripEv p) ∧ d.chsBut e p ∧
        d.keeps e [(portStateFld p, 0), (portCauseFld p, 0), (if p = 9 then HFR_MEAS.IMEAS else ACT_STATUS.LOCK, 0),
          (if p = 9 then HFR_STATUS.PLL_LOCK else ACT_STATUS.LOCK, 0), (TRL_CH.SEEN, 0)] ∧
        { e.sans with ch := [], flights := [] } = { d.sans with ch := [], flights := [] })) ∧
    (s.acts cmd d → cmd = .hfrForce ∧ p = 9 ∧ c0 = 0x10 ∨ cmd = .hfrTrip hc ∧ p = 9 ∧ c0 = hc.toNat ∨ cmd = .actForce ∧ p = 10 ∧ c0 = 4 ∨
        cmd = .actTrip ac ∧ p = 10 ∧ c0 = ac.toNat →
      (cmd = .hfrForce ∨ cmd = .actForce → d.present (portIsland p) = true) → d.portCalm p → d.portMask p c0 ≠ 0 →
      d.pst p ≠ 4 → d.get VAT_BIND.PORT v = p → d.binder p = some v.val → (d.chx p).win = none →
      d.waiting v (.txc n l) → completes cmd s (fun e =>
        e.pst p = 4 ∧ e.outcomeIs v opTxc 7 (portTripSt p) ∧ d.released e v (2 * (d.tick + 1)) ∧
        d.told e (portTripEv p) ∧ d.chsBut e p ∧ d.vatsBut e v ∧
        d.keepsBut e [HFR_STATUS.STATE, HFR_STATUS.PLL_LOCK, HFR_MEAS.IMEAS, ACT_STATUS.STATE, ACT_STATUS.LOCK]
          ([(portCauseFld p, 0), (TRL_CH.SEEN, 0)] ++ (VAT_STATUS.STATE :: airFlds).map (fun f => (f, v.val))) ∧
        { e.sansVats with ch := [], duty := [], flights := [], wkr := {} } =
          { d.sansVats with ch := [], duty := [], flights := [], wkr := {} })) ∧
    (s.acts cmd d → cmd = .hfrTripClear hm ha ∧ p = 9 ∧ x = Nat.land (d.get HFR_TRIP.CAUSE) (Nat.lor (Nat.land ha.toNat 0x0C) (0x3F - hm.toNat)) ∨
        cmd = .actTripClear am aa ∧ p = 10 ∧ x = Nat.land (d.get ACT_TRIP.CAUSE) (Nat.lor (Nat.land aa.toNat 0x3) (0x3F - am.toNat)) →
      d.portCalm p → completes cmd s (fun e =>
        e.get (portCauseFld p) = x % 2 ^ (portCauseFld p).width ∧
        (x = 0 → d.pst p = 4 → (e.chx p).goal = some 1 ∧ (e.chx p).due = d.tick + portReadyTime p) ∧
        (x ≠ 0 ∨ d.pst p ≠ 4 → (e.chx p).goal = none) ∧ d.chsBut e p ∧
        d.alters e [(portCauseFld p, 0)] (fun y => { y with ch := [] }))) ∧
    (p = (if act then 10 else 9) → ((s.dev.chx p).goal = some 1 ∧ (s.dev.chx p).target = none) ∨
        ((s.dev.chx p).goal = some 0 ∧ (s.dev.chx p).target = some 1) → (s.dev.chx p).levels = [] → s.dev.pst p ≠ 2 →
      completes (.portReadyDone act) s (fun e =>
        e.pst p = 1 ∧ (e.chx p).goal = none ∧ (act = false → e.get HFR_STATUS.PLL_LOCK = 1) ∧
        e.clk = max s.dev.clk (2 * s.dev.portReadyAt p) ∧ s.dev.chsBut e p ∧
        s.dev.keeps e ((portStateFld p, 0) :: (if act then [] else [(HFR_STATUS.PLL_LOCK, 0)])) ∧
        { e.sansTime with ch := [] } = { s.dev.sansTime with ch := [] })) ∧
    (p = (if act then 10 else 9) → (s.dev.chx p).goal ≠ some 1 → (s.dev.chx p).goal ≠ some 0 ∨ (s.dev.chx p).target ≠ some 1 →
      changesNothing (.portReadyDone act) s) ∧
    (s.acts (.hfrCarryEnd imeas) d → d.pst 9 = 2 → d.portCalm 9 → 9 * d.hfCurrent ≤ 10 * imeas.toNat → d.binder 9 = some v.val →
      d.waiting v (.carryOn n) → completes (.hfrCarryEnd imeas) s (fun e =>
        e.get HFR_MEAS.IMEAS = imeas.toNat ∧ e.get VAT_OC.OC v = 1 ∧ d.released e v (2 * (d.tick + 1)) ∧
        d.keeps e ((HFR_MEAS.IMEAS, 0) :: (VAT_STATUS.STATE :: airFlds).map (fun f => (f, v.val))) ∧
        d.vatsBut e v ∧ e.sansVats = d.sansVats)) ∧
    (s.acts (.hfrCarryEnd imeas) d → d.portCalm 9 → d.pst 9 ≠ 2 ∨ 10 * imeas.toNat < 9 * d.hfCurrent → completes (.hfrCarryEnd imeas) s (fun e => e = d)) ∧
    (s.acts .hfrFieldOff d → d.pst 9 = 2 → (d.chx 9).goal = some 5 → (d.chx 9).target = none → (d.chx 9).levels = [] →
      (d.chx 9).txOn = false → d.binder 9 = some v.val → d.waiting v .carryOff → completes .hfrFieldOff s (fun e =>
        e.pst 9 = 1 ∧ e.get HFR_MEAS.IMEAS = 0 ∧ (e.chx 9).goal = none ∧ e.get VAT_OC.OC v = 1 ∧
        d.released e v (2 * ((d.chx 9).due + usTicks 2 + 1)) ∧ d.chsBut e 9 ∧
        d.keeps e ([(HFR_STATUS.STATE, 0), (HFR_MEAS.IMEAS, 0)] ++ (VAT_STATUS.STATE :: airFlds).map (fun f => (f, v.val))) ∧
        d.vatsBut e v ∧ { e.sansVats with ch := [] } = { d.sansVats with ch := [] })) ∧
    (s.acts .hfrFieldOff d → d.pst 9 = 1 → d.binder 9 = some v.val → d.waiting v .carryOff → completes .hfrFieldOff s (fun e =>
        e.get VAT_OC.OC v = 1 ∧ d.released e v (2 * ((d.chx 9).due + usTicks 2 + 1)) ∧
        d.keeps e ((VAT_STATUS.STATE :: airFlds).map (fun f => (f, v.val))) ∧ d.vatsBut e v ∧ e.sansVats = d.sansVats)) ∧
    (s.acts .hfrFieldOff d → (d.chx 9).goal ≠ some 5 → d.binder 9 = none ∨ d.pst 9 ≠ 1 → completes .hfrFieldOff s (fun e => e = d)) ∧
    (s.acts .actLock d → d.binder 10 = some v.val → d.waiting v (.carryOn n) → d.pst 10 = 1 → d.portCalm 10 →
      t = max d.tick (n + 154) → t ≤ n + 154 + 15360 → completes .actLock s (fun e =>
        e.pst 10 = 2 ∧ e.get ACT_STATUS.LOCK = 1 ∧ (e.chx 10).launched = t ∧ e.get VAT_OC.OC v = 1 ∧
        d.released e v (2 * (t + 1)) ∧ d.chsBut e 10 ∧
        d.keeps e ([(ACT_STATUS.STATE, 0), (ACT_STATUS.LOCK, 0)] ++ (VAT_STATUS.STATE :: airFlds).map (fun f => (f, v.val))) ∧
        d.vatsBut e v ∧ { e.sansVats with ch := [] } = { d.sansVats with ch := [] })) ∧
    (s.acts .actLock d → d.binder 10 = none → completes .actLock s (fun e => e = d)) ∧
    (s.acts (.hfrDrvWrite imeas) d → d.portCalm 9 → completes (.hfrDrvWrite imeas) s (fun e =>
      e.get HFR_DRV.ITGT = imeas.toNat ∧ e.hfCurrent = min imeas.toNat (d.get HFR_DRV.ILIM) ∧
      d.writes e [(HFR_DRV.ITGT, 0)])) ∧
    (s.acts (.hfrModeWrite k value) d → x = value.toNat → completes (.hfrModeWrite k value) s (fun e =>
      e.get HFR_MODE.STD 0 k = bitsOf x 31 28 ∧ e.get HFR_MODE.RATE 0 k = bitsOf x 26 24 ∧
      e.get HFR_MODE.DEPTH 0 k = bitsOf x 14 8 ∧ e.get HFR_MODE.RXLOW 0 k = bitsOf x 22 22 ∧
      e.get HFR_MODE.DUALSC 0 k = bitsOf x 21 21 ∧ e.get HFR_MODE.C256 0 k = bitsOf x 20 20 ∧
      e.get HFR_MODE.PARITY 0 k = bitsOf x 19 19 ∧
      e.get HFR_MODE.VALID 0 k = (if hfModeOk (bitsOf x 31 28) (bitsOf x 26 24) (bitsOf x 14 8) then 1 else 0) ∧
      (∀ f : Fld, f ∈ [HFR_MODE.STD, HFR_MODE.RATE, HFR_MODE.RXLOW, HFR_MODE.DUALSC, HFR_MODE.C256, HFR_MODE.PARITY,
        HFR_MODE.DEPTH, HFR_MODE.VALID] → d.indexBut e f 0 k) ∧
      d.writes e [(HFR_MODE.STD, 0), (HFR_MODE.RATE, 0), (HFR_MODE.RXLOW, 0), (HFR_MODE.DUALSC, 0), (HFR_MODE.C256, 0),
        (HFR_MODE.PARITY, 0), (HFR_MODE.DEPTH, 0), (HFR_MODE.VALID, 0)])) ∧
    (s.acts .actDutySubwindow d → t = (d.tick / dutyWindow + 1) * dutyWindow → n = d.dutyAhead t → completes .actDutySubwindow s (fun e =>
      e.clk = 2 * t ∧ e.duty = (n :: (d.dutyCharge n true).duty).take 17 ∧ e.regs = d.regs ∧
      { e.sansTime with duty := [] } = { d.sansTime with duty := [] }))

/-- The card watch and the wake receivers (R283 to R286, R299 to R302, R389, R391). A pulse begins when it is due, INTERVAL
within 50 to 2,000 ms after the one before, and is skipped while the field is on; its sample is taken when its length has
passed, on a tick of the block (log entry 70). A sample that deviates beyond a threshold, for DEBOUNCE pulses in a row, is a
detection and an event; one that does not moves the baselines while TRACK is 1, and rearms. A code is bad unless 12 to 20 of its
bits are set; a match of 433 MHz within ERRS, and a train of PCOUNT pulses at 2.4 GHz, is an event; hold-off and blanking go on
in a sleep. In GLADE each of the three wakes the device where its source is enabled. -/
def Obligations.WatchesComplete : Prop :=
  ∀ (s : State) (amp : BitVec 12) (phase : BitVec 8) (code : Word) (pulses : List (Nat × Nat)) (far : Bool) (n t : Nat)
    (d : Dev) (x0 : Dev),
    (s.dev.awake → s.dev.isSet HFR_CW_CTRL.EN = false ∨ s.dev.cwIsDue = false → changesNothing (.cwPulse amp phase) s) ∧
    (s.dev.awake → s.dev.isSet HFR_CW_CTRL.EN = true → s.dev.cwIsDue = true → s.dev.cw.pulse = none → s.dev.portCalm 9 →
      2 ≤ s.dev.pst 9 ∨ s.dev.calOf 13 ≠ none → completes (.cwPulse amp phase) s (fun e =>
        e.get HFR_CW_CNT.SKIPPED = min (s.dev.get HFR_CW_CNT.SKIPPED + 1) 0xFF ∧
        e.cw = { s.dev.cw with due := (if s.dev.cw.due = 0 then s.dev.hw else s.dev.cw.due) + s.dev.cwPeriod } ∧
        s.dev.alters e [(HFR_CW_CNT.SKIPPED, 0)] (fun y => { y with cw := {} }))) ∧
    (s.dev.awake → s.dev.isSet HFR_CW_CTRL.EN = true → s.dev.cwIsDue = true → s.dev.cw.pulse = none → s.dev.portCalm 9 →
      s.dev.pst 9 < 2 → s.dev.calOf 13 = none →
      n = (max 50 (min 2000 (s.dev.get HFR_CW_CTRL.INTERVAL)) * 32768 + 500) / 1000 → completes (.cwPulse amp phase) s (fun e =>
        e.cw = ⟨s.dev.cw.devs, s.dev.cw.calm, s.dev.cw.held, (if s.dev.cw.due = 0 then s.dev.hw else s.dev.cw.due) + n,
          some (s.dev.tick, amp.toNat, phase.toNat)⟩ ∧
        s.dev.alters e [] (fun y => { y with cw := {} }))) ∧
    (s.pending = [] → s.dev.awake → s.dev.qCalm → s.dev.cw.pulse = some (t, amp.toNat, phase.toNat) →
      t + cwLength ≤ s.dev.tick + 1 → d = { s.dev.toTick (s.dev.tick + 1) with cw := { s.dev.cw with pulse := none } } →
      far = decide (d.get HFR_CW_THR.A_THR * d.get HFR_CW_BASE.AMP <
          200 * ((amp.toNat : Int) - d.get HFR_CW_BASE.AMP).natAbs ∨
        d.get HFR_CW_THR.P_THR < (phaseDiff phase.toNat (d.get HFR_CW_BASE.PH)).natAbs) → far = false → ticks s (fun e =>
        e.get HFR_CW_LAST.AMP = amp.toNat ∧ e.get HFR_CW_LAST.PH = phase.toNat ∧
        e.get HFR_CW_CNT.PULSES = (d.get HFR_CW_CNT.PULSES + 1) % 2 ^ 16 ∧
        (d.isSet HFR_CW_CTRL.TRACK = true → e.get HFR_CW_BASE.AMP = ((d.get HFR_CW_BASE.AMP : Int) +
          trackStep ((amp.toNat : Int) - d.get HFR_CW_BASE.AMP)).toNat % 2 ^ 12) ∧
        (d.isSet HFR_CW_CTRL.TRACK = false → e.get HFR_CW_BASE.AMP = d.get HFR_CW_BASE.AMP ∧
          e.get HFR_CW_BASE.PH = d.get HFR_CW_BASE.PH) ∧
        (if d.cw.held = true ∧ d.cw.calm + 1 < max 1 (d.get HFR_CW_THR.REARM)
          then e.cw = { d.cw with calm := d.cw.calm + 1 } else e.cw = { due := d.cw.due }) ∧
        d.alters e [(HFR_CW_LAST.AMP, 0), (HFR_CW_LAST.PH, 0), (HFR_CW_CNT.PULSES, 0), (HFR_CW_BASE.AMP, 0), (HFR_CW_BASE.PH, 0)] (fun y => { y with cw := {} }))) ∧
    (s.pending = [] → s.dev.awake → s.dev.qCalm → s.dev.cw.pulse = some (t, amp.toNat, phase.toNat) →
      t + cwLength ≤ s.dev.tick + 1 → d = { s.dev.toTick (s.dev.tick + 1) with cw := { s.dev.cw with pulse := none } } →
      far = decide (d.get HFR_CW_THR.A_THR * d.get HFR_CW_BASE.AMP <
          200 * ((amp.toNat : Int) - d.get HFR_CW_BASE.AMP).natAbs ∨
        d.get HFR_CW_THR.P_THR < (phaseDiff phase.toNat (d.get HFR_CW_BASE.PH)).natAbs) → far = true →
      d.cw.held = false → d.cw.devs + 1 < max 1 (d.get HFR_CW_CTRL.DEBOUNCE) → ticks s (fun e =>
        e.cw = { d.cw with devs := d.cw.devs + 1 } ∧ e.get HFR_CW_CNT.PULSES = (d.get HFR_CW_CNT.PULSES + 1) % 2 ^ 16 ∧
        d.alters e [(HFR_CW_LAST.AMP, 0), (HFR_CW_LAST.PH, 0), (HFR_CW_CNT.PULSES, 0)] (fun y => { y with cw := {} }))) ∧
    (s.pending = [] → s.dev.awake → s.dev.qCalm → s.dev.cw.pulse = some (t, amp.toNat, phase.toNat) →
      t + cwLength ≤ s.dev.tick + 1 → d = { s.dev.toTick (s.dev.tick + 1) with cw := { s.dev.cw with pulse := none } } →
      far = decide (d.get HFR_CW_THR.A_THR * d.get HFR_CW_BASE.AMP <
          200 * ((amp.toNat : Int) - d.get HFR_CW_BASE.AMP).natAbs ∨
        d.get HFR_CW_THR.P_THR < (phaseDiff phase.toNat (d.get HFR_CW_BASE.PH)).natAbs) → far = true →
      d.cw.held = false → max 1 (d.get HFR_CW_CTRL.DEBOUNCE) ≤ d.cw.devs + 1 → ticks s (fun e =>
        e.cw = { due := d.cw.due, held := true } ∧ e.get HFR_CW_LAST.DET = 1 ∧
        e.get HFR_CW_CNT.DETECT = min (d.get HFR_CW_CNT.DETECT + 1) 0xFF ∧ d.told e evHfrCard ∧
        d.keeps e [(HFR_CW_LAST.AMP, 0), (HFR_CW_LAST.PH, 0), (HFR_CW_LAST.DET, 0), (HFR_CW_CNT.PULSES, 0), (HFR_CW_CNT.DETECT, 0), (TRL_CH.SEEN, 0)] ∧
        { e.sans with cw := {}, flights := [] } = { d.sans with cw := {}, flights := [] })) ∧
    (s.dev.sleeps 1 → s.dev.latched.isSet HFR_CW_CTRL.EN = true → bitOf (s.dev.sources 1) 2 = true → s.dev.cw.held = false →
      max 1 (s.dev.latched.get HFR_CW_CTRL.DEBOUNCE) ≤ s.dev.cw.devs + 1 →
      s.dev.latched.get HFR_CW_THR.A_THR * s.dev.latched.get HFR_CW_BASE.AMP <
        200 * ((amp.toNat : Int) - s.dev.latched.get HFR_CW_BASE.AMP).natAbs → completes (.cwPulse amp phase) s (fun e =>
        s.dev.woken e 2 (amp.toNat * 65536 + phase.toNat))) ∧
    (s.acts (.wkrCodeWrite code) x0 → completes (.wkrCodeWrite code) s (fun e =>
      e.get WKR_CODE.CODE = code.toNat ∧
      e.get WKR_STATUS.CODE_BAD = (if 12 ≤ popcount code.toNat ∧ popcount code.toNat ≤ 20 then 0 else 1) ∧
      x0.writes e [(WKR_CODE.CODE, 0), (WKR_STATUS.CODE_BAD, 0)])) ∧
    (s.dev.awake → n = popcount (Nat.xor code.toNat (s.dev.get WKR_CODE.CODE)) → s.dev.isSet WKR_CTRL.EN433 = true →
      s.dev.isSet WKR_STATUS.CODE_BAD = false → n ≤ s.dev.get WKR_433CFG.ERRS → s.dev.wkr.hold ≤ s.dev.tick →
      s.dev.actBlanks = false → completes (.wr433Match code) s (fun e =>
        e.get WKR_STATUS.M433 = 1 ∧ e.get WKR_CNT.C433 = min (s.dev.get WKR_CNT.C433 + 1) 0xFFFF ∧ s.dev.told e evWkr433 ∧
        e.wkr.hold = s.dev.tick + s.dev.get WKR_433CFG.HOLDOFF * 614400 ∧
        e.wkr.holdHw = s.dev.hw + (s.dev.get WKR_433CFG.HOLDOFF * 131072 + 999) / 1000 ∧
        { e.wkr with hold := 0, holdHw := 0 } = { s.dev.wkr with hold := 0, holdHw := 0 } ∧
        s.dev.keeps e [(WKR_STATUS.M433, 0), (WKR_CNT.C433, 0), (TRL_CH.SEEN, 0)] ∧
        { e.sans with wkr := {}, flights := [] } = { s.dev.sans with wkr := {}, flights := [] })) ∧
    (s.dev.awake → n = popcount (Nat.xor code.toNat (s.dev.get WKR_CODE.CODE)) → s.dev.isSet WKR_CTRL.EN433 = false ∨
        s.dev.isSet WKR_STATUS.CODE_BAD = true ∨ s.dev.get WKR_433CFG.ERRS < n ∨ s.dev.tick < s.dev.wkr.hold ∨
        s.dev.actBlanks = true → changesNothing (.wr433Match code) s) ∧
    (s.dev.sleeps t → t = 1 ∨ t = 2 → s.dev.latched.isSet WKR_CTRL.EN433 = true → s.dev.latched.isSet WKR_STATUS.CODE_BAD = false →
      n = popcount (Nat.xor code.toNat (s.dev.latched.get WKR_CODE.CODE)) → n ≤ s.dev.latched.get WKR_433CFG.ERRS →
      bitOf (s.dev.sources t) 0 = true → s.dev.wkr.holdHw ≤ s.dev.sleepOn.hw → s.dev.wkr.blank433Hw ≤ s.dev.sleepOn.hw → completes (.wr433Match code) s (fun e => s.dev.woken e 0 n)) ∧
    (s.dev.awake → n = max 2 (s.dev.get WKR_24SEQ.PCOUNT) → s.dev.isSet WKR_CTRL.EN24 = true → s.dev.meshBlanks = false →
      n ≤ pulseRun (s.dev.get WKR_24PW.PW_MIN) (s.dev.get WKR_24PW.PW_MAX) (s.dev.get WKR_24SEQ.GAP_MAX) n 0 pulses →
      completes (.wr24Match pulses) s (fun e =>
        e.get WKR_STATUS.M24 = 1 ∧ e.get WKR_CNT.C24 = min (s.dev.get WKR_CNT.C24 + 1) 0xFFFF ∧
        s.dev.writesTells e [(WKR_STATUS.M24, 0), (WKR_CNT.C24, 0)] evWkr24)) ∧
    (s.dev.awake → n = max 2 (s.dev.get WKR_24SEQ.PCOUNT) → s.dev.isSet WKR_CTRL.EN24 = false ∨ s.dev.meshBlanks = true ∨
        pulseRun (s.dev.get WKR_24PW.PW_MIN) (s.dev.get WKR_24PW.PW_MAX) (s.dev.get WKR_24SEQ.GAP_MAX) n 0 pulses < n →
      changesNothing (.wr24Match pulses) s) ∧
    (s.dev.sleeps t → t = 1 ∨ t = 2 → s.dev.latched.isSet WKR_CTRL.EN24 = true → n = max 2 (s.dev.latched.get WKR_24SEQ.PCOUNT) →
      n ≤ pulseRun (s.dev.latched.get WKR_24PW.PW_MIN) (s.dev.latched.get WKR_24PW.PW_MAX)
        (s.dev.latched.get WKR_24SEQ.GAP_MAX) n 0 pulses → bitOf (s.dev.sources t) 1 = true →
      s.dev.wkr.blank24Hw ≤ s.dev.sleepOn.hw →
      completes (.wr24Match pulses) s (fun e => s.dev.woken e 1 0))

/-- The ring timers (R345 to R351). A source tick advances the prescaler, and the count where it overflows, and fires every armed
compare that the count has reached; arming a compare that lies in the past fires it late; a stopped ring's count is written
whole; reads latch the upper words; a capture goes into its FIFO of 8, and one more sets OVF. A ring that is disabled or
frozen does not count. -/
def Obligations.RingsComplete : Prop :=
  ∀ (s : State) (n : Fin 8) (k : Fin 4) (j : Fin 2) (lo : Word) (src mask : BitVec 4) (p x c : Nat) (late : Bool) (cs : List Nat) (x0 : Dev),
    (s.acts (.ringSourceTick n) x0 → x0.isSet RING_CTRL.EN n = false ∨ 8 < x0.get RING_CTRL.SRC n ∨ x0.frozen n = true →
      completes (.ringSourceTick n) s (fun e => e = x0)) ∧
    (s.acts (.ringSourceTick n) x0 → x0.isSet RING_CTRL.EN n = true → x0.get RING_CTRL.SRC n ≤ 8 → x0.frozen n = false →
      p = max 1 (x0.get RING_PRE.N n) * 65536 + x0.get RING_PRE.F n → x = (x0.ringx n).phi + 65536 →
      c = (if p ≤ x then ((x0.ringx n).cnt + 1) % 2 ^ 64 else (x0.ringx n).cnt) →
      completes (.ringSourceTick n) s (fun e =>
        e.ringx n = { x0.ringx n with cnt := c, phi := if p ≤ x then x - p else x } ∧
        (∀ i : Nat, i < 4 → let due := x0.armed n i && decide ((c + 2 ^ 64 - fget (fun _ => 0) (x0.ringx n).cmp i % 2 ^ 64) %
            2 ^ 64 < 2 ^ 63)
          e.armed n i = (x0.armed n i && !due) ∧
          bitOf (e.get RING_CMPST.FIRED n) i = (bitOf (x0.get RING_CMPST.FIRED n) i || due) ∧
          (due = true → x0.isSet TRL_PDATA.EN 0 (evRingCmp n i) = true → x0.told e (evRingCmp n i))) ∧
        x0.ringsBut e n ∧ x0.keeps e [(RING_CMPST.ARMED, n), (RING_CMPST.FIRED, n), (TRL_CH.SEEN, 0)] ∧
        { e.sans with ring := [], flights := [] } = { x0.sans with ring := [], flights := [] })) ∧
    (s.acts (.ringSrcChange n src) x0 → 8 < src.toNat ∨ src.toNat = x0.get RING_CTRL.SRC n → completes (.ringSrcChange n src) s (fun e => e = x0)) ∧
    (s.acts (.ringSrcChange n src) x0 → src.toNat ≤ 8 → src.toNat ≠ x0.get RING_CTRL.SRC n → x0.isSet RING_CTRL.EN n = false →
      completes (.ringSrcChange n src) s (fun e =>
        e.get RING_CTRL.SRC n = src.toNat ∧ x0.writes e [(RING_CTRL.SRC, n)])) ∧
    (s.acts (.ringSrcChange n src) x0 → src.toNat ≤ 8 → src.toNat ≠ x0.get RING_CTRL.SRC n → x0.isSet RING_CTRL.EN n = true →
      completes (.ringSrcChange n src) s (fun e =>
        e.get RING_CTRL.SRC n = src.toNat ∧ e.get RING_CAPST.SCHG n = 1 ∧
        e.get RING_SCH_W0.SCH_LO n = (x0.ringx n).cnt % 2 ^ 32 ∧
        e.get RING_SCH_W1.SCH_HI n = (x0.ringx n).cnt / 2 ^ 32 % 2 ^ 32 ∧ e.ringx n = { x0.ringx n with phi := 0, switched := x0.tick + 1 } ∧
        x0.ringsBut e n ∧ x0.alters e [(RING_CTRL.SRC, n), (RING_CAPST.SCHG, n), (RING_SCH_W0.SCH_LO, n),
          (RING_SCH_W1.SCH_HI, n)] (fun y => { y with ring := [] }))) ∧
    (s.acts (.ringCmpArm n k lo) x0 → x = x0.get RING_CMP_W1.CMP_HI n k * 2 ^ 32 + lo.toNat → c = ((x0.ringx n).cnt + 2 ^ 64 - x % 2 ^ 64) % 2 ^ 64 →
      late = (!x0.frozen n && decide (1 ≤ c) && decide (c < 2 ^ 63)) → completes (.ringCmpArm n k lo) s (fun e =>
        e.get RING_CMP_W0.CMP_LO n k = lo.toNat ∧ fget (fun _ => 0) (e.ringx n).cmp k = x ∧ e.armed n k = !late ∧
        bitOf (e.get RING_CMPST.FIRED n) k = late ∧ bitOf (e.get RING_CMPST.LATE n) k = late ∧
        (late = true → x0.told e (evRingCmp n k)) ∧ (late = false → e.flights = x0.flights) ∧
        (∀ i : Nat, i < 4 → i ≠ k → e.armed n i = x0.armed n i ∧
          bitOf (e.get RING_CMPST.FIRED n) i = bitOf (x0.get RING_CMPST.FIRED n) i ∧
          fget (fun _ => 0) (e.ringx n).cmp i = fget (fun _ => 0) (x0.ringx n).cmp i) ∧
        { e.ringx n with cmp := [] } = { x0.ringx n with cmp := [] } ∧ x0.ringsBut e n ∧
        x0.indexBut e RING_CMP_W0.CMP_LO n k ∧
        x0.keeps e [(RING_CMP_W0.CMP_LO, n), (RING_CMPST.ARMED, n), (RING_CMPST.FIRED, n), (RING_CMPST.LATE, n), (TRL_CH.SEEN, 0)] ∧
        { e.sans with ring := [], flights := [] } = { x0.sans with ring := [], flights := [] })) ∧
    (s.acts (.ringDisarm n mask) x0 → completes (.ringDisarm n mask) s (fun e =>
      (∀ i : Nat, i < 4 → e.armed n i = (x0.armed n i && !mask.getLsbD i)) ∧ x0.writes e [(RING_CMPST.ARMED, n)])) ∧
    (s.acts (.ringCntWrite n lo) x0 → x0.isSet RING_CTRL.EN n = true → completes (.ringCntWrite n lo) s (fun e => e = x0)) ∧
    (s.acts (.ringCntWrite n lo) x0 → x0.isSet RING_CTRL.EN n = false → x = (x0.ringx n).cntHi * 2 ^ 32 + lo.toNat →
      completes (.ringCntWrite n lo) s (fun e =>
        e.ringx n = { x0.ringx n with cnt := x } ∧
        (∀ i : Nat, i < 4 → let d := (x + 2 ^ 64 - fget (fun _ => 0) (x0.ringx n).cmp i % 2 ^ 64) % 2 ^ 64
          let due := !x0.frozen n && x0.armed n i && decide (1 ≤ d) && decide (d < 2 ^ 63)
          e.armed n i = (x0.armed n i && !due) ∧
          bitOf (e.get RING_CMPST.LATE n) i = (bitOf (x0.get RING_CMPST.LATE n) i || due)) ∧
        x0.ringsBut e n ∧
        x0.keeps e [(RING_CMPST.ARMED, n), (RING_CMPST.FIRED, n), (RING_CMPST.LATE, n), (TRL_CH.SEEN, 0)] ∧
        { e.sans with ring := [], flights := [] } = { x0.sans with ring := [], flights := [] })) ∧
    (s.acts (.ringCntRead n) x0 → completes (.ringCntRead n) s (fun e =>
      e.hlk = { x0.hlk with read := [(x0.ringx n).cnt % 2 ^ 32] } ∧
      e.get RING_CNT_W1.CNT_HI n = (x0.ringx n).cnt / 2 ^ 32 % 2 ^ 32 ∧
      (x0.isSet RING_CTRL.LINK n = true → x0.get RING_CTRL.LNK n = 8 →
        e.get RING_LCNT_W0.LCNT_LO n = x0.tick % 2 ^ 32) ∧
      (x0.isSet RING_CTRL.LINK n = true → x0.get RING_CTRL.LNK n < 8 → x0.get RING_CTRL.LNK n ≠ n →
        e.get RING_LCNT_W0.LCNT_LO n = (x0.ringx (x0.get RING_CTRL.LNK n)).cnt % 2 ^ 32 ∧
        e.get RING_LCNT_W1.LCNT_HI n = (x0.ringx (x0.get RING_CTRL.LNK n)).cnt / 2 ^ 32 % 2 ^ 32) ∧
      x0.alters e [(RING_CNT_W1.CNT_HI, n), (RING_LCNT_W0.LCNT_LO, n), (RING_LCNT_W1.LCNT_HI, n)]
        (fun y => { y with hlk := {} }))) ∧
    (s.acts (.ringCapture n j) x0 → x0.capSel n j < 2 ∨ 7 < x0.capSel n j → completes (.ringCapture n j) s (fun e => e = x0)) ∧
    (s.acts (.ringCapture n j) x0 → 2 ≤ x0.capSel n j → x0.capSel n j ≤ 7 → ((x0.ringx n).caps j).length < 8 → completes (.ringCapture n j) s (fun e =>
      (e.ringx n).caps j = (x0.ringx n).caps j ++ [(x0.ringx n).cnt] ∧
      (e.ringx n).setCaps j [] = (x0.ringx n).setCaps j [] ∧ x0.ringsBut e n ∧
      x0.alters e [] (fun y => { y with ring := [] }))) ∧
    (s.acts (.ringCapture n j) x0 → 2 ≤ x0.capSel n j → x0.capSel n j ≤ 7 → 8 ≤ ((x0.ringx n).caps j).length → completes (.ringCapture n j) s (fun e =>
      e.get (if j = 0 then RING_CAPST.OVF0 else RING_CAPST.OVF1) n = 1 ∧
      x0.told e (evRingCapOvf n) ∧ x0.logged e 2 0x04 n stCapOvf ∧
      x0.alters e [(if j = 0 then RING_CAPST.OVF0 else RING_CAPST.OVF1, n), (TRL_CH.SEEN, 0), (MGT_LOG_CNT.DROPPED, 0)]
        (fun y => { y with flights := [], log := {} }))) ∧
    (s.acts (.ringCapRead n j) x0 → (x0.ringx n).caps j = [] → completes (.ringCapRead n j) s (fun e =>
      e.hlk = { x0.hlk with read := [0] } ∧ x0.alters e [] (fun y => { y with hlk := {} }))) ∧
    (s.acts (.ringCapRead n j) x0 → (x0.ringx n).caps j = c :: cs → completes (.ringCapRead n j) s (fun e =>
      e.hlk = { x0.hlk with read := [c % 2 ^ 32] } ∧ e.get RING_CAP_W1.CAP_HI n j = c / 2 ^ 32 % 2 ^ 32 ∧
      e.ringx n = (x0.ringx n).setCaps j cs ∧ x0.ringsBut e n ∧ x0.indexBut e RING_CAP_W1.CAP_HI n j ∧
      x0.alters e [(RING_CAP_W1.CAP_HI, n)] (fun y => { y with ring := [], hlk := {} })))

/-- PPS, the latching read of heartwood, and the Ranger's debug halt (R314, R342, R351, R353, R354). An edge qualifies where it is the
first, comes within TOL of a second after the last, or later than that; three in a row lock; an early one is logged and
discarded; holdover and free running follow at their times. -/
def Obligations.TimeReferencesComplete : Prop :=
  ∀ (s : State) (t t0 g : Nat) (d : Dev),
    (s.acts .ppsEdge d → d.isSet RING_PPSCFG.EN = false → completes .ppsEdge s (fun e => e = d)) ∧
    (s.acts .ppsEdge d → d.isSet RING_PPSCFG.EN = true → t = d.tick → d.pps.last = none ∨ (d.pps.last = some t0 ∧
        153600000 + d.get RING_PPSCFG.TOL ≤ t - t0) → d.isSet MSH_CTRL.ROOT = false → completes .ppsEdge s (fun e =>
        e.get RING_PPSST.GOOD = 1 ∧ e.pps = { d.pps with last := some t, stamp := t } ∧
        d.alters e [(RING_PPSST.GOOD, 0)] (fun y => { y with pps := {} }))) ∧
    (s.acts .ppsEdge d → d.isSet RING_PPSCFG.EN = true → t = d.tick → d.pps.last = some t0 →
      153600000 - d.get RING_PPSCFG.TOL ≤ t - t0 → t - t0 < 153600000 + d.get RING_PPSCFG.TOL →
      d.isSet MSH_CTRL.ROOT = false → g = min (d.get RING_PPSST.GOOD + 1) 0xFF → completes .ppsEdge s (fun e =>
        e.get RING_PPSST.GOOD = g ∧ e.get RING_PPSST.ERR = toSigned 16 (((t - t0 : Nat) : Int) - 153600000) ∧
        e.pps = { d.pps with last := some t, stamp := t } ∧
        (3 ≤ g → d.get RING_PPSST.STATE ≠ 1 → e.get RING_PPSST.STATE = 1 ∧ d.told e evPpsLock) ∧
        (g < 3 ∨ d.get RING_PPSST.STATE = 1 → e.get RING_PPSST.STATE = d.get RING_PPSST.STATE ∧
          e.flights = d.flights) ∧
        d.alters e [(RING_PPSST.GOOD, 0), (RING_PPSST.ERR, 0), (RING_PPSST.STATE, 0), (TRL_CH.SEEN, 0)]
          (fun y => { y with pps := {}, flights := [] }))) ∧
    (s.acts .ppsEdge d → d.isSet RING_PPSCFG.EN = true → d.pps.last = some t0 →
      d.tick - t0 < 153600000 - d.get RING_PPSCFG.TOL → completes .ppsEdge s (fun e =>
        e.get RING_PPSST.GOOD = 0 ∧ e.pps.last = some t0 ∧
        (d.pps.badLog = 0 ∨ d.pps.badLog + 153600000 ≤ d.tick + 1 → d.logged e 2 0x04 0 stPpsBad) ∧
        d.alters e [(RING_PPSST.GOOD, 0), (MGT_LOG_CNT.DROPPED, 0)] (fun y => { y with pps := {}, log := {} }))) ∧
    (s.acts .ppsEdge d → d.isSet RING_PPSCFG.EN = true → d.pps.last = none → d.isSet MSH_CTRL.ROOT = true →
      d.isSet MSH_CTRL.ALIGN_PPS = true → d.get MSH_STATUS.STATE = 2 → d.get RING_PPSST.STATE = 1 →
      completes .ppsEdge s (fun e =>
        e.get RING_PPSST.GOOD = 1 ∧ e.msh = { d.msh with adj := e.msh.adj, aligned := true } ∧
        ((d.tick : Int) - d.msh.bound - ((100 - d.msh.asn % 100) % 100 : Nat) * 1536000 -
          (e.msh.adj - d.msh.adj)) % 153600000 = 0 ∧ (e.msh.adj - d.msh.adj).natAbs ≤ 76800000 ∧
        d.alters e [(RING_PPSST.GOOD, 0), (MSH_CNT.CNT_HI, 0)] (fun y => { y with pps := {}, msh := {} }))) ∧
    (s.acts .ppsHoldover d → d.get RING_PPSST.STATE = 1 → completes .ppsHoldover s (fun e =>
      e.get RING_PPSST.STATE = 2 ∧ e.clk = max d.clk (2 * (d.pps.last.getD 0 + msTicks 1500)) ∧ d.told e evPpsLost ∧
      d.keeps e [(RING_PPSST.STATE, 0), (TRL_CH.SEEN, 0)] ∧
      { e.sansTime with flights := [] } = { d.sansTime with flights := [] })) ∧
    (s.acts .ppsHoldover d → d.get RING_PPSST.STATE ≠ 1 → completes .ppsHoldover s (fun e => e = d)) ∧
    (s.acts .ppsFree d → d.get RING_PPSST.STATE = 2 → completes .ppsFree s (fun e =>
      e.get RING_PPSST.STATE = 0 ∧ e.pps = { d.pps with last := none } ∧
      e.clk = max d.clk (2 * (d.pps.last.getD 0 + msTicks 3601500)) ∧ d.keeps e [(RING_PPSST.STATE, 0)] ∧
      { e.sansTime with pps := {} } = { d.sansTime with pps := {} })) ∧
    (s.acts .ppsFree d → d.get RING_PPSST.STATE ≠ 2 → completes .ppsFree s (fun e => e = d)) ∧
    (s.acts .aonHwRead d → completes .aonHwRead s (fun e =>
      e.get AON_HW_W0.HW_LO = d.hw % 2 ^ 32 ∧ e.get AON_HW_W1.HW_HI = d.hw / 2 ^ 32 % 2 ^ 16 ∧
      e.hlk = { d.hlk with read := [d.hw % 2 ^ 32] } ∧
      d.alters e [(AON_HW_W0.HW_LO, 0), (AON_HW_W1.HW_HI, 0)] (fun y => { y with hlk := {} }))) ∧
    (s.dev.open' = true → completes .rangerDebugHalt s (fun e =>
      e.rgr = { s.dev.rgr with halted := true } ∧ e.regs = s.dev.regs ∧
      { e.sans with rgr := {} } = { s.dev.sans with rgr := {} })) ∧
    (s.dev.open' = false → changesNothing .rangerDebugHalt s) ∧
    (s.acts .rangerDebugResume d → completes .rangerDebugResume s (fun e =>
      e.rgr = { d.rgr with halted := false } ∧ e.regs = d.regs ∧
      { e.sans with rgr := {} } = { d.sans with rgr := {} }))

/-- Trails (R359 to R363, R366). A publication whose writer has the rights reaches every subscriber, or at generation 7 is dropped
at its source and counted; one without the rights, and a change of owner without the rights, is denied with TRL_DENIED.
A trigger that is delivered to a Vat or an interrupt is kept pending, and overruns where one is kept already; to a ring it
is a capture. LOOP and SEEN are cleared by writing 1, and MCLR clears the count of merged triggers. -/
def Obligations.TrailsComplete : Prop :=
  ∀ (s : State) (w : Writer) (ch : BitVec 6) (gen : BitVec 3) (k : Fin 64) (x : Word) (id : Fin 128) (f : Flight)
      (ok : Bool) (n j : Nat) (d : Dev),
    (s.acts (.trlSwpub w ch gen) d → ok = (if d.isSet TRL_CH.SECURE 0 ch.toNat then byRanger w else decide (d.get TRL_CH.OWNER 0 ch.toNat < 2)) →
      ok = false → completes (.trlSwpub w ch gen) s (fun e =>
        e.get TRL_STATUS.LAST_ERR = stTrlDenied ∧ d.writes e [(TRL_STATUS.LAST_ERR, 0)])) ∧
    (s.acts (.trlSwpub w ch gen) d → ok = (if d.isSet TRL_CH.SECURE 0 ch.toNat then byRanger w else decide (d.get TRL_CH.OWNER 0 ch.toNat < 2)) →
      ok = true → gen.toNat < 7 → completes (.trlSwpub w ch gen) s (fun e =>
        d.toldOn e ch.toNat gen.toNat ∧ e.get TRL_CH.SEEN 0 ch.toNat = 1 ∧ d.indexBut e TRL_CH.SEEN 0 ch.toNat ∧
        d.alters e [(TRL_CH.SEEN, 0)] (fun y => { y with flights := [] }))) ∧
    (s.acts (.trlSwpub w ch gen) d → ok = (if d.isSet TRL_CH.SECURE 0 ch.toNat then byRanger w else decide (d.get TRL_CH.OWNER 0 ch.toNat < 2)) →
      ok = true → gen = 7 → completes (.trlSwpub w ch gen) s (fun e =>
        e.get TRL_CH.LOOP 0 ch.toNat = 1 ∧ d.indexBut e TRL_CH.LOOP 0 ch.toNat ∧
        e.get TRL_DROP.LOOPS = min (d.get TRL_DROP.LOOPS + 1) 0xFFFF ∧ e.flights = d.flights ∧
        (fget (fun _ => 0) d.loopLog ch.toNat = 0 → d.logged e 2 0x03 ch.toNat 0x0901) ∧
        d.alters e [(TRL_CH.LOOP, 0), (TRL_DROP.LOOPS, 0), (MGT_LOG_CNT.DROPPED, 0)]
          (fun y => { y with log := {}, loopLog := [] }))) ∧
    (s.acts (.trlChWrite w k x) d → completes (.trlChWrite w k x) s (fun e =>
      e.get TRL_CH.LOOP 0 k = (if x.getLsbD 31 then 0 else d.get TRL_CH.LOOP 0 k) ∧
      e.get TRL_CH.SEEN 0 k = (if x.getLsbD 30 then 0 else d.get TRL_CH.SEEN 0 k) ∧
      (∀ g : Fld, g ∈ [TRL_CH.LOOP, TRL_CH.SEEN, TRL_CH.SECURE, TRL_CH.OWNER] → d.indexBut e g 0 k) ∧
      d.writes e [(TRL_CH.LOOP, 0), (TRL_CH.SEEN, 0), (TRL_CH.SECURE, 0), (TRL_CH.OWNER, 0), (TRL_STATUS.LAST_ERR, 0)])) ∧
    (s.acts (.trlChWrite w k x) d → byRanger w = true → ownerCode (x.toNat % 8) = true → completes (.trlChWrite w k x) s (fun e =>
      e.get TRL_CH.SECURE 0 k = (if x.getLsbD 8 then 1 else 0) ∧ e.get TRL_CH.OWNER 0 k = x.toNat % 8 ∧
      e.get TRL_STATUS.LAST_ERR = d.get TRL_STATUS.LAST_ERR)) ∧
    (s.acts (.trlChWrite w k x) d → byRanger w = false → d.isSet TRL_CH.SECURE 0 k = true → x.toNat % 8 ≠ d.get TRL_CH.OWNER 0 k →
      completes (.trlChWrite w k x) s (fun e =>
        e.get TRL_CH.SECURE 0 k = d.get TRL_CH.SECURE 0 k ∧ e.get TRL_CH.OWNER 0 k = d.get TRL_CH.OWNER 0 k ∧
        e.get TRL_STATUS.LAST_ERR = stTrlDenied)) ∧
    (s.acts (.trlChWrite w k x) d → byRanger w = false → d.isSet TRL_CH.SECURE 0 k = false → ownerCode (x.toNat % 8) = true →
      completes (.trlChWrite w k x) s (fun e =>
        e.get TRL_CH.SECURE 0 k = d.get TRL_CH.SECURE 0 k ∧ e.get TRL_CH.OWNER 0 k = x.toNat % 8 ∧
        e.get TRL_STATUS.LAST_ERR = d.get TRL_STATUS.LAST_ERR)) ∧
    (s.acts (.trailsDelivery id) d → d.arriving id = [] → completes (.trailsDelivery id) s (fun e => e = d)) ∧
    (s.acts (.trailsDelivery id) d → d.arriving id = [f] → id < 0x40 ∨ (0x40 ≤ id ∧ id < 0x60 ∧ d.isSet SYS_STRAP.HSEL = false) ∨ 0x70 ≤ id → id < 0x78 →
      d.isSet TRL_CSTAT.PEND 0 id = false → completes (.trailsDelivery id) s (fun e =>
        e.get TRL_CSTAT.PEND 0 id = 1 ∧ d.indexBut e TRL_CSTAT.PEND 0 id ∧ fget (fun _ => 0) e.cgen id.val = f.gen ∧
        e.flights = d.flights.filter (fun g => !(g.cons == id.val && g.at' == f.at')) ∧
        d.alters e [(TRL_CSTAT.PEND, 0)] (fun y => { y with flights := [], cgen := [] }))) ∧
    (s.acts (.trailsDelivery id) d → d.arriving id = [f] → id < 0x40 → d.isSet TRL_CSTAT.PEND 0 id = true → completes (.trailsDelivery id) s (fun e =>
        e.get TRL_CSTAT.OVR 0 id = 1 ∧ d.indexBut e TRL_CSTAT.OVR 0 id ∧
        d.alters e [(TRL_CSTAT.OVR, 0)] (fun y => { y with flights := [], cgen := [] }))) ∧
    (s.acts (.trailsDelivery id) d → d.arriving id = [f] → 0x40 ≤ id → id < 0x60 → d.isSet SYS_STRAP.HSEL = true →
      d.isSet TRL_CSTAT.PEND 0 id = false → completes (.trailsDelivery id) s (fun e =>
        e.get TRL_CSTAT.PEND 0 id = 1 ∧ d.indexBut e TRL_CSTAT.PEND 0 id ∧ bitOf (e.get HLK_IRQPEND.PEND) (id - 0x40) = true ∧
        (∀ b : Nat, b < 32 → b ≠ id - 0x40 → bitOf (e.get HLK_IRQPEND.PEND) b = bitOf (d.get HLK_IRQPEND.PEND) b) ∧
        d.alters e [(TRL_CSTAT.PEND, 0), (HLK_IRQPEND.PEND, 0)] (fun y => { y with flights := [], cgen := [] }))) ∧
    (s.acts (.trailsDelivery id) d → d.arriving id = [f] → 0x60 ≤ id → id < 0x70 → n = (id - 0x60) / 2 → j = id % 2 → d.capSel n j = 1 →
      ((d.ringx n).caps j).length < 8 → completes (.trailsDelivery id) s (fun e =>
        (e.ringx n).caps j = (d.ringx n).caps j ++ [(d.ringx n).cnt] ∧ d.ringsBut e n ∧
        d.alters e [] (fun y => { y with flights := [], ring := [] }))) ∧
    (completes (.mclr id) s (fun e =>
      e.get TRL_CSTAT.MERGE 0 id = 0 ∧ s.dev.indexBut e TRL_CSTAT.MERGE 0 id ∧ s.dev.writes e [(TRL_CSTAT.MERGE, 0)]))

/-- The host's end of a queue (R369, R371 to R373, R377, R379, R439). A header word with room opens an item, each word of it is
stored at the producer pointer, and the last makes the item visible; without room the item is dropped with Q_FULL. POP
returns the oldest item's words in order, and stalls on an empty queue, which ends with an item or at the ceiling with
Q_EMPTY_TIMEOUT. A disabled queue and one of another endpoint answer a host link error. -/
def Obligations.HostQueueAccessCompletes : Prop :=
  ∀ (s : State) (q : QueueNo) (w : Word) (n t : Nat) (d : Dev),
    (s.acts (.qmxPush q w) d → d.qEn q = false → (d.qx q).left = none → completes (.qmxPush q w) s (fun e =>
      e.get QMX_Q_STAT.LAST q = stQCfg ∧ e.get HLK_ERR.COUNT = min (d.get HLK_ERR.COUNT + 1) 0xFFFF ∧
      (d.get HLK_ERR.COUNT = 0 → e.get HLK_ERR.CODE = stQCfg ∧ e.get HLK_ERRADDR.ADDR = 0x40050014 + 0x20 * q.val) ∧
      d.writes e [(QMX_Q_STAT.LAST, q), (HLK_ERR.COUNT, 0), (HLK_ERR.CODE, 0), (HLK_ERRADDR.ADDR, 0)])) ∧
    (s.acts (.qmxPush q w) d → d.qEn q = true → d.qProd q ≠ epHost → completes (.qmxPush q w) s (fun e =>
      e.get QMX_Q_STAT.LAST q = stQDenied ∧
      (d.get HLK_ERR.COUNT = 0 → e.get HLK_ERR.CODE = stQDenied ∧ e.get HLK_ERRADDR.ADDR = 0x40050014 + 0x20 * q.val) ∧
      d.writes e [(QMX_Q_STAT.LAST, q), (HLK_ERR.COUNT, 0), (HLK_ERR.CODE, 0), (HLK_ERRADDR.ADDR, 0)])) ∧
    (s.acts (.qmxPush q w) d → d.qEn q = true → d.qProd q = epHost → (d.qx q).left = none → w.getLsbD 31 = false →
      completes (.qmxPush q w) s (fun e => e = d)) ∧
    (s.acts (.qmxPush q w) d → d.qEn q = true → d.qProd q = epHost → (d.qx q).left = none → w.getLsbD 31 = true → n = w.toNat % 65536 →
      d.qFree q < n + 1 → completes (.qmxPush q w) s (fun e =>
        e.get QMX_Q_STAT.LAST q = stQFull ∧
        e.qx q = { d.qx q with left := if n = 0 then none else some n, drop := decide (0 < n) } ∧ d.queuesBut e q ∧
        d.alters e [(QMX_Q_STAT.LAST, q)] (fun y => { y with q := [] }))) ∧
    (s.acts (.qmxPush q w) d → d.qEn q = true → d.qProd q = epHost → (d.qx q).left = none → w.getLsbD 31 = true → n = w.toNat % 65536 →
      n + 1 ≤ d.qFree q → 0 < n → completes (.qmxPush q w) s (fun e =>
        e.qHolds q (d.qx q).prod [0x80000000 + w.toNat / 65536 % 256 * 65536 + n] ∧
        d.memBut e (d.qAddr q + 4 * ((d.qx q).prod % d.qSize q)) 4 ∧
        { e.qx q with mark := none } =
          { d.qx q with prod := (d.qx q).prod + 1, left := some n, drop := false, mark := none } ∧
        d.queuesBut e q ∧ d.alters e [] (fun y => { y with q := [], mem := [] }))) ∧
    (s.acts (.qmxPush q w) d → d.qEn q = true → d.qProd q = epHost → (d.qx q).left = none → w.getLsbD 31 = true → w.toNat % 65536 = 0 →
      1 ≤ d.qFree q → (d.qx q).stall = none → completes (.qmxPush q w) s (fun e =>
        e.qHolds q (d.qx q).prod [0x80000000 + w.toNat / 65536 % 256 * 65536] ∧
        d.memBut e (d.qAddr q + 4 * ((d.qx q).prod % d.qSize q)) 4 ∧
        { e.qx q with mark := none } = { d.qx q with
          prod := (d.qx q).prod + 1, vis := (d.qx q).prod + 1, drop := false, mark := none } ∧
        d.queuesBut e q ∧ d.alters e [] (fun y => { y with q := [], mem := [] }))) ∧
    (s.acts (.qmxPush q w) d → d.qEn q = true → d.qProd q = epHost → (d.qx q).left = some n → (d.qx q).drop = false → 1 < n →
      completes (.qmxPush q w) s (fun e =>
        e.qHolds q (d.qx q).prod [w.toNat] ∧
        d.memBut e (d.qAddr q + 4 * ((d.qx q).prod % d.qSize q)) 4 ∧
        { e.qx q with mark := none } = { d.qx q with prod := (d.qx q).prod + 1, left := some (n - 1), mark := none } ∧
        d.queuesBut e q ∧ d.alters e [] (fun y => { y with q := [], mem := [] }))) ∧
    (s.acts (.qmxPush q w) d → d.qEn q = true → d.qProd q = epHost → (d.qx q).left = some n → (d.qx q).drop = false → n ≤ 1 →
      (d.qx q).stall = none → completes (.qmxPush q w) s (fun e =>
        e.qHolds q (d.qx q).prod [w.toNat] ∧
        d.memBut e (d.qAddr q + 4 * ((d.qx q).prod % d.qSize q)) 4 ∧
        { e.qx q with mark := none } = { d.qx q with
          prod := (d.qx q).prod + 1, vis := (d.qx q).prod + 1, left := none, drop := false, mark := none } ∧
        d.queuesBut e q ∧ d.alters e [] (fun y => { y with q := [], mem := [] }))) ∧
    (s.acts (.qmxPush q w) d → d.qEn q = true → d.qProd q = epHost → (d.qx q).left = some n → (d.qx q).drop = true →
      completes (.qmxPush q w) s (fun e =>
        e.qx q = { d.qx q with left := if n ≤ 1 then none else some (n - 1), drop := decide (1 < n) } ∧
        d.queuesBut e q ∧ d.alters e [] (fun y => { y with q := [] }))) ∧
    (s.acts (.qmxPop q) d → n = (if d.qEn q = false then stQCfg else stQDenied) → d.qEn q = false ∨ d.qCons q ≠ epHost →
      completes (.qmxPop q) s (fun e =>
        e.hlk = { d.hlk with read := [0] } ∧ e.get QMX_Q_STAT.LAST q = n ∧
        (d.get HLK_ERR.COUNT = 0 → e.get HLK_ERR.CODE = n ∧ e.get HLK_ERRADDR.ADDR = 0x40050018 + 0x20 * q.val) ∧
        d.alters e [(QMX_Q_STAT.LAST, q), (HLK_ERR.COUNT, 0), (HLK_ERR.CODE, 0), (HLK_ERRADDR.ADDR, 0)]
          (fun y => { y with hlk := {} }))) ∧
    (s.acts (.qmxPop q) d → d.qEn q = true → d.qCons q = epHost → d.dmaTakes q = true → completes (.qmxPop q) s (fun e =>
        e.hlk = { d.hlk with read := [0] } ∧
        (d.get HLK_ERR.COUNT = 0 → e.get HLK_ERR.CODE = 0x0802 ∧ e.get HLK_ERRADDR.ADDR = 0x40050018 + 0x20 * q.val) ∧
        d.alters e [(HLK_ERR.COUNT, 0), (HLK_ERR.CODE, 0), (HLK_ERRADDR.ADDR, 0)] (fun y => { y with hlk := {} }))) ∧
    (s.acts (.qmxPop q) d → d.qEn q = true → d.qCons q = epHost → d.dmaTakes q = false → 0 < (d.qx q).rdLeft ∨ d.qReady q = true →
      n = (if (d.qx q).rdLeft = 0 then bitsOf (d.qHead q) 15 0 else (d.qx q).rdLeft - 1) →
      completes (.qmxPop q) s (fun e =>
        e.hlk = { d.hlk with read := [d.qHead q] } ∧ (e.qx q).cons = (d.qx q).cons + 1 ∧ (e.qx q).rdLeft = n ∧
        (e.qx q).freed = (if n = 0 then (d.qx q).cons + 1 else (d.qx q).freed) ∧ (e.qx q).stall = none ∧
        d.queuesBut e q ∧ d.alters e [] (fun y => { y with q := [], hlk := {} }))) ∧
    (s.acts (.qmxPop q) d → d.qEn q = true → d.qCons q = epHost → d.dmaTakes q = false → (d.qx q).rdLeft = 0 → d.qReady q = false →
      d.qCopying q = false → (d.qx q).stall = none → completes (.qmxPop q) s (fun e =>
        e.qx q = { d.qx q with stall := some d.tick } ∧ d.queuesBut e q ∧
        d.alters e [] (fun y => { y with q := [] }))) ∧
    (s.acts (.popCeiling q) d → (d.qx q).stall = none → completes (.popCeiling q) s (fun e => e = d)) ∧
    (s.acts (.popCeiling q) d → (d.qx q).stall = some t → n = 2 * (t + usTicks (max 1 (d.get QMX_Q_EP.CEIL q))) → (d.toClk n).qReady q = false →
      completes (.popCeiling q) s (fun e =>
        e.hlk = { d.hlk with read := [0] } ∧ e.get QMX_Q_STAT.LAST q = stQEmpty ∧ (e.qx q).stall = none ∧
        (d.get HLK_ERR.COUNT = 0 → e.get HLK_ERR.CODE = stQEmpty ∧ e.get HLK_ERRADDR.ADDR = 0x40050018 + 0x20 * q.val) ∧
        e.clk = max d.clk n ∧ d.queuesBut e q ∧
        d.keeps e [(QMX_Q_STAT.LAST, q), (HLK_ERR.COUNT, 0), (HLK_ERR.CODE, 0), (HLK_ERRADDR.ADDR, 0)] ∧
        { e.sansTime with q := [], hlk := {} } = { d.sansTime with q := [], hlk := {} }))

/-- The control of a queue (R368, R372, R374 to R376). FLUSH discards every item, and a partial one as torn; MARK saves the
consumer pointer of a queue the host does not consume, REWIND returns to it, and without a valid mark sets Q_MARK_LOST; a
pointer mismatch resets the queue to empty with Q_PTR_MISMATCH; a queue's place and endpoints are written only while it
is disabled, where they are allowed, and enabling it starts it empty. -/
def Obligations.QueueControlCompletes : Prop :=
  ∀ (s : State) (w : Writer) (q : QueueNo) (x : Word) (n : Nat) (ep torn : Bool) (d : Dev),
    (s.acts (.flush q) d → d.qEn q = false → completes (.flush q) s (fun e =>
      e.get QMX_Q_STAT.LAST q = 0 ∧ d.writes e [(QMX_Q_STAT.LAST, q)])) ∧
    (s.acts (.ptrMismatch q) d → d.qEn q = false → completes (.ptrMismatch q) s (fun e => e = d)) ∧
    (s.acts (.flush q) d → d.qEn q = true → d.qCopying q = false → torn = ((d.qx q).left.isSome && !(d.qx q).drop) →
      completes (.flush q) s (fun e =>
        (e.qx q).cons = (e.qx q).prod ∧ (e.qx q).vis = (e.qx q).prod ∧ (e.qx q).freed = (e.qx q).prod ∧
        (e.qx q).prod = (d.qx q).vis ∧ (e.qx q).mark = none ∧ (e.qx q).rdLeft = 0 ∧
        e.get QMX_Q_STAT.LAST q = (if torn then stQTorn else 0) ∧
        e.get QMX_Q_STAT.TORN q = (if torn then 1 else d.get QMX_Q_STAT.TORN q) ∧ d.queuesBut e q ∧
        d.alters e [(QMX_Q_STAT.LAST, q), (QMX_Q_STAT.TORN, q)] (fun y => { y with q := [] }))) ∧
    (s.acts (.mark q) d → d.qCons q = epHost → n = stQCfg → completes (.mark q) s (fun e => e.get QMX_Q_STAT.LAST q = n ∧ d.writes e [(QMX_Q_STAT.LAST, q)])) ∧
    (s.acts (.rewind q) d → d.qCons q = epHost → n = stQCfg → completes (.rewind q) s (fun e => e.get QMX_Q_STAT.LAST q = n ∧ d.writes e [(QMX_Q_STAT.LAST, q)])) ∧
    (s.acts (.mark q) d → d.qCons q ≠ epHost → completes (.mark q) s (fun e =>
      e.qx q = { d.qx q with
        mark := if (d.qx q).prod < (d.qx q).cons + d.qSize q then some (d.qx q).cons else none } ∧
      e.get QMX_Q_STAT.LAST q = 0 ∧ d.queuesBut e q ∧
      d.alters e [(QMX_Q_STAT.LAST, q)] (fun y => { y with q := [] }))) ∧
    (s.acts (.rewind q) d → d.qCons q ≠ epHost → (d.qx q).mark = some n → completes (.rewind q) s (fun e =>
      (e.qx q).cons = n ∧ (e.qx q).freed = n ∧ (e.qx q).vis = (d.qx q).vis ∧ (e.qx q).prod = (d.qx q).prod ∧
      (e.qx q).mark = some n ∧ e.get QMX_Q_STAT.LAST q = 0 ∧ d.queuesBut e q ∧
      d.alters e [(QMX_Q_STAT.LAST, q)] (fun y => { y with q := [] }))) ∧
    (s.acts (.rewind q) d → d.qCons q ≠ epHost → (d.qx q).mark = none → completes (.rewind q) s (fun e =>
      e.get QMX_Q_STAT.LAST q = stQMarkLost ∧ d.writes e [(QMX_Q_STAT.LAST, q)])) ∧
    (s.acts (.ptrMismatch q) d → d.qEn q = true → d.qCopying q = false → (d.qx q).stall = none →
      (∀ v : Nat, v < 16 → (d.vatx v).wait = .none) → completes (.ptrMismatch q) s (fun e =>
        (e.qx q).prod = 0 ∧ (e.qx q).cons = 0 ∧ (e.qx q).vis = 0 ∧ (e.qx q).freed = 0 ∧ (e.qx q).mark = none ∧
        e.get QMX_Q_STAT.LAST q = stQPtr ∧ e.get QMX_Q_STAT.PTRERR q = 1 ∧ d.told e evQmxPtr ∧
        d.logged e 2 0x05 q stQPtr ∧ d.queuesBut e q ∧
        d.alters e [(QMX_Q_STAT.LAST, q), (QMX_Q_STAT.PTRERR, q), (QMX_Q_STAT.TORN, q), (TRL_CH.SEEN, 0), (MGT_LOG_CNT.DROPPED, 0)]
          (fun y => { y with q := [], flights := [], log := {} }))) ∧
    (s.acts (.qmxConfigWrite w q ep x) d → q.val < 2 → byRanger w = false → completes (.qmxConfigWrite w q ep x) s (fun e =>
      e.get QMX_Q_STAT.LAST q = stQCfg ∧ d.writes e [(QMX_Q_STAT.LAST, q)])) ∧
    (s.acts (.qmxConfigWrite w q true x) d → 2 ≤ q.val ∨ byRanger w = true → d.qEn q = true ∨
        d.qPlaceOk q (d.get QMX_Q_BASE.BASE q) (d.get QMX_Q_BASE.LOG2SZ q) = false → completes (.qmxConfigWrite w q true x) s (fun e =>
      e.get QMX_Q_STAT.LAST q = stQCfg ∧ d.writes e [(QMX_Q_STAT.LAST, q)])) ∧
    (s.acts (.qmxConfigWrite w q true x) d → 2 ≤ q.val ∨ byRanger w = true → d.qEn q = false →
      d.qPlaceOk q (d.get QMX_Q_BASE.BASE q) (d.get QMX_Q_BASE.LOG2SZ q) = true → completes (.qmxConfigWrite w q true x) s (fun e =>
      e.get QMX_Q_EP.PROD q = bitsOf x.toNat 28 24 ∧ e.get QMX_Q_EP.CONS q = bitsOf x.toNat 20 16 ∧
      e.get QMX_Q_EP.CEIL q = bitsOf x.toNat 15 0 ∧
      d.writes e [(QMX_Q_EP.PROD, q), (QMX_Q_EP.CONS, q), (QMX_Q_EP.CEIL, q)])) ∧
    (s.acts (.qmxConfigWrite w q false x) d → 2 ≤ q.val ∨ byRanger w = true → d.qEn q = false →
      d.qPlaceOk q (bitsOf x.toNat 28 16) (bitsOf x.toNat 3 0) = false →
      completes (.qmxConfigWrite w q false x) s (fun e =>
        e.get QMX_Q_STAT.LAST q = stQCfg ∧ d.writes e [(QMX_Q_STAT.LAST, q)])) ∧
    (s.acts (.qmxConfigWrite w q false x) d → 2 ≤ q.val ∨ byRanger w = true → d.qEn q = false →
      d.qPlaceOk q (bitsOf x.toNat 28 16) (bitsOf x.toNat 3 0) = true →
      completes (.qmxConfigWrite w q false x) s (fun e =>
        e.get QMX_Q_BASE.BASE q = bitsOf x.toNat 28 16 ∧ e.get QMX_Q_BASE.LOG2SZ q = bitsOf x.toNat 3 0 ∧
        e.get QMX_Q_BASE.EN q = (if x.getLsbD 31 then 1 else d.get QMX_Q_BASE.EN q) ∧
        (x.getLsbD 31 = true → e.qx q = { left := (d.qx q).left, drop := (d.qx q).left.isSome }) ∧
        (x.getLsbD 31 = false → e.qx q = d.qx q) ∧ d.queuesBut e q ∧
        d.keepsBut e [HLK_DMA_STAT.STOPPED] [(QMX_Q_BASE.BASE, q), (QMX_Q_BASE.LOG2SZ, q), (QMX_Q_BASE.EN, q)] ∧
        { e.sans with q := [] } = { d.sans with q := [] })) ∧
    (s.acts (.qmxConfigWrite w q false x) d → 2 ≤ q.val ∨ byRanger w = true → d.qEn q = true → x.getLsbD 31 = true →
      completes (.qmxConfigWrite w q false x) s (fun e =>
        e.get QMX_Q_STAT.LAST q = stQCfg ∧ d.writes e [(QMX_Q_STAT.LAST, q)])) ∧
    (s.acts (.qmxConfigWrite w q false x) d → 2 ≤ q.val ∨ byRanger w = true → d.qEn q = true → x.getLsbD 31 = false →
      bitsOf x.toNat 28 16 = d.get QMX_Q_BASE.BASE q → bitsOf x.toNat 3 0 = d.get QMX_Q_BASE.LOG2SZ q →
      d.qCopying q = false → (d.qx q).stall = none → (∀ v : Nat, v < 16 → (d.vatx v).wait = .none) →
      completes (.qmxConfigWrite w q false x) s (fun e =>
        e.get QMX_Q_BASE.EN q = 0 ∧ (e.qx q).prod = 0 ∧ (e.qx q).cons = 0 ∧ (e.qx q).vis = 0 ∧ (e.qx q).mark = none ∧
        d.queuesBut e q ∧
        (∀ c : Nat, c < 16 → d.isSet HLK_DMA_CFG.EN c = true → d.get HLK_DMA_CFG.QUEUE c = q →
          e.get HLK_DMA_STAT.STOPPED c = 1) ∧
        d.keepsBut e [HLK_DMA_STAT.STOPPED] [(QMX_Q_BASE.EN, q), (QMX_Q_STAT.TORN, q)] ∧
        { e.sans with q := [] } = { d.sans with q := [] }))

/-- The host's part of the transaction engine (R184, R185, R190 to R192). FREE returns a closed handle, a pending one withdrawn;
ABORT closes an OPEN one with TXN_ABORTED; both refuse others with TXN_HANDLE. TXN_POOL is written while every handle is
FREE, within its limits. A pending completion whose queue has room moves into it with the AT at which it was closed. -/
def Obligations.TransactionHostCommandsComplete : Prop :=
  ∀ (s : State) (x : BitVec 8) (value : Word) (qn : QueueNo) (h q at' : Nat) (l : List (Nat × Nat)) (d : Dev),
    (s.acts (.txnFree x) d → h = x.toNat → d.hst h = 2 → completes (.txnFree x) s (fun e =>
      e.hst h = 0 ∧ e.get TXN_CNT1.WITHDRAWN = min (d.get TXN_CNT1.WITHDRAWN + 1) 0xFFFF ∧
      e.txPend = d.txPend.filter (fun p => p.1 != h) ∧ d.handlesBut e h ∧
      d.alters e [(TXN_HINFO0.STATE, 0), (TXN_CNT1.WITHDRAWN, 0)] (fun y => { y with txPend := [] }))) ∧
    (s.acts (.txnFree x) d → h = x.toNat → d.hst h = 3 → completes (.txnFree x) s (fun e =>
      e.hst h = 0 ∧ d.handlesBut e h ∧ d.writes e [(TXN_HINFO0.STATE, 0)])) ∧
    (s.acts (.txnFree x) d → d.hst x.toNat < 2 → completes (.txnFree x) s (fun e =>
      e.get TXN_STATUS.LAST_ERR = stTxnHandle ∧
      d.alters e [(TXN_STATUS.LAST_ERR, 0)] (fun y => { y with freeing := none }))) ∧
    (s.acts (.txnAbort x) d → h = x.toNat → d.hst h = 1 → q = d.get TXN_HINFO0.QUEUE 0 h → d.hasRoom q = true → d.txPend = [] →
      (d.qx q).stall = none → completes (.txnAbort x) s (fun e =>
        e.hst h = 3 ∧ e.get TXN_HINFO0.STATUS 0 h = stTxnAborted ∧
        e.get VAT_HOPEN.OPEN (d.get TXN_HINFO0.VAT 0 h) = (d.get VAT_HOPEN.OPEN (d.get TXN_HINFO0.VAT 0 h) - 1) % 512 ∧
        e.qHolds q (d.qx q).prod (qHeader 0xC1 7 :: e.completion h d.tick) ∧ (e.qx q).vis = (d.qx q).prod + 8 ∧
        d.memBut e (d.qAddr q) (4 * d.qSize q) ∧ d.queuesBut e q ∧ d.told e evTxnPosted ∧
        d.handlesBut e h ∧
        d.alters e [(TXN_HINFO0.STATE, 0), (TXN_HINFO0.STATUS, 0), (VAT_HOPEN.OPEN, d.get TXN_HINFO0.VAT 0 h), (TRL_CH.SEEN, 0)]
          (fun y => { y with mem := [], q := [], flights := [] }))) ∧
    (s.acts (.txnAbort x) d → h = x.toNat → d.hst h = 1 → d.hasRoom (d.get TXN_HINFO0.QUEUE 0 h) = false → completes (.txnAbort x) s (fun e =>
        e.hst h = 2 ∧ e.get TXN_HINFO0.STATUS 0 h = stTxnAborted ∧
        e.get VAT_HOPEN.OPEN (d.get TXN_HINFO0.VAT 0 h) = (d.get VAT_HOPEN.OPEN (d.get TXN_HINFO0.VAT 0 h) - 1) % 512 ∧
        e.txPend = d.txPend ++ [(h, d.tick)] ∧ e.get TXN_CNT1.PENDED = min (d.get TXN_CNT1.PENDED + 1) 0xFFFF ∧
        d.told e evTxnPended ∧ d.handlesBut e h ∧
        d.alters e [(TXN_HINFO0.STATE, 0), (TXN_HINFO0.STATUS, 0), (VAT_HOPEN.OPEN, d.get TXN_HINFO0.VAT 0 h),
          (TXN_CNT1.PENDED, 0), (TRL_CH.SEEN, 0)] (fun y => { y with txPend := [], flights := [] }))) ∧
    (s.acts (.txnAbort x) d → d.hst x.toNat ≠ 1 → completes (.txnAbort x) s (fun e =>
      e.get TXN_STATUS.LAST_ERR = stTxnHandle ∧ d.writes e [(TXN_STATUS.LAST_ERR, 0)])) ∧
    (s.acts (.txnPoolWrite value) d → handles.all (fun n => d.hst n == 0) = true → 64 ≤ bitsOf value.toNat 11 0 → bitsOf value.toNat 11 0 ≤ 3072 →
      bitsOf value.toNat 28 16 + bitsOf value.toNat 11 0 ≤ 8192 → completes (.txnPoolWrite value) s (fun e =>
        e.get TXN_POOL.BASE = bitsOf value.toNat 28 16 ∧ e.get TXN_POOL.SIZE = bitsOf value.toNat 11 0 ∧
        d.writes e [(TXN_POOL.BASE, 0), (TXN_POOL.SIZE, 0)])) ∧
    (s.acts (.txnPoolWrite value) d → handles.all (fun n => d.hst n == 0) = false ∨ bitsOf value.toNat 11 0 < 64 ∨ 3072 < bitsOf value.toNat 11 0 ∨
        8192 < bitsOf value.toNat 28 16 + bitsOf value.toNat 11 0 → completes (.txnPoolWrite value) s (fun e =>
      e.get TXN_STATUS.LAST_ERR = stTxnPoolCfg ∧ d.writes e [(TXN_STATUS.LAST_ERR, 0)])) ∧
    (s.acts (.pendingMove qn) d → d.txPend = [] ∨ d.hasRoom qn = false → completes (.pendingMove qn) s (fun e => e = d)) ∧
    (s.acts (.pendingMove qn) d → d.txPend = (h, at') :: l → d.get TXN_HINFO0.QUEUE 0 h = qn → d.hasRoom qn = true →
      l.all (fun p => d.get TXN_HINFO0.QUEUE 0 p.1 != qn.val && p.1 != h) = true →
      (d.qx qn).stall = none → completes (.pendingMove qn) s (fun e =>
        e.hst h = 3 ∧ e.txPend = l ∧ e.qHolds qn (d.qx qn).prod (qHeader 0xC1 7 :: d.completion h at') ∧
        (e.qx qn).vis = (d.qx qn).prod + 8 ∧ d.memBut e (d.qAddr qn) (4 * d.qSize qn) ∧
        d.queuesBut e qn ∧ d.told e evTxnPosted ∧ d.handlesBut e h ∧
        d.alters e [(TXN_HINFO0.STATE, 0), (TRL_CH.SEEN, 0)]
          (fun y => { y with mem := [], q := [], flights := [], txPend := [] })))

/-- The host's part of the ledger (R19, R197, R198, R201 to R203, R388). A command sets BUSY and OP, acts when it ends, after the
Vats' requests that wait, and ends with its RESULT and an event; another is refused while one runs. A CLEAR_BANK that ends
without clearing takes back the mark it set. RUN = 0 stops the engine once its request is served, RUN = 1 makes it rebuild
and serve again. LDG_SEED and LDG_OVF are written only while RUN is 0. During an entry RUN and the commands change nothing.
Where the island is missing each write of a register ends with an error and changes nothing else. -/
def Obligations.LedgerHostCommandsComplete : Prop :=
  ∀ (s : State) (c : Instr) (arg : BitVec 16) (run : Bool) (seed value : Word) (op a thr n : Nat) (reg : Reg) (d : Dev) (x0 : Dev),
    ((c, reg) ∈ [(Instr.ldgRead arg, Reg.LDG_CMD), (.ldgDelete arg, .LDG_CMD), (.clearBank arg, .LDG_CMD), (.age, .LDG_CMD),
        (.clearAll, .LDG_CMD), (.ldgRunWrite run, .LDG_CTRL), (.ldgSeedWrite seed, .LDG_SEED), (.ldgOvfWrite value, .LDG_OVF)] →
      s.dev.present 3 = false → s.dev.pwr.asleep = none → completes c s (fun e => s.dev.hostErred e stIsland reg.place.base ∧ e.sans = s.dev.sans)) ∧
    (s.acts c d → (c, op, a) = (.ldgRead arg, 1, arg.toNat) ∨ (c, op, a) = (.ldgDelete arg, 2, arg.toNat) ∨
        (c, op, a) = (.clearBank arg, 3, arg.toNat) ∨ (c, op, a) = (.age, 4, 0) ∨ (c, op, a) = (.clearAll, 5, 0) →
      d.pwr.entry = none → d.isSet LDG_CMDST.BUSY = false →
      op ≠ 3 ∨ 16 ≤ a ∨ d.isSet LDG_STATUS.READY = false → completes c s (fun e =>
        e.get LDG_CMDST.BUSY = 1 ∧ e.get LDG_CMDST.OP = op ∧
        e.ldg = { d.ldg with cmd := some (op, a, if op = 3 then d.get LDG_BANK.STALE else d.get LDG_AGE_LO.AGE_LO +
          2 ^ 32 * d.get LDG_AGE_HI.AGE_HI) } ∧
        d.alters e [(LDG_CMDST.BUSY, 0), (LDG_CMDST.OP, 0)] (fun y => { y with ldg := {} }))) ∧
    (s.acts (.clearBank arg) x0 → arg.toNat < 16 → x0.pwr.entry = none → x0.isSet LDG_CMDST.BUSY = false → x0.isSet LDG_STATUS.READY = true →
      completes (.clearBank arg) s (fun e =>
        e.get LDG_CMDST.BUSY = 1 ∧ e.get LDG_CMDST.OP = 3 ∧ e.stale arg.toNat = true ∧
        (∀ b : Nat, b < 16 → b ≠ arg.toNat → e.stale b = x0.stale b) ∧
        x0.alters e [(LDG_CMDST.BUSY, 0), (LDG_CMDST.OP, 0), (LDG_BANK.STALE, 0), (LDG_COUNT.USED, 0), (LDG_OVFST.USED, 0)]
          (fun y => { y with ldg := {} }))) ∧
    (s.acts c d → (c, op) = (.ldgRead arg, 1) ∨ (c, op) = (.ldgDelete arg, 2) ∨ (c, op) = (.clearBank arg, 3) ∨ (c, op) = (.age, 4) ∨
        (c, op) = (.clearAll, 5) → d.pwr.entry = none → d.isSet LDG_CMDST.BUSY = true → completes c s (fun e =>
      e.get LDG_STATUS.LAST_ERR = stLdgCmdBusy ∧ d.writes e [(LDG_STATUS.LAST_ERR, 0)])) ∧
    (s.acts c d → c ∈ [.ldgRead arg, .ldgDelete arg, .clearBank arg, .age, .clearAll, .ldgRunWrite run] → d.pwr.entry ≠ none →
      completes c s (fun e => e = d)) ∧
    (s.acts .ldgCmdDone x0 → x0.ldg.cmd = none → completes .ldgCmdDone s (fun e => e = x0)) ∧
    (s.acts .ldgCmdDone x0 → d = x0.serveAll → x0.ldg.cmd = some (1, a, thr) → d.isSet LDG_STATUS.READY = true → d.stale (a / 4096) = false →
      completes .ldgCmdDone s (fun e =>
        e.get LDG_CMDST.BUSY = 0 ∧ e.get LDG_CMDST.RESULT = 0 ∧ e.ldg = { d.ldg with cmd := none } ∧
        (∀ k : Nat, k < 16 → e.get LDG_RDATA.DATA 0 k = d.recWord a k) ∧ d.told e evLdgCmd ∧
        d.alters e [(PWR_DOM0.CLR, 0), (LDG_RDATA.DATA, 0), (LDG_CMDST.BUSY, 0), (LDG_CMDST.RESULT, 0), (TRL_CH.SEEN, 0)]
          (fun y => { y with ldg := {}, flights := [] }))) ∧
    (s.acts .ldgCmdDone x0 → d = x0.serveAll → x0.ldg.cmd = some (2, a, thr) → d.isSet LDG_STATUS.READY = true → d.stale (a / 4096) = false →
      completes .ldgCmdDone s (fun e =>
        e.get LDG_CMDST.BUSY = 0 ∧ e.get LDG_CMDST.RESULT = 0 ∧ e.ldg.cmd = none ∧ e.recValid a = false ∧
        e.recWord a 8 % 2 ^ 31 = d.recWord a 8 % 2 ^ 31 ∧ d.memBut e (cellar + 64 * a + 32) 4 ∧
        d.told e evLdgCmd ∧
        d.alters e [(PWR_DOM0.CLR, 0), (LDG_COUNT.USED, 0), (LDG_OVFST.USED, 0), (LDG_CMDST.BUSY, 0), (LDG_CMDST.RESULT, 0), (TRL_CH.SEEN, 0)]
          (fun y => { y with ldg := {}, flights := [], mem := [] }))) ∧
    (s.acts .ldgCmdDone x0 → d = x0.serveAll → x0.ldg.cmd = some (3, a, thr) → d.isSet LDG_STATUS.READY = true → a < 16 → completes .ldgCmdDone s (fun e =>
        e.get LDG_CMDST.BUSY = 0 ∧ e.get LDG_CMDST.RESULT = 0 ∧ e.ldg.cmd = none ∧ e.stale a = false ∧
        (∀ b : Nat, b < 16 → b ≠ a → e.stale b = d.stale b) ∧
        e.zeroed (cellar + 0x40000 * a) 0x40000 ∧
        d.memBut e (cellar + 0x40000 * a) 0x40000 ∧ d.told e evLdgCmd ∧
        d.alters e [(PWR_DOM0.CLR, 0), (LDG_BANK.STALE, 0), (LDG_COUNT.USED, 0), (LDG_OVFST.USED, 0), (LDG_CMDST.BUSY, 0), (LDG_CMDST.RESULT, 0),
          (TRL_CH.SEEN, 0)] (fun y => { y with ldg := {}, flights := [], mem := [] }))) ∧
    (s.acts .ldgCmdDone x0 → d = x0.serveAll → x0.ldg.cmd = some (4, a, thr) → d.isSet LDG_STATUS.READY = true → completes .ldgCmdDone s (fun e =>
        e.get LDG_CMDST.BUSY = 0 ∧ e.get LDG_CMDST.RESULT = 0 ∧ e.ldg.cmd = none ∧
        (∀ r : Nat, r ∈ d.validRecs → r < 65536 → e.recValid r = (d.recValid r &&
          (d.stale (r / 4096) || decide (thr ≤ d.recWord r 12 + 2 ^ 32 * d.recWord r 13)))) ∧
        d.memBut e cellar 0x400000 ∧ d.told e evLdgCmd ∧
        d.alters e [(PWR_DOM0.CLR, 0), (LDG_COUNT.USED, 0), (LDG_OVFST.USED, 0), (LDG_CMDST.BUSY, 0), (LDG_CMDST.RESULT, 0), (TRL_CH.SEEN, 0)]
          (fun y => { y with ldg := {}, flights := [], mem := [] }))) ∧
    (s.acts .ldgCmdDone x0 → d = x0.serveAll → x0.ldg.cmd = some (5, a, thr) → completes .ldgCmdDone s (fun e =>
        e.get LDG_CMDST.BUSY = 0 ∧ e.get LDG_CMDST.RESULT = 0 ∧ e.ldg.cmd = none ∧ e.get LDG_BANK.STALE = 0 ∧
        e.zeroed cellar 0x400000 ∧ e.get LDG_COUNT.USED = 0 ∧ e.get LDG_OVFST.USED = 0 ∧ d.memBut e cellar 0x400000 ∧
        d.told e evLdgCmd ∧
        d.alters e [(PWR_DOM0.CLR, 0), (LDG_BANK.STALE, 0), (LDG_COUNT.USED, 0), (LDG_OVFST.USED, 0), (LDG_CMDST.BUSY, 0), (LDG_CMDST.RESULT, 0),
          (TRL_CH.SEEN, 0)] (fun y => { y with ldg := {}, flights := [], mem := [] }))) ∧
    (s.acts .ldgCmdDone x0 → d = x0.serveAll → n = (if d.isSet LDG_STATUS.READY = false then stLdgStopped else if op = 3 then stLdgCmdArg else stLdgStale) →
      x0.ldg.cmd = some (op, a, thr) → 1 ≤ op → op ≤ 4 →
      d.isSet LDG_STATUS.READY = false ∨ (op = 3 ∧ 16 ≤ a) ∨ (op ≤ 2 ∧ d.stale (a / 4096) = true) →
      completes .ldgCmdDone s (fun e =>
        e.get LDG_CMDST.BUSY = 0 ∧ e.get LDG_CMDST.RESULT = n ∧ e.ldg = { d.ldg with cmd := none } ∧ d.told e evLdgCmd ∧
        (∀ b : Nat, b < 16 → e.stale b = (d.stale b && !(decide (op = 3) && decide (b = a) && !bitOf thr a))) ∧
        d.alters e ([(PWR_DOM0.CLR, 0), (LDG_CMDST.BUSY, 0), (LDG_CMDST.RESULT, 0), (TRL_CH.SEEN, 0)] ++
          if op = 3 then [(LDG_BANK.STALE, 0), (LDG_COUNT.USED, 0), (LDG_OVFST.USED, 0)] else [])
          (fun y => { y with ldg := {}, flights := [] }))) ∧
    (s.acts (.ldgRunWrite false) x0 → x0.pwr.entry = none → x0.ldg.phase = 0 → x0.ldg.reqs = [] → completes (.ldgRunWrite false) s (fun e =>
        e.get LDG_CTRL.RUN = 0 ∧ e.get LDG_STATUS.READY = 0 ∧ e.ldg = { x0.ldg with phase := 1, again := false } ∧
        x0.alters e [(LDG_CTRL.RUN, 0), (LDG_STATUS.READY, 0)] (fun y => { y with ldg := {} }))) ∧
    (s.acts (.ldgRunWrite true) x0 → x0.pwr.entry = none → x0.ldg.phase = 2 → completes (.ldgRunWrite true) s (fun e =>
        e.get LDG_CTRL.RUN = 1 ∧ e.get LDG_STATUS.STOPPED = 0 ∧ e.ldg = { x0.ldg with phase := 3 } ∧
        x0.alters e [(LDG_CTRL.RUN, 0), (LDG_STATUS.STOPPED, 0)] (fun y => { y with ldg := {} }))) ∧
    (s.acts (.ldgRunWrite true) x0 → x0.pwr.entry = none → x0.ldg.phase = 0 ∨ x0.ldg.phase = 3 → completes (.ldgRunWrite true) s (fun e =>
        e.get LDG_CTRL.RUN = 1 ∧ x0.writes e [(LDG_CTRL.RUN, 0)])) ∧
    (s.acts .ldgStopDone x0 → x0.ldg.phase ≠ 1 → completes .ldgStopDone s (fun e => e = x0)) ∧
    (s.acts .ldgStopDone x0 → x0.ldg.phase = 1 → x0.ldg.cmd = none → completes .ldgStopDone s (fun e =>
        e.ldg = { x0.ldg with phase := if x0.ldg.again then 3 else 2, again := false } ∧
        e.get LDG_STATUS.STOPPED = (if x0.ldg.again then x0.get LDG_STATUS.STOPPED else 1) ∧
        x0.alters e [(LDG_STATUS.STOPPED, 0)] (fun y => { y with ldg := {} }))) ∧
    (s.acts .ldgStopDone x0 → x0.ldg.phase = 1 → x0.ldg.cmd = some (op, a, thr) → op ≠ 5 → completes .ldgStopDone s (fun e =>
        e.ldg.cmd = none ∧ e.get LDG_CMDST.BUSY = 0 ∧ e.get LDG_CMDST.RESULT = stLdgStopped ∧ x0.told e evLdgCmd ∧
        (∀ b : Nat, b < 16 → e.stale b = (x0.stale b && !(decide (op = 3) && decide (b = a) && !bitOf thr a))) ∧
        x0.alters e ([(LDG_STATUS.STOPPED, 0), (LDG_CMDST.BUSY, 0), (LDG_CMDST.RESULT, 0), (TRL_CH.SEEN, 0)] ++
          if op = 3 then [(LDG_BANK.STALE, 0), (LDG_COUNT.USED, 0), (LDG_OVFST.USED, 0)] else [])
          (fun y => { y with ldg := {}, flights := [] }))) ∧
    (s.acts .ldgRebuildDone x0 → x0.ldg.phase ≠ 3 → completes .ldgRebuildDone s (fun e => e = x0)) ∧
    (s.acts .ldgRebuildDone x0 → x0.ldg.phase = 3 → completes .ldgRebuildDone s (fun e =>
        e.ldg = { x0.ldg with phase := 0 } ∧ e.get LDG_STATUS.READY = 1 ∧
        e.get LDG_OVFST.USED = x0.ovfUsed.length % 2 ^ 12 ∧
        x0.alters e [(LDG_STATUS.READY, 0), (LDG_COUNT.USED, 0), (LDG_OVFST.USED, 0)] (fun y => { y with ldg := {} }))) ∧
    (s.acts (.ldgSeedWrite seed) x0 → x0.isSet LDG_CTRL.RUN = true → completes (.ldgSeedWrite seed) s (fun e => e = x0)) ∧
    (s.acts (.ldgSeedWrite seed) x0 → x0.isSet LDG_CTRL.RUN = false → completes (.ldgSeedWrite seed) s (fun e =>
      e.get LDG_SEED.SEED = seed.toNat ∧ x0.writes e [(LDG_SEED.SEED, 0)])) ∧
    (s.acts (.ldgOvfWrite value) x0 → x0.isSet LDG_CTRL.RUN = false → x0.ovfUsed = [] → bitsOf value.toNat 28 16 + 2 * bitsOf value.toNat 11 0 ≤ 8192 →
      completes (.ldgOvfWrite value) s (fun e =>
        e.get LDG_OVF.BASE = bitsOf value.toNat 28 16 ∧ e.get LDG_OVF.SLOTS = bitsOf value.toNat 11 0 ∧
        x0.writes e [(LDG_OVF.BASE, 0), (LDG_OVF.SLOTS, 0)])) ∧
    (s.acts (.ldgOvfWrite value) x0 → x0.isSet LDG_CTRL.RUN = true ∨ x0.ovfUsed ≠ [] ∨ 8192 < bitsOf value.toNat 28 16 + 2 * bitsOf value.toNat 11 0 →
      completes (.ldgOvfWrite value) s (fun e =>
        e.get LDG_STATUS.LAST_ERR = stLdgCmdArg ∧ x0.writes e [(LDG_STATUS.LAST_ERR, 0)]))

/-- Entry to GLADE and FALLOW (R204, R343, R352, R386 to R388, R392). A request is refused with its status where the device is
not at rest, the target is not a sleep state or no wake source is enabled; else the ledger engine stops, the signatures of the
retained banks are stored, AT and heartwood are latched with the register file, and past the point of no return the
domains lose power. Before it, a cancel restores RUN and tells. -/
def Obligations.PowerEntryCompletes : Prop :=
  ∀ (s : State) (target : BitVec 2) (a n k t : Nat) (x : Entry) (d : Dev),
    (s.acts (.pwrEnter target) d → d.pwr.entry = some x → x.auto ≠ some d.tick ∨ target = 0 ∨ target = 3 ∨ d.sources target.toNat = 0 →
      completes (.pwrEnter target) s (fun e => e.get PWR_STATUS.LAST_ERR = stPwrBusy ∧ d.writes e [(PWR_STATUS.LAST_ERR, 0)])) ∧
    (s.acts (.pwrEnter target) d → d.pwr.entry = some x → x.auto = some d.tick → target = 1 ∨ target = 2 → d.sources target.toNat ≠ 0 →
      completes (.pwrEnter target) s (fun e =>
        e.pwr = { d.pwr with entry := some { x with target := target.toNat, auto := none } } ∧
        e.get PWR_CTRL.TARGET = target.toNat ∧ d.alters e [(PWR_CTRL.TARGET, 0)] (fun y => { y with pwr := {} }))) ∧
    (s.acts (.pwrEnter target) d → d.entering = false → d.entryIdle = false → completes (.pwrEnter target) s (fun e =>
      e.get PWR_CTRL.TARGET = target.toNat ∧ e.get PWR_STATUS.LAST_ERR = stPwrBusy ∧
      d.writes e [(PWR_CTRL.TARGET, 0), (PWR_STATUS.LAST_ERR, 0)])) ∧
    (s.acts (.pwrEnter target) d → d.entering = false → d.entryIdle = true → target = 0 ∨ target = 3 →
      completes (.pwrEnter target) s (fun e =>
        e.get PWR_CTRL.TARGET = target.toNat ∧ e.get PWR_STATUS.LAST_ERR = stPwrTarget ∧
        d.writes e [(PWR_CTRL.TARGET, 0), (PWR_STATUS.LAST_ERR, 0)])) ∧
    (s.acts (.pwrEnter target) d → d.entering = false → d.entryIdle = true → target = 1 ∨ target = 2 → d.sources target.toNat = 0 →
      completes (.pwrEnter target) s (fun e =>
        e.get PWR_CTRL.TARGET = target.toNat ∧ e.get PWR_STATUS.LAST_ERR = stPwrNoWake ∧
        d.writes e [(PWR_CTRL.TARGET, 0), (PWR_STATUS.LAST_ERR, 0)])) ∧
    (s.acts (.pwrEnter target) d → d.entering = false → d.entryIdle = true → target = 1 ∨ target = 2 → d.sources target.toNat ≠ 0 →
      d.ldg.phase = 0 → d.ldg.reqs = [] → completes (.pwrEnter target) s (fun e =>
        e.pwr = { d.pwr with entry := some { target := target.toNat, run := d.isSet LDG_CTRL.RUN }, wakes := [], sigs := [] } ∧
        e.get PWR_CTRL.TARGET = target.toNat ∧ e.powerState = 2 ∧
        e.get LDG_CTRL.RUN = 0 ∧ e.get LDG_STATUS.READY = 0 ∧ e.ldg.phase = 1 ∧
        d.alters e [(PWR_CTRL.TARGET, 0), (LDG_CTRL.RUN, 0), (LDG_STATUS.READY, 0)] (fun y => { y with pwr := {}, ldg := {} }))) ∧
    (s.acts .autoEntry d → d.get PWR_POLICY.AUTO = a → a = 1 ∨ a = 2 → d.phase = 1 → d.entryIdle = true → d.entering = false →
      d.sources a ≠ 0 → d.ldg.phase = 0 → d.ldg.reqs = [] → t = max d.tick d.autoTick → completes .autoEntry s (fun e =>
        e.pwr = { d.pwr with
          entry := some { target := a, run := d.isSet LDG_CTRL.RUN, auto := some t }, wakes := [], sigs := [] } ∧
        e.tick = t ∧ e.powerState = 2 ∧ e.get LDG_CTRL.RUN = 0 ∧ e.get LDG_STATUS.READY = 0 ∧ e.ldg.phase = 1 ∧
        d.keeps e [(LDG_CTRL.RUN, 0), (LDG_STATUS.READY, 0)] ∧
        { e.sansTime with pwr := {}, ldg := {} } = { d.sansTime with pwr := {}, ldg := {} })) ∧
    (s.acts .autoEntry d → d.get PWR_POLICY.AUTO = a → a = 1 ∨ a = 2 → d.phase = 1 → d.entryIdle = true → d.entering = false →
      d.sources a = 0 → completes .autoEntry s (fun e =>
        e.get PWR_STATUS.LAST_ERR = stPwrNoWake ∧ e.tick = max d.tick d.autoTick ∧
        d.keeps e [(PWR_STATUS.LAST_ERR, 0)] ∧ e.sansTime = d.sansTime)) ∧
    (s.acts .autoEntry d → (d.get PWR_POLICY.AUTO ≠ 1 ∧ d.get PWR_POLICY.AUTO ≠ 2) ∨ d.phase ≠ 1 ∨ d.entryIdle = false ∨
        d.entering = true → completes .autoEntry s (fun e => e = d)) ∧
    (s.acts .pwrCancel d → d.pwr.entry = none → completes .pwrCancel s (fun e => e = d)) ∧
    (s.acts .pwrCancel d → d.pwr.entry = some x → x.held = [] → x.run = true → d.ldg.phase = 2 → completes .pwrCancel s (fun e =>
        e.pwr = { d.pwr with entry := none, wakes := [], sigs := [], latch := [] } ∧ e.get LDG_CTRL.RUN = 1 ∧
        e.ldg.phase = 3 ∧ e.get PWR_CNT.CANCELS = min (d.get PWR_CNT.CANCELS + 1) 0xFFFF ∧ d.told e evPwrCancel ∧
        d.logged e 2 0x01 0 stPwrCancelled ∧ e.powerState = d.idleState ∧
        d.alters e [(LDG_CTRL.RUN, 0), (LDG_STATUS.STOPPED, 0), (PWR_CNT.CANCELS, 0), (TRL_CH.SEEN, 0),
          (MGT_LOG_CNT.DROPPED, 0)] (fun y => { y with pwr := {}, ldg := {}, flights := [], log := {} }))) ∧
    (s.acts .pwrCancel d → d.pwr.entry = some x → x.held = [] → x.run = false → completes .pwrCancel s (fun e =>
        e.pwr = { d.pwr with entry := none, wakes := [], sigs := [], latch := [] } ∧
        e.get PWR_CNT.CANCELS = min (d.get PWR_CNT.CANCELS + 1) 0xFFFF ∧ d.told e evPwrCancel ∧
        d.logged e 2 0x01 0 stPwrCancelled ∧ e.powerState = d.idleState ∧
        d.alters e [(PWR_CNT.CANCELS, 0), (TRL_CH.SEEN, 0), (MGT_LOG_CNT.DROPPED, 0)]
          (fun y => { y with pwr := {}, flights := [], log := {} }))) ∧
    (s.acts .signaturesStored d → d.pwr.entry = none → completes .signaturesStored s (fun e => e = d)) ∧
    (s.acts .signaturesStored d → d.pwr.entry = some x → x.stage ≠ 0 ∨ d.ldg.phase ≠ 2 → completes .signaturesStored s (fun e => e = d)) ∧
    (s.acts .signaturesStored d → d.pwr.entry = some x → x.stage = 0 → d.ldg.phase = 2 → completes .signaturesStored s (fun e =>
        e.pwr = { d.pwr with entry := some { x with stage := 1 }, sigs := d.retSel.map (fun b => (b, d.bankSig b)) } ∧
        d.alters e [] (fun y => { y with pwr := {} }))) ∧
    (s.acts .entryLatch d → d.pwr.entry = none → completes .entryLatch s (fun e => e = d)) ∧
    (s.acts .entryLatch d → d.pwr.entry = some x → x.stage ≠ 1 → completes .entryLatch s (fun e => e = d)) ∧
    (s.acts .entryLatch d → d.pwr.entry = some x → x.stage = 1 → x.target = 2 ∨ d.wakeCompares = [] → completes .entryLatch s (fun e =>
        e.get AON_ENT_W0.AT_LO = d.tick % 2 ^ 32 ∧ e.get AON_ENT_W1.AT_HI = d.tick / 2 ^ 32 % 2 ^ 32 ∧
        e.get AON_ENT_W2.ANC_LO = d.hw % 2 ^ 32 ∧ e.get AON_ENT_W3.ANC_HI = d.hw / 2 ^ 32 % 2 ^ 16 ∧
        e.get AON_HWCMP_W1.VALID = 0 ∧
        e.pwr = { d.pwr with entry := some { x with stage := 2 }, latch := e.regs } ∧
        d.alters e [(AON_ENT_W0.AT_LO, 0), (AON_ENT_W1.AT_HI, 0), (AON_ENT_W2.ANC_LO, 0), (AON_ENT_W3.ANC_HI, 0),
          (AON_HWCMP_W1.VALID, 0)] (fun y => { y with pwr := {} }))) ∧
    (s.acts .entryLatch d → d.pwr.entry = some x → x.stage = 1 → x.target = 1 → d.wakeCompares = [(n, k, some a)] → n < 8 → k < 4 →
      completes .entryLatch s (fun e =>
        e.get AON_HWCMP_W1.VALID = 1 ∧ e.get AON_HWCMP_W1.RING = n ∧ e.get AON_HWCMP_W1.CMP = k ∧
        e.get AON_HWCMP_W0.HWC_LO = (d.hw + a) % 2 ^ 32 ∧ e.get AON_HWCMP_W1.HWC_HI = (d.hw + a) / 2 ^ 32 % 2 ^ 16 ∧
        e.pwr = { d.pwr with entry := some { x with stage := 2 }, latch := e.regs } ∧
        d.alters e [(AON_ENT_W0.AT_LO, 0), (AON_ENT_W1.AT_HI, 0), (AON_ENT_W2.ANC_LO, 0), (AON_ENT_W3.ANC_HI, 0),
          (AON_HWCMP_W1.VALID, 0), (AON_HWCMP_W1.RING, 0), (AON_HWCMP_W1.CMP, 0), (AON_HWCMP_W0.HWC_LO, 0), (AON_HWCMP_W1.HWC_HI, 0)]
          (fun y => { y with pwr := {} }))) ∧
    (s.acts .pointOfNoReturn d → d.pwr.entry = none → completes .pointOfNoReturn s (fun e => e = d)) ∧
    (s.acts .pointOfNoReturn d → d.pwr.entry = some x → x.stage ≠ 2 → completes .pointOfNoReturn s (fun e => e = d)) ∧
    (s.acts .pointOfNoReturn d → d.pwr.entry = some x → x.stage = 2 → completes .pointOfNoReturn s (fun e =>
        e.pwr = { d.pwr with
          entry := none, asleep := some x.target, missed := [], tempAt := d.hw + d.latched.tempPeriod } ∧
        e.get PWR_CNT.ENTRIES = min (d.get PWR_CNT.ENTRIES + 1) 0xFFFF ∧
        e.get AON_RET_STATUS.RETAINED = d.get AON_RET_SEL.BANKS % 2 ^ 16 ∧ e.get HLK_STATUS.LINK = 0 ∧
        d.alters e [(PWR_CNT.ENTRIES, 0), (AON_RET_STATUS.RETAINED, 0), (HLK_STATUS.LINK, 0)] (fun y => { y with pwr := {} }))) ∧
    (s.acts .domainsOff d → d.pwr.asleep = none ∨ d.pwr.off = true → completes .domainsOff s (fun e => e = d)) ∧
    (s.acts .domainsOff d → d.pwr.asleep ≠ none → d.pwr.off = false → d.pwr.wakes = [] → completes .domainsOff s (fun e =>
        e.pwr = { d.pwr with off := true } ∧
        d.keepsReset e RKey.aonIsland [SYS_RESET_CAUSE.DEV_COUNT] ∧
        d.keepsMem e (fun b => d.pwr.sigs.any (fun y => decide (0x04000000 + 0x40000 * y.1 ≤ b) &&
          decide (b < 0x04040000 + 0x40000 * y.1))) ∧
        e.hw = d.hw ∧ e.vat = [] ∧ e.ch = [] ∧ e.q = [] ∧ e.flights = [])) ∧
    (s.acts .domainsOff d → d.pwr.asleep ≠ none → d.pwr.off = false → d.pwr.wakes = [(k, a, t)] → k < 8 → completes .domainsOff s (fun e =>
        e.get AON_WAKE_REC0.VALID = 1 ∧ e.get AON_WAKE_REC0.SRC = k ∧ e.get AON_WAKE_REC0.MASK = 2 ^ k ∧
        e.get AON_WAKE_REC3.DETAIL = a % 2 ^ 32 ∧ e.get AON_WAKE_REC1.HW_LO = t % 2 ^ 32 ∧
        e.get AON_WAKE_REC2.HW_HI = t / 2 ^ 32 % 2 ^ 16 ∧
        e.rst.asserted = true ∧ e.rst.causes = 2 ^ rcWake ∧ e.rst.wakeMask = some (2 ^ k)))

/-- Wakes (R285, R301, R352, R389 to R392, R395). In GLADE and FALLOW a source that is enabled for the state wakes the device: the
wake record names the lowest-numbered one with its detail, the mask names all, and the device is reset with cause WAKE; until that
reset is released a further source enters the mask. A source that is not enabled changes nothing but heartwood in sleep, and one while
the device is awake nothing; during an entry in SERVICE it cancels the entry. Temperature samples in GLADE come at their period. -/
def Obligations.WakesComplete : Prop :=
  ∀ (s : State) (sources : BitVec 8) (detail : Word) (temp : BitVec 8) (t k m h : Nat) (x : Entry),
    (s.dev.awake → completes (.wake sources detail) s (fun e => e = s.dev)) ∧
    (s.dev.awake → completes .wakenPin s (fun e => e = s.dev)) ∧
    (s.dev.awake → completes .wakeTimer s (fun e => e = s.dev)) ∧
    (s.dev.awake → completes .hwcmpWake s (fun e => e = s.dev)) ∧
    (s.dev.awake → completes (.gladeTempSample temp) s (fun e => e = s.dev)) ∧
    (s.dev.sleeps t → m = Nat.land sources.toNat (s.dev.sources t) → bitOf m k = true → (∀ j : Nat, j < k → bitOf m j = false) →
      completes (.wake sources detail) s (fun e =>
        s.dev.woken e k detail.toNat ∧ e.get AON_WAKE_REC0.MASK = m ∧ e.rst.wakeMask = some m)) ∧
    (s.dev.sleeps t → Nat.land sources.toNat (s.dev.sources t) = 0 → completes (.wake sources detail) s (fun e =>
      e.regs = s.dev.regs ∧ e.sansTime = { s.dev.sansTime with fresh := s.dev.fresh + 1 })) ∧
    (s.dev.sleeps t → bitOf (s.dev.sources t) 6 = true → completes .wakenPin s (fun e =>
      s.dev.woken e 6 0 ∧ e.get AON_WAKE_REC0.MASK = 0x40)) ∧
    (s.dev.sleeps t → s.dev.latched.isSet PWR_WT_HI.EN = true → bitOf (s.dev.sources t) 5 = true → completes .wakeTimer s (fun e =>
      s.dev.woken e 5 0 ∧ e.hw = max s.dev.hw (s.dev.latched.get PWR_WT_LO.WT_LO + 2 ^ 32 * s.dev.latched.get PWR_WT_HI.WT_HI))) ∧
    (s.dev.sleeps t → s.dev.latched.isSet PWR_WT_HI.EN = false → completes .wakeTimer s (fun e => e = s.dev)) ∧
    (s.dev.sleeps 1 → s.dev.isSet AON_HWCMP_W1.VALID = true → bitOf (s.dev.sources 1) 3 = true → completes .hwcmpWake s (fun e =>
      s.dev.woken e 3 (s.dev.get AON_HWCMP_W1.RING * 16 + s.dev.get AON_HWCMP_W1.CMP) ∧
      e.hw = max s.dev.hw (s.dev.get AON_HWCMP_W0.HWC_LO + 2 ^ 32 * s.dev.get AON_HWCMP_W1.HWC_HI))) ∧
    (s.dev.sleeps 2 → completes .hwcmpWake s (fun e => e = s.dev)) ∧
    (s.dev.sleeps 2 → completes (.gladeTempSample temp) s (fun e => e = s.dev)) ∧
    (s.dev.sleeps 1 → temp.toInt < signedOf 8 (s.dev.latched.get PWR_GTEMP.LO) ∨
        signedOf 8 (s.dev.latched.get PWR_GTEMP.HI) ≤ temp.toInt → bitOf (s.dev.sources 1) 4 = true →
      completes (.gladeTempSample temp) s (fun e => s.dev.woken e 4 temp.toNat ∧ e.hw = max s.dev.hw s.dev.pwr.tempAt)) ∧
    (s.dev.sleeps 1 → signedOf 8 (s.dev.latched.get PWR_GTEMP.LO) ≤ temp.toInt →
      temp.toInt < signedOf 8 (s.dev.latched.get PWR_GTEMP.HI) → completes (.gladeTempSample temp) s (fun e =>
        e.hw = max s.dev.hw s.dev.pwr.tempAt ∧
        e.pwr = { s.dev.pwr with
          tempAt := s.dev.pwr.tempAt + 32768 * max 1 (s.dev.latched.get PWR_GTEMP.INTERVAL) } ∧
        e.regs = s.dev.regs ∧ { e.sansTime with pwr := {} } = { s.dev.sansTime with pwr := {} })) ∧
    (s.dev.rst.asserted = false → s.dev.pwr.asleep = none → s.dev.pwr.entry = some x → x.held = [] → x.run = false →
      s.dev.phase = 1 → bitOf (s.dev.sources x.target) 6 = true → completes .wakenPin s (fun e =>
        e.pwr = { s.dev.pwr with entry := none, wakes := [], sigs := [], latch := [] } ∧
        e.get PWR_CNT.CANCELS = min (s.dev.get PWR_CNT.CANCELS + 1) 0xFFFF ∧ s.dev.told e evPwrCancel ∧
        s.dev.logged e 2 0x01 0 stPwrCancelled ∧
        s.dev.alters e [(PWR_CNT.CANCELS, 0), (TRL_CH.SEEN, 0), (MGT_LOG_CNT.DROPPED, 0)]
          (fun y => { y with pwr := {}, flights := [], log := {} }))) ∧
    (s.dev.rst.asserted = false → s.dev.pwr.asleep = none → s.dev.pwr.entry = some x → s.dev.phase ≠ 1 →
      bitOf (s.dev.sources x.target) 6 = true → completes .wakenPin s (fun e =>
        e.pwr = { s.dev.pwr with wakes := s.dev.pwr.wakes ++ [(6, 0, s.dev.hw)] } ∧
        s.dev.alters e [] (fun y => { y with pwr := {} }))) ∧
    (s.dev.rst.asserted = true → s.dev.pwr.asleep = none → s.dev.rst.slept = some (t, h) → bitOf s.dev.rst.causes 7 = true →
      bitOf (s.dev.latched.sources t) 6 = true →
      s.dev.hw ≠ s.dev.get AON_WAKE_REC1.HW_LO + 2 ^ 32 * s.dev.get AON_WAKE_REC2.HW_HI →
      m = Nat.lor (s.dev.get AON_WAKE_REC0.MASK) 0x40 → completes .wakenPin s (fun e =>
        e.get AON_WAKE_REC0.MASK = m ∧ e.rst = { s.dev.rst with wakeMask := some m } ∧
        s.dev.alters e [(AON_WAKE_REC0.MASK, 0)] (fun y => { y with rst := {} })))

/-- Idle gating, retention refresh and the end of recovery (R381 to R383, R392, R393, R395). A domain that has been idle for its time is
gated at that tick: only its state field changes, a chain and the HF and ACT ports going to OFF in 1 µs; an access wakes it: they go
to READY in their times, and an access in the very tick of the gating keeps the domain as it was. PWR_STATUS tells whether every domain
has power. -/
def Obligations.DomainsComplete : Prop :=
  ∀ (s : State) (dom : Domain) (c : ChainNo) (m : Fin 4) (n : Fin 2) (k : Fin 16) (temp : BitVec 8) (x : BitVec 16) (t l : Nat) (d : Dev),
    (s.acts (.domainGate dom) d → d.mayGate dom = false → completes (.domainGate dom) s (fun e => e = d)) ∧
    (s.acts (.domainGate dom) d → d.mayGate dom = true → completes (.domainGate dom) s (fun e =>
      d.keepsBut e [SYN_F_STATUS.LOCK, PWR_DOM1.SYN, HFR_STATUS.STATE, HFR_STATUS.PLL_LOCK, ACT_STATUS.STATE,
        PWR_DOM1.UNITS, PWR_DOM0.CLR] [] ∧ e.tick = max d.tick (d.idleFrom dom + d.idleTime dom) ∧
      { e.sansTime with ch := [], gated := none } = { d.sansTime with ch := [], gated := none })) ∧
    (s.acts (.domainGate (.uhf c)) d → d.mayGate (.uhf c) = true → (d.chx c).goal = none → t = max d.tick (d.idleFrom (.uhf c) + d.idleTime (.uhf c)) →
      completes (.domainGate (.uhf c)) s (fun e =>
        e.tick = t ∧ e.gated = some (domNo (.uhf c), t, 0) ∧ e.chx c = { d.chx c with target := some csOff, goal := some csOff, due := t + usTicks 1 } ∧ d.chsBut e c ∧
        d.keeps e [] ∧ { e.sansTime with ch := [], gated := none } = { d.sansTime with ch := [], gated := none })) ∧
    (s.acts (.domainGate (.syn m)) d → d.mayGate (.syn m) = true → d.entering = false → d.rst.asserted = false → t = max d.tick (d.idleFrom (.syn m) + d.idleTime (.syn m)) →
      completes (.domainGate (.syn m)) s (fun e =>
        e.tick = t ∧ e.gated = some (domNo (.syn m), t, d.get SYN_F_STATUS.LOCK m) ∧ e.get SYN_F_STATUS.LOCK m = 0 ∧ bitOf (e.get PWR_DOM1.SYN) m = false ∧ e.powerState = 1 ∧
        d.keeps e [(SYN_F_STATUS.LOCK, m.val), (PWR_DOM1.SYN, 0)] ∧ { e.sansTime with gated := none } = { d.sansTime with gated := none })) ∧
    (s.acts (.domainGate .hfr) d → d.mayGate .hfr = true → d.pst 9 = 1 → (d.chx 9).goal = none → t = max d.tick (d.idleFrom .hfr + d.idleTime .hfr) →
      completes (.domainGate .hfr) s (fun e =>
        e.tick = t ∧ e.gated = some (domNo .hfr, t, 0) ∧ e.chx 9 = { d.chx 9 with goal := some 0, due := t + usTicks 1 } ∧ d.chsBut e 9 ∧
        d.keeps e [] ∧ { e.sansTime with ch := [], gated := none } = { d.sansTime with ch := [], gated := none })) ∧
    (s.acts (.domainGate .act) d → d.mayGate .act = true → d.pst 10 = 1 → (d.chx 10).goal = none → t = max d.tick (d.idleFrom .act + d.idleTime .act) →
      completes (.domainGate .act) s (fun e =>
        e.tick = t ∧ e.gated = some (domNo .act, t, 0) ∧ e.chx 10 = { d.chx 10 with goal := some 0, due := t + usTicks 1 } ∧ d.chsBut e 10 ∧
        d.keeps e [] ∧ { e.sansTime with ch := [], gated := none } = { d.sansTime with ch := [], gated := none })) ∧
    (s.acts (.domainGate .msh) d → d.mayGate .msh = true → d.entering = false → d.rst.asserted = false → t = max d.tick (d.idleFrom .msh + d.idleTime .msh) →
      completes (.domainGate .msh) s (fun e =>
        e.tick = t ∧ e.gated = some (domNo .msh, t, 0) ∧ bitOf (e.get PWR_DOM1.UNITS) 2 = false ∧ e.powerState = 1 ∧
        d.keeps e [(PWR_DOM1.UNITS, 0)] ∧ { e.sansTime with gated := none } = { d.sansTime with gated := none })) ∧
    (s.acts (.domainGate (.spe n)) d → d.mayGate (.spe n) = true → d.entering = false → d.rst.asserted = false → t = max d.tick (d.idleFrom (.spe n) + d.idleTime (.spe n)) →
      completes (.domainGate (.spe n)) s (fun e =>
        e.tick = t ∧ e.gated = some (domNo (.spe n), t, 0) ∧ bitOf (e.get PWR_DOM1.UNITS) (3 + n.val) = false ∧ e.powerState = 1 ∧
        d.keeps e [(PWR_DOM1.UNITS, 0)] ∧ { e.sansTime with gated := none } = { d.sansTime with gated := none })) ∧
    (s.acts (.domainGate (.clr k)) d → d.mayGate (.clr k) = true → d.entering = false → d.rst.asserted = false → t = max d.tick (d.idleFrom (.clr k) + d.idleTime (.clr k)) →
      completes (.domainGate (.clr k)) s (fun e =>
        e.tick = t ∧ e.gated = some (domNo (.clr k), t, 0) ∧ bitOf (e.get PWR_DOM0.CLR) k = false ∧ e.powerState = 1 ∧
        d.keeps e [(PWR_DOM0.CLR, 0)] ∧ { e.sansTime with gated := none } = { d.sansTime with gated := none })) ∧
    (s.acts (.domainWake (.uhf c)) d → d.gatedNow (.uhf c) = false → d.cst c = csOff → (d.chx c).goal = none → completes (.domainWake (.uhf c)) s (fun e =>
      e.chx c = { d.chx c with target := some 1, goal := some csReady, due := d.tick + usTicks 35 } ∧ d.chsBut e c ∧ d.alters e [] (fun y => { y with ch := [] }))) ∧
    (s.acts (.domainWake (.syn m)) d → d.gatedNow (.syn m) = false → completes (.domainWake (.syn m)) s (fun e =>
      bitOf (e.get PWR_DOM1.SYN) m = true ∧ d.writes e [(PWR_DOM1.SYN, 0)])) ∧
    (s.acts (.domainWake .hfr) d → d.gatedNow .hfr = false → d.get HFR_STATUS.STATE = 0 → (d.chx 9).goal = none → completes (.domainWake .hfr) s (fun e =>
      e.chx 9 = { d.chx 9 with goal := some 1, due := d.tick + portReadyTime 9 } ∧ d.chsBut e 9 ∧ d.alters e [] (fun y => { y with ch := [] }))) ∧
    (s.acts (.domainWake .act) d → d.gatedNow .act = false → d.get ACT_STATUS.STATE = 0 → (d.chx 10).goal = none → completes (.domainWake .act) s (fun e =>
      e.chx 10 = { d.chx 10 with goal := some 1, due := d.tick + portReadyTime 10 } ∧ d.chsBut e 10 ∧ d.alters e [] (fun y => { y with ch := [] }))) ∧
    (s.acts (.domainWake .msh) d → d.gatedNow .msh = false → completes (.domainWake .msh) s (fun e =>
      bitOf (e.get PWR_DOM1.UNITS) 2 = true ∧ d.writes e [(PWR_DOM1.UNITS, 0)])) ∧
    (s.acts (.domainWake (.spe n)) d → d.gatedNow (.spe n) = false → completes (.domainWake (.spe n)) s (fun e =>
      bitOf (e.get PWR_DOM1.UNITS) (3 + n.val) = true ∧ d.writes e [(PWR_DOM1.UNITS, 0)])) ∧
    (s.acts (.domainWake (.clr k)) d → d.gatedNow (.clr k) = false → completes (.domainWake (.clr k)) s (fun e =>
      bitOf (e.get PWR_DOM0.CLR) k = true ∧ d.writes e [(PWR_DOM0.CLR, 0)])) ∧
    (s.acts (.domainWake (.uhf c)) d → d.gated = some (c.val, d.tick, l) → completes (.domainWake (.uhf c)) s (fun e =>
      e.chx c = { d.chx c with goal := none, target := none } ∧ d.chsBut e c ∧
      d.alters e [] (fun y => { y with ch := [], gated := none }) ∧ e.gated = none)) ∧
    (s.acts (.domainWake (.syn m)) d → d.gated = some (11 + m.val, d.tick, l) → completes (.domainWake (.syn m)) s (fun e =>
      bitOf (e.get PWR_DOM1.SYN) m = true ∧ e.get SYN_F_STATUS.LOCK m = l % 2 ∧
      d.alters e [(PWR_DOM1.SYN, 0), (SYN_F_STATUS.LOCK, m)] (fun y => { y with gated := none }) ∧ e.gated = none)) ∧
    (s.acts (.domainWake .hfr) d → d.gated = some (9, d.tick, l) → completes (.domainWake .hfr) s (fun e =>
      e.chx 9 = { d.chx 9 with goal := none, target := none } ∧ d.chsBut e 9 ∧
      d.alters e [] (fun y => { y with ch := [], gated := none }) ∧ e.gated = none)) ∧
    (s.acts (.domainWake .act) d → d.gated = some (10, d.tick, l) → completes (.domainWake .act) s (fun e =>
      e.chx 10 = { d.chx 10 with goal := none, target := none } ∧ d.chsBut e 10 ∧
      d.alters e [] (fun y => { y with ch := [], gated := none }) ∧ e.gated = none)) ∧
    (s.acts (.domainWake (.clr k)) d → d.gated = some (18 + k.val, d.tick, l) → completes (.domainWake (.clr k)) s (fun e =>
      bitOf (e.get PWR_DOM0.CLR) k = true ∧ e.gated = none ∧
      d.alters e [(PWR_DOM0.CLR, 0)] (fun y => { y with gated := none }))) ∧
    (completes (.refreshInterval temp x) s (fun e =>
      e.get AON_REFR.INTERVAL = (if temp.toInt < 45 then 128 else if temp.toInt < 85 then 64 else if temp.toInt < 105 then 32
        else 16) ∧
      (∀ b : Nat, b < 16 → (b ∈ e.pwr.missed ↔ b ∈ s.dev.pwr.missed ∨ (s.dev.pwr.entry = none ∧ bitOf x.toNat b = true ∧
        b ∈ s.dev.pwr.sigs.map (fun y => y.1)))) ∧
      { e.pwr with missed := [] } = { s.dev.pwr with missed := [] } ∧
      s.dev.alters e [(AON_REFR.INTERVAL, 0)] (fun y => { y with pwr := {} }))) ∧
    (completes .recoveryEnd s (fun e =>
      e.rst = { s.dev.rst with recovering := false } ∧ s.dev.alters e [] (fun y => { y with rst := {} })))

/-- The resets (R10, R27 to R31, R317, R399, R414, R429, R449, R461). A device reset leaves every register outside the AON block at its reset
value and the memories as they were, the latch holds its causes, and DEV_COUNT counts it; the release loads the cause
register from the latch and is held while a thermal reset stands. A power-on reset leaves nothing. The Ranger's and the host
link's islands are reset alone; the Ranger's watchdog resets the island, and a second time within 10 s the device. -/
def Obligations.ResetsComplete : Prop :=
  ∀ (s : State) (straps : Straps) (rail : BitVec 4) (sensor : Fin 12) (temp : BitVec 12) (key : BitVec 16) (device : Bool)
      (c : Instr) (k x t : Nat) (d : Dev),
    (completes (.powerOnReset straps) s (fun e =>
      e.rst = { straps := strapBits straps } ∧ e.regs = [] ∧ e.clk = 0 ∧ e.hw = 0 ∧ e.mem = [] ∧ e.log.ram = [] ∧
      e.log.mram = s.dev.log.mram ∧
      { e with fresh := 0, log := {}, rst := {}, hlk := {} } = ({} : Dev))) ∧
    (s.acts c d → (c, k) = (.pinReset straps, 1) ∨ (c, k) = (.thermalReset sensor temp, 3) ∧ 1450 ≤ temp.toInt ∨
        (c, k) = (.sysResetReq 0xA5C3 true, 4) ∨ (c, k) = (.rangerResetReq, 5) ∨
        ((c, k) = (.brownOut rail, 2) ∧ (rail = 3 ∨ (rail = 0 ∨ rail = 5) ∧ d.pwr.off = false)) →
      x = (if d.rst.asserted then Nat.lor d.rst.causes (2 ^ k) else 2 ^ k) → completes c s (fun e =>
        d.wasReset e [SYS_RESET_CAUSE.DEV_COUNT] ∧ e.rst.causes = x ∧
        e.get SYS_RESET_CAUSE.DEV_COUNT = (if d.rst.asserted then d.get SYS_RESET_CAUSE.DEV_COUNT
          else min 15 (d.get SYS_RESET_CAUSE.DEV_COUNT + 1)) % 16 ∧
        (k = 1 → e.rst.straps = strapBits straps) ∧ (k ≠ 1 → e.rst.straps = d.rst.straps) ∧
        e.rst.hot = (d.rst.hot || k == 3))) ∧
    (temp.toInt < 1450 → changesNothing (.thermalReset sensor temp) s) ∧
    (s.acts (.sysResetReq 0xA5C3 false) d → completes (.sysResetReq 0xA5C3 false) s (fun e => e = d)) ∧
    (s.acts (.sysResetReq key device) d → key ≠ 0xA5C3 → completes (.sysResetReq key device) s (fun e =>
      d.logged e 1 0x00 0 (Config.codeAny 2) ∧
      d.alters e [(MGT_LOG_CNT.DROPPED, 0)] (fun y => { y with log := {} }))) ∧
    (s.dev.rst.hot = true ∨ s.dev.rst.asserted = false → changesNothing .deviceResetRelease s) ∧
    (completes .thermalRelease s (fun e =>
      e.rst = { s.dev.rst with hot := false } ∧ s.dev.alters e [] (fun y => { y with rst := {} }))) ∧
    (s.dev.rst.asserted = true → s.dev.rst.hot = false → x = (if bitOf s.dev.rst.causes 0 then 1 else s.dev.rst.causes % 512) →
      completes .deviceResetRelease s (fun e =>
        e.rst.asserted = false ∧ e.rst.causes = 0 ∧ e.rst.wasWake = bitOf x 7 ∧
        e.rst.recovering = (bitOf x 3 || bitOf x 2 || bitOf x 6) ∧ e.rst.straps = s.dev.rst.straps ∧
        (∀ b : Nat, b < 9 → e.get ⟨.SYS_RESET_CAUSE, b, b⟩ = x / 2 ^ b % 2) ∧ e.get RGU_STATUS.DESYNC = 1 ∧
        e.get LCS_STATE.STATE = min 3 s.nv.fuses ∧ e.rgr = { s.dev.rgr with down := true, cause := 3 } ∧
        s.dev.alters e ((RGU_STATUS.DESYNC, 0) :: (LCS_STATE.STATE, 0) :: (List.range 9).map (fun b => (⟨.SYS_RESET_CAUSE, b, b⟩, 0)))
          (fun y => { y with rst := {}, rgr := {} }))) ∧
    (s.dev.rgr.wdTick = none ∨ (s.dev.rgr.wdTick = some t ∧ t + msTicks 10000 < s.dev.tick) →
      d = s.dev.loadLost → completes .rgrWdogExpiry s (fun e =>
        e.rgr = { recovery := s.dev.rgr.recovery, down := true, wdTick := some s.dev.tick, cause := 2 } ∧
        e.get SYS_RESET_CAUSE.RGR_RST = 1 ∧ e.log.ram = [] ∧ e.log.mram = d.log.mram ∧
        d.keepsReset e (fun r => !r.rgr || r.rwo || r.lcs) [SYS_RESET_CAUSE.RGR_RST] ∧
        (∀ b, b < 0x200000 ∨ 0x240000 ≤ b → e.byte b = d.byte b) ∧ e.zeroed 0x200000 0x40000 ∧
        { e.sans with log := {}, rgr := {}, mem := [] } = { d.sans with log := {}, rgr := {}, mem := [] })) ∧
    (s.dev.rgr.wdTick = some t → s.dev.tick ≤ t + msTicks 10000 → s.dev.rst.asserted = false → completes .rgrWdogExpiry s (fun e =>
        s.dev.wasReset e [SYS_RESET_CAUSE.DEV_COUNT] ∧ e.rst.causes = 64)) ∧
    (c = .hlkReset → completes c s (fun e =>
        e.get SYS_RESET_CAUSE.HLK_RST = 1 ∧ e.hlk = { host := s.dev.hlk.host } ∧
        s.dev.keepsReset e (fun r => !r.hlk) [SYS_RESET_CAUSE.HLK_RST] ∧
        s.dev.keepsMem e (fun a => decide (a < 0x40261000) || decide (0x40262000 ≤ a)) ∧
        { e.sans with mem := [], hlk := {} } = { s.dev.sans with mem := [], hlk := {} })) ∧
    (s.dev.pwr.off = true → rail ∈ [0, 1, 2, 5, 6, 7] → changesNothing (.brownOut rail) s) ∧
    (9 ≤ rail.toNat → changesNothing (.brownOut rail) s) ∧
    (completes (.brownOut 8) s (fun e =>
      e.regs = [] ∧ e.mem = [] ∧ e.clk = 0 ∧ e.hw = 0 ∧ e.rst = { straps := s.dev.rst.straps } ∧
      e.log.mram = s.dev.log.mram ∧ e.log.ram = [])) ∧
    (rail = 4 ∧ s.dev.get HFR_STATUS.STATE = 0 ∨ rail = 6 ∧ s.dev.speState 0 ≠ speUp ∧ s.dev.speState 1 ≠ speUp ∧
        s.dev.pwr.off = false → (s.dev.chx 9).goal = none → completes (.brownOut rail) s (fun e =>
      bitOf (e.get SNS_SUPPLY.LOW) rail.toNat = true ∧ bitOf (e.get SNS_SUPPLY.NOW) rail.toNat = true ∧
      (∀ b : Nat, b < 9 → b ≠ rail.toNat → bitOf (e.get SNS_SUPPLY.LOW) b = bitOf (s.dev.get SNS_SUPPLY.LOW) b) ∧
      s.dev.writes e [(SNS_SUPPLY.LOW, 0), (SNS_SUPPLY.NOW, 0)])) ∧
    (s.dev.pwr.off = false → s.dev.noLaunchNow → s.dev.noneHeld → s.dev.spare.sw = none → s.dev.get UHFS_SPARE.ELIGIBLE = 0 → s.dev.attached = none →
      (∀ n : Nat, n < 9 → s.dev.unattended n ∧ (s.dev.chx n).goal = none) → completes (.brownOut 2) s (fun e =>
        bitOf (e.get SNS_SUPPLY.LOW) 2 = true ∧
        (∀ n : Nat, n < 9 → if s.dev.tripMask n tripSupply = 0 then e.cst n = s.dev.cst n else
          e.cst n = csTrip ∧ bitOf (e.get UHF_TRIP.CAUSE n) 5 = true) ∧
        s.dev.keepsBut e ([UHF_STATUS.STATE, UHF_TRIP.CAUSE, UHFS_SPST.MISSED, TRL_CH.SEEN, SNS_SUPPLY.LOW,
          SNS_SUPPLY.NOW, UHF_TXW.AMP, UHF_TXW.PHASE] ++ carrierEndFlds) [] ∧
        { e.sans with ch := [], fe := [], flights := [] } = { s.dev.sans with ch := [], fe := [], flights := [] }))

/-- The start-up sequence (R205, R341 to R344, R391, R400, R412, R414, R424 to R428). A step whose predecessors have not ended, that
has ended, or that this start-up does not run changes nothing; else its work is done, its bit in SYS_STEP and its event are
posted, and a status other than 0 is shown in FAILED and logged. Step 1 loads the straps; step 2 the serial number and AT,
restored after a wake, and its failure holds the device in reset; step 3 runs the ROM; step 4 the roll call; step 5 checks the Cellar;
what follows steps 6 and 7 begins; steps 12 and 13 of units that are not configured end with step 9. -/
def Obligations.StartupStepsComplete : Prop :=
  ∀ (s : State) (k : Fin 14) (o : StepObs) (code g m lcs : Nat) (n : Nv) (slot : Option Nat) (trial : Bool),
    (s.dev.rst.asserted = true ∨ s.dev.stepDone k = true ∨ s.dev.stepFailed 2 = true ∨ s.dev.stepMay k = false →
      changesNothing (.startupStepEnd k o) s) ∧
    (s.dev.mayEnd k → k = 12 ∨ k = 13 → code = (if (if k = 12 then s.dev.meshJoined else s.dev.speAllUp) then 0 else failStatus o) →
      completes (.startupStepEnd k o) s (fun e =>
        s.dev.stepPosted e k code o.locks.toNat ∧ (code ≠ 0 → s.dev.logged e 2 0x00 k code) ∧
        s.dev.alters e (postFlds.map (fun f => (f, 0))) (fun y => { y with flights := [], log := {} }))) ∧
    (s.dev.mayEnd k → k = 8 ∨ k = 10 ∨ k = 11 → completes (.startupStepEnd k o) s (fun e =>
      s.dev.stepPosted e k o.status.toNat o.locks.toNat ∧ (o.status ≠ 0 → s.dev.logged e 2 0x00 k o.status.toNat) ∧
      s.dev.alters e (postFlds.map (fun f => (f, 0))) (fun y => { y with flights := [], log := {} }))) ∧
    (s.dev.mayEnd 1 → completes (.startupStepEnd 1 o) s (fun e =>
      s.dev.stepPosted e 1 o.status.toNat o.locks.toNat ∧ e.get SYS_STRAP.HSEL = s.dev.rst.straps % 2 ∧
      e.get SYS_STRAP.QSPI4 = s.dev.rst.straps / 2 % 2 ∧ e.get SYS_STRAP.RCVRY = s.dev.rst.straps / 4 % 2 ∧
      s.dev.alters e ((SYS_STRAP.HSEL, 0) :: (SYS_STRAP.QSPI4, 0) :: (SYS_STRAP.RCVRY, 0) :: postFlds.map (fun f => (f, 0)))
        (fun y => { y with flights := [], log := {} }))) ∧
    (s.dev.mayEnd 2 → o.status ≠ 0 → completes (.startupStepEnd 2 o) s (fun e =>
      e.rst = { s.dev.rst with asserted := true, held := true } ∧ e.log.ram = [] ∧ (∀ b, b < 0x200000 ∨ (0x240000 ≤ b ∧ b < 0x40261000) ∨ 0x40262000 ≤ b → e.byte b = s.dev.byte b) ∧
      s.dev.keepsReset e RKey.aon [SYS_RESET_CAUSE.DEV_COUNT, AON_ATST.RESTORED, AON_ATST.UNCERTAIN, AON_ATST.UNC,
        AON_ENT_W2.ANC_LO, AON_ENT_W3.ANC_HI] ∧ e.get SYS_RESET_CAUSE.DEV_COUNT = s.dev.get SYS_RESET_CAUSE.DEV_COUNT ∧
      e.vat = [] ∧ e.ch = [] ∧ e.q = [] ∧ e.flights = [])) ∧
    (s.dev.mayEnd 2 → o.status = 0 → s.dev.rst.wasWake = false → completes (.startupStepEnd 2 o) s (fun e =>
      s.dev.stepPosted e 2 o.status.toNat o.locks.toNat ∧ e.clk = 0 ∧ e.get AON_ATST.RESTORED = 0 ∧ e.get AON_ATST.UNC = 0 ∧
      e.get HLK_PCI_ID.VENDOR = s.nv.vendor % 2 ^ 16 ∧ e.get AON_ENT_W2.ANC_LO = e.hw % 2 ^ 32 ∧ e.get AON_ENT_W3.ANC_HI = e.hw / 2 ^ 32 % 2 ^ 16 ∧
      (∀ j : Nat, j < 4 → e.get LCS_SERIAL.SERIAL 0 j = s.nv.serialWord j % 2 ^ 32) ∧
      s.dev.keeps e ((LCS_SERIAL.SERIAL, 0) :: (AON_ATST.RESTORED, 0) :: (AON_ATST.UNCERTAIN, 0) :: (AON_ATST.UNC, 0) ::
        (AON_ENT_W2.ANC_LO, 0) :: (AON_ENT_W3.ANC_HI, 0) :: (HLK_PCI_ID.VENDOR, 0) :: postFlds.map (fun f => (f, 0))) ∧
      e.hlk = { s.dev.hlk with subsys := s.nv.subsys } ∧ e.asn = { s.dev.asn with tick := 0 } ∧
      { e.sansTime with flights := [], log := {}, fresh := 0, hlk := {}, asn := {} } =
        { s.dev.sansTime with flights := [], log := {}, fresh := 0, hlk := {}, asn := {} })) ∧
    (s.dev.mayEnd 2 → o.status = 0 → s.dev.rst.wasWake = true → completes (.startupStepEnd 2 o) s (fun e =>
      s.dev.stepPosted e 2 o.status.toNat o.locks.toNat ∧ e.get AON_ATST.RESTORED = 1 ∧
      (let x := (e.hw + 2 ^ 48 - (s.dev.get AON_ENT_W2.ANC_LO + 2 ^ 32 * s.dev.get AON_ENT_W3.ANC_HI)) % 2 ^ 48;
        e.tick = s.dev.get AON_ENT_W0.AT_LO + 2 ^ 32 * s.dev.get AON_ENT_W1.AT_HI + s.dev.atGain x ∧
        e.get AON_ATST.UNC = min (2 ^ 30 - 1) (s.dev.atUnc (s.dev.atGain x)) ∧
        e.get AON_ATST.UNCERTAIN = (if s.dev.get AON_ATCFG.THR * 65536 < s.dev.atUnc (s.dev.atGain x) then 1 else 0)) ∧
      e.asn = { s.dev.asn with tick := e.tick } ∧
      e.get HLK_PCI_ID.VENDOR = s.nv.vendor % 2 ^ 16 ∧ e.get AON_ENT_W2.ANC_LO = e.hw % 2 ^ 32 ∧ e.get AON_ENT_W3.ANC_HI = e.hw / 2 ^ 32 % 2 ^ 16 ∧
      s.dev.keeps e ((LCS_SERIAL.SERIAL, 0) :: (AON_ATST.RESTORED, 0) :: (AON_ATST.UNCERTAIN, 0) :: (AON_ATST.UNC, 0) ::
        (AON_ENT_W2.ANC_LO, 0) :: (AON_ENT_W3.ANC_HI, 0) :: (HLK_PCI_ID.VENDOR, 0) :: postFlds.map (fun f => (f, 0))))) ∧
    (s.dev.mayEnd 3 → lcs = min 3 s.nv.fuses → lcs < 3 → s.nv.romBoot lcs = (n, slot, false, trial) →
      s.dev.isSet SYS_STRAP.RCVRY = false → (lcs = 0 → slot = none ∨ n.key 32 ≠ none) → s.dev.qTakes 1 epRanger 2 = false → (∀ r : Nat, r < 5 → n.torn r 0 = false ∧ n.torn r 1 = false) →
      completesNv (.startupStepEnd 3 o) s (fun t =>
        t.nv = n ∧ s.dev.stepPosted t.dev 3 o.status.toNat o.locks.toNat ∧ t.dev.get LCS_STATE.STATE = lcs ∧
        t.dev.get NVM_BOOT.RUNNING = slot.getD 0 % 2 ∧
        t.dev.rgr = { s.dev.rgr with
          down := false, recovery := slot.isNone, trialFrom := if trial then some s.dev.tick else none
          announce := some [0, slot.getD 0 * 256 + s.dev.rgr.cause] } ∧
        { t.dev.sans with flights := [], log := {}, rgr := {}, fresh := 0 } =
          { s.dev.sans with flights := [], log := {}, rgr := {}, fresh := 0 })) ∧
    (s.dev.mayEnd 3 → s.nv.fuses = 0 → s.nv.romBoot 0 = (n, some g, false, trial) → s.dev.isSet SYS_STRAP.RCVRY = false → n.key 32 = none →
      completesNv (.startupStepEnd 3 o) s (fun t =>
        s.dev.stepPosted t.dev 3 o.status.toNat o.locks.toNat ∧ t.nv.key 32 ≠ none ∧ t.nv.key 33 ≠ none ∧
        (∀ j : Nat, j ≠ 32 → j ≠ 33 → t.nv.key j = n.key j))) ∧
    (s.dev.mayEnd 4 → m = 1023 - o.present.toNat → m = 0 ∨ m = 512 → s.dev.isSet AON_ATST.RESTORED = false → s.dev.present 4 = true →
      completes (.startupStepEnd 4 o) s (fun e =>
        s.dev.stepPosted e 4 (if m = 0 then 0 else stRollMissing) o.locks.toNat ∧ e.get SYS_ROLL.PRESENT = o.present.toNat ∧
        e.get SYS_ROLL.MISSING = m ∧ (m = 512 → s.dev.logged e 2 0x00 9 stRollMissing) ∧
        e.msh = { s.dev.msh with mark := s.nv.word ctrFcMark } ∧ e.get MSH_FCOUT.FC = s.nv.word ctrFcMark % 2 ^ 32 ∧
        s.dev.alters e ((SYS_ROLL.PRESENT, 0) :: (SYS_ROLL.MISSING, 0) :: (MSH_EXT_LO.EXT_LO, 0) :: (MSH_EXT_HI.EXT_HI, 0) ::
          (MSH_FCOUT.FC, 0) :: postFlds.map (fun f => (f, 0))) (fun y => { y with flights := [], log := {}, msh := {} }))) ∧
    (s.dev.mayEnd 5 → s.dev.rst.wasWake = false → m = s.dev.get LDG_BANK.STALE ||| o.failedBanks.toNat →
      completes (.startupStepEnd 5 o) s (fun e =>
        s.dev.stepPosted e 5 (if m % 65536 = 0 then 0 else stLdgStale) o.locks.toNat ∧ e.zeroed cellar 0x400000 ∧
        s.dev.memBut e cellar 0x400000 ∧ e.get LDG_BANK.STALE = m % 65536 ∧ e.get LDG_STATUS.READY = (if s.dev.ldg.phase = 0 then 1 else s.dev.get LDG_STATUS.READY) ∧
      e.get AON_RET_STATUS.FAILED = Nat.lor (s.dev.get AON_RET_STATUS.FAILED) o.failedBanks.toNat ∧ e.get PWR_DOM0.CLR = 0xFFFF ∧
        e.get LDG_COUNT.USED = 0 ∧ e.pwr = { s.dev.pwr with sigs := [], missed := [] } ∧
        (o.failedBanks ≠ 0 → s.dev.logged e 2 0x08 0 stLdgStale ∧ (s.dev.isSet TRL_PDATA.EN 0 evLdgStale = true →
          s.dev.told e evLdgStale)) ∧
        s.dev.alters e ((AON_RET_STATUS.FAILED, 0) :: (PWR_DOM0.CLR, 0) :: (LDG_BANK.STALE, 0) :: (LDG_STATUS.READY, 0) :: (LDG_COUNT.USED, 0) :: (LDG_OVFST.USED, 0) ::
          postFlds.map (fun f => (f, 0))) (fun y => { y with mem := [], pwr := {}, flights := [], log := {} }))) ∧
    (s.dev.mayEnd 5 → s.dev.rst.wasWake = true → s.dev.pwr.sigs = [(g, code)] → g < 16 →
      m = (if s.dev.pwr.missed.contains g || s.dev.bankSig g != code then 2 ^ g else 0) →
      completes (.startupStepEnd 5 o) s (fun e =>
        e.get PWR_DOM0.CLR = 0xFFFF ∧ e.get AON_RET_STATUS.FAILED = m ∧ e.get LDG_BANK.RET = 2 ^ g - m ∧
        e.get LDG_BANK.STALE = Nat.lor (s.dev.get LDG_BANK.STALE) m % 65536 ∧ e.get LDG_STATUS.READY = (if s.dev.ldg.phase = 0 then 1 else s.dev.get LDG_STATUS.READY) ∧
        e.mem = s.dev.mem ∧ e.pwr = { s.dev.pwr with sigs := [], missed := [] } ∧
        s.dev.alters e ((PWR_DOM0.CLR, 0) :: (LDG_BANK.STALE, 0) :: (LDG_BANK.RET, 0) :: (AON_RET_STATUS.FAILED, 0) :: (LDG_STATUS.READY, 0) ::
          (LDG_COUNT.USED, 0) :: (LDG_OVFST.USED, 0) :: postFlds.map (fun f => (f, 0)))
          (fun y => { y with pwr := {}, flights := [], log := {} }))) ∧
    (s.dev.mayEnd 6 → s.dev.rgr.recovery = true → code = (if s.dev.isSet HLK_STATUS.LINK = true ∨ s.dev.isSet SYS_STRAP.HSEL = true then 0 else 0x0805) →
      completes (.startupStepEnd 6 o) s (fun e =>
      s.dev.stepPosted e 6 code o.locks.toNat ∧ (code ≠ 0 → s.dev.logged e 2 0x00 6 code) ∧
      s.dev.alters e (postFlds.map (fun f => (f, 0))) (fun y => { y with flights := [], log := {} }))) ∧
    (s.dev.mayEnd 6 → s.dev.rgr.recovery = false → s.dev.present 2 = true → s.dev.present 5 = true → s.dev.cal = [] →
      s.nv.startProfile = none → s.nv.currentBase 1 = none →
      code = (if s.dev.isSet HLK_STATUS.LINK = true ∨ s.dev.isSet SYS_STRAP.HSEL = true then 0 else 0x0805) → completes (.startupStepEnd 6 o) s (fun e =>
        s.dev.stepPosted e 6 code o.locks.toNat ∧ (∀ u : Nat, u < 14 → 9 ≤ u → (e.calOf u).isSome = true) ∧
        (∀ c : Nat, c < 9 → s.dev.cst c = csOff ∧ (s.dev.chx c).goal = none → (e.chx c).goal = some csReady) ∧ e.mem = s.dev.mem)) ∧
    (s.dev.mayEnd 7 → completes (.startupStepEnd 7 o) s (fun e =>
      s.dev.stepPosted e 7 o.status.toNat o.locks.toNat ∧ (∀ c : Nat, c < 9 → (e.calOf c).isSome = true) ∧ e.mem = s.dev.mem ∧
      s.dev.keeps e ((CAL_STATUS.OP, 0) :: (CAL_STATUS.UNIT, 0) :: postFlds.map (fun f => (f, 0))))) ∧
    (s.dev.mayEnd 9 → s.nv.currentBase 0 = none → s.nv.current 0 = none → s.nv.currentBase 2 = none →
      s.dev.rst.wakeMask = none → completes (.startupStepEnd 9 o) s (fun e =>
        (∀ j : Nat, j < 14 → 1 ≤ j → e.stepDone j = (s.dev.stepDone j || j == 9 ||
          (j == 12 && s.dev.get MSH_CTRL.RUN == 0) || (j == 13 && s.dev.get SPE_CTRL.EN 0 == 0 && s.dev.get SPE_CTRL.EN 1 == 0)) ∧
          e.stepFailed j = (s.dev.stepFailed j || (j == 9 && o.status != 0))) ∧
        e.rst = { s.dev.rst with step9 := s.dev.tick } ∧ (o.status ≠ 0 → s.dev.logged e 2 0x00 9 o.status.toNat) ∧
        s.dev.alters e (postFlds.map (fun f => (f, 0))) (fun y => { y with flights := [], log := {}, rst := {} }))) ∧
    (s.dev.mayEnd 9 → s.nv.current 0 = none → s.nv.currentBase 2 = none → s.dev.rst.wakeMask = some m →
      completes (.startupStepEnd 9 o) s (fun e =>
        (s.dev.isSet TRL_PDATA.EN 0 evPwrWake = true → s.dev.told e evPwrWake) ∧
        (bitOf m 2 = true → s.dev.isSet TRL_PDATA.EN 0 evHfrCard = true → s.dev.pwr.entry = none → s.dev.told e evHfrCard) ∧
        (bitOf m 0 = true → s.dev.isSet TRL_PDATA.EN 0 evWkr433 = true → s.dev.pwr.entry = none → s.dev.told e evWkr433) ∧
        (bitOf m 1 = true → s.dev.isSet TRL_PDATA.EN 0 evWkr24 = true → s.dev.pwr.entry = none → s.dev.told e evWkr24) ∧
        e.rst = { s.dev.rst with wakeMask := none, step9 := s.dev.tick } ∧ s.dev.keeps e (postFlds.map (fun f => (f, 0)))))

/-- Reception in the mesh (R306 to R309, R312 to R316, R318 to R327). A frame that the MAC does not acquire changes nothing; a
malformed one is counted; one of another network, or that fails security, is a stranger's; one of a known neighbour
updates its entry, unless its counter makes it a duplicate or a replay. Data for the reader goes to its queue with the
item 0x42, an acknowledgement ends the request that awaits it, the time parent's frame corrects time, and a beacon
joins a scanning MAC. -/
def Obligations.MeshReceptionCompletes : Prop :=
  ∀ (s : State) (f : MshFrame) (o : AbandonObs) (g : Fld) (i fin c : Nat) (r : MTx) (bytes : List Byte) (d : Dev),
    (s.acts (.mshFrameRx f) d → d.mshAcquires f = false → completes (.mshFrameRx f) s (fun e => e = d)) ∧
    (s.acts (.mshFrameRx f) d → d.mshAcquires f = true → fin = f.startTick + frameTicks f.sf.toNat f.len →
      f.fcsOk = false ∨ f.parsable = false ∨ longest f.sf.toNat < f.len → completes (.mshFrameRx f) s (fun e =>
        e.get MSH_CNT.CNT_LO 0 3 = min (d.get MSH_CNT.CNT_LO 0 3 + 1) 0xFFFF ∧ d.indexBut e MSH_CNT.CNT_LO 0 3 ∧
        (d.msh.logs = [] → d.logged e 2 0x23 0 stMshMalformed) ∧ e.clk = max d.clk (2 * fin) ∧
        { e.msh with logs := [] } = { d.msh with logs := [] } ∧ d.mshFrame e [MSH_CNT.CNT_LO])) ∧
    (s.acts (.mshFrameRx f) d → d.hears f fin → f.pan.toNat ≠ d.get MSH_NET.PAN_ID →
      (∀ j : Nat, j < 32 → d.isSet MSH_SDATA_W2.VALID 0 j = false) → completes (.mshFrameRx f) s (fun e =>
        e.get MSH_SDATA_W2.VALID 0 0 = 1 ∧ e.get MSH_SDATA_W3.PAN_ID 0 0 = f.pan.toNat ∧ e.get MSH_SDATA_W3.COUNT 0 0 = 1 ∧
        e.get MSH_SDATA_W2.KIND 0 0 = 0 ∧ e.get MSH_SDATA_W2.CH 0 0 = f.ch.toNat ∧ e.get MSH_SDATA_W2.RSSI 0 0 = f.rssi.toNat ∧
        e.get MSH_SDATA_W0.ADDR_LO 0 0 = (if f.srcExt = 0 then f.srcShort.toNat else f.srcExt.toNat % 2 ^ 32) ∧
        e.get MSH_SDATA_W1.ADDR_HI 0 0 = (if f.srcExt = 0 then 0 else f.srcExt.toNat / 2 ^ 32) ∧ d.told e evMshStranger ∧
        (∀ g : Fld, g ∈ strFlds → d.indexBut e g 0 0) ∧ e.clk = max d.clk (2 * fin) ∧
        { e.msh with str := [] } = { d.msh with str := [] } ∧ d.mshFrame e strFlds)) ∧
    (s.acts (.mshFrameRx f) d → d.hears f fin → f.pan.toNat ≠ d.get MSH_NET.PAN_ID → i < 32 → d.isSet MSH_SDATA_W2.VALID 0 i = true →
      d.get MSH_SDATA_W3.PAN_ID 0 i = f.pan.toNat → f.srcExt = 0 → d.get MSH_SDATA_W0.ADDR_LO 0 i = f.srcShort.toNat →
      d.get MSH_SDATA_W1.ADDR_HI 0 i = 0 → (∀ j : Nat, j < i → d.isSet MSH_SDATA_W2.VALID 0 j = false) →
      completes (.mshFrameRx f) s (fun e =>
        e.get MSH_SDATA_W3.COUNT 0 i = min (d.get MSH_SDATA_W3.COUNT 0 i + 1) 0xFFFF ∧ e.get MSH_SDATA_W2.KIND 0 i = 0 ∧
        e.get MSH_SDATA_W2.CH 0 i = f.ch.toNat ∧ (∀ g : Fld, g ∈ strFlds → d.indexBut e g 0 i) ∧
        e.flights = d.flights ∧ d.mshFrame e [MSH_SDATA_W3.COUNT, MSH_SDATA_W2.KIND, MSH_SDATA_W2.CH, MSH_SDATA_W2.RSSI])) ∧
    (s.acts (.mshFrameRx f) d → d.hears f fin → f.pan.toNat = d.get MSH_NET.PAN_ID → d.mshSecure f = false → f.toUs = true → f.ackReq = false →
      completes (.mshFrameRx f) s (fun e =>
        e.get MSH_CNT.CNT_HI 0 3 = min (d.get MSH_CNT.CNT_HI 0 3 + 1) 0xFFFF ∧ d.indexBut e MSH_CNT.CNT_HI 0 3 ∧
        (d.msh.logs = [] → d.logged e 2 0x23 0 stMshSecurity) ∧ d.mshFrame e (MSH_CNT.CNT_HI :: strFlds))) ∧
    (s.acts (.mshFrameRx f) d → d.hears f fin → f.pan.toNat = d.get MSH_NET.PAN_ID → d.mshSecure f = true → d.nbrOf f.srcExt.toNat = some i →
      d.replayOf i f = 2 → completes (.mshFrameRx f) s (fun e =>
        e.get MSH_CNT.CNT_LO 0 1 = min (d.get MSH_CNT.CNT_LO 0 1 + 1) 0xFFFF ∧ d.indexBut e MSH_CNT.CNT_LO 0 1 ∧
        e.get MSH_NDATA_W5.REPLAY 0 i = min (d.get MSH_NDATA_W5.REPLAY 0 i + 1) 0xFFFF ∧ d.nbrsBut e i ∧ e.msh = d.msh ∧
        d.mshFrame e [MSH_CNT.CNT_LO, MSH_NDATA_W5.REPLAY])) ∧
    (s.acts (.mshFrameRx f) d → d.hears f fin → f.pan.toNat = d.get MSH_NET.PAN_ID → d.mshSecure f = true → d.nbrOf f.srcExt.toNat = some i →
      d.replayOf i f = 1 → f.ackReq = false → d.parent ≠ some i → completes (.mshFrameRx f) s (fun e =>
        e.get MSH_CNT.CNT_HI 0 1 = min (d.get MSH_CNT.CNT_HI 0 1 + 1) 0xFFFF ∧ d.indexBut e MSH_CNT.CNT_HI 0 1 ∧
        e.get MSH_NDATA_W5.DUP 0 i = min (d.get MSH_NDATA_W5.DUP 0 i + 1) 0xFFFF ∧ d.nbrsBut e i ∧
        e.nbrx i = { d.nbrx i with
          heard := e.tick, onAir := some e.tick, rankAt := if f.rank.isSome then some e.tick else (d.nbrx i).rankAt } ∧
        d.mshFrame e [MSH_CNT.CNT_HI, MSH_NDATA_W5.DUP])) ∧
    (s.acts (.mshFrameRx f) d → d.hears f fin → f.pan.toNat = d.get MSH_NET.PAN_ID → d.mshSecure f = true → d.nbrOf f.srcExt.toNat = some i →
      d.replayOf i f = 0 → d.mshState = mshSync → d.parent ≠ some i → f.rank = none → f.keyroll = none → f.sched = none →
      f.kind = .data → f.toUs = true → f.ackReq = false → f.host = some bytes → 2 ≤ d.get MSH_Q.RXQ →
      d.qTakes (d.get MSH_Q.RXQ) epMsh (4 + (bytes.length + 3) / 4) = true →
      (d.qx (d.get MSH_Q.RXQ)).stall = none → (d.qx (d.get MSH_Q.RXQ)).freeAt = 0 →
      completes (.mshFrameRx f) s (fun e =>
        e.get MSH_CNT.CNT_HI 0 0 = min (d.get MSH_CNT.CNT_HI 0 0 + 1) 0xFFFF ∧ d.indexBut e MSH_CNT.CNT_HI 0 0 ∧
        e.get MSH_NDATA_W3.DSN 0 i = f.dsn.toNat ∧ e.get MSH_NDATA_W4.FC 0 i = f.counter.toNat ∧
        e.get MSH_NDATA_W2.SHORT 0 i = f.srcShort.toNat ∧ d.nbrsBut e i ∧
        e.qHolds (d.get MSH_Q.RXQ) (d.qx (d.get MSH_Q.RXQ)).prod
          [qHeader 0x42 (4 + (bytes.length + 3) / 4), f.srcShort.toNat * 65536 + i * 256 + f.sf.toNat * 64,
            f.rssi.toNat * 2 ^ 20 + bytes.length, d.msh.asn % 2 ^ 32, d.msh.asn / 2 ^ 32] ∧
        (e.qx (d.get MSH_Q.RXQ)).vis = (d.qx (d.get MSH_Q.RXQ)).prod + 5 + (bytes.length + 3) / 4 ∧
        d.queuesBut e (d.get MSH_Q.RXQ) ∧
        d.memBut e (d.qAddr (d.get MSH_Q.RXQ)) (4 * d.qSize (d.get MSH_Q.RXQ)) ∧
        d.keepsBut e [MSH_CNT.CNT_HI, MSH_NDATA_W3.DSN, MSH_NDATA_W3.RSSI, MSH_NDATA_W4.FC, MSH_NDATA_W2.SHORT] [] ∧
        { e.sansTime with msh := {}, q := [], mem := [] } = { d.sansTime with msh := {}, q := [], mem := [] })) ∧
    (s.acts (.mshFrameRx f) d → d.hears f fin → f.pan.toNat = d.get MSH_NET.PAN_ID → d.mshSecure f = true → d.nbrOf f.srcExt.toNat = some i →
      d.replayOf i f = 0 → d.mshState = mshSync → d.parent ≠ some i → f.rank = none → f.keyroll = none → f.sched = none →
      f.kind = .ack → d.msh.cur = some r → d.get MSH_Q.RXQ < 2 → completes (.mshFrameRx f) s (fun e =>
        e.msh.cur = none ∧ (∀ j : Nat, j < 6 → e.get MSH_CNT.CNT_LO 0 j = (if j = (if f.nack then 4 else 0) then
          min (d.get MSH_CNT.CNT_LO 0 j + 1) 0xFFFF else d.get MSH_CNT.CNT_LO 0 j)) ∧
        d.mshFrame e [MSH_CNT.CNT_LO, MSH_CNT.CNT_HI, MSH_NDATA_W3.DSN, MSH_NDATA_W3.RSSI, MSH_NDATA_W4.FC, MSH_NDATA_W2.SHORT])) ∧
    (s.acts (.mshFrameRx f) d → d.hears f fin → f.pan.toNat = d.get MSH_NET.PAN_ID → d.mshSecure f = true → d.nbrOf f.srcExt.toNat = some i →
      d.replayOf i f = 0 → d.mshState = mshSync → d.mshRoot = false → d.parent = some i → f.rank = none →
      f.keyroll = none → f.sched = none → f.kind = .data → f.host = none → f.ackReq = false →
      f.startTick = d.msh.bound + txOffset + 5 → d.msh.corrAt = none → completes (.mshFrameRx f) s (fun e =>
        e.get MSH_TSRC.MISS = 0 ∧ e.get MSH_DRIFT.OFFSET = 5 ∧ e.msh.adj = d.msh.adj + 5 ∧ e.msh.widen = 0 ∧
        e.msh.corrAt = some f.startTick ∧ d.nbrsBut e i ∧
        d.mshFrame e [MSH_CNT.CNT_HI, MSH_NDATA_W3.DSN, MSH_NDATA_W3.RSSI, MSH_NDATA_W4.FC, MSH_NDATA_W2.SHORT, MSH_TSRC.MISS,
          MSH_DRIFT.OFFSET])) ∧
    (s.acts (.mshFrameRx f) d → d.hears f fin → f.pan.toNat = d.get MSH_NET.PAN_ID → d.mshSecure f = true → d.nbrOf f.srcExt.toNat = some i →
      d.replayOf i f = 0 → d.mshState = mshScan → f.rank = none → f.keyroll = none → f.sched = none →
      f.kind = .beacon → f.tables = none → f.ackReq = false → f.host = none → completes (.mshFrameRx f) s (fun e =>
        e.mshState = mshSync ∧ e.parent = some (i % 64) ∧
        e.get MSH_STATUS.RANK = min 15 (d.get MSH_NDATA_W2.RANK 0 i + 1) % 16 ∧
        e.msh.asn = f.asn.toNat ∧ e.msh.bound = f.startTick - txOffset ∧ e.msh.adj = 0 ∧ d.told e evMshJoined ∧
        d.nbrsBut e i ∧
        d.mshFrame e [MSH_CNT.CNT_HI, MSH_NDATA_W3.DSN, MSH_NDATA_W3.RSSI, MSH_NDATA_W4.FC, MSH_NDATA_W2.SHORT, MSH_TSRC.MISS,
          MSH_TSRC.CUR, MSH_TSRC.CUR_V, MSH_STATUS.RANK, MSH_STATUS.STATE])) ∧
    (s.acts (.mshFrameRx f) d → d.hears f fin → f.pan.toNat = d.get MSH_NET.PAN_ID → d.mshSecure f = true → d.nbrOf f.srcExt.toNat = none →
      (d.toTick fin).nbrSlot = some i → d.mshState = mshSync → d.parent ≠ some i → f.rank = none → f.keyroll = none → f.sched = none →
      f.kind = .data → f.host = none → f.ackReq = false → completes (.mshFrameRx f) s (fun e =>
        e.nbrValid i = true ∧ e.nbrExt i = f.srcExt.toNat ∧ e.get MSH_NDATA_W2.SHORT 0 i = f.srcShort.toNat ∧
        e.get MSH_NDATA_W4.FC 0 i = f.counter.toNat ∧ e.get MSH_NDATA_W3.DSN 0 i = f.dsn.toNat ∧
        e.get MSH_NDATA_W3.RSSI 0 i = f.rssi.toNat ∧ e.get MSH_NDATA_W5.DUP 0 i = 0 ∧ e.get MSH_NDATA_W5.REPLAY 0 i = 0 ∧
        d.nbrsBut e i ∧ d.mshFrame e (MSH_CNT.CNT_HI :: nbrFlds))) ∧
    (s.acts (.mshFrameRx f) d → d.hears f fin → f.pan.toNat = d.get MSH_NET.PAN_ID → d.mshSecure f = true → d.nbrOf f.srcExt.toNat = none →
      (d.toTick fin).nbrSlot = none → completes (.mshFrameRx f) s (fun e =>
        (∀ g : Fld, g ∈ nbrFlds → ∀ j : Nat, j < 64 → e.get g 0 j = d.get g 0 j) ∧
        (d.msh.logs = [] → d.logged e 2 0x23 0 stMshNbrFull) ∧ d.mshFrame e strFlds)) ∧
    (s.acts (.mshFrameAbandon o) d → c = max 3 (min 12 (d.get MSH_PHY.CAPM)) →
      d.mshState = mshOff ∨ (d.get MSH_PHY.FLOOR ≤ o.corr ∧ ∀ x : Int, o.margin = some x → x < 10 * c) →
      completes (.mshFrameAbandon o) s (fun e => e = d)) ∧
    (s.acts (.mshFrameAbandon o) d → c = max 3 (min 12 (d.get MSH_PHY.CAPM)) → d.mshState ≠ mshOff →
      o.corr < d.get MSH_PHY.FLOOR ∨ (∃ x : Int, o.margin = some x ∧ 10 * c ≤ x) →
      g = (if o.phrValid then MSH_CNT.CNT_LO else MSH_CNT.CNT_HI) → completes (.mshFrameAbandon o) s (fun e =>
        e.get g 0 2 = min (d.get g 0 2 + 1) 0xFFFF ∧ d.indexBut e g 0 2 ∧ d.writes e [(g, 0)]))

/-- The mesh's slots and its control (R310 to R321, R324, R327 to R331). RUN starts a scan or the root and ends every request; a
boundary counts the slot, moves by its length and corrections, and transmits as its link says; a third missed
frame of the parent changes it or declares DESYNC; requests, their retries, wake trains, expiries and the mark of the
frame counter are as ruled; a frame sent blanks the wake receiver until 2 ms after it. The mirror takes pairs that arrive in time.
Without the MSH island the host's writes change nothing but HLK_ERR. -/
def Obligations.MeshSlotsComplete : Prop :=
  ∀ (s : State) (root align : Bool) (o : SlotObs) (asn : BitVec 40) (x : Fin 64) (t k c p b a n : Nat) (r : MTx)
      (rest : List MTx) (len frac : Int) (cmd : Instr) (reg : Reg) (y : Train) (d : Dev),
    ((cmd, reg) ∈ [(Instr.mshRunWrite (k == 0) root align, Reg.MSH_CTRL), (.rescan, .MSH_CTRL), (.mshCntClr, .MSH_CTRL), (.mshWake, .MSH_WAKE)] →
      s.dev.present 7 = false → s.dev.pwr.asleep = none → completes cmd s (fun e => s.dev.hostErred e stIsland reg.place.base ∧ e.sans = s.dev.sans)) ∧
    (s.acts (.mshRunWrite false root align) d → d.isSet MSH_CTRL.RUN = true → d.msh.cur = none → d.msh.txq = [] → completes (.mshRunWrite false root align) s (fun e =>
      e.mshState = mshOff ∧ e.get MSH_STATUS.RANK = 15 ∧ e.parent = none ∧ e.get MSH_TSRC.MISS = 0 ∧ e.get MSH_CTRL.RUN = 0 ∧
      e.get MSH_CTRL.ROOT = (if root then 1 else 0) ∧ e.get MSH_CTRL.ALIGN_PPS = (if align then 1 else 0) ∧
      (d.isSet MSH_WAKE.BUSY = true → e.get MSH_WAKE.BUSY = 0 ∧ d.told e evMshWakeDone) ∧
      e.msh = { d.msh with rescan := false, train := none, eb := none } ∧
      d.mshFrame e [MSH_CTRL.RUN, MSH_CTRL.ROOT, MSH_CTRL.ALIGN_PPS, MSH_STATUS.STATE, MSH_STATUS.RANK, MSH_TSRC.CUR_V, MSH_TSRC.MISS,
        MSH_WAKE.BUSY] ∧ e.clk = d.clk)) ∧
    (s.acts (.mshRunWrite false root align) d → d.isSet MSH_CTRL.RUN = false → completes (.mshRunWrite false root align) s (fun e =>
      e.get MSH_CTRL.RUN = 0 ∧ e.get MSH_CTRL.ROOT = (if root then 1 else 0) ∧ e.get MSH_CTRL.ALIGN_PPS = (if align then 1 else 0) ∧
      d.writes e [(MSH_CTRL.RUN, 0), (MSH_CTRL.ROOT, 0), (MSH_CTRL.ALIGN_PPS, 0)])) ∧
    (s.acts (.mshRunWrite true false align) d → d.isSet MSH_CTRL.RUN = false → d.msh.cur = none → d.msh.txq = [] → completes (.mshRunWrite true false align) s (fun e =>
      e.mshState = mshScan ∧ e.get MSH_STATUS.RANK = 15 ∧ e.parent = none ∧ e.msh.scanCh = 11 ∧ e.get MSH_CTRL.RUN = 1 ∧
      d.mshFrame e [MSH_CTRL.RUN, MSH_CTRL.ROOT, MSH_CTRL.ALIGN_PPS, MSH_STATUS.STATE, MSH_STATUS.RANK, MSH_TSRC.CUR_V, MSH_TSRC.MISS] ∧
      e.clk = d.clk)) ∧
    (s.acts (.mshRunWrite true true align) d → d.isSet MSH_CTRL.RUN = false ∨ d.mshRoot = false → completes (.mshRunWrite true true align) s (fun e =>
      e.mshState = mshSync ∧ e.get MSH_STATUS.RANK = 0 ∧ e.parent = none ∧ e.msh.bound = d.tick ∧ e.get MSH_CTRL.RUN = 1 ∧
      e.mshRoot = true ∧
      d.mshFrame e [MSH_CTRL.RUN, MSH_CTRL.ROOT, MSH_CTRL.ALIGN_PPS, MSH_STATUS.STATE, MSH_STATUS.RANK, MSH_TSRC.CUR_V, MSH_TSRC.MISS] ∧
      e.clk = d.clk)) ∧
    (s.acts .rescan d → d.mshState < 2 ∨ d.mshRoot = true → completes .rescan s (fun e => e = d)) ∧
    (s.acts .rescan d → 2 ≤ d.mshState → d.mshRoot = false → completes .rescan s (fun e =>
      e.msh = { d.msh with rescan := true } ∧ d.alters e [] (fun y => { y with msh := {} }))) ∧
    (s.acts .mshCntClr d → completes .mshCntClr s (fun e =>
      (∀ j : Nat, j < 6 → e.get MSH_CNT.CNT_HI 0 j = 0 ∧ e.get MSH_CNT.CNT_LO 0 j = 0) ∧
      d.writes e [(MSH_CNT.CNT_HI, 0), (MSH_CNT.CNT_LO, 0)])) ∧
    (s.acts (.mshSlotBoundary o) d → d.mshState < 2 → completes (.mshSlotBoundary o) s (fun e => e = d)) ∧
    (s.acts (.mshSlotBoundary o) d → 2 ≤ d.mshState → d.slotLen = (len, frac) → d.msh.eb = none → d.msh.roll = none → d.msh.train = none →
      d.msh.wire = [] → d.msh.rescan = false → d.linkOf ((d.msh.asn + 1) % 2 ^ 40) = none → b = ((d.msh.bound : Int) + len + d.msh.adj).toNat →
      completes (.mshSlotBoundary o) s (fun e =>
        e.msh = { d.msh with asn := (d.msh.asn + 1) % 2 ^ 40, bound := b, frac := frac, adj := 0 } ∧
        e.clk = max d.clk (2 * b) ∧ d.mshFrame e [])) ∧
    (s.acts (.mshSlotBoundary o) d → 2 ≤ d.mshState → d.slotLen = (len, frac) → d.msh.eb = some (a, k) → d.msh.roll = none → d.msh.train = none →
      d.msh.wire = [] → d.msh.rescan = false → d.linkOf ((a + 1) % 2 ^ 40) = none → b = ((k : Int) + len).toNat →
      completes (.mshSlotBoundary o) s (fun e =>
        e.mshState = mshSync ∧ e.msh.asn = (a + 1) % 2 ^ 40 ∧ e.msh.bound = b ∧ e.msh.eb = none ∧ e.msh.corrAt = some b ∧
        d.told e evMshSync ∧ e.clk = max d.clk (2 * b) ∧ d.mshFrame e [MSH_STATUS.STATE])) ∧
    (s.acts (.mshSlotBoundary o) d → d.mshState = mshSync → d.msh.eb = none → d.msh.roll = none → d.msh.train = none → d.msh.wire = [] → d.msh.rescan = true →
      d.msh.cur = none → d.msh.txq = [] → completes (.mshSlotBoundary o) s (fun e =>
        e.mshState = mshScan ∧ e.get MSH_STATUS.RANK = 15 ∧ e.parent = none ∧ e.msh.scanCh = 11 ∧ e.msh.rescan = false ∧
        d.mshFrame e [MSH_STATUS.STATE, MSH_STATUS.RANK, MSH_TSRC.CUR_V, MSH_TSRC.MISS])) ∧
    (s.acts (.mshSlotBoundary o) d → d.mshState = mshSync → d.slotLen = (len, frac) → d.msh.eb = none → d.msh.roll = none → d.msh.train = none →
      d.msh.wire = [] → d.msh.rescan = false → d.msh.cur = none → d.linkOf ((d.msh.asn + 1) % 2 ^ 40) = some k →
      d.isSet MSH_LDATA.ADV 0 k = true → d.fcReady = true → d.speCarries 0 = false → d.speCarries 1 = false →
      completes (.mshSlotBoundary o) s (fun e =>
        e.msh.sent = d.beaconIes ∧ e.get MSH_FCOUT.FC = d.get MSH_FCOUT.FC + 1 ∧ e.msh.dsn = (d.msh.dsn + 1) % 256 ∧
        e.get MSH_CNT.CNT_LO 0 0 = min (d.get MSH_CNT.CNT_LO 0 0 + 1) 0xFFFF ∧ d.indexBut e MSH_CNT.CNT_LO 0 0 ∧
        d.mshFrameTx e [MSH_FCOUT.FC, MSH_CNT.CNT_LO])) ∧
    (s.acts (.mshSlotBoundary o) d → d.mshState = mshSync → d.slotLen = (len, frac) → d.msh.eb = none → d.msh.roll = none → d.msh.train = none →
      d.msh.wire = [] → d.msh.rescan = false → d.msh.cur = none → d.linkOf ((d.msh.asn + 1) % 2 ^ 40) = some k →
      d.isSet MSH_LDATA.ADV 0 k = false → d.isSet MSH_LDATA.TX 0 k = true → d.isSet MSH_LDATA.SHARED 0 k = false →
      d.msh.txq = r :: rest → d.linkServes k r.dst = true → r.fc = none → r.ack = true → d.fcReady = true →
      d.speCarries 0 = false → d.speCarries 1 = false → completes (.mshSlotBoundary o) s (fun e =>
        e.msh.sent = [4, r.bytes.length] ++ r.bytes ∧ e.get MSH_FCOUT.FC = d.get MSH_FCOUT.FC + 1 ∧
        e.msh.cur = some { r with made := r.made + 1, fc := some (d.get MSH_FCOUT.FC) } ∧ e.msh.txq = rest ∧
        e.msh.dsn = (d.msh.dsn + 1) % 256 ∧ d.mshFrameTx e [MSH_FCOUT.FC])) ∧
    (s.acts .mshMiss d → d.linkOf d.msh.asn = none ∨ d.parent = none ∨ d.mshState ≠ mshSync ∨ d.mshRoot = true →
      completes .mshMiss s (fun e => e = d)) ∧
    (s.acts .mshMiss d → d.missed k p → d.get MSH_TSRC.MISS < 2 → completes .mshMiss s (fun e =>
        e.get MSH_TSRC.MISS = d.get MSH_TSRC.MISS + 1 ∧
        e.msh = { d.msh with widen := max d.msh.widen (d.get MSH_TSRC.MISS + 1) } ∧ d.mshFrame e [MSH_TSRC.MISS])) ∧
    (s.acts .mshMiss d → d.missed k p → d.get MSH_TSRC.MISS = 2 →
      b = d.msh.bound + txOffset + usTicks (d.guardUs k) → (d.toTick b).cand1 = some c → completes .mshMiss s (fun e =>
        e.parent = some c ∧ e.get MSH_TSRC.MISS = 0 ∧ e.get MSH_STATUS.RANK = min 15 (d.get MSH_NDATA_W2.RANK 0 c + 1) ∧
        e.get MSH_CNT.CNT_LO 0 5 = min (d.get MSH_CNT.CNT_LO 0 5 + 1) 0xFFFF ∧ d.told e evMshTsrc ∧
        e.mshState = mshSync ∧ d.indexBut e MSH_CNT.CNT_LO 0 5 ∧
        d.mshFrame e [MSH_TSRC.MISS, MSH_TSRC.CUR, MSH_STATUS.RANK, MSH_CNT.CNT_LO])) ∧
    (s.acts .mshMiss d → d.missed k p → d.get MSH_TSRC.MISS = 2 → b = d.msh.bound + txOffset + usTicks (d.guardUs k) →
      (d.toTick b).cand1 = none → d.msh.cur = none → d.msh.txq = [] → completes .mshMiss s (fun e =>
        e.mshState = mshDesync ∧ e.parent = some p ∧ d.told e evMshDesync ∧ d.logged e 2 0x23 0 stMshDesync ∧
        d.mshFrame e [MSH_TSRC.MISS, MSH_STATUS.STATE])) ∧
    (s.acts .mshScanDwell d → d.mshState ≠ mshScan → completes .mshScanDwell s (fun e => e = d)) ∧
    (s.acts .mshScanDwell d → d.mshState = mshScan → t = d.msh.dwellAt + msTicks (d.get MSH_SCAN.SCAN_DWELL) →
      completes .mshScanDwell s (fun e =>
        e.msh = { d.msh with scanCh := if d.msh.scanCh < 26 then d.msh.scanCh + 1 else 11, dwellAt := t } ∧
        e.tick = max d.tick t ∧ d.keeps e [] ∧ { e.sansTime with msh := {} } = { d.sansTime with msh := {} })) ∧
    (s.acts (.asnPair asn t) d → d.mshState < 2 ∨ (asn.toNat, t) ≠ d.mshNext ∨ t < d.tick + msTicks 1 → completes (.asnPair asn t) s (fun e => e = d)) ∧
    (s.acts (.asnPair asn t) d → 2 ≤ d.mshState → (asn.toNat, t) = d.mshNext → d.tick + msTicks 1 ≤ t → n = (if (d.asn.settle d.tick).missing = false ∧
        asn.toNat = (d.asn.settle d.tick).asn + 1 then t - (d.asn.settle d.tick).tick
        else (d.asn.settle d.tick).len) → completes (.asnPair asn t) s (fun e =>
      e.asn = { d.asn.settle d.tick with next := some (asn.toNat, t, n), missing := false } ∧
      d.alters e [] (fun y => { y with asn := {} }))) ∧
    (s.acts .asnPairMissing d → (d.asn.settle d.tick).next ≠ none → completes .asnPairMissing s (fun e => e = d)) ∧
    (s.acts .asnPairMissing d → (d.asn.settle d.tick).next = none → completes .asnPairMissing s (fun e =>
      e.asn = { d.asn.settle d.tick with missing := true } ∧ e.regs = d.regs ∧ d.clk ≤ e.clk ∧
      { e.sansTime with asn := {} } = { d.sansTime with asn := {} })) ∧
    (s.acts .mshTxRequest d → k = d.get MSH_Q.TXQ → k < 2 ∨ d.qEn k = false ∨ d.qCons k ≠ epMsh ∨ d.qReady k = false →
      completes .mshTxRequest s (fun e => e = d)) ∧
    (s.acts .mshTxRequest d → k = d.get MSH_Q.TXQ → 2 ≤ k → d.qEn k = true → d.qCons k = epMsh → d.qReady k = true →
      bitsOf (d.qHead k) 23 16 = 0x41 → a = (d.qBody k).getD 0 0 → n = bitsOf ((d.qBody k).getD 1 0) 7 0 →
      d.mshState = mshSync → (bitOf a 3 = true → bitsOf a 1 0 ≠ 2) → n ≤ (if bitsOf a 1 0 = 2 then 17 else 96) →
      d.fcGone = false → completes .mshTxRequest s (fun e =>
        e.msh = { d.msh with txq := d.msh.txq ++ [
          { dst := bitsOf a 31 16, tag := bitsOf a 15 8, ack := bitOf a 3 && bitsOf a 31 16 != 0xFFFF, sf := bitsOf a 1 0,
            bytes := (List.range n).map (fun i => (d.qBody k).getD (2 + i / 4) 0 / 256 ^ (i % 4) % 256) }] } ∧
        (e.qx k).cons = (d.qx k).cons + 1 + bitsOf (d.qHead k) 15 0 ∧ d.queuesBut e k ∧
        d.alters e [] (fun y => { y with msh := {}, q := [] }))) ∧
    (s.acts .mshTxRequest d → k = d.get MSH_Q.TXQ → 2 ≤ k → d.qEn k = true → d.qCons k = epMsh → d.qReady k = true →
      d.get MSH_Q.RXQ < 2 → bitsOf (d.qHead k) 23 16 = 0x41 → a = (d.qBody k).getD 0 0 →
      n = bitsOf ((d.qBody k).getD 1 0) 7 0 → b = (if d.mshState ≠ mshSync then stMshNotSync else
        if (bitOf a 3 = true ∧ bitsOf a 1 0 = 2) ∨ (if bitsOf a 1 0 = 2 then 17 else 96) < n then stMshTooLong
        else if d.fcGone then stMshFcExhaust else 0) → b ≠ 0 → completes .mshTxRequest s (fun e =>
        e.get MSH_STATUS.LAST_ERR = b ∧ e.msh = d.msh ∧
        (e.qx k).cons = (d.qx k).cons + 1 + bitsOf (d.qHead k) 15 0 ∧ d.queuesBut e k ∧
        d.alters e [(MSH_STATUS.LAST_ERR, 0)] (fun y => { y with q := [] }))) ∧
    (s.acts .mshAckWindowEnd d → d.msh.cur = none → completes .mshAckWindowEnd s (fun e => e = d)) ∧
    (s.acts .mshAckWindowEnd d → d.msh.cur = some r → r.made < 4 → completes .mshAckWindowEnd s (fun e =>
      e.msh = { d.msh with
        cur := none, txq := { r with wait := Config.meshBackoff d.fresh } :: d.msh.txq } ∧
      e.tick = max d.tick (d.msh.txEnd.getD 0 + usTicks 1200) ∧ d.keeps e [] ∧
      { e.sansTime with msh := {}, fresh := 0 } = { d.sansTime with msh := {}, fresh := 0 })) ∧
    (s.acts .mshAckWindowEnd d → d.msh.cur = some r → 4 ≤ r.made → d.get MSH_Q.RXQ < 2 → completes .mshAckWindowEnd s (fun e =>
      e.msh = { d.msh with cur := none } ∧ e.get MSH_CNT.CNT_HI 0 4 = min (d.get MSH_CNT.CNT_HI 0 4 + 1) 0xFFFF ∧
      d.indexBut e MSH_CNT.CNT_HI 0 4 ∧ e.tick = max d.tick (d.msh.txEnd.getD 0 + usTicks 1200) ∧
      d.keeps e [(MSH_CNT.CNT_HI, 0)] ∧ { e.sansTime with msh := {} } = { d.sansTime with msh := {} })) ∧
    (s.acts .mshWake d → d.isSet MSH_WAKE.BUSY = true ∨ d.mshState = mshOff → completes .mshWake s (fun e =>
      e.get MSH_STATUS.LAST_ERR = stMshBusy ∧ d.writes e [(MSH_STATUS.LAST_ERR, 0)])) ∧
    (s.acts .mshWake d → d.isSet MSH_WAKE.BUSY = false → d.mshState ≠ mshOff → completes .mshWake s (fun e =>
      e.get MSH_WAKE.BUSY = 1 ∧
      e.msh = { d.msh with train := some (if d.mshState = mshScan then { left := d.trainTicks, started := true, here := some d.tick }
        else { left := d.trainTicks }) } ∧
      d.alters e [(MSH_WAKE.BUSY, 0)] (fun y => { y with msh := {} }))) ∧
    (s.acts .mshWakeDone d → d.msh.train.bind (fun y => y.here) = none → completes .mshWakeDone s (fun e => e = d)) ∧
    (s.acts .mshWakeDone d → d.msh.train = some y → y.here = some t → d.mshState ≠ mshScan → d.mshNext.2 < t + y.left →
      completes .mshWakeDone s (fun e => e = d)) ∧
    (s.acts .mshWakeDone d → d.msh.train = some y → y.here = some t → d.mshState = mshScan ∨ t + y.left ≤ d.mshNext.2 →
      b = t + y.left → completes .mshWakeDone s (fun e =>
      e.get MSH_WAKE.BUSY = 0 ∧ e.msh = { d.msh with train := none, txFrom := t, txEnd := some b } ∧ e.clk = max d.clk (2 * b) ∧
      d.told e evMshWakeDone ∧ d.mshFrameTx e [MSH_WAKE.BUSY])) ∧
    (s.acts (.neighbourExpiry x) d → d.nbrValid x = false ∨ d.nbrLinked x = true → completes (.neighbourExpiry x) s (fun e => e = d)) ∧
    (s.acts (.neighbourExpiry x) d → d.nbrValid x = true → d.nbrLinked x = false → completes (.neighbourExpiry x) s (fun e =>
      (∀ g : Fld, g ∈ nbrFlds → e.get g 0 x = 0) ∧ e.nbrx x = {} ∧ d.nbrsBut e x ∧
      e.parent = (if d.parent = some x.val then none else d.parent) ∧
      e.clk = max d.clk (2 * ((d.nbrx x).heard + msTicks 300000)) ∧ d.mshFrame e (MSH_TSRC.CUR_V :: nbrFlds))) ∧
    (s.dev.rgr.down = true ∨ s.dev.stepDone 4 = false ∨ s.dev.live 7 = false ∨ s.dev.get MSH_FCOUT.FC + 32768 < s.dev.msh.mark →
      changesNothing .fcMarkRaise s) ∧
    (s.dev.rgr.down = false → s.dev.stepDone 4 = true → s.dev.live 7 = true → s.dev.msh.mark ≤ s.dev.get MSH_FCOUT.FC + 32768 →
      n = min 0xFFFFFFFF (s.nv.word ctrFcMark + 65536) → completesNv .fcMarkRaise s (fun u =>
        u.dev = { s.dev with msh := { s.dev.msh with mark := n } } ∧ u.nv.word ctrFcMark = n ∧ s.nvBut u ctrFcMark 4))

/-- The wired ports (R332 to R340). EN and RETRAIN start autonegotiation, which ends in training at an amplitude both ends offer
or in FAIL; training in UP with its quality, or again in AN; leaving UP is counted, told, and cuts off the frame on the line.
A request of the host is refused without a link or with a wrong length, else sent and answered; a received frame is
dropped and counted for its fault, passed to the mesh, delivered with the item 0x52, or not for the port. Without the port's
island the host's writes change nothing but HLK_ERR. -/
def Obligations.WiredPortsComplete : Prop :=
  ∀ (s : State) (n : Fin 2) (en p24 p10 a : Bool) (snr eye echo : BitVec 8) (f : WireFrame) (c : Instr) (k st x tag cause : Nat)
      (g : Fld) (ws : List Byte) (d : Dev),
    (c = .speEnWrite n en ∨ c = .retrain n ∨ c = .speCntClr n → s.dev.present (8 + n) = false → s.dev.pwr.asleep = none → completes c s (fun e =>
      s.dev.hostErred e stIsland (Reg.SPE_CTRL.place.base + Reg.SPE_CTRL.place.si * n) ∧ e.sans = s.dev.sans)) ∧
    (s.acts c d → c = .speEnWrite n en ∧ st = (if en then speAn else speDisabled) ∧
          (en = true → d.speState n = speDisabled ∨ d.speState n = speFail) ∨
        c = .retrain n ∧ st = speAn ∧ d.speState n ≠ speDisabled ∨
        c = .speTrainTimeout n ∧ st = speAn ∧ d.speState n = speTraining →
      d.speState n ≠ speUp → completes c s (fun e =>
        e.speState n = st ∧ e.get SPE_CTRL.EN n = (if c = .speEnWrite n en then (if en then 1 else 0) else d.get SPE_CTRL.EN n) ∧
        d.writes e [(SPE_STATUS.STATE, n), (SPE_CTRL.EN, n)])) ∧
    (s.acts c d → c = .speEnWrite n false ∧ st = speDisabled ∨ c = .retrain n ∧ st = speAn ∨ c = .speLinkLoss n ∧ st = speAn →
      d.speState n = speUp → d.get SPE_Q.RXQ n < 2 → completes c s (fun e =>
        e.speState n = st ∧ e.get SPE_STATUS.LINK n = 0 ∧ e.get SPE_STATUS.AMP24 n = 0 ∧ e.speQual n = 0 ∧
        e.get SPE_CNT.CNT_HI n 3 = min (d.get SPE_CNT.CNT_HI n 3 + 1) 0xFFFF ∧ d.indexBut e SPE_CNT.CNT_HI n 3 ∧
        (e.spex n).tx = none ∧ d.told e (evSpeDown n) ∧ (c ≠ .speEnWrite n false → e.get SPE_CTRL.EN n = d.get SPE_CTRL.EN n) ∧
        d.alters e [(SPE_STATUS.STATE, n), (SPE_STATUS.LINK, n), (SPE_STATUS.AMP24, n), (SPE_CNT.CNT_HI, n), (SPE_CTRL.EN, n),
          (TRL_CH.SEEN, 0)] (fun y => { y with spe := [], flights := [] }))) ∧
    (s.acts (.speEnWrite n true) d → d.speState n ≠ speDisabled → d.speState n ≠ speFail → completes (.speEnWrite n true) s (fun e =>
      e.get SPE_CTRL.EN n = 1 ∧ d.writes e [(SPE_CTRL.EN, n)])) ∧
    (s.acts c d → c = .retrain n ∧ d.speState n = speDisabled ∨ c = .speAnDone n p24 p10 ∧ d.speState n ≠ speAn ∨
        c = .speTrained n snr eye echo ∧ (d.speState n ≠ speTraining ∨ snr.toNat < d.get SPE_CTRL.UP_SNR n) ∨
        c = .speTrainTimeout n ∧ d.speState n ≠ speTraining ∨ c = .speLinkLoss n ∧ d.speState n ≠ speUp ∨
        c = .speFrameRx n f ∧ d.speState n ≠ speUp → completes c s (fun e => e = d)) ∧
    (s.acts (.speTxDone n) d → (d.spex n).tx = none → completes (.speTxDone n) s (fun e => e = d)) ∧
    (s.acts (.speCntClr n) d → completes (.speCntClr n) s (fun e =>
      (∀ j : Nat, j < 4 → e.get SPE_CNT.CNT_HI n j = 0 ∧ e.get SPE_CNT.CNT_LO n j = 0) ∧
      d.writes e [(SPE_CNT.CNT_HI, n), (SPE_CNT.CNT_LO, n)])) ∧
    (s.acts (.speAnDone n p24 p10) d → d.speState n = speAn → x = d.get SPE_CTRL.AMP n →
      a = (x == 1 || (x != 2 && d.isSet SPE_CTRL.ADV24 n && p24)) → x = 1 ∨ x = 2 ∨ a = true ∨ p10 = true →
      completes (.speAnDone n p24 p10) s (fun e =>
        e.speState n = speTraining ∧ e.get SPE_STATUS.AMP24 n = (if a then 1 else 0) ∧
        d.writes e [(SPE_STATUS.STATE, n), (SPE_STATUS.AMP24, n)])) ∧
    (s.acts (.speAnDone n p24 p10) d → d.speState n = speAn → d.get SPE_CTRL.AMP n ≠ 1 → d.get SPE_CTRL.AMP n ≠ 2 →
      d.isSet SPE_CTRL.ADV24 n = false ∨ p24 = false → p10 = false → completes (.speAnDone n p24 p10) s (fun e =>
        e.speState n = speFail ∧ d.writes e [(SPE_STATUS.STATE, n)])) ∧
    (s.acts (.speTrained n snr eye echo) d → d.speState n = speTraining → d.get SPE_CTRL.UP_SNR n ≤ snr.toNat → d.get SPE_CTRL.DOWN_SNR n ≤ snr.toNat →
      completes (.speTrained n snr eye echo) s (fun e =>
        e.speState n = speUp ∧ e.get SPE_STATUS.LINK n = 1 ∧
        e.speQual n = min 7 (1 + (snr.toNat - d.get SPE_CTRL.DOWN_SNR n) / 12) ∧ e.get SPE_QUAL.SNR n = snr.toNat ∧
        e.get SPE_QUAL.EYE n = eye.toNat ∧ e.get SPE_QUAL.ECHO n = echo.toNat ∧
        d.writesTells e [(SPE_STATUS.STATE, n), (SPE_STATUS.LINK, n), (SPE_QUAL.SNR, n), (SPE_QUAL.EYE, n),
          (SPE_QUAL.ECHO, n)] (evSpeUp n))) ∧
    (s.acts (.speTxRequest n) d → k = d.get SPE_Q.TXQ n → k < 2 ∨ d.qEn k = false ∨ d.qCons k ≠ epSpe n ∨ d.qReady k = false ∨
        (d.spex n).tx ≠ none → completes (.speTxRequest n) s (fun e => e = d)) ∧
    (s.acts (.speTxRequest n) d → k = d.get SPE_Q.TXQ n → 2 ≤ k → d.qEn k = true → d.qCons k = epSpe n → d.qReady k = true →
      (d.spex n).tx = none → bitsOf (d.qHead k) 23 16 = 0x51 → x = (d.qBody k).getD 0 0 →
      st = (if d.speState n ≠ speUp then stSpeNoLink else if bitsOf x 10 0 < 60 ∨ 1514 < bitsOf x 10 0 then stSpeLength else 0) →
      st = 0 ∨ d.get SPE_Q.RXQ n < 2 → completes (.speTxRequest n) s (fun e =>
        (e.qx k).cons = (d.qx k).cons + 1 + bitsOf (d.qHead k) 15 0 ∧ d.queuesBut e k ∧
        (st = 0 → e.spex n = { d.spex n with tx := some (bitsOf x 23 16, speLine (bitsOf x 10 0) ((d.qBody k).drop 1)) } ∧
          e.get SPE_STATUS.LAST_ERR n = d.get SPE_STATUS.LAST_ERR n) ∧
        (st ≠ 0 → e.get SPE_STATUS.LAST_ERR n = st ∧ e.spex n = d.spex n) ∧
        d.alters e [(SPE_STATUS.LAST_ERR, n)] (fun y => { y with spe := [], q := [] }))) ∧
    (s.acts (.speTxDone n) d → (d.spex n).tx = some (tag, ws) → d.get SPE_Q.RXQ n < 2 → completes (.speTxDone n) s (fun e =>
      e.spex n = { d.spex n with tx := none } ∧ e.get SPE_CNT.CNT_LO n 0 = min (d.get SPE_CNT.CNT_LO n 0 + 1) 0xFFFF ∧
      d.indexBut e SPE_CNT.CNT_LO n 0 ∧ d.alters e [(SPE_CNT.CNT_LO, n)] (fun y => { y with spe := [] }))) ∧
    (s.acts (.speTxDone n) d → (d.spex n).tx = some (tag, ws) → k = d.get SPE_Q.RXQ n → 2 ≤ k → d.qTakes k (epSpe n) 1 = true →
      (d.qx k).stall = none → completes (.speTxDone n) s (fun e =>
      (e.spex n).tx = none ∧ e.qHolds k (d.qx k).prod [qHeader 0x53 1, tag * 256] ∧
      (e.qx k).vis = (d.qx k).prod + 2 ∧ d.queuesBut e k ∧ d.memBut e (d.qAddr k) (4 * d.qSize k) ∧
      d.alters e [(SPE_CNT.CNT_LO, n)] (fun y => { y with spe := [], q := [], mem := [] }))) ∧
    (s.acts (.speFrameRx n f) d → d.speState n = speUp → (g, k, cause) = (SPE_CNT.CNT_HI, 2, 2) ∧ f.codeOk = false ∨
        f.codeOk = true ∧ (f.bytes.length < 64 ∨ 1518 < f.bytes.length) ∧ (g, k, cause) = (SPE_CNT.CNT_LO, 1, 1) ∨
        f.codeOk = true ∧ 64 ≤ f.bytes.length ∧ f.bytes.length ≤ 1518 ∧ f.fcsOk = false ∧ (g, k, cause) = (SPE_CNT.CNT_HI, 1, 0) ∨
        f.codeOk = true ∧ 64 ≤ f.bytes.length ∧ f.bytes.length ≤ 1518 ∧ f.fcsOk = true ∧ f.control = true ∧
          (g, k, cause) = (SPE_CNT.CNT_LO, 3, 3) ∨
        d.takesFrame n f ∧ d.get SPE_Q.RXQ n < 2 ∧ (g, k, cause) = (SPE_CNT.CNT_LO, 2, 4) →
      completes (.speFrameRx n f) s (fun e =>
        e.get g n k = min (d.get g n k + 1) 0xFFFF ∧ d.indexBut e g n k ∧ (e.spex n).tx = (d.spex n).tx ∧
        ((d.spex n).logs = [] → d.logged e 2 (0x24 + n) 0 (Config.codeIn 0x04 (20 + cause))) ∧
        d.alters e [(g, n), (MGT_LOG_CNT.DROPPED, 0)] (fun y => { y with spe := [], log := {} }))) ∧
    (s.acts (.speFrameRx n f) d → d.speState n = speUp → d.takesFrame n f → k = d.get SPE_Q.RXQ n → 2 ≤ k →
      d.qTakes k (epSpe n) (3 + (f.bytes.length - 1) / 4) = true → (d.qx k).stall = none → (d.qx k).freeAt = 0 →
      completes (.speFrameRx n f) s (fun e =>
        e.get SPE_CNT.CNT_HI n 0 = min (d.get SPE_CNT.CNT_HI n 0 + 1) 0xFFFF ∧ d.indexBut e SPE_CNT.CNT_HI n 0 ∧
        e.qHolds k (d.qx k).prod
          [qHeader 0x52 (3 + (f.bytes.length - 1) / 4), f.bytes.length - 4, f.sfdTick % 2 ^ 32, f.sfdTick / 2 ^ 32] ∧
        (e.qx k).vis = (d.qx k).prod + 4 + (f.bytes.length - 1) / 4 ∧ d.queuesBut e k ∧
        d.memBut e (d.qAddr k) (4 * d.qSize k) ∧
        d.alters e [(SPE_CNT.CNT_HI, n)] (fun y => { y with q := [], mem := [] }))) ∧
    (s.acts (.speFrameRx n f) d → d.speState n = speUp → f.codeOk = true → 64 ≤ f.bytes.length → f.bytes.length ≤ 1518 → f.fcsOk = true → f.control = false →
      f.etherType = 0x88B5 → d.isSet SPE_CTRL.OLUON n = true → d.mshState = mshOff → completes (.speFrameRx n f) s (fun e =>
        e.get SPE_CNT.CNT_HI n 0 = min (d.get SPE_CNT.CNT_HI n 0 + 1) 0xFFFF ∧ d.indexBut e SPE_CNT.CNT_HI n 0 ∧
        d.writes e [(SPE_CNT.CNT_HI, n)])) ∧
    (s.acts (.speFrameRx n f) d → d.speState n = speUp → f.codeOk = true → 64 ≤ f.bytes.length → f.bytes.length ≤ 1518 → f.fcsOk = true → f.control = false →
      f.etherType ≠ 0x88B5 ∨ d.isSet SPE_CTRL.OLUON n = false → d.speForUs n f.dst = false →
      completes (.speFrameRx n f) s (fun e => e = d))

/-- The Ranger's mailbox (R403, R412, R421). A command is taken from Q0 once the Ranger can take it; what the life-cycle state or the
recovery service does not allow answers LCS_DENIED, wrong arguments MBX_ARGS, an unlisted TYPE MBX_UNKNOWN, each with the
TAG on Q1 and counted in ERRORS; nothing else changes. -/
def Obligations.MailboxChecksComplete : Prop :=
  ∀ (s : State) (c : Instr) (type n tag st : Nat) (args : List Nat),
    ((c, type, n) ∈ mailboxCmds ∨ (c, type) = (.stageWrite, 0x11) ∨ (c, type) = (.keySet, 0x39) →
      s.dev.rgr.announce = none → s.dev.mbxReady = false ∨ s.dev.mbxType ≠ type → changesNothing c s) ∧
    ((c, type, n) ∈ mailboxCmds ∨ (c, type) = (.stageWrite, 0x11) ∨ (c, type) = (.keySet, 0x39) →
      s.dev.mbxReady = true → s.dev.mbxType = type → (s.dev.qx 1).stall = none → tag = (s.dev.qBody 0).getD 0 0 →
      (s.dev.rgr.recovery = true ∧ mbxRecovery type = false) ∨ mbxState type s.dev.lcs = false → completes c s (fun e =>
        s.dev.answered e type tag stLcsDenied [] ∧ e.get MGT_LOG_CNT.ERRORS = min (s.dev.get MGT_LOG_CNT.ERRORS + 1) 0xFFFF ∧
        (mbxNvm type = true → e.get NVM_STATUS.LAST_ERR = stLcsDenied) ∧
        s.dev.mbxFrame e (if mbxNvm type then [NVM_STATUS.LAST_ERR] else []) [])) ∧
    ((c, type, n) ∈ mailboxCmds ∧ args.length ≠ n ∨ (c, type) = (.stageWrite, 0x11) ∧ (args.length < 3 ∨ 254 < args.length) ∨
        (c, type) = (.keySet, 0x39) ∧ args.length ≠ (if s.dev.lcs = 2 then 4 else 3) → s.dev.offers type tag args →
      completes c s (fun e =>
        s.dev.answered e type tag stMbxArgs [] ∧ e.get MGT_LOG_CNT.ERRORS = min (s.dev.get MGT_LOG_CNT.ERRORS + 1) 0xFFFF ∧
        (mbxNvm type = true → e.get NVM_STATUS.LAST_ERR = stMbxArgs) ∧
        s.dev.mbxFrame e (if mbxNvm type then [NVM_STATUS.LAST_ERR] else []) [])) ∧
    (s.dev.rgr.announce = none → s.dev.mbxReady = false ∨ s.dev.mbxType ∈ mbxTypes → changesNothing .mailboxUnknownType s) ∧
    (s.dev.mbxReady = true → s.dev.mbxType = type → type ∉ mbxTypes → (s.dev.qx 1).stall = none → tag = (s.dev.qBody 0).getD 0 0 →
      st = (if s.dev.rgr.recovery then stLcsDenied else stMbxUnknown) → completes .mailboxUnknownType s (fun e =>
        s.dev.answered e type tag st [] ∧ e.get MGT_LOG_CNT.ERRORS = min (s.dev.get MGT_LOG_CNT.ERRORS + 1) 0xFFFF ∧
        s.dev.mbxFrame e [] []))

/-- Staging and stores (R238 to R240, R264, R404 to R407). STAGE_OPEN gives the slot that is not current the next generation and
the current slot's content, STAGE_WRITE writes words into it, STORE ends it with its CRC and answers the generation,
STAGE_DISCARD leaves it; each is refused where the region may not be written, another is open, it is not open, or the range is
outside. CAL_CAPTURE puts the present calibration into the calibration slot. -/
def Obligations.StagingCompletes : Prop :=
  ∀ (s : State) (c : Instr) (type tag r off st n t : Nat) (args ws : List Nat),
    ((c, type) ∈ [(.stageOpen, 0x10), (.stageWrite, 0x11), (.store, 0x12)] → s.dev.offers type tag (r :: args) → r < 5 →
      (if c = .stageWrite then 2 ≤ args.length ∧ args.length ≤ 253 else args = []) → st = s.dev.regionDenied r → st ≠ 0 →
      completes c s (fun e =>
        s.dev.answered e type tag st [] ∧ e.get NVM_STATUS.LAST_ERR = st ∧ (st = stRguStoreLocked → s.dev.logged e 1 0x27 3 st) ∧
        e.rgr = s.dev.rgr ∧ s.dev.mbxFrame e [NVM_STATUS.LAST_ERR] [])) ∧
    ((c = .stageOpen ∧ type = 0x10 ∧ args = [r] ∧ r < 4 ∧ s.dev.regionDenied r = 0 ∧ s.dev.rgr.stage ≠ none ∧
          s.dev.rgr.stage ≠ some r ∧ st = stNvmBusy) ∨
        (c = .calCapture ∧ type = 0x14 ∧ args = [] ∧ s.dev.rgr.stage ≠ none ∧ s.dev.rgr.stage ≠ some 1 ∧ st = stNvmBusy) ∨
        ((c, type) ∈ [(.store, 0x12), (.stageDiscard, 0x13)] ∧ args = [r] ∧ r < 4 ∧ s.dev.regionDenied r = 0 ∧
          s.dev.rgr.stage ≠ some r ∧ st = stNvmNotStaged) ∨
        (c = .stageWrite ∧ type = 0x11 ∧ args = r :: off :: ws ∧ 1 ≤ ws.length ∧ ws.length ≤ 252 ∧ r < 4 ∧
          s.dev.regionDenied r = 0 ∧ st = (if s.dev.rgr.stage ≠ some r then stNvmNotStaged else
            if off % 4 ≠ 0 ∨ slotSize r - 4 < off + 4 * ws.length then stNvmRange else 0) ∧ st ≠ 0) →
      s.dev.offers type tag args → completes c s (fun e =>
        s.dev.answered e type tag st [] ∧ e.get NVM_STATUS.LAST_ERR = st ∧ e.rgr = s.dev.rgr ∧ e.log = s.dev.log ∧
        s.dev.mbxFrame e [NVM_STATUS.LAST_ERR] [])) ∧
    (s.dev.offers 0x10 tag [r] → r < 4 → s.dev.regionDenied r = 0 → s.dev.rgr.stage = none ∨ s.dev.rgr.stage = some r →
      t = s.nv.target r → completesNv .stageOpen s (fun u =>
        s.dev.answered u.dev 0x10 tag 0 [] ∧
        u.dev.rgr = { s.dev.rgr with stage := some r, busyTill := u.dev.rgr.busyTill } ∧ s.dev.tick < u.dev.rgr.busyTill ∧ u.dev.get NVM_STATUS.OPEN = 1 ∧
        u.dev.get NVM_STATUS.REGION = r ∧ s.dev.mbxFrame u.dev [NVM_STATUS.OPEN, NVM_STATUS.REGION] [] ∧
        u.nv.gen r t = (match s.nv.current r with | some c => (s.nv.gen r c + 1) % 2 ^ 32 | none => 1) ∧
        u.nv.bytes (slotBase r t) (slotSize r - 4) = (match s.nv.current r with
          | some c => s.nv.bytes (slotBase r c) (slotSize r - 4) | none => List.replicate (slotSize r - 4) 0) ∧
        s.nvOutside u [(slotBase r t, slotSize r - 4), (ctrGen r t, 4)])) ∧
    (s.dev.offers 0x11 tag (r :: off :: ws) → 1 ≤ ws.length → ws.length ≤ 252 → r < 4 → s.dev.regionDenied r = 0 →
      s.dev.rgr.stage = some r → off % 4 = 0 → off + 4 * ws.length ≤ slotSize r - 4 → t = slotBase r (s.nv.target r) + off →
      completesNv .stageWrite s (fun u =>
        s.dev.answered u.dev 0x11 tag 0 [] ∧ u.dev.rgr = { s.dev.rgr with busyTill := u.dev.rgr.busyTill } ∧
        s.dev.tick < u.dev.rgr.busyTill ∧ s.dev.mbxFrame u.dev [] [] ∧
        (List.range ws.length).map (fun i => u.nv.word (t + 4 * i)) = ws.map (fun w => w % 2 ^ 32) ∧
        s.nvOutside u [(t, 4 * ws.length)])) ∧
    (s.dev.offers 0x12 tag [r] → r < 4 → s.dev.regionDenied r = 0 → s.dev.rgr.stage = some r → t = s.nv.target r →
      n = slotBase r t + slotSize r - 4 → completesNv .store s (fun u =>
        s.dev.answered u.dev 0x12 tag 0 [s.nv.gen r t] ∧
        u.dev.rgr = { s.dev.rgr with stage := none, busyTill := u.dev.rgr.busyTill } ∧ s.dev.tick < u.dev.rgr.busyTill ∧
        u.dev.get NVM_STATUS.OPEN = 0 ∧ s.dev.mbxFrame u.dev [NVM_STATUS.OPEN, NVM_STATUS.REGION, RGU_ACTIVE.PERMIT] [] ∧
        (r ≠ 3 → u.dev.get RGU_ACTIVE.PERMIT = s.dev.get RGU_ACTIVE.PERMIT) ∧ u.nv.word n = s.nv.slotCrc r t % 2 ^ 32 ∧
        s.nvOutside u [(n, 4)])) ∧
    (s.dev.offers 0x13 tag [r] → r < 5 → s.dev.rgr.stage = some r → completes .stageDiscard s (fun e =>
        s.dev.answered e 0x13 tag 0 [] ∧ e.rgr = { s.dev.rgr with stage := none } ∧ e.get NVM_STATUS.OPEN = 0 ∧
        s.dev.mbxFrame e [NVM_STATUS.OPEN, NVM_STATUS.REGION] [])) ∧
    (s.dev.offers 0x14 tag [] → s.dev.rgr.stage = some 1 → t = slotBase 1 (s.nv.target 1) → completesNv .calCapture s (fun u =>
        s.dev.answered u.dev 0x14 tag 0 [] ∧ u.dev.get NVM_STATUS.OPEN = 1 ∧ u.dev.get NVM_STATUS.REGION = 1 ∧
        s.dev.mbxFrame u.dev [NVM_STATUS.OPEN, NVM_STATUS.REGION] [] ∧
        u.dev.rgr = { s.dev.rgr with busyTill := u.dev.rgr.busyTill } ∧ s.dev.tick < u.dev.rgr.busyTill ∧
        u.nv.word t % 65536 = 1 ∧ (u.nv.byte (t + 2)) = 0x21 ∧ u.nv.bytes (t + 8) 16 = s.nv.serialBytes ∧
        u.nv.word (t + 24) = s.dev.tick % 2 ^ 32 ∧ u.nv.word (t + 28) = s.dev.tick / 2 ^ 32 % 2 ^ 32 ∧
        (∀ k : Nat, k < 15 → u.nv.bytes (t + 0x40 + 64 * k) 64 = s.dev.trimBytes k) ∧
        (∀ k : Nat, k < 2048 → u.nv.word (t + 0x440 + 4 * k) =
          s.dev.cacheWord (bankPlace (k / 128) (k % 128)).1 (bankPlace (k / 128) (k % 128)).2 % 2 ^ 32) ∧
        s.nvOutside u [(t, slotSize 1 - 4)]))

/-- HOOP_FREE of a valid entry (R181): its VALID is cleared, which releases the entry and its span, unless any Vat's ENTRY or a
pending NEW_ENTRY lies in the span, when it is refused with HOOP_IN_USE and changes nothing but the mailbox and the log. -/
def Obligations.HoopFreeCompletes : Prop :=
  ∀ (s : State) (tag k : Nat) (e1 : Nat × Nat),
    (s.dev.offers 0x22 tag [k] → k < 32 → s.dev.hoopEntry k = (true, e1) → s.dev.spanUsed e1.1 e1.2 = false →
      s.dev.qAddr 1 + 4 * s.dev.qSize 1 ≤ 0x180000 →
      completes .hoopFree s (fun e =>
        s.dev.answered e 0x22 tag 0 [] ∧ e.hoopEntry k = (false, e1) ∧ e.rgr = s.dev.rgr ∧
        s.dev.mbxFrame e [] [(4 * hoopIndex k, 4)])) ∧
    (s.dev.offers 0x22 tag [k] → k < 32 → s.dev.hoopEntry k = (true, e1) → s.dev.spanUsed e1.1 e1.2 = true →
      completes .hoopFree s (fun e =>
        s.dev.answered e 0x22 tag stHoopInUse [] ∧ e.rgr = s.dev.rgr ∧ s.dev.mbxFrame e [] []))

/-- The hoop commands (R165 to R167, R177 to R182, R406). HOOP_LOAD checks the image and, when the checks pass, copies it relocated to
its base and then makes its index entry valid; HOOP_SWAP arms the
swap of every Vat it names, or with JOINT waits until all have stopped, starts them together, or gives up; HOOP_BOOTSET
adds or removes an image of the open hoop store. Each ends with a response and a log entry, HOOP_FREE too. That HOOP_FREE of an
entry which is not valid is a wrong argument, and the severities of the log, are the model's choice (log entries 51 and 15). -/
def Obligations.HoopCommandsComplete : Prop :=
  ∀ (s : State) (tag src len base k b m off pos : Nat) (bs : List Byte) (ws : List Nat) (j : Joint),
    (s.dev.offers 0x20 tag [src, len, base] → s.image src len = none → completes .hoopLoad s (fun e =>
        s.dev.answered e 0x20 tag stMbxArgs [] ∧ s.dev.logged e 1 0x28 0x20 stMbxArgs ∧ s.dev.mbxFrame e [] [] ∧ e.rgr = s.dev.rgr)) ∧
    (s.dev.offers 0x20 tag [src, len, base] → s.image src len = some bs → s.dev.hoopFreeEntry = some k →
      spanFor s.dev.hoopSpans base (imgEnd bs) = some b → imgLoaded bs b = (ws, true) → completes .hoopLoad s (fun e =>
        { e.rgr with load := none } = { s.dev.rgr with load := none } ∧
        if (imgCheck s.dev.lcs s.nv.keys false bs).1 = 0 then
          s.dev.answered e 0x20 tag 0 [k, b] ∧ s.dev.logged e 0 0x28 0x20 0 ∧ e.words (4 * b) ws.length = ws.map (fun w => w % 2 ^ 32) ∧
          e.hoopEntry k = (true, b, b + imgEnd bs) ∧
          s.dev.mbxFrame e [] [(4 * b, 4 * ws.length), (4 * hoopIndex k, 32)]
        else s.dev.answered e 0x20 tag (imgCheck s.dev.lcs s.nv.keys false bs).1 (imgCheck s.dev.lcs s.nv.keys false bs).2 ∧
          s.dev.logged e 1 0x28 0x20 (imgCheck s.dev.lcs s.nv.keys false bs).1 ∧ s.dev.mbxFrame e [] [])) ∧
    (s.dev.offers 0x21 tag [src, len, base, m] → s.image src len = some bs →
      (maskIds (m % 65536)).all (bitOf (imgMask bs)) = true →
      s.dev.contractClash (m % 65536) (imgContract bs) = false → s.dev.hoopResident bs = some k → bitOf m 16 = false →
      completes .hoopSwap s (fun e =>
        { e.rgr with load := none } = { s.dev.rgr with load := none } ∧
        if (imgCheck s.dev.lcs s.nv.keys false bs).1 = 0 then
          s.dev.answered e 0x21 tag 0 [k] ∧ s.dev.logged e 0 0x28 0x21 0 ∧
          (∀ v : Nat, v < 16 → if bitOf m v then e.get VAT_SWAP.NEW_ENTRY v = s.dev.hoopEntryWord k v % 2 ^ 18 ∧
            e.get VAT_STATUS.SWAP_PEND v = 1 else e.get VAT_SWAP.NEW_ENTRY v = s.dev.get VAT_SWAP.NEW_ENTRY v ∧
            e.get VAT_STATUS.SWAP_PEND v = s.dev.get VAT_STATUS.SWAP_PEND v ∧ e.vatx v = s.dev.vatx v) ∧
          s.dev.keepsBut e [MGT_LOG_CNT.ERRORS, MGT_LOG_CNT.DROPPED, VAT_SWAP.NEW_ENTRY, VAT_STATUS.SWAP_PEND] [] ∧
          s.dev.memBut e (s.dev.qAddr 1) (4 * s.dev.qSize 1) ∧
          { e.sansVats with q := [], mem := [], log := {}, rgr := {}, fresh := 0 } =
            { s.dev.sansVats with q := [], mem := [], log := {}, rgr := {}, fresh := 0 }
        else s.dev.answered e 0x21 tag (imgCheck s.dev.lcs s.nv.keys false bs).1 (imgCheck s.dev.lcs s.nv.keys false bs).2 ∧
          s.dev.mbxFrame e [] [])) ∧
    (s.dev.offers 0x21 tag [src, len, base, m] → s.image src len = some bs →
      (maskIds (m % 65536)).all (bitOf (imgMask bs)) = true →
      s.dev.contractClash (m % 65536) (imgContract bs) = false → s.dev.hoopResident bs = some k → bitOf m 16 = true →
      completes .hoopSwap s (fun e =>
        if (imgCheck s.dev.lcs s.nv.keys false bs).1 = 0 then
          e.rgr = { s.dev.rgr with
            joint := some { entry := k, mask := m % 65536, stopAt := s.dev.tick + msTicks 1000, tag := tag, cmd := 0x21 } } ∧
          (∀ v : Nat, v < 16 → e.get VAT_CTRL.STOP_AT_CLR v = if bitOf m v then 1 else s.dev.get VAT_CTRL.STOP_AT_CLR v) ∧
          (e.qx 0).cons = (s.dev.qx 0).cons + 1 + bitsOf (s.dev.qHead 0) 15 0 ∧ s.dev.queuesBut e 0 ∧
          s.dev.keepsBut e [VAT_CTRL.STOP_AT_CLR] [] ∧ { e.sans with q := [], rgr := {} } = { s.dev.sans with q := [], rgr := {} }
        else s.dev.answered e 0x21 tag (imgCheck s.dev.lcs s.nv.keys false bs).1 (imgCheck s.dev.lcs s.nv.keys false bs).2 ∧
          s.dev.mbxFrame e [] [])) ∧
    (s.dev.offers 0x21 tag [src, len, base, m] → s.image src len = some bs → (imgCheck s.dev.lcs s.nv.keys false bs).1 ≠ 0 →
      completes .hoopSwap s (fun e =>
        s.dev.answered e 0x21 tag (imgCheck s.dev.lcs s.nv.keys false bs).1 (imgCheck s.dev.lcs s.nv.keys false bs).2 ∧
        s.dev.logged e 1 0x28 0x21 (imgCheck s.dev.lcs s.nv.keys false bs).1 ∧
        { e.rgr with load := none } = { s.dev.rgr with load := none } ∧ s.dev.mbxFrame e [] [])) ∧
    (s.dev.rgr.joint = none → changesNothing .jointSwapStart s ∧ changesNothing .jointSwapTimeout s) ∧
    (s.dev.rgr.joint = some j → (∃ v : Fin 16, bitOf j.mask v = true ∧ s.dev.vst v ≠ vsStopped) → changesNothing .jointSwapStart s) ∧
    (s.dev.rgr.joint = some j → (∀ v : Nat, v < 16 → bitOf j.mask v = true → s.dev.vst v = vsStopped) → s.dev.tick ≤ j.stopAt →
      s.dev.rgr.halted = false → s.dev.entering = false → s.dev.qTakes 1 epRanger 3 = true → (s.dev.qx 1).stall = none →
      completes .jointSwapStart s (fun e =>
        (∀ v : Nat, v < 16 → if bitOf j.mask v then e.vst v = vsRun ∧ e.pc v = s.dev.hoopEntryWord j.entry v % 2 ^ 18 ∧
          e.get VAT_STATUS.SWAP_PEND v = 0 else e.vst v = s.dev.vst v ∧ e.pc v = s.dev.pc v) ∧
        e.qHolds 1 (s.dev.qx 1).prod [qHeader j.cmd 3, j.tag, 0, j.entry] ∧ (e.qx 1).vis = (s.dev.qx 1).prod + 4 ∧
        e.rgr = { s.dev.rgr with joint := none } ∧ s.dev.memBut e (s.dev.qAddr 1) (4 * s.dev.qSize 1) ∧ s.dev.queuesBut e 1 ∧
        s.dev.keepsBut e (startFlds ++ [VAT_SWAP.NEW_ENTRY, VAT_CTRL.STOP_AT_CLR, MGT_LOG_CNT.DROPPED]) [])) ∧
    (s.dev.rgr.joint = some j → (∀ v : Nat, v < 16 → bitOf j.mask v = true → s.dev.vst v = vsStopped) → s.dev.tick < j.stopAt →
      changesNothing .jointSwapTimeout s) ∧
    (s.dev.rgr.joint = some j → (∃ v : Fin 16, bitOf j.mask v = true ∧ s.dev.vst v = vsFault) → s.dev.qTakes 1 epRanger 2 = true →
      s.dev.entering = false → (s.dev.qx 1).stall = none → completes .jointSwapTimeout s (fun e =>
        (∀ v : Nat, v < 16 → bitOf j.mask v = true → e.get VAT_CTRL.STOP_AT_CLR v = 0 ∧
          e.vst v = if s.dev.vst v = vsStopped then vsRun else s.dev.vst v) ∧
        e.qHolds 1 (s.dev.qx 1).prod [qHeader j.cmd 2, j.tag, stHoopJoint] ∧ (e.qx 1).vis = (s.dev.qx 1).prod + 3 ∧
        s.dev.logged e 1 0x28 j.cmd stHoopJoint ∧ e.rgr = { s.dev.rgr with joint := none } ∧
        s.dev.memBut e (s.dev.qAddr 1) (4 * s.dev.qSize 1) ∧ s.dev.queuesBut e 1)) ∧
    (s.dev.offers 0x23 tag [0, src, len, base] → s.dev.rgr.stage = some 0 → src = 0xFFFFFF00 + pos → pos < 8 →
      (s.nv.bootEntry (s.nv.target 0) pos).1 = true → completesNv .hoopBootset s (fun u =>
        s.dev.answered u.dev 0x23 tag 0 [pos] ∧ (u.nv.bootEntry (s.nv.target 0) pos).1 = false ∧
        s.nvOutside u [(slotBase 0 (s.nv.target 0) + bootDir + 16 * pos + 12, 4)] ∧ u.dev.rgr = { s.dev.rgr with busyTill := u.dev.rgr.busyTill } ∧
        s.dev.mbxFrame u.dev [] [])) ∧
    (s.dev.offers 0x23 tag [k, src, len, base] → k < 2 → s.dev.rgr.stage ≠ some 0 → completes .hoopBootset s (fun e =>
        s.dev.answered e 0x23 tag stNvmNotStaged [] ∧ s.dev.logged e 1 0x28 0x23 stNvmNotStaged ∧
        e.get NVM_STATUS.LAST_ERR = stNvmNotStaged ∧ s.dev.mbxFrame e [NVM_STATUS.LAST_ERR] [])) ∧
    (s.dev.offers 0x23 tag [1, src, len, base] → s.dev.rgr.stage = some 0 → s.image src len = some bs →
      (List.range 8).find? (fun i => !(s.nv.bootEntry (s.nv.target 0) i).1) = some pos →
      bootPlace (s.nv.bootSpans (s.nv.target 0)) bs.length = some off → off < 0x60000 →
      spanFor (s.nv.bootLoads (s.nv.target 0)) base (imgEnd bs) = some b → imgLoaded bs b = (ws, true) →
      completesNv .hoopBootset s (fun u =>
        if (imgCheck s.dev.lcs s.nv.keys false bs).1 = 0 then
          s.dev.answered u.dev 0x23 tag 0 [pos] ∧ u.nv.bootEntry (s.nv.target 0) pos = (true, off, bs.length, b) ∧
          u.nv.bytes (slotBase 0 (s.nv.target 0) + off) bs.length = bs ∧
          s.nvOutside u [(slotBase 0 (s.nv.target 0) + off, bs.length), (slotBase 0 (s.nv.target 0) + bootDir + 16 * pos, 16)] ∧
          s.dev.mbxFrame u.dev [] []
        else s.dev.answered u.dev 0x23 tag (imgCheck s.dev.lcs s.nv.keys false bs).1 (imgCheck s.dev.lcs s.nv.keys false bs).2 ∧
          u.nv = s.nv ∧ s.dev.mbxFrame u.dev [NVM_STATUS.LAST_ERR] [])) ∧
    (s.dev.offers 0x22 tag [k] → k < 32 → (s.dev.hoopEntry k).1 = false → completes .hoopFree s (fun e =>
        s.dev.answered e 0x22 tag stMbxArgs [] ∧ s.dev.logged e 1 0x28 0x22 stMbxArgs ∧ e.rgr = s.dev.rgr ∧
        s.dev.mbxFrame e [] [])) ∧
    (s.dev.offers 0x22 tag [k] → k < 32 → s.dev.hoopEntry k = (true, b, len) → completes .hoopFree s (fun e =>
        s.dev.logged e (if s.dev.spanUsed b len then 1 else 0) 0x28 0x22 (if s.dev.spanUsed b len then stHoopInUse else 0)))

/-- The Ranger's services (R263, R265, R317, R401 to R403, R409, R421). INFO answers state, serial number, slots and ROLLBACK;
RGU_SELECT makes a usable profile active and can record it; MSH_KEY loads a mesh key and can give a new address; KEY_SET
stores a key, signed by the OWNER in FIELD. SNS_TRNG gives a random word when one is ready and else 0; MGT_LOG_D0 gives the
entry that MGT_LOG_IDX names. Each states all that it changes. -/
def Obligations.RangerServicesComplete : Prop :=
  ∀ (s : State) (tag a i p addr n r len t : Nat) (key : List Byte) (x : LogEntry) (rest : List Nat) (d : Dev),
    (s.dev.offers 0x01 tag [] → completes .info s (fun e =>
        s.dev.answered e 0x01 tag 0 ([s.dev.lcs] ++ (List.range 4).map s.nv.serialWord ++ [s.dev.get NVM_BOOT.RUNNING,
          s.nv.fwVersion 0, s.nv.fwSvn 0, s.nv.fwVersion 1, s.nv.fwSvn 1, s.nv.word ctrRollback]) ∧
        s.dev.mbxFrame e [] [] ∧ e.rgr = s.dev.rgr)) ∧
    (s.dev.offers 0x30 tag [a] → s.nv.usable (a % 16) = false → completes .rguSelect s (fun e =>
        s.dev.answered e 0x30 tag stRguNotPermitted [] ∧ e.get RGU_STATUS.LAST_ERR = stRguNotPermitted ∧
        s.dev.mbxFrame e [RGU_STATUS.LAST_ERR] [] ∧ e.rgr = s.dev.rgr)) ∧
    (s.dev.offers 0x30 tag [a] → s.nv.usable (a % 16) = true → bitOf a 8 = true → s.dev.rgr.stage ≠ none → completes .rguSelect s (fun e =>
        s.dev.answered e 0x30 tag stNvmBusy [] ∧ e.get NVM_STATUS.LAST_ERR = stNvmBusy ∧
        s.dev.mbxFrame e [NVM_STATUS.LAST_ERR] [] ∧ e.rgr = s.dev.rgr)) ∧
    (s.dev.offers 0x30 tag [a] → p = a % 16 → s.nv.usable p = true → bitOf a 8 = false ∨ s.dev.rgr.stage = none →
      s.dev.noneHeld → (∀ c : Nat, c < 9 → s.dev.carrierOn c = false) → completesNv .rguSelect s (fun u =>
        s.dev.answered u.dev 0x30 tag 0 [] ∧ u.dev.get RGU_ACTIVE.VALID = 1 ∧ u.dev.get RGU_ACTIVE.PROF = p ∧
        u.dev.get RGU_ACTIVE.PERMIT = s.nv.usableMask % 65536 ∧ u.dev.rgu.since = s.dev.tick ∧
        (∀ b : Nat, s.nv.rguStore = some b → u.dev.rgu.hdr = (List.range 16).map (s.nv.profWord b p) ∧
          u.dev.rgu.chan = (List.range 64).map (fun c => (s.nv.word (b + 0x280 + 960 * p + 8 * c), s.nv.word (b + 0x284 + 960 * p + 8 * c))) ∧
          (∀ q : Nat, q < 128 → fget (fun _ => 0) u.dev.rgu.ant q = s.nv.word (b + 0x40 + 4 * q))) ∧
        (∀ k : Nat, k < 8 → (u.dev.fex k).past = [] ∧ (u.dev.fex k).ended = [] ∧ (u.dev.fex k).live = (s.dev.fex k).live) ∧
        (s.dev.isSet TRL_PDATA.EN 0 evRguProfile = true → s.dev.told u.dev evRguProfile) ∧
        (bitOf a 8 = false → u.nv = s.nv) ∧
        (bitOf a 8 = true → u.nv.word (slotBase 2 (s.nv.target 2) + 0x40) = 0x80000000 + p ∧
          u.nv.word (slotBase 2 (s.nv.target 2) + 0x3FFC) = u.nv.slotCrc 2 (s.nv.target 2) ∧
          s.nvOutside u [(slotBase 2 (s.nv.target 2), 0x4000), (ctrGen 2 (s.nv.target 2), 4)]) ∧ u.dev.rgr = { s.dev.rgr with busyTill := u.dev.rgr.busyTill } ∧
        s.dev.keepsBut u.dev [MGT_LOG_CNT.DROPPED, RGU_ACTIVE.VALID, RGU_ACTIVE.PROF, RGU_ACTIVE.PERMIT, TRL_CH.SEEN] [] ∧
        s.dev.memOutside u.dev [(s.dev.qAddr 1, 4 * s.dev.qSize 1)] ∧
        { u.dev.sans with q := [], mem := [], log := {}, ecc := [], rgu := {}, fe := [], flights := [] } =
          { s.dev.sans with q := [], mem := [], log := {}, ecc := [], rgu := {}, fe := [], flights := [] })) ∧
    (s.dev.offers 0x38 tag [a] → i = a % 8 → 1 ≤ i → i ≤ 4 → s.nv.key (15 + i) ≠ none → bitOf a 8 = false → completes .mshKey s (fun e =>
        s.dev.answered e 0x38 tag 0 [] ∧ e.get MSH_KEYST.LOADED = Nat.lor (s.dev.get MSH_KEYST.LOADED) (2 ^ (i - 1)) % 16 ∧
        s.dev.mbxFrame e [MSH_KEYST.LOADED] [] ∧ e.rgr = s.dev.rgr)) ∧
    (s.dev.offers 0x38 tag [a] → i = a % 8 → 1 ≤ i → i ≤ 4 → s.nv.key (15 + i) ≠ none → bitOf a 8 = true → n = s.nv.word ctrEpoch + 1 →
      addr = (Config.meshAddress s.nv.serialBytes n).toNat → completesNv .mshKey s (fun u =>
        s.dev.answered u.dev 0x38 tag 0 [] ∧ u.dev.get MSH_KEYST.LOADED = Nat.lor (s.dev.get MSH_KEYST.LOADED) (2 ^ (i - 1)) % 16 ∧
        u.dev.get MSH_EXT_LO.EXT_LO = addr % 2 ^ 32 ∧ u.dev.get MSH_EXT_HI.EXT_HI = addr / 2 ^ 32 ∧ u.dev.get MSH_FCOUT.FC = 0 ∧
        u.dev.msh = { s.dev.msh with mark := 0 } ∧ u.dev.rgr = s.dev.rgr ∧ u.nv.word ctrEpoch = n % 2 ^ 32 ∧ u.nv.word ctrFcMark = 0 ∧
        s.nvOutside u [(ctrEpoch, 4), (ctrFcMark, 4)] ∧
        s.dev.keepsBut u.dev [MGT_LOG_CNT.DROPPED, MSH_KEYST.LOADED, MSH_EXT_LO.EXT_LO, MSH_EXT_HI.EXT_HI, MSH_FCOUT.FC] [] ∧
        s.dev.memOutside u.dev [(s.dev.qAddr 1, 4 * s.dev.qSize 1)] ∧
        { u.dev.sans with q := [], mem := [], log := {}, ecc := [], msh := {} } =
          { s.dev.sans with q := [], mem := [], log := {}, ecc := [], msh := {} })) ∧
    (s.dev.offers 0x38 tag [a] → (i = a % 8 ∧ (i = 0 ∨ 4 < i ∨ s.nv.key (15 + i) = none)) → completes .mshKey s (fun e =>
        s.dev.answered e 0x38 tag stMbxArgs [] ∧ s.dev.mbxFrame e [] [] ∧ e.rgr = s.dev.rgr)) ∧
    (s.dev.offers 0x39 tag (i :: len :: addr :: rest) → (s.dev.lcs = 2 ∧ rest = [r] ∧ sramOk r 136 = true ∨ s.dev.lcs ≠ 2 ∧ rest = []) →
      keyLength i = some len → sramOk addr len = true → key = s.dev.bytes addr len → s.dev.rgr.stage = none →
      completesNv .keySet s (fun u =>
        u.dev.rgr = { s.dev.rgr with busyTill := u.dev.rgr.busyTill } ∧
        if s.dev.lcs = 2 ∧ (match s.nv.key 9 with
            | some owner => p521Verify owner (wordBytes i ++ wordBytes len ++ key) (s.dev.bytes r 136)
            | none => false) = false then
          s.dev.answered u.dev 0x39 tag stNvmSigFail [] ∧ u.nv = s.nv ∧ u.dev.get NVM_STATUS.LAST_ERR = stNvmSigFail ∧
          s.dev.mbxFrame u.dev [NVM_STATUS.LAST_ERR] []
        else s.dev.answered u.dev 0x39 tag 0 [] ∧ s.dev.mbxFrame u.dev [] [] ∧ u.nv.key i = some key ∧
          (∀ k : Nat, k < 64 → k ≠ i → u.nv.key k = s.nv.key k) ∧
          s.nvOutside { u with nv := { u.nv with keys := s.nv.keys } } [(ctrGen 4 (s.nv.target 4), 4)] ∧
          u.nv.gen 4 (s.nv.target 4) = (match s.nv.current 4 with | some c => s.nv.gen 4 c + 1 | none => 1) % 2 ^ 32)) ∧
    (s.dev.offers 0x39 tag (i :: len :: addr :: rest) → s.dev.lcs < 2 → rest = [] →
      keyLength i = some len → sramOk addr len = true → s.dev.rgr.stage ≠ none → completes .keySet s (fun e =>
        s.dev.answered e 0x39 tag stNvmBusy [] ∧ e.get NVM_STATUS.LAST_ERR = stNvmBusy ∧
        s.dev.mbxFrame e [NVM_STATUS.LAST_ERR] [] ∧ e.rgr = s.dev.rgr)) ∧
    (s.acts .snsTrngRead d → d.get SNS_TRNG_ST.READY = 1 → d.rgr.trngAt ≤ d.tick → n = (Config.trngWord d.fresh).toNat → completes .snsTrngRead s (fun e =>
        e.get SNS_TRNG.DATA = n ∧ e.hlk = { d.hlk with read := [n] } ∧ e.fresh = d.fresh + 1 ∧
        e.rgr = { d.rgr with trngAt := d.tick + usTicks 1 } ∧
        d.alters e [(SNS_TRNG.DATA, 0)] (fun y => { y with hlk := {}, rgr := {}, fresh := 0 }))) ∧
    (s.acts .snsTrngRead d → d.get SNS_TRNG_ST.READY = 0 ∨ d.tick < d.rgr.trngAt → completes .snsTrngRead s (fun e =>
        e.get SNS_TRNG.DATA = 0 ∧ e.hlk = { d.hlk with read := [0] } ∧
        d.alters e [(SNS_TRNG.DATA, 0)] (fun y => { y with hlk := {} }))) ∧
    (s.acts .trngHealthFail d → completes .trngHealthFail s (fun e =>
        e.get SNS_TRNG_ST.READY = 0 ∧ e.get SNS_TRNG_ST.FAIL = 1 ∧ e.get SNS_TRNG_ST.FAILS = min (d.get SNS_TRNG_ST.FAILS + 1) 0xFFFF ∧
        d.writes e [(SNS_TRNG_ST.READY, 0), (SNS_TRNG_ST.FAIL, 0), (SNS_TRNG_ST.FAILS, 0)])) ∧
    (s.acts .trngHealthPass d → completes .trngHealthPass s (fun e => e.get SNS_TRNG_ST.READY = 1 ∧ d.writes e [(SNS_TRNG_ST.READY, 0)])) ∧
    (s.acts .mgtLogRead d → d.log.find (d.get MGT_LOG_IDX.SEQ) = none → completes .mgtLogRead s (fun e =>
        (∀ k : Nat, k < 8 → e.get MGT_LOG_D.DATA 0 k = 0) ∧ e.hlk = { d.hlk with read := [0] } ∧
        d.alters e [(MGT_LOG_D.DATA, 0)] (fun y => { y with hlk := {} }))) ∧
    (s.acts .mgtLogRead d → d.log.find (d.get MGT_LOG_IDX.SEQ) = some x → x.detail = [n, t] → completes .mgtLogRead s (fun e =>
        e.get MGT_LOG_D.DATA 0 0 = x.seq % 2 ^ 32 ∧ e.get MGT_LOG_D.DATA 0 1 = x.hw % 2 ^ 32 ∧
        bitsOf (e.get MGT_LOG_D.DATA 0 2) 15 0 = x.hw / 2 ^ 32 % 65536 ∧ bitsOf (e.get MGT_LOG_D.DATA 0 2) 23 16 = x.block % 256 ∧
        bitsOf (e.get MGT_LOG_D.DATA 0 2) 31 24 = x.sev % 256 ∧ bitsOf (e.get MGT_LOG_D.DATA 0 3) 31 16 = x.inst % 65536 ∧
        bitsOf (e.get MGT_LOG_D.DATA 0 3) 15 0 = x.code % 65536 ∧ e.get MGT_LOG_D.DATA 0 4 = n % 2 ^ 32 ∧
        e.get MGT_LOG_D.DATA 0 5 = t % 2 ^ 32 ∧ e.hlk = { d.hlk with read := [x.seq] } ∧
        d.alters e [(MGT_LOG_D.DATA, 0)] (fun y => { y with hlk := {} })))

/-- Firmware and the restart (R399, R400, R402, R410 to R412, R417). FW_WRITE writes the slot that is not running; FW_ACTIVATE
checks it, answers, marks it on trial in BOOT and resets the Ranger's island, or refuses; FW_CONFIRM ends the trial and
raises ROLLBACK; 60 s of an unconfirmed trial reset the island. When the island runs again, the ROM's choice of a slot is in
force, an item RESTARTED is on Q1, and a commanded erasure has been done first. -/
def Obligations.FirmwareCompletes : Prop :=
  ∀ (s : State) (tag off addr len slot boot st t lcs cause : Nat) (n : Nv) (pick : Option Nat) (back trial : Bool) (d : Dev),
    (s.dev.offers 0x40 tag [off, addr, len] → sramOk addr len = true → 0 < len → off % 4 = 0 → off + len ≤ 393216 →
      slot = 1 - s.dev.get NVM_BOOT.RUNNING → completesNv .fwWrite s (fun u =>
        s.dev.answered u.dev 0x40 tag 0 [] ∧ u.nv.bytes (fwBase slot + off) len = s.dev.bytes addr len ∧
        s.nvOutside u [(fwBase slot + off, len)] ∧ s.dev.mbxFrame u.dev [] [] ∧ u.dev.rgr = { s.dev.rgr with busyTill := u.dev.rgr.busyTill } ∧
        s.dev.tick < u.dev.rgr.busyTill)) ∧
    (s.dev.offers 0x40 tag [off, addr, len] → sramOk addr len = true → 0 < len → off % 4 ≠ 0 ∨ 393216 < off + len →
      completes .fwWrite s (fun e =>
        s.dev.answered e 0x40 tag stNvmRange [] ∧ e.get NVM_STATUS.LAST_ERR = stNvmRange ∧
        s.dev.mbxFrame e [NVM_STATUS.LAST_ERR] [] ∧ e.rgr = s.dev.rgr)) ∧
    (s.dev.offers 0x41 tag [] → slot = 1 - s.dev.get NVM_BOOT.RUNNING →
      st = (if s.nv.fwFormat slot = false then stFwFormat else if s.nv.fwSvn slot < s.nv.word ctrRollback then stNvmRollback
        else if s.nv.fwSigned s.dev.lcs slot = false then stNvmSigFail else 0) → completesNv .fwActivate s (fun u =>
        s.dev.answered u.dev 0x41 tag st [] ∧
        (st ≠ 0 → u.nv = s.nv ∧ u.dev.get NVM_STATUS.LAST_ERR = st ∧ u.dev.rgr = { s.dev.rgr with busyTill := u.dev.rgr.busyTill } ∧
          s.dev.mbxFrame u.dev [NVM_STATUS.LAST_ERR] []) ∧
        (st = 0 → u.nv.word ctrBoot = slot + 2 ∧ s.nvOutside u [(ctrBoot, 4)] ∧
          u.dev.rgr = { recovery := s.dev.rgr.recovery, down := true, wdTick := s.dev.rgr.wdTick, cause := 1 } ∧
          u.dev.get SYS_RESET_CAUSE.RGR_RST = 1 ∧
          s.dev.keepsReset u.dev (fun k => !k.rgr || k.rwo || k.lcs) [SYS_RESET_CAUSE.RGR_RST, MGT_LOG_CNT.ERRORS] ∧
          u.dev.log.ram = [] ∧ u.dev.log.mram = s.dev.log.mram ∧
          s.dev.memOutside u.dev [(s.dev.qAddr 1, 4 * s.dev.qSize 1), (0x200000, 0x40000)] ∧ u.dev.zeroed 0x200000 0x40000 ∧
          { u.dev.sans with q := [], mem := [], log := {}, rgr := {}, ecc := [] } =
            { s.dev.sans with q := [], mem := [], log := {}, rgr := {}, ecc := [] }))) ∧
    (s.dev.offers 0x42 tag [] → boot = s.nv.word ctrBoot → bitOf boot 1 = false → completes .fwConfirm s (fun e =>
        s.dev.answered e 0x42 tag 0 [s.nv.word ctrRollback] ∧ s.dev.mbxFrame e [] [] ∧ e.rgr = s.dev.rgr)) ∧
    (s.dev.offers 0x42 tag [] → boot = s.nv.word ctrBoot → bitOf boot 1 = true →
      t = max (s.nv.word ctrRollback) (s.nv.fwSvn (s.dev.get NVM_BOOT.RUNNING)) → completesNv .fwConfirm s (fun u =>
        s.dev.answered u.dev 0x42 tag 0 [t] ∧ u.nv.word ctrRollback = t ∧ u.nv.word ctrBoot = boot - 2 ∧
        s.nvOutside u [(ctrBoot, 4), (ctrRollback, 4)] ∧ s.dev.mbxFrame u.dev [] [] ∧
        u.dev.rgr = { s.dev.rgr with trialFrom := none })) ∧
    (s.dev.rgr.trialFrom = none → changesNothing .fwTrialTimer s) ∧
    (s.dev.rgr.trialFrom = some t → d = (s.dev.toTick (t + msTicks 60000)).loadLost → completes .fwTrialTimer s (fun e =>
        s.dev.tick ≤ e.tick ∧ t + msTicks 60000 ≤ e.tick ∧
        e.rgr = { recovery := s.dev.rgr.recovery, down := true, wdTick := s.dev.rgr.wdTick, cause := 4 } ∧
        e.get SYS_RESET_CAUSE.RGR_RST = 1 ∧ d.keepsReset e (fun k => !k.rgr || k.rwo || k.lcs) [SYS_RESET_CAUSE.RGR_RST] ∧
        e.log.ram = [] ∧ e.log.mram = d.log.mram ∧ (∀ b, b < 0x200000 ∨ 0x240000 ≤ b → e.byte b = d.byte b) ∧
        e.zeroed 0x200000 0x40000 ∧
        { e.sansTime with log := {}, rgr := {}, mem := [] } = { d.sansTime with log := {}, rgr := {}, mem := [] })) ∧
    (s.dev.rgr.down = false → changesNothing .rangerRestart s) ∧
    (s.dev.rgr.down = true → lcs = min 3 s.nv.fuses → lcs < 3 ∨ 2 ≤ s.nv.word ctrErase → (n, pick, back, trial) = s.nv.romBoot lcs →
      s.dev.get SYS_STRAP.RCVRY = 0 → cause = (if back then 4 else s.dev.rgr.cause) → completesNv .rangerRestart s (fun u =>
        u.nv = n ∧ u.dev.get LCS_STATE.STATE = lcs ∧ (∀ k : Nat, k < 4 → u.dev.get LCS_SERIAL.SERIAL 0 k = s.nv.serialWord k) ∧
        u.dev.get NVM_BOOT.RUNNING = pick.getD 0 % 2 ∧
        u.dev.get MGT_STATUS.VERSION = (match pick with | some k => n.fwVersion k | none => 0) ∧ u.dev.get SNS_TRNG_ST.READY = 1 ∧
        u.dev.rgr = { s.dev.rgr with down := false, recovery := pick.isNone, trialFrom := if trial then some s.dev.tick else none } ∧
        (back = true → s.dev.logged u.dev 2 0x27 0 stFwTrialFailed) ∧
        (s.dev.qTakes 1 epRanger 2 = true → (s.dev.qx 1).stall = none →
          u.dev.qHolds 1 (s.dev.qx 1).prod [qHeader 0xFF 2, 0, pick.getD 0 * 256 + cause]) ∧
        (∀ k : Nat, k < 48 → k ≠ 1 → u.dev.qx k = s.dev.qx k) ∧ s.dev.memOutside u.dev [(s.dev.qAddr 1, 4 * s.dev.qSize 1)] ∧
        s.dev.keepsBut u.dev [MGT_LOG_CNT.DROPPED, LCS_STATE.STATE, LCS_SERIAL.SERIAL, NVM_BOOT.RUNNING, MGT_STATUS.VERSION,
          SNS_TRNG_ST.READY] [])) ∧
    (s.dev.rgr.down = true → 3 ≤ s.nv.fuses → s.nv.word ctrErase < 2 → completesNv .rangerRestart s (fun u =>
        u.nv.word ctrErase = 2 ∧ u.nv.fuses = s.nv.fuses ∧ (∀ k : Nat, k < 32 → u.nv.key k = none) ∧
        (∀ k : Nat, k < 2 → u.nv.gen 0 k = 0 ∧ u.nv.gen 2 k = 0) ∧
        s.nvOutside { u with nv := { u.nv with keys := s.nv.keys } }
          [(0x0C0000, 0xC0000), (0x188000, 0x8000), (ctrGen 0 0, 8), (ctrGen 2 0, 8), (ctrErase, 4)] ∧
        s.dev.wasReset u.dev [SYS_RESET_CAUSE.DEV_COUNT]))

/-- LCS_ADVANCE (R416): the next state only, else LCS_DENIED; LCS_PRECOND, and no fuse blown, while a region is open or, toward
FIELD, without a usable profile or an OWNER key; else the fuse is blown, and a device reset with cause LCS is asserted. -/
def Obligations.LifeCycleAdvanceCompletes : Prop :=
  ∀ (s : State) (tag t : Nat),
    (s.dev.offers 0x50 tag [t] → t ≠ s.dev.lcs + 1 → completes .lcsAdvance s (fun e =>
        s.dev.answered e 0x50 tag stLcsDenied [] ∧ s.dev.mbxFrame e [] [] ∧ e.rgr = s.dev.rgr)) ∧
    (s.dev.offers 0x50 tag [t] → t = s.dev.lcs + 1 →
      s.dev.rgr.stage ≠ none ∨ (t = 2 ∧ (s.nv.usableMask = 0 ∨ s.nv.key 9 = none)) → completes .lcsAdvance s (fun e =>
        s.dev.answered e 0x50 tag stLcsPrecond [] ∧ s.dev.mbxFrame e [] [] ∧ e.rgr = s.dev.rgr)) ∧
    (s.dev.offers 0x50 tag [t] → t = s.dev.lcs + 1 → s.dev.rgr.stage = none → t ≠ 2 ∨ (s.nv.usableMask ≠ 0 ∧ s.nv.key 9 ≠ none) →
      s.dev.rst.asserted = false → completesNv .lcsAdvance s (fun u =>
        u.nv = { s.nv with fuses := max s.nv.fuses t } ∧ u.dev.rst.asserted = true ∧ u.dev.rst.causes = 256 ∧ u.dev.duty = s.dev.duty ∧
        s.dev.resetRegs u.dev [SYS_RESET_CAUSE.DEV_COUNT]))

/-- Attestation and the return (R408, R413, R414, R417). ATTEST writes the report and its signature, ATTEST_CERT the
certificate, or answers that there is no key. RETURN_AUTH answers a fresh challenge to the OWNER; a RETURN_TOKEN that
answers it ends in RETURNED, with the erasure and a device reset; no refusal changes a fuse. That an accepted LCS_ADVANCE is
answered on Q1 before the reset, and that memory keeps its content, are the model's choice (log entries 56 and 12). -/
def Obligations.LifeCycleCommandsComplete : Prop :=
  ∀ (s : State) (tag a len : Nat) (nonce : List Nat) (key cert tok : List Byte),
    (s.dev.offers 0x48 tag (a :: nonce) → nonce.length = 8 → len = 256 + 72 * s.dev.hoopSpans.length + 136 →
      sramOk a len = true → s.nv.key 32 = some key → (a + len ≤ s.dev.qAddr 1 ∨ s.dev.qAddr 1 + 4 * s.dev.qSize 1 ≤ a) →
      completes .attest s (fun e =>
        s.dev.answered e 0x48 tag 0 [len] ∧ e.bytes a (len - 136) = (s.report nonce) ∧
        e.bytes (a + len - 136) 136 = p521Sign key (s.report nonce) ∧
        s.dev.mbxFrame e [] [(a, len)] ∧ e.rgr = s.dev.rgr)) ∧
    (s.dev.offers 0x48 tag (a :: nonce) → nonce.length = 8 → sramOk a (256 + 72 * s.dev.hoopSpans.length + 136) = true →
      s.nv.key 32 = none → completes .attest s (fun e =>
        s.dev.answered e 0x48 tag stAttestNoKey [] ∧ s.dev.mbxFrame e [] [] ∧ e.rgr = s.dev.rgr)) ∧
    (s.dev.offers 0x49 tag [a] → sramOk a 285 = true → s.nv.key 32 = some key → s.nv.key 33 = some cert → cert.length = 285 →
      (a + 285 ≤ s.dev.qAddr 1 ∨ s.dev.qAddr 1 + 4 * s.dev.qSize 1 ≤ a) → completes .attestCert s (fun e =>
        s.dev.answered e 0x49 tag 0 [285] ∧ e.bytes a 285 = cert ∧ s.dev.mbxFrame e [] [(a, 285)] ∧ e.rgr = s.dev.rgr)) ∧
    (s.dev.offers 0x49 tag [a] → sramOk a 285 = true → s.nv.key 32 = none ∨ s.nv.key 33 = none → completes .attestCert s (fun e =>
        s.dev.answered e 0x49 tag stAttestNoKey [] ∧ s.dev.mbxFrame e [] [] ∧ e.rgr = s.dev.rgr)) ∧
    (s.dev.offers 0x51 tag [a] → sramOk a 136 = true → s.nv.key 9 = none → completes .returnAuth s (fun e =>
        s.dev.answered e 0x51 tag stNvmSigFail [] ∧ s.dev.mbxFrame e [] [] ∧ e.rgr = s.dev.rgr)) ∧
    (s.dev.offers 0x51 tag [a] → sramOk a 136 = true → s.nv.key 9 = some key → completes .returnAuth s (fun e =>
        if p521Verify key (s.nv.serialBytes ++ wordBytes 0x7E7E0001) (s.dev.bytes a 136) = true then
          s.dev.answered e 0x51 tag 0 ((List.range 8).map (fun i => (Config.trngWord (s.dev.fresh + i)).toNat)) ∧
          e.rgr = { s.dev.rgr with
            challenge := (List.range 8).flatMap (fun i => wordBytes (Config.trngWord (s.dev.fresh + i)).toNat) } ∧
          e.fresh = s.dev.fresh + 8 ∧ s.dev.mbxFrame { e with fresh := s.dev.fresh } [] []
        else s.dev.answered e 0x51 tag stNvmSigFail [] ∧ s.dev.mbxFrame e [] [] ∧ e.rgr = s.dev.rgr)) ∧
    (s.dev.offers 0x52 tag [a] → sramOk a 328 = true → s.dev.rgr.challenge = [] → completes .returnToken s (fun e =>
        s.dev.answered e 0x52 tag stLcsNoChallenge [] ∧ s.dev.mbxFrame e [] [] ∧ e.rgr = s.dev.rgr)) ∧
    (s.dev.offers 0x52 tag [a] → sramOk a 328 = true → tok = s.dev.bytes a 328 → s.dev.rgr.challenge ≠ [] →
      imgWord tok 0 ≠ 0x4E525452 ∨ (tok.drop 8).take 16 ≠ s.nv.serialBytes ∨ (tok.drop 24).take 32 ≠ s.dev.rgr.challenge →
      completes .returnToken s (fun e =>
        s.dev.answered e 0x52 tag stLcsToken [] ∧ s.dev.mbxFrame e [] [] ∧ e.rgr = s.dev.rgr)) ∧
    (s.dev.offers 0x52 tag [a] → sramOk a 328 = true → tok = s.dev.bytes a 328 → s.dev.rgr.challenge ≠ [] →
      imgWord tok 0 = 0x4E525452 → (tok.drop 8).take 16 = s.nv.serialBytes → (tok.drop 24).take 32 = s.dev.rgr.challenge →
      key = (tok.drop 56).take 133 → completesNv .returnToken s (fun u =>
        if sha512Bytes key = s.nv.rootDigest ∧ p521Verify key (tok.take 0xC0) (tok.drop 0xC0) = true then
          u.nv.fuses = max s.nv.fuses 3 ∧ u.nv.word ctrErase = 2 ∧ (∀ k : Nat, k < 32 → u.nv.key k = none) ∧
          s.nvOutside { u with nv := { u.nv with keys := s.nv.keys, fuses := s.nv.fuses } }
            [(0x0C0000, 0xC0000), (0x188000, 0x8000), (ctrGen 0 0, 8), (ctrGen 2 0, 8), (ctrErase, 4)] ∧
          u.dev.rst.asserted = true ∧ bitOf u.dev.rst.causes 8 = true
        else u.nv = s.nv ∧ s.dev.answered u.dev 0x52 tag stLcsToken [] ∧ s.dev.mbxFrame u.dev [] [] ∧ u.dev.rgr = s.dev.rgr)) ∧
    (s.dev.offers 0x50 tag [a] → a = s.dev.lcs + 1 → s.dev.rgr.stage = none → a ≠ 2 ∨ (s.nv.usableMask ≠ 0 ∧ s.nv.key 9 ≠ none) →
      s.dev.rst.asserted = false → completesNv .lcsAdvance s (fun u =>
        (List.range 3).map (fun i => u.dev.word (s.dev.qAddr 1 + 4 * (((s.dev.qx 1).prod + i) % s.dev.qSize 1))) =
          [qHeader 0x50 2, tag % 2 ^ 32, 0] ∧
        s.dev.memOutside u.dev [(s.dev.qAddr 1, 4 * s.dev.qSize 1), (0x200000, 0x40000), (0x40261000, 0x1000)]))

/-- The PCI Express link, MSI-X and DMA (R372, R429 to R432, R438 to R440, R444). The link comes up or goes down, and a
configuration write sets BAR0, bus mastering, the read request size and MSI-X, where the strap selects PCI Express; enabled channels
follow. A configuration read answers the IDs, class code, BAR0 and the capabilities (their layout is the model's: log entry 79). A trigger
on TK_HLK_IRQv is sent as one message when nothing masks it. DMA_ITEM copies the oldest item of the channel's queue to its
ring, writes WR to the shadow word and frees the queue's space, when the ring has room; a channel's enable is applied only
to a queue, a ring and a shadow word that the rules allow. -/
def Obligations.HostLinkCompletes : Prop :=
  ∀ (s : State) (b : Bool) (w : ConfigWrite) (vec : Fin 32) (k : Fin 16) (value : Word) (q n wr size base shd a : Nat) (d : Dev),
    (s.acts (.pcieLinkUp b) d → d.get SYS_STRAP.HSEL = 1 → completes (.pcieLinkUp b) s (fun e => e = d)) ∧
    (s.acts .linkDown d → d.get SYS_STRAP.HSEL = 1 → completes .linkDown s (fun e => e = d)) ∧
    (s.acts (.pcieConfigRequest (some w)) d → d.get SYS_STRAP.HSEL = 1 ∨ bitOf (d.get SYS_STEP.DONE) 5 = false → completes (.pcieConfigRequest (some w)) s (fun e => e = d)) ∧
    (s.acts (.pcieConfigRequest none) d → d.get SYS_STRAP.HSEL = 1 ∨ bitOf (d.get SYS_STEP.DONE) 5 = false → completes (.pcieConfigRequest none) s (fun e => e = d)) ∧
    (s.acts (.pcieConfigRequest none) d → d.get SYS_STRAP.HSEL = 0 → bitOf (d.get SYS_STEP.DONE) 5 = true → completes (.pcieConfigRequest none) s (fun e =>
        e.hlk = { d.hlk with read := [2 ^ 16 * d.get HLK_PCI_ID.DEVICE + d.get HLK_PCI_ID.VENDOR, 0x118000,
          d.hlk.bar % 2 ^ 32 + 4, d.hlk.bar / 2 ^ 32, d.hlk.subsys, 4096 * d.hlk.maxRead,
          16 + (if d.isSet HLK_STATUS.LINK = true then 1 + d.get HLK_STATUS.SPEED else 0),
          0x11 + 2 ^ 16 * (31 + (if d.hlk.msixMask then 0x4000 else 0) + (if d.hlk.msixEn then 0x8000 else 0)),
          0x40261000, 0x40261800, 0x10001] } ∧ d.alters e [] (fun y => { y with hlk := {} }))) ∧
    (s.acts (.pcieLinkUp b) d → d.get SYS_STRAP.HSEL = 0 → completes (.pcieLinkUp b) s (fun e =>
        d.linkSet e 1 (d.get HLK_STATUS.BME) (if b then 1 else 0) ∧
        e.hlk = { d.hlk with downLogged := e.hlk.downLogged })) ∧
    (s.acts .linkDown d → d.get SYS_STRAP.HSEL = 0 → completes .linkDown s (fun e =>
        d.linkSet e 0 (d.get HLK_STATUS.BME) (d.get HLK_STATUS.SPEED) ∧
        e.hlk = { d.hlk with downLogged := e.hlk.downLogged })) ∧
    (s.acts (.pcieConfigRequest (some w)) d → d.get SYS_STRAP.HSEL = 0 → bitOf (d.get SYS_STEP.DONE) 5 = true → completes (.pcieConfigRequest (some w)) s (fun e =>
        d.linkSet e (d.get HLK_STATUS.LINK) (if w.bme then 1 else 0) (d.get HLK_STATUS.SPEED) ∧
        { e.hlk with downLogged := false } =
          { d.hlk with bar := w.bar.toNat / 2 ^ 31 * 2 ^ 31, msixEn := w.msixEnable, msixMask := w.msixMask, downLogged := false,
                       maxRead := if w.maxRead.toNat ≤ 2 then w.maxRead.toNat else d.hlk.maxRead })) ∧
    (s.acts (.msixMessage vec) d → d.get TRL_CSTAT.PEND 0 (0x40 + vec.val) = 0 ∨ d.get SYS_STRAP.HSEL = 1 ∨ d.hlk.msixEn = false ∨ d.hlk.msixMask = true ∨
        d.word (msixEntry vec + 12) % 2 = 1 ∨ d.get HLK_STATUS.BME = 0 → completes (.msixMessage vec) s (fun e => e = d)) ∧
    (s.acts (.msixMessage vec) d → d.get TRL_CSTAT.PEND 0 (0x40 + vec.val) = 1 → d.get SYS_STRAP.HSEL = 0 → d.hlk.msixEn = true → d.hlk.msixMask = false →
      d.word (msixEntry vec + 12) % 2 = 0 → d.get HLK_STATUS.BME = 1 →
      a = d.word (msixEntry vec) + 2 ^ 32 * d.word (msixEntry vec + 4) → completes (.msixMessage vec) s (fun e =>
        e.hostAt a = d.word (msixEntry vec + 8) ∧ d.hostOutside e [(a, 4)] ∧ e.get TRL_CSTAT.PEND 0 (0x40 + vec.val) = 0 ∧
        d.indexBut e TRL_CSTAT.PEND 0 (0x40 + vec.val) ∧ e.hlk = { d.hlk with host := e.hlk.host } ∧
        d.alters e [(TRL_CSTAT.PEND, 0)] (fun y => { y with hlk := {}, cgen := [] }))) ∧
    (s.acts (.dmaItem k) d → d.dmaEn k = false → completes (.dmaItem k) s (fun e => e = d)) ∧
    (s.acts (.dmaItem k) d → d.dmaEn k = true → d.dmaMoves = false → completes (.dmaItem k) s (fun e =>
        d.linkSet e (d.get HLK_STATUS.LINK) (d.get HLK_STATUS.BME) (d.get HLK_STATUS.SPEED))) ∧
    (s.acts (.dmaItem k) d → d.dmaEn k = true → d.dmaMoves = true → q = d.get HLK_DMA_CFG.QUEUE k → d.qEn q = false ∨ d.qCons q ≠ epHost → completes (.dmaItem k) s (fun e =>
        e.get HLK_DMA_STAT.STOPPED k = 1 ∧ d.writes e [(HLK_DMA_STAT.STOPPED, k)])) ∧
    (s.acts (.dmaItem k) d → d.dmaEn k = true → d.dmaMoves = true → q = d.get HLK_DMA_CFG.QUEUE k → d.qEn q = true → d.qCons q = epHost → (d.qx q).rdLeft = 0 →
      size = 2 ^ dmaLog2 (d.get HLK_DMA_CFG.LOG2 k) → wr = d.get HLK_DMA_WR.WR k → n = bitsOf (d.qHead q) 15 0 + 1 →
      d.qReady q = false ∨ size < (wr + 2 ^ 32 - d.get HLK_DMA_RD.RD k) % 2 ^ 32 + n → completes (.dmaItem k) s (fun e => e = d)) ∧
    (s.acts (.dmaItem k) d → d.dmaEn k = true → d.dmaMoves = true → q = d.get HLK_DMA_CFG.QUEUE k → d.qEn q = true → d.qCons q = epHost → (d.qx q).rdLeft = 0 →
      size = 2 ^ dmaLog2 (d.get HLK_DMA_CFG.LOG2 k) → wr = d.get HLK_DMA_WR.WR k → n = bitsOf (d.qHead q) 15 0 + 1 →
      d.qReady q = true → (wr + 2 ^ 32 - d.get HLK_DMA_RD.RD k) % 2 ^ 32 + n ≤ size → base = d.dmaBase k → shd = d.dmaShd k →
      shd + 4 ≤ base ∨ base + 4 * size ≤ shd → completes (.dmaItem k) s (fun e =>
        (List.range n).map (fun i => e.hostAt (base + 4 * ((wr + i) % size))) = d.qHead q :: d.qBody q ∧
        e.get HLK_DMA_WR.WR k = (wr + n) % 2 ^ 32 ∧ e.hostAt shd = (wr + n) % 2 ^ 32 ∧
        e.qx q = { d.qx q with cons := (d.qx q).cons + n, freed := (d.qx q).cons + n } ∧ d.queuesBut e q ∧
        d.hostOutside e [(base, 4 * size), (shd, 4)] ∧ e.hlk = { d.hlk with host := e.hlk.host } ∧
        d.alters e [(HLK_DMA_WR.WR, k)] (fun y => { y with hlk := {}, q := [] }))) ∧
    (s.acts (.dmaCfgWrite k value) d → bitOf value.toNat 31 = false → completes (.dmaCfgWrite k value) s (fun e =>
        e.dmaEn k = false ∧ e.get HLK_DMA_CFG.QUEUE k = bitsOf value.toNat 13 8 ∧ e.get HLK_DMA_CFG.LOG2 k = bitsOf value.toNat 3 0 ∧
        e.get HLK_DMA_STAT.STOPPED k = 0 ∧
        d.writes e [(HLK_DMA_CFG.EN, k), (HLK_DMA_CFG.QUEUE, k), (HLK_DMA_CFG.LOG2, k), (HLK_DMA_STAT.STOPPED, k)])) ∧
    (s.acts (.dmaCfgWrite k value) d → bitOf value.toNat 31 = true → q = bitsOf value.toNat 13 8 → n = dmaLog2 (bitsOf value.toNat 3 0) →
      48 ≤ q ∨ d.qEn q = false ∨ d.qCons q ≠ epHost ∨ d.dmaBase k % 64 ≠ 0 ∨ d.dmaShd k % 4 ≠ 0 ∨ n < 4 ∨
        n < d.get QMX_Q_BASE.LOG2SZ q ∨ (∃ j : Fin 16, j ≠ k ∧ d.dmaEn j = true ∧ d.get HLK_DMA_CFG.QUEUE j = q) →
      completes (.dmaCfgWrite k value) s (fun e =>
        e.get HLK_DMA_STAT.LAST_ERR k = stHlkDmaCfg ∧ d.writes e [(HLK_DMA_STAT.LAST_ERR, k)])) ∧
    (s.acts (.dmaCfgWrite k value) d → bitOf value.toNat 31 = true → q = bitsOf value.toNat 13 8 → n = dmaLog2 (bitsOf value.toNat 3 0) →
      q < 48 → d.qEn q = true → d.qCons q = epHost → d.dmaBase k % 64 = 0 → d.dmaShd k % 4 = 0 → 4 ≤ n →
      d.get QMX_Q_BASE.LOG2SZ q ≤ n → (∀ j : Fin 16, j ≠ k → d.dmaEn j = true → d.get HLK_DMA_CFG.QUEUE j ≠ q) →
      d.dmaMoves = true → completes (.dmaCfgWrite k value) s (fun e =>
        e.dmaEn k = true ∧ e.get HLK_DMA_CFG.QUEUE k = q ∧ e.get HLK_DMA_CFG.LOG2 k = bitsOf value.toNat 3 0 ∧
        e.get HLK_DMA_STAT.STOPPED k = 0 ∧
        d.writes e [(HLK_DMA_CFG.EN, k), (HLK_DMA_CFG.QUEUE, k), (HLK_DMA_CFG.LOG2, k), (HLK_DMA_STAT.STOPPED, k)])) ∧
    (s.acts (.dmaRdWrite k value) d → completes (.dmaRdWrite k value) s (fun e => e.get HLK_DMA_RD.RD k = value.toNat ∧ d.writes e [(HLK_DMA_RD.RD, k)]))

/-- Accesses to registers and memory (R5 to R9, R19, R23 to R26, R433, R462). A word write of a register without behaviour of its
own gives each field what its access code says and leaves every other register; a read returns the register's word.
Memory windows take and return bytes for those who may; an access of a wrong width or alignment, outside everything, or to a
missing island ends with an error, recorded when the host made it, and changes nothing else. The JTAG port has no access in
FIELD, and in RETURNED none without a debug certificate, which opens reads (R415; what it is and how it comes are the model's choice:
log entry 78). -/
def Obligations.RegisterAccessCompletes : Prop :=
  ∀ (s : State) (wr : Writer) (width : Width) (addr : Word) (value : BitVec 64) (r : Reg) (i j n : Nat) (p : Nat × Nat)
    (bs : List Byte) (x : MemWin) (c : Instr) (a : RegAccess) (k : Nat) (d : Dev),
    (s.dev.mayWrite wr addr.toNat → s.dev.isReg addr.toNat r i j → s.dev.pwr.asleep = none → r.special = [] → r ∉ actingRegs →
      d = s.dev.accessed r i wr → p = d.place r i j → completes (.registerWrite wr .b4 addr value) s (fun e =>
        (∀ w : Row, w ∈ r.rows → e.get ⟨r, w.hi, w.lo⟩ p.1 p.2 =
          let new := bitsOf value.toNat w.hi w.lo
          let old := d.get ⟨r, w.hi, w.lo⟩ p.1 p.2
          match w.acc with
          | .rw => new
          | .ro | .wo => old
          | .w1c => Nat.land old (2 ^ (w.hi + 1 - w.lo) - 1 - new)
          | .w1s => Nat.lor old new
          | .rwl => if d.rst.asserted = false ∧ d.lcs < 2 then new else old
          | .rwo => if wr = .loader ∨ wr = .ranger then new else old) ∧
        d.regBut e r p ∧ e.sans = d.sans)) ∧
    (s.dev.mayRead wr addr.toNat → s.dev.isReg addr.toNat r i j → s.dev.pwr.asleep = none → r ∉ readingRegs →
      d = s.dev.accessed r i wr → completes (.registerRead wr .b4 addr) s (fun e =>
        e.hlk = { d.hlk with read := [{ s with dev := d }.regRead r i j] } ∧ d.alters e [] (fun y => { y with hlk := {} }))) ∧
    (s.dev.mayWrite wr addr.toNat → blockIsland addr.toNat ≠ none →
      (match blockIsland addr.toNat with | some m => s.dev.present m | none => false) = true → addr.toNat % 4 = 0 →
      inMsixTable addr.toNat = false → addr.toNat ≠ 0x40261800 → regAt addr.toNat = none → s.dev.pwr.asleep = none →
      completes (.registerWrite wr .b4 addr value) s (fun e => s.dev.writes e []) ∧
      completes (.registerRead wr .b4 addr) s (fun e =>
        e.hlk = { s.dev.hlk with read := [0] } ∧ s.dev.alters e [] (fun y => { y with hlk := {} }))) ∧
    (s.dev.mayWrite wr addr.toNat → inMsixTable addr.toNat = true → addr.toNat % 4 = 0 → s.dev.live 4 = true →
      completes (.registerWrite wr .b4 addr value) s (fun e =>
        e.word addr.toNat = (if addr.toNat % 16 = 12 then value.toNat % 2 else value.toNat % 2 ^ 32) ∧ s.dev.memBut e addr.toNat 4 ∧
        s.dev.alters e [] (fun y => { y with mem := [] })) ∧
      completes (.registerRead wr .b4 addr) s (fun e =>
        e.hlk.read = [s.dev.word addr.toNat] ∧ s.dev.alters e [] (fun y => { y with hlk := { s.dev.hlk with read := [] } }))) ∧
    ((blockIsland addr.toNat ≠ none ∧ (match blockIsland addr.toNat with | some m => s.dev.present m | none => false) = true ∧
        (width ≠ .b4 ∨ addr.toNat % 4 ≠ 0) ∧ i = stHlkAccess) ∨
      (blockIsland addr.toNat ≠ none ∧ (match blockIsland addr.toNat with | some m => s.dev.present m | none => true) = false ∧
        i = stIsland) ∨
      (memWin addr.toNat (widthBytes width) = some x ∧ blockIsland addr.toNat = none ∧ s.dev.present x.span.2.2 = false ∧ i = stIsland) ∨
      (blockIsland addr.toNat = none ∧ memWin addr.toNat (widthBytes width) = none ∧ i = stHlkAddr) ∨
      (memWin addr.toNat (widthBytes width) = some .ranger ∧ s.dev.present 1 = true ∧ i = stHlkAddr) →
      s.dev.pwr.asleep = none →
      completes (.registerWrite .host width addr value) s (fun e => s.dev.hostErred e i addr.toNat ∧ e.sans = s.dev.sans) ∧
      completes (.registerRead .host width addr) s (fun e =>
        s.dev.hostErred e i addr.toNat ∧ e.hlk = { s.dev.hlk with read := [0] } ∧
        { e.sans with hlk := {} } = { s.dev.sans with hlk := {} })) ∧
    (s.dev.pwr.asleep ≠ none → completes (.registerWrite .host width addr value) s (fun e => s.dev.writes e []) ∧
      completes (.registerRead .host width addr) s (fun e => s.dev.writes e [])) ∧
    (blockIsland addr.toNat ≠ none → wr ≠ .host → wr ≠ .jtag → width ≠ .b4 ∨ addr.toNat % 4 ≠ 0 →
      changesNothing (.registerWrite wr width addr value) s) ∧
    (s.dev.mayWrite wr addr.toNat → memWin addr.toNat (widthBytes width) = some x → s.dev.live x.span.2.2 = true → x ≠ .mram →
      (x = .hoop → (wr = .loader ∨ (s.dev.rst.asserted = false ∧ s.dev.lcs < 2)) ∧
        ∀ v : Nat, v < 16 → (s.dev.vatx v).started ≠ s.dev.clk + 1) →
      (x = .ranger → wr ≠ .host) → (x = .cellar → s.dev.get LDG_STATUS.STOPPED = 1) →
      n = widthBytes width → d = s.dev.memAt x addr.toNat n → completes (.registerWrite wr width addr value) s (fun e =>
        (∀ k : Nat, k < 8 → k < n → e.byte (addr.toNat + k) = BitVec.ofNat 8 (value.toNat / 256 ^ k)) ∧
        d.memBut e addr.toNat n ∧ d.keeps e [] ∧ (x ≠ .hoop → e.ecc = d.ecc) ∧
        (x = .hoop → e.ecc = d.ecc.filter (fun m => decide (m.1 < addr.toNat / 4) || decide ((addr.toNat + n - 1) / 4 < m.1))) ∧
        { e.sans with mem := [], ecc := [] } = { d.sans with mem := [], ecc := [] })) ∧
    (memWin addr.toNat (widthBytes width) = some x → s.dev.live x.span.2.2 = true →
      x = .mram ∨ (x = .hoop ∧ 2 ≤ s.dev.lcs) ∨ (x = .cellar ∧ s.dev.get LDG_STATUS.STOPPED = 0) →
      d = s.dev.reachMem x addr.toNat (widthBytes width) →
      completes (.registerWrite .host width addr value) s (fun e => d.hostErred e stHlkAddr addr.toNat ∧ e.sans = d.sans)) ∧
    (s.dev.mayRead wr addr.toNat → memWin addr.toNat (widthBytes width) = some x → s.dev.live x.span.2.2 = true →
      n = widthBytes width → (x = .ranger → wr ≠ .host) →
      (x = .cellar → bitOf (s.dev.get LDG_BANK.STALE) ((addr.toNat - 0x4000000) / 0x40000) = false ∧
        bitOf (s.dev.get LDG_BANK.STALE) ((addr.toNat + n - 1 - 0x4000000) / 0x40000) = false) →
      d = s.dev.reachMem x addr.toNat n →
      bs = (match x with
        | .mram => s.mramBytes (addr.toNat - 0x8000000) n
        | .capture => s.dev.capSync.bytes addr.toNat n
        | _ => s.dev.bytes addr.toNat n) → completes (.registerRead wr width addr) s (fun e =>
        e.hlk = { d.hlk with read := bytesWords bs } ∧ d.alters e [] (fun y => { y with hlk := {} }))) ∧
    (s.dev.lcs = 2 ∨ (s.dev.lcs = 1 ∧ debugReach addr.toNat = false) ∨ (s.dev.lcs = 3 ∧ s.dev.get LCS_STATE.DBG_OPEN = 0) →
      changesNothing (.registerRead .jtag width addr) s) ∧
    (s.dev.lcs = 2 ∨ (s.dev.lcs = 1 ∧ debugReach addr.toNat = false) ∨
        (s.dev.lcs = 3 ∧ addr.toNat ≠ 0x40290000) → changesNothing (.registerWrite .jtag width addr value) s) ∧
    (s.dev.lcs = 3 → addr.toNat = 0x40290000 → completes (.registerWrite .jtag width addr value) s (fun e =>
        if s.certOk (value.toNat % 256 ^ widthBytes width) = true then
          e.get LCS_STATE.DBG_OPEN = 1 ∧ s.dev.writes e [(LCS_STATE.DBG_OPEN, 0)]
        else e = s.dev)) ∧
    (accessOf c = some a → (leads c = true → s.inTurn c = true) → s.dev.present a.island = false → s.dev.pwr.asleep = none →
      completes c s (fun e => (a.by' = .host → s.dev.hostErred e stIsland a.addr) ∧ (a.by' ≠ .host → s.dev.keeps e []) ∧
        e.sans = s.dev.sans)) ∧
    (accessOf c = some a → (leads c = true → s.inTurn c = true) → s.dev.pwr.asleep ≠ none → completes c s (fun e => e = s.dev)) ∧
    (eventIsland c = some k → (leads c = true → s.inTurn c = true) → s.dev.live k = false → completes c s (fun e => e = s.dev))

/-- The SPI target (R429, R435, R436). With the strap at SPI and step 6 done, SPI_WRITE writes its words and SPI_READ returns C + 1
words, the address advancing by 4 in memory windows; SPI_STATUS answers its byte at any time; the reset acts only in the
transaction after the arming one. Any transaction disarms. -/
def Obligations.SpiCompletes : Prop :=
  ∀ (s t u : State) (addr w : Word) (ws : List Word) (c : BitVec 8) (n : Nat),
    (s.dev.spiOn = false → u = { s with dev := { s.dev with hlk := { s.dev.hlk with spiArmed := false } } } →
      exec (.spiWrite addr ws) s = .next u ∧ exec (.spiRead addr c) s = .next u ∧ exec .spiResetArm s = .next u ∧
      exec .spiReset s = .next u) ∧
    (s.dev.spiOn = true → exec (.spiWrite addr []) s = .next { s with dev := { s.dev with hlk := { s.dev.hlk with spiArmed := false } } }) ∧
    (s.dev.spiOn = true → exec (.registerWrite .host .b4 addr (w.setWidth 64)) { s with dev := { s.dev with hlk := { s.dev.hlk with spiArmed := false } } } =
        .next t → t.dev.spiOn = true → t.dev.hlk.spiArmed = false →
      exec (.spiWrite addr (w :: ws)) s = exec (.spiWrite (if 0x40000000 ≤ addr.toNat then addr else addr + 4) ws) t) ∧
    (s.dev.spiOn = true → addr.toNat % 4 = 0 → 0x100000 ≤ addr.toNat → addr.toNat + 4 * ws.length ≤ 0x180000 → s.dev.live 2 = true →
      completes (.spiWrite addr ws) s (fun e =>
        (List.range ws.length).map (fun k => e.word (addr.toNat + 4 * k)) = ws.map BitVec.toNat ∧
        s.dev.memBut e addr.toNat (4 * ws.length) ∧ e.hlk = { s.dev.hlk with spiArmed := false } ∧
        s.dev.alters e [] (fun y => { y with mem := [], hlk := {} }))) ∧
    (s.dev.spiOn = true → n = c.toNat + 1 → addr.toNat % 4 = 0 → 0x100000 ≤ addr.toNat → addr.toNat + 4 * n ≤ 0x180000 →
      s.dev.live 2 = true → completes (.spiRead addr c) s (fun e =>
        e.hlk = { s.dev.hlk with spiArmed := false, read := (List.range n).map (fun k => s.dev.word (addr.toNat + 4 * k)) } ∧
        s.dev.alters e [] (fun y => { y with hlk := {} }))) ∧
    (s.dev.get SYS_STRAP.HSEL = 1 → completes .spiStatus s (fun e =>
        e.hlk = { s.dev.hlk with spiArmed := false, read := [(if bitOf (s.dev.get SYS_STEP.DONE) 5 then 4 else 0) +
          (if s.dev.get HLK_ERR.CODE = 0 ∧ s.dev.get HLK_ERR.COUNT = 0 then 0 else 2)] } ∧
        s.dev.alters e [] (fun y => { y with hlk := {} }))) ∧
    (s.dev.get SYS_STRAP.HSEL = 0 → completes .spiStatus s (fun e =>
        e.hlk = { s.dev.hlk with spiArmed := false } ∧ s.dev.alters e [] (fun y => { y with hlk := {} }))) ∧
    (s.dev.spiOn = true → completes .spiResetArm s (fun e =>
        e.hlk = { s.dev.hlk with spiArmed := true } ∧ s.dev.alters e [] (fun y => { y with hlk := {} }))) ∧
    (s.dev.spiOn = true → s.dev.hlk.spiArmed = false → changesNothing .spiReset s) ∧
    (s.dev.spiOn = true → s.dev.hlk.spiArmed = true → completes .spiReset s (fun e =>
        e.get SYS_RESET_CAUSE.HLK_RST = 1 ∧ e.hlk = { host := s.dev.hlk.host } ∧
        s.dev.keepsReset e (fun r => !r.hlk) [SYS_RESET_CAUSE.HLK_RST] ∧
        s.dev.keepsMem e (fun a => decide (a < 0x40261000) || decide (0x40262000 ≤ a)) ∧
        { e.sans with mem := [], hlk := {} } = { s.dev.sans with mem := [], hlk := {} }))

/-- A step takes the command at the front of the queue and runs it on the state with the queue's rest; on an empty queue it lets
one AT tick pass while the device runs and changes nothing while it is in reset or asleep, but for a read that a queue completes
and a card-watch pulse that ends (the model's choice, log entries 4 and 70). -/
def Obligations.StepTakesTheFrontCommand : Prop :=
  ∀ (s : State) (c : Instr) (rest : List Instr),
    (s.pending = c :: rest → step s = exec c { s with pending := rest }) ∧
    (s.pending = [] → s.dev.rst.asserted = false → s.dev.pwr.asleep = none → s.dev.qCalm → s.dev.cw.pulse = none →
      ticks s (fun e => e.tick = s.dev.tick + 1 ∧ e.sansTime = s.dev.sansTime ∧ s.dev.keeps e [])) ∧
    (s.pending = [] → s.dev.rst.asserted = true ∨ s.dev.pwr.asleep ≠ none → s.dev.qCalm → s.dev.cw.pulse = none →
      step s = .next s) ∧
    (s.pending = [] → ticks s (fun _ => True))

/-- Right after reset (R10, R28, R41, R91): no command waits, the device reset is asserted, every register field holds the value its
table gives, every Vat is STOPPED, every chain OFF, and both memories are in canonical form with nothing listed. (That a byte which
nothing has written reads 0 is the model's choice, log entry 2.) -/
def Obligations.ResetStateIsAsGiven : Prop :=
  State.reset.pending = [] ∧ State.reset.dev.rst.asserted = true ∧ (∀ f i j, State.reset.dev.get f i j = f.reset i j) ∧
    (∀ v : Nat, v < 16 → State.reset.dev.vst v = vsStopped) ∧ (∀ c : Nat, c < 9 → State.reset.dev.cst c = csOff) ∧
    State.reset.dev.mem = [] ∧ State.reset.nv.mram = [] ∧ State.reset.memOk = true ∧ State.reset.volatileOk = true ∧ State.reset.same = none ∧
    State.reset.nv.fuses = 0

/-- Every command in every state answers a next state, and leaves the queue of waiting commands as it is (the block refuses a
command by a status, never by stopping). Where the first two commands of a moment come in the queue against the order that a rule gives
them (R60, R80, R115, R194, R228, R302, R346, R355, R377, R395, R418), the device is that of the ruled order. -/
def Obligations.EveryCommandAnswers : Prop :=
  ∀ (c x : Instr) (s : State),
    (∃ t, exec c s = .next t ∧ t.pending = s.pending) ∧
    (s.record.2 = [] → leads c = true → firstInTick c x = true ∨ firstInCycle s.dev c x = true → (leads x = true → s.inTurn x = true) →
      (s.alone x).clk = s.dev.clk → ({ s with dev := s.alone x }.alone c).clk = s.dev.clk →
      ∃ t, exec x s = .next t ∧ completes c t (fun e => e = s.rerun s.dev [c, x]))

/-- Decoding and encoding of the Vats' instruction words agree (R97 to R99, R126, R127): the word and the extension word of an
instruction decode to it, with every operand at every value; an undefined opcode decodes to the illegal instruction of
its word; and the word after an instruction of one word is not looked at. -/
def Obligations.InstructionWordsRoundTrip : Prop :=
  ∀ (i : Isrin) (w e x : Word),
    ((∀ u, i ≠ .illegal u) → decodeIsrin (Isrin.encode i) (Isrin.ext i) = i) ∧
    ((Instr.illegal 0 w).illegalOk = true → decodeIsrin w x = .illegal w) ∧
    (Isrin.len (decodeIsrin w e) = 1 → decodeIsrin w x = decodeIsrin w e)

/-- What only advances (R407, R414): no step unblows a life-cycle fuse, and none lowers the anti-rollback counter. -/
def Obligations.LifeCycleNeverGoesBack : Prop :=
  ∀ s t : State, step s = .next t → s.lifeForward t ∧ s.nv.word ctrRollback ≤ t.nv.word ctrRollback

/-- Every step keeps the canonical form of the MRAM: addresses strictly rise, and no byte that reads as an unwritten one is
listed. -/
def Obligations.NonVolatileMemoryStaysCanonical : Prop :=
  ∀ s t : State, memWf s.nv.mram = true → step s = .next t → memWf t.nv.mram = true

/-- Every step keeps the canonical form of the volatile memories: the device's, and that of the device which the record of the present
moment holds. -/
def Obligations.MemoryStaysCanonical : Prop :=
  ∀ s t : State, s.volatileOk = true → step s = .next t → t.volatileOk = true

/-- A frame followed by the CRC-16 that a transmit template inserts passes the receiver's check, and a frame that passes fails
when any one of its bits is changed (R74, R169). -/
def Obligations.FramesWithTheirCrcPass : Prop :=
  ∀ (bits : List Bool) (n : Nat),
    crc16Good (bits ++ crcBits 2 bits) = true ∧
    (crc16Good bits = true → n < bits.length → crc16Good (bits.set n (!bits.getD n false)) = false)
end

