-- ==== Sys2Proof/Laws/Canopy.lean ====
section
/-! SUPPORT. The laws of the circular mean and of the stationarity test that the phase reference makes (R225). -/

namespace Sys2Proof.Machine

/-- A search for the greatest value ends at one of its places, and no place has a greater. -/
theorem circMean_fold (g : Nat → Int) (l : List Nat) (b : Nat × Int) (hb : b.2 = g b.1) (P : Nat → Prop) (hP : P b.1)
    (hl : ∀ m ∈ l, P m) :
    let r := l.foldl (fun (b : Nat × Int) m => if b.2 < g m then (m, g m) else b) b
    r.2 = g r.1 ∧ P r.1 ∧ b.2 ≤ r.2 ∧ ∀ m ∈ l, g m ≤ r.2 := by
  induction l generalizing b with
  | nil => exact ⟨hb, hP, Int.le_refl _, by simp⟩
  | cons m l ih =>
    simp only [List.foldl_cons]
    by_cases h : b.2 < g m
    · rw [if_pos h]
      have := ih (m, g m) rfl (hl m (by simp)) (fun x hx => hl x (by simp [hx]))
      refine ⟨this.1, this.2.1, Int.le_trans (Int.le_of_lt h) this.2.2.1, ?_⟩
      intro x hx
      rcases List.mem_cons.1 hx with rfl | hx
      · exact this.2.2.1
      · exact this.2.2.2 x hx
    · rw [if_neg h]
      have := ih b hb hP (fun x hx => hl x (by simp [hx]))
      refine ⟨this.1, this.2.1, this.2.2.1, ?_⟩
      intro x hx
      rcases List.mem_cons.1 hx with rfl | hx
      · exact Int.le_trans (Int.not_lt.1 h) this.2.2.1
      · exact this.2.2.2 x hx

/-- No unit has a greater projection of the vector sum than the circular mean (R224). -/
theorem circMean_max (l : List Nat) :
    circMean l < 1024 ∧ ∀ m < 1024, vecProj (vecSum l) m ≤ vecProj (vecSum l) (circMean l) := by
  have h := circMean_fold (vecProj (vecSum l)) (List.range 1024) (0, vecProj (vecSum l) 0) rfl (· < 1024)
    (by show 0 < 1024; omega) (fun m hm => List.mem_range.1 hm)
  change circMean l < 1024 ∧ _
  exact ⟨h.2.1, fun m hm => Int.le_trans (h.2.2.2 m (List.mem_range.2 hm)) (Int.le_of_eq h.1)⟩

/-- Halves whose circular variances differ by more than a factor of 4 are not stationary (R225). -/
theorem unstable_var (l : List Nat) (h : ¬ circVar (l.drop (l.length / 2)) ≤ 4 * circVar (l.take (l.length / 2))) :
    circStable l = false := by
  unfold circStable; simp [h]

/-- Two equal windows are stationary (R225). -/
theorem stable_same (a : Nat) : circStable [a, a] = true := by
  have hd : angDist (circMean [a]) (circMean [a]) = 0 := by unfold angDist phaseSub; omega
  have t : [a, a].take ([a, a].length / 2) = [a] := by simp
  have u : [a, a].drop ([a, a].length / 2) = [a] := by simp
  have e : circStable [a, a] = (decide (circVar [a] ≤ 4 * circVar [a]) && decide (circVar [a] ≤ 4 * circVar [a]) &&
    decide (angDist (circMean [a]) (circMean [a]) ≤ 8)) := by unfold circStable; rw [t, u]
  rw [e, hd]
  have : circVar [a] ≤ 4 * circVar [a] := by omega
  simp [this]

end Sys2Proof.Machine
end

