-- ==== Sys2Proof/Laws/Store.lean ====
section
/-! SUPPORT. The laws of the sparse maps: a read after a write, and that a write keeps the canonical form. -/

namespace Sys2Proof.Machine

variable {κ α : Type} [DecidableEq κ]

theorem fget_fdel_same (dflt : κ → α) (m : List (κ × α)) (k : κ) : fget dflt (fdel m k) k = dflt k := by
  induction m with
  | nil => rfl
  | cons x m ih =>
    obtain ⟨k', v⟩ := x
    by_cases h : k' = k
    · simp [fdel, h, ih]
    · simp [fdel, fget, h, ih]

theorem fget_fdel_ne (dflt : κ → α) (m : List (κ × α)) {k k' : κ} (h : k' ≠ k) :
    fget dflt (fdel m k) k' = fget dflt m k' := by
  induction m with
  | nil => rfl
  | cons x m ih =>
    obtain ⟨k'', v⟩ := x
    by_cases h1 : k'' = k
    · have h2 : k'' ≠ k' := by rintro rfl; exact h h1
      simp [fdel, fget, h1, ih]
      intro h3; exact absurd (h1.trans h3) h2
    · by_cases h2 : k'' = k'
      · simp [fdel, fget, h2, h]
      · simp [fdel, fget, h1, h2, ih]

theorem fget_fins_ne (dflt : κ → α) (rank : κ → Nat) (m : List (κ × α)) {k k' : κ} (v : α) (h : k' ≠ k) :
    fget dflt (fins rank m k v) k' = fget dflt m k' := by
  induction m with
  | nil => simp [fins, fget, Ne.symm h]
  | cons x m ih =>
    obtain ⟨k'', w⟩ := x
    by_cases h1 : rank k < rank k''
    · simp [fins, h1, fget, Ne.symm h]
    · simp [fins, h1, fget, ih]

/-- No entry of the map has the key. -/
theorem fdel_no_key (m : List (κ × α)) (k : κ) : ∀ x ∈ fdel m k, x.1 ≠ k := by
  induction m with
  | nil => simp [fdel]
  | cons x m ih =>
    obtain ⟨k', v⟩ := x
    by_cases h : k' = k
    · simpa [fdel, h] using ih
    · simpa [fdel, h] using ih

theorem fget_fins_same (dflt : κ → α) (rank : κ → Nat) (m : List (κ × α)) (k : κ) (v : α) (h : ∀ x ∈ m, x.1 ≠ k) :
    fget dflt (fins rank m k v) k = v := by
  induction m with
  | nil => simp [fins, fget]
  | cons x m ih =>
    obtain ⟨k', w⟩ := x
    have hk : k' ≠ k := h (k', w) (by simp)
    have hm : ∀ x ∈ m, x.1 ≠ k := fun x hx => h x (by simp [hx])
    by_cases h1 : rank k < rank k'
    · simp [fins, h1, fget]
    · simp [fins, h1, fget, hk, ih hm]

variable [DecidableEq α]

/-- A read of the key written gives the value written. -/
@[simp] theorem fget_fset_same (dflt : κ → α) (rank : κ → Nat) (m : List (κ × α)) (k : κ) (v : α) :
    fget dflt (fset dflt rank m k v) k = v := by
  by_cases h : v = dflt k
  · simp [fset, h, fget_fdel_same]
  · simp [fset, h, fget_fins_same dflt rank _ k v (fdel_no_key m k)]

/-- A read of another key gives what it gave. -/
theorem fget_fset_ne (dflt : κ → α) (rank : κ → Nat) (m : List (κ × α)) {k k' : κ} (v : α) (h : k' ≠ k) :
    fget dflt (fset dflt rank m k v) k' = fget dflt m k' := by
  by_cases hv : v = dflt k
  · simp [fset, hv, fget_fdel_ne dflt m h]
  · simp [fset, hv, fget_fins_ne dflt rank _ v h, fget_fdel_ne dflt m h]

/-- Both laws at once. -/
theorem fget_fset (dflt : κ → α) (rank : κ → Nat) (m : List (κ × α)) (k k' : κ) (v : α) :
    fget dflt (fset dflt rank m k v) k' = if k' = k then v else fget dflt m k' := by
  by_cases h : k' = k
  · subst h; simp
  · simp [h, fget_fset_ne dflt rank m v h]

/-! ### The canonical form -/

/-- The ranks of the keys strictly rise and no entry is its key's default. -/
def Canonical (dflt : κ → α) (rank : κ → Nat) (m : List (κ × α)) : Prop :=
  m.Pairwise (fun x y => rank x.1 < rank y.1) ∧ ∀ x ∈ m, x.2 ≠ dflt x.1

omit [DecidableEq α] in
theorem mem_of_mem_fdel {m : List (κ × α)} {k : κ} {x : κ × α} (h : x ∈ fdel m k) : x ∈ m := by
  induction m with
  | nil => simp [fdel] at h
  | cons y m ih =>
    obtain ⟨k', v⟩ := y
    by_cases hk : k' = k
    · simp [fdel, hk] at h; simp [ih h]
    · simp [fdel, hk] at h; rcases h with h | h
      · simp [h]
      · simp [ih h]

omit [DecidableEq α] in
theorem canonical_fdel {dflt : κ → α} {rank : κ → Nat} {m : List (κ × α)} (k : κ) (h : Canonical dflt rank m) :
    Canonical dflt rank (fdel m k) := by
  refine ⟨?_, fun x hx => h.2 x (mem_of_mem_fdel hx)⟩
  have hp := h.1
  clear h
  induction m with
  | nil => simp [fdel]
  | cons y m ih =>
    obtain ⟨k', v⟩ := y
    rw [List.pairwise_cons] at hp
    by_cases hk : k' = k
    · simpa [fdel, hk] using ih hp.2
    · simp only [fdel, hk, if_false, List.pairwise_cons]
      exact ⟨fun x hx => hp.1 x (mem_of_mem_fdel hx), ih hp.2⟩

omit [DecidableEq κ] [DecidableEq α] in
theorem mem_fins {rank : κ → Nat} {m : List (κ × α)} {k : κ} {v : α} {x : κ × α} :
    x ∈ fins rank m k v ↔ x = (k, v) ∨ x ∈ m := by
  induction m with
  | nil => simp [fins]
  | cons y m ih =>
    obtain ⟨k', w⟩ := y
    by_cases h : rank k < rank k'
    · simp [fins, h]
    · simp only [fins, h, if_false, List.mem_cons, ih]
      constructor
      · rintro (h | h | h) <;> simp [h]
      · rintro (h | h | h) <;> simp [h]

omit [DecidableEq κ] [DecidableEq α] in
theorem canonical_fins {dflt : κ → α} {rank : κ → Nat} (inj : ∀ a b, rank a = rank b → a = b) {m : List (κ × α)} {k : κ}
    {v : α} (hv : v ≠ dflt k) (hk : ∀ x ∈ m, x.1 ≠ k) (h : Canonical dflt rank m) :
    Canonical dflt rank (fins rank m k v) := by
  refine ⟨?_, ?_⟩
  · have hp := h.1
    clear h
    induction m with
    | nil => simp [fins]
    | cons y m ih =>
      obtain ⟨k', w⟩ := y
      have hp' := hp
      rw [List.pairwise_cons] at hp
      by_cases hr : rank k < rank k'
      · simp only [fins, hr, if_true, List.pairwise_cons]
        refine ⟨?_, hp.1, hp.2⟩
        intro x hx
        rcases List.mem_cons.1 hx with rfl | hx
        · exact hr
        · exact Nat.lt_trans hr (hp.1 x hx)
      · have hne : k' ≠ k := hk (k', w) (by simp)
        have hlt : rank k' < rank k := Nat.lt_of_le_of_ne (Nat.le_of_not_lt hr) (fun e => hne (inj _ _ e))
        simp only [fins, hr, if_false, List.pairwise_cons]
        refine ⟨?_, ih (fun x hx => hk x (by simp [hx])) hp.2⟩
        intro x hx
        rcases mem_fins.1 hx with rfl | hx
        · exact hlt
        · exact hp.1 x hx
  · intro x hx
    rcases mem_fins.1 hx with rfl | hx
    · exact hv
    · exact h.2 x hx

/-- A write keeps the canonical form where the rank tells the keys apart. -/
theorem canonical_fset {dflt : κ → α} {rank : κ → Nat} (inj : ∀ a b, rank a = rank b → a = b) {m : List (κ × α)} (k : κ)
    (v : α) (h : Canonical dflt rank m) : Canonical dflt rank (fset dflt rank m k v) := by
  by_cases hv : v = dflt k
  · simpa [fset, hv] using canonical_fdel k h
  · simpa [fset, hv] using canonical_fins inj hv (fdel_no_key m k) (canonical_fdel k h)

omit [DecidableEq κ] [DecidableEq α] in
theorem canonical_nil (dflt : κ → α) (rank : κ → Nat) : Canonical dflt rank ([] : List (κ × α)) := by
  simp [Canonical]

end Sys2Proof.Machine
end

