-- ==== Sys2Proof/Laws/State.lean ====
section
/-! SUPPORT. What each update of the state leaves in each field: one lemma per field and update, by rfl. -/

namespace Sys2Proof.Machine

/-! ### The fields of State -/

@[simp] theorem State.withPending_pending (s : State) (l : List Instr) : (s.withPending l).pending = l := rfl
@[simp] theorem State.withPending_nv (s : State) (l : List Instr) : (s.withPending l).nv = s.nv := rfl
@[simp] theorem State.withPending_dev (s : State) (l : List Instr) : (s.withPending l).dev = s.dev := rfl
@[simp] theorem State.withPending_same (s : State) (l : List Instr) : (s.withPending l).same = s.same := rfl
@[simp] theorem State.enqueue_pending (s : State) (i : Instr) : (s.enqueue i).pending = s.pending ++ [i] := rfl
@[simp] theorem State.enqueue_nv (s : State) (i : Instr) : (s.enqueue i).nv = s.nv := rfl
@[simp] theorem State.enqueue_dev (s : State) (i : Instr) : (s.enqueue i).dev = s.dev := rfl
@[simp] theorem State.enqueue_same (s : State) (i : Instr) : (s.enqueue i).same = s.same := rfl
/-- What a command whose effect is on the device alone answers. -/
@[simp] theorem State.on_eq (f : Dev → Dev) (s : State) : s.on f = .next { s with dev := f s.dev } := rfl
/-- A meaning that answers a next state answers that one. -/
@[simp] theorem next_inj (s t : State) :
    (Host.Outcome.next s : Host.Outcome State Fault Refusal) = .next t ↔ s = t := by
  constructor
  · intro h; injection h
  · rintro rfl; rfl


/-! ### The fields of the device after put -/

@[simp] theorem Dev.put_clk (d : Dev) (f : Fld) (v i j : Nat) : (d.put f v i j).clk = d.clk := rfl
@[simp] theorem Dev.put_hw (d : Dev) (f : Fld) (v i j : Nat) : (d.put f v i j).hw = d.hw := rfl
@[simp] theorem Dev.put_fresh (d : Dev) (f : Fld) (v i j : Nat) : (d.put f v i j).fresh = d.fresh := rfl
@[simp] theorem Dev.put_mem (d : Dev) (f : Fld) (v i j : Nat) : (d.put f v i j).mem = d.mem := rfl
@[simp] theorem Dev.put_ecc (d : Dev) (f : Fld) (v i j : Nat) : (d.put f v i j).ecc = d.ecc := rfl
@[simp] theorem Dev.put_vat (d : Dev) (f : Fld) (v i j : Nat) : (d.put f v i j).vat = d.vat := rfl
@[simp] theorem Dev.put_ch (d : Dev) (f : Fld) (v i j : Nat) : (d.put f v i j).ch = d.ch := rfl
@[simp] theorem Dev.put_syn (d : Dev) (f : Fld) (v i j : Nat) : (d.put f v i j).syn = d.syn := rfl
@[simp] theorem Dev.put_shadowGo (d : Dev) (f : Fld) (v i j : Nat) : (d.put f v i j).shadowGo = d.shadowGo := rfl
@[simp] theorem Dev.put_fe (d : Dev) (f : Fld) (v i j : Nat) : (d.put f v i j).fe = d.fe := rfl
@[simp] theorem Dev.put_rgu (d : Dev) (f : Fld) (v i j : Nat) : (d.put f v i j).rgu = d.rgu := rfl
@[simp] theorem Dev.put_asn (d : Dev) (f : Fld) (v i j : Nat) : (d.put f v i j).asn = d.asn := rfl
@[simp] theorem Dev.put_spare (d : Dev) (f : Fld) (v i j : Nat) : (d.put f v i j).spare = d.spare := rfl
@[simp] theorem Dev.put_cal (d : Dev) (f : Fld) (v i j : Nat) : (d.put f v i j).cal = d.cal := rfl
@[simp] theorem Dev.put_grp (d : Dev) (f : Fld) (v i j : Nat) : (d.put f v i j).grp = d.grp := rfl
@[simp] theorem Dev.put_pcal (d : Dev) (f : Fld) (v i j : Nat) : (d.put f v i j).pcal = d.pcal := rfl
@[simp] theorem Dev.put_q (d : Dev) (f : Fld) (v i j : Nat) : (d.put f v i j).q = d.q := rfl
@[simp] theorem Dev.put_flights (d : Dev) (f : Fld) (v i j : Nat) : (d.put f v i j).flights = d.flights := rfl
@[simp] theorem Dev.put_txPend (d : Dev) (f : Fld) (v i j : Nat) : (d.put f v i j).txPend = d.txPend := rfl
@[simp] theorem Dev.put_ldg (d : Dev) (f : Fld) (v i j : Nat) : (d.put f v i j).ldg = d.ldg := rfl
@[simp] theorem Dev.put_cgen (d : Dev) (f : Fld) (v i j : Nat) : (d.put f v i j).cgen = d.cgen := rfl
@[simp] theorem Dev.put_loopLog (d : Dev) (f : Fld) (v i j : Nat) : (d.put f v i j).loopLog = d.loopLog := rfl
@[simp] theorem Dev.put_cw (d : Dev) (f : Fld) (v i j : Nat) : (d.put f v i j).cw = d.cw := rfl
@[simp] theorem Dev.put_duty (d : Dev) (f : Fld) (v i j : Nat) : (d.put f v i j).duty = d.duty := rfl
@[simp] theorem Dev.put_launched (d : Dev) (f : Fld) (v i j : Nat) : (d.put f v i j).launched = d.launched := rfl
@[simp] theorem Dev.put_calGone (d : Dev) (f : Fld) (v i j : Nat) : (d.put f v i j).calGone = d.calGone := rfl
@[simp] theorem Dev.put_calCut (d : Dev) (f : Fld) (v i j : Nat) : (d.put f v i j).calCut = d.calCut := rfl
@[simp] theorem Dev.put_stws (d : Dev) (f : Fld) (v i j : Nat) : (d.put f v i j).stws = d.stws := rfl
@[simp] theorem Dev.put_bound (d : Dev) (f : Fld) (v i j : Nat) : (d.put f v i j).bound = d.bound := rfl
@[simp] theorem Dev.put_opened (d : Dev) (f : Fld) (v i j : Nat) : (d.put f v i j).opened = d.opened := rfl
@[simp] theorem Dev.put_freeing (d : Dev) (f : Fld) (v i j : Nat) : (d.put f v i j).freeing = d.freeing := rfl
@[simp] theorem Dev.put_idle (d : Dev) (f : Fld) (v i j : Nat) : (d.put f v i j).idle = d.idle := rfl
@[simp] theorem Dev.put_busyAt (d : Dev) (f : Fld) (v i j : Nat) : (d.put f v i j).busyAt = d.busyAt := rfl
@[simp] theorem Dev.put_gated (d : Dev) (f : Fld) (v i j : Nat) : (d.put f v i j).gated = d.gated := rfl
@[simp] theorem Dev.put_assigned (d : Dev) (f : Fld) (v i j : Nat) : (d.put f v i j).assigned = d.assigned := rfl
@[simp] theorem Dev.put_wkr (d : Dev) (f : Fld) (v i j : Nat) : (d.put f v i j).wkr = d.wkr := rfl
@[simp] theorem Dev.put_log (d : Dev) (f : Fld) (v i j : Nat) : (d.put f v i j).log = d.log := rfl
@[simp] theorem Dev.put_pwr (d : Dev) (f : Fld) (v i j : Nat) : (d.put f v i j).pwr = d.pwr := rfl
@[simp] theorem Dev.put_rst (d : Dev) (f : Fld) (v i j : Nat) : (d.put f v i j).rst = d.rst := rfl
@[simp] theorem Dev.put_rgr (d : Dev) (f : Fld) (v i j : Nat) : (d.put f v i j).rgr = d.rgr := rfl
@[simp] theorem Dev.put_hlk (d : Dev) (f : Fld) (v i j : Nat) : (d.put f v i j).hlk = d.hlk := rfl
@[simp] theorem Dev.put_ring (d : Dev) (f : Fld) (v i j : Nat) : (d.put f v i j).ring = d.ring := rfl
@[simp] theorem Dev.put_pps (d : Dev) (f : Fld) (v i j : Nat) : (d.put f v i j).pps = d.pps := rfl
@[simp] theorem Dev.put_msh (d : Dev) (f : Fld) (v i j : Nat) : (d.put f v i j).msh = d.msh := rfl
@[simp] theorem Dev.put_spe (d : Dev) (f : Fld) (v i j : Nat) : (d.put f v i j).spe = d.spe := rfl

/-! ### The fields of the device after setByte -/

@[simp] theorem Dev.setByte_clk (d : Dev) (a : Nat) (b : Byte) : (d.setByte a b).clk = d.clk := rfl
@[simp] theorem Dev.setByte_hw (d : Dev) (a : Nat) (b : Byte) : (d.setByte a b).hw = d.hw := rfl
@[simp] theorem Dev.setByte_fresh (d : Dev) (a : Nat) (b : Byte) : (d.setByte a b).fresh = d.fresh := rfl
@[simp] theorem Dev.setByte_regs (d : Dev) (a : Nat) (b : Byte) : (d.setByte a b).regs = d.regs := rfl
@[simp] theorem Dev.setByte_ecc (d : Dev) (a : Nat) (b : Byte) : (d.setByte a b).ecc = d.ecc := rfl
@[simp] theorem Dev.setByte_vat (d : Dev) (a : Nat) (b : Byte) : (d.setByte a b).vat = d.vat := rfl
@[simp] theorem Dev.setByte_ch (d : Dev) (a : Nat) (b : Byte) : (d.setByte a b).ch = d.ch := rfl
@[simp] theorem Dev.setByte_syn (d : Dev) (a : Nat) (b : Byte) : (d.setByte a b).syn = d.syn := rfl
@[simp] theorem Dev.setByte_shadowGo (d : Dev) (a : Nat) (b : Byte) : (d.setByte a b).shadowGo = d.shadowGo := rfl
@[simp] theorem Dev.setByte_fe (d : Dev) (a : Nat) (b : Byte) : (d.setByte a b).fe = d.fe := rfl
@[simp] theorem Dev.setByte_rgu (d : Dev) (a : Nat) (b : Byte) : (d.setByte a b).rgu = d.rgu := rfl
@[simp] theorem Dev.setByte_asn (d : Dev) (a : Nat) (b : Byte) : (d.setByte a b).asn = d.asn := rfl
@[simp] theorem Dev.setByte_spare (d : Dev) (a : Nat) (b : Byte) : (d.setByte a b).spare = d.spare := rfl
@[simp] theorem Dev.setByte_cal (d : Dev) (a : Nat) (b : Byte) : (d.setByte a b).cal = d.cal := rfl
@[simp] theorem Dev.setByte_grp (d : Dev) (a : Nat) (b : Byte) : (d.setByte a b).grp = d.grp := rfl
@[simp] theorem Dev.setByte_pcal (d : Dev) (a : Nat) (b : Byte) : (d.setByte a b).pcal = d.pcal := rfl
@[simp] theorem Dev.setByte_q (d : Dev) (a : Nat) (b : Byte) : (d.setByte a b).q = d.q := rfl
@[simp] theorem Dev.setByte_flights (d : Dev) (a : Nat) (b : Byte) : (d.setByte a b).flights = d.flights := rfl
@[simp] theorem Dev.setByte_txPend (d : Dev) (a : Nat) (b : Byte) : (d.setByte a b).txPend = d.txPend := rfl
@[simp] theorem Dev.setByte_ldg (d : Dev) (a : Nat) (b : Byte) : (d.setByte a b).ldg = d.ldg := rfl
@[simp] theorem Dev.setByte_cgen (d : Dev) (a : Nat) (b : Byte) : (d.setByte a b).cgen = d.cgen := rfl
@[simp] theorem Dev.setByte_loopLog (d : Dev) (a : Nat) (b : Byte) : (d.setByte a b).loopLog = d.loopLog := rfl
@[simp] theorem Dev.setByte_cw (d : Dev) (a : Nat) (b : Byte) : (d.setByte a b).cw = d.cw := rfl
@[simp] theorem Dev.setByte_duty (d : Dev) (a : Nat) (b : Byte) : (d.setByte a b).duty = d.duty := rfl
@[simp] theorem Dev.setByte_launched (d : Dev) (a : Nat) (b : Byte) : (d.setByte a b).launched = d.launched := rfl
@[simp] theorem Dev.setByte_calGone (d : Dev) (a : Nat) (b : Byte) : (d.setByte a b).calGone = d.calGone := rfl
@[simp] theorem Dev.setByte_calCut (d : Dev) (a : Nat) (b : Byte) : (d.setByte a b).calCut = d.calCut := rfl
@[simp] theorem Dev.setByte_stws (d : Dev) (a : Nat) (b : Byte) : (d.setByte a b).stws = d.stws := rfl
@[simp] theorem Dev.setByte_bound (d : Dev) (a : Nat) (b : Byte) : (d.setByte a b).bound = d.bound := rfl
@[simp] theorem Dev.setByte_opened (d : Dev) (a : Nat) (b : Byte) : (d.setByte a b).opened = d.opened := rfl
@[simp] theorem Dev.setByte_freeing (d : Dev) (a : Nat) (b : Byte) : (d.setByte a b).freeing = d.freeing := rfl
@[simp] theorem Dev.setByte_idle (d : Dev) (a : Nat) (b : Byte) : (d.setByte a b).idle = d.idle := rfl
@[simp] theorem Dev.setByte_busyAt (d : Dev) (a : Nat) (b : Byte) : (d.setByte a b).busyAt = d.busyAt := rfl
@[simp] theorem Dev.setByte_gated (d : Dev) (a : Nat) (b : Byte) : (d.setByte a b).gated = d.gated := rfl
@[simp] theorem Dev.setByte_assigned (d : Dev) (a : Nat) (b : Byte) : (d.setByte a b).assigned = d.assigned := rfl
@[simp] theorem Dev.setByte_wkr (d : Dev) (a : Nat) (b : Byte) : (d.setByte a b).wkr = d.wkr := rfl
@[simp] theorem Dev.setByte_log (d : Dev) (a : Nat) (b : Byte) : (d.setByte a b).log = d.log := rfl
@[simp] theorem Dev.setByte_pwr (d : Dev) (a : Nat) (b : Byte) : (d.setByte a b).pwr = d.pwr := rfl
@[simp] theorem Dev.setByte_rst (d : Dev) (a : Nat) (b : Byte) : (d.setByte a b).rst = d.rst := rfl
@[simp] theorem Dev.setByte_rgr (d : Dev) (a : Nat) (b : Byte) : (d.setByte a b).rgr = d.rgr := rfl
@[simp] theorem Dev.setByte_hlk (d : Dev) (a : Nat) (b : Byte) : (d.setByte a b).hlk = d.hlk := rfl
@[simp] theorem Dev.setByte_ring (d : Dev) (a : Nat) (b : Byte) : (d.setByte a b).ring = d.ring := rfl
@[simp] theorem Dev.setByte_pps (d : Dev) (a : Nat) (b : Byte) : (d.setByte a b).pps = d.pps := rfl
@[simp] theorem Dev.setByte_msh (d : Dev) (a : Nat) (b : Byte) : (d.setByte a b).msh = d.msh := rfl
@[simp] theorem Dev.setByte_spe (d : Dev) (a : Nat) (b : Byte) : (d.setByte a b).spe = d.spe := rfl

/-! ### The fields of the device after setVat -/

@[simp] theorem Dev.setVat_clk (d : Dev) (v : Nat) (x : VatX) : (d.setVat v x).clk = d.clk := rfl
@[simp] theorem Dev.setVat_hw (d : Dev) (v : Nat) (x : VatX) : (d.setVat v x).hw = d.hw := rfl
@[simp] theorem Dev.setVat_fresh (d : Dev) (v : Nat) (x : VatX) : (d.setVat v x).fresh = d.fresh := rfl
@[simp] theorem Dev.setVat_regs (d : Dev) (v : Nat) (x : VatX) : (d.setVat v x).regs = d.regs := rfl
@[simp] theorem Dev.setVat_mem (d : Dev) (v : Nat) (x : VatX) : (d.setVat v x).mem = d.mem := rfl
@[simp] theorem Dev.setVat_ecc (d : Dev) (v : Nat) (x : VatX) : (d.setVat v x).ecc = d.ecc := rfl
@[simp] theorem Dev.setVat_ch (d : Dev) (v : Nat) (x : VatX) : (d.setVat v x).ch = d.ch := rfl
@[simp] theorem Dev.setVat_syn (d : Dev) (v : Nat) (x : VatX) : (d.setVat v x).syn = d.syn := rfl
@[simp] theorem Dev.setVat_shadowGo (d : Dev) (v : Nat) (x : VatX) : (d.setVat v x).shadowGo = d.shadowGo := rfl
@[simp] theorem Dev.setVat_fe (d : Dev) (v : Nat) (x : VatX) : (d.setVat v x).fe = d.fe := rfl
@[simp] theorem Dev.setVat_rgu (d : Dev) (v : Nat) (x : VatX) : (d.setVat v x).rgu = d.rgu := rfl
@[simp] theorem Dev.setVat_asn (d : Dev) (v : Nat) (x : VatX) : (d.setVat v x).asn = d.asn := rfl
@[simp] theorem Dev.setVat_spare (d : Dev) (v : Nat) (x : VatX) : (d.setVat v x).spare = d.spare := rfl
@[simp] theorem Dev.setVat_cal (d : Dev) (v : Nat) (x : VatX) : (d.setVat v x).cal = d.cal := rfl
@[simp] theorem Dev.setVat_grp (d : Dev) (v : Nat) (x : VatX) : (d.setVat v x).grp = d.grp := rfl
@[simp] theorem Dev.setVat_pcal (d : Dev) (v : Nat) (x : VatX) : (d.setVat v x).pcal = d.pcal := rfl
@[simp] theorem Dev.setVat_q (d : Dev) (v : Nat) (x : VatX) : (d.setVat v x).q = d.q := rfl
@[simp] theorem Dev.setVat_flights (d : Dev) (v : Nat) (x : VatX) : (d.setVat v x).flights = d.flights := rfl
@[simp] theorem Dev.setVat_txPend (d : Dev) (v : Nat) (x : VatX) : (d.setVat v x).txPend = d.txPend := rfl
@[simp] theorem Dev.setVat_ldg (d : Dev) (v : Nat) (x : VatX) : (d.setVat v x).ldg = d.ldg := rfl
@[simp] theorem Dev.setVat_cgen (d : Dev) (v : Nat) (x : VatX) : (d.setVat v x).cgen = d.cgen := rfl
@[simp] theorem Dev.setVat_loopLog (d : Dev) (v : Nat) (x : VatX) : (d.setVat v x).loopLog = d.loopLog := rfl
@[simp] theorem Dev.setVat_cw (d : Dev) (v : Nat) (x : VatX) : (d.setVat v x).cw = d.cw := rfl
@[simp] theorem Dev.setVat_duty (d : Dev) (v : Nat) (x : VatX) : (d.setVat v x).duty = d.duty := rfl
@[simp] theorem Dev.setVat_launched (d : Dev) (v : Nat) (x : VatX) : (d.setVat v x).launched = d.launched := rfl
@[simp] theorem Dev.setVat_calGone (d : Dev) (v : Nat) (x : VatX) : (d.setVat v x).calGone = d.calGone := rfl
@[simp] theorem Dev.setVat_calCut (d : Dev) (v : Nat) (x : VatX) : (d.setVat v x).calCut = d.calCut := rfl
@[simp] theorem Dev.setVat_stws (d : Dev) (v : Nat) (x : VatX) : (d.setVat v x).stws = d.stws := rfl
@[simp] theorem Dev.setVat_bound (d : Dev) (v : Nat) (x : VatX) : (d.setVat v x).bound = d.bound := rfl
@[simp] theorem Dev.setVat_opened (d : Dev) (v : Nat) (x : VatX) : (d.setVat v x).opened = d.opened := rfl
@[simp] theorem Dev.setVat_freeing (d : Dev) (v : Nat) (x : VatX) : (d.setVat v x).freeing = d.freeing := rfl
@[simp] theorem Dev.setVat_idle (d : Dev) (v : Nat) (x : VatX) : (d.setVat v x).idle = d.idle := rfl
@[simp] theorem Dev.setVat_busyAt (d : Dev) (v : Nat) (x : VatX) : (d.setVat v x).busyAt = d.busyAt := rfl
@[simp] theorem Dev.setVat_gated (d : Dev) (v : Nat) (x : VatX) : (d.setVat v x).gated = d.gated := rfl
@[simp] theorem Dev.setVat_assigned (d : Dev) (v : Nat) (x : VatX) : (d.setVat v x).assigned = d.assigned := rfl
@[simp] theorem Dev.setVat_wkr (d : Dev) (v : Nat) (x : VatX) : (d.setVat v x).wkr = d.wkr := rfl
@[simp] theorem Dev.setVat_log (d : Dev) (v : Nat) (x : VatX) : (d.setVat v x).log = d.log := rfl
@[simp] theorem Dev.setVat_pwr (d : Dev) (v : Nat) (x : VatX) : (d.setVat v x).pwr = d.pwr := rfl
@[simp] theorem Dev.setVat_rst (d : Dev) (v : Nat) (x : VatX) : (d.setVat v x).rst = d.rst := rfl
@[simp] theorem Dev.setVat_rgr (d : Dev) (v : Nat) (x : VatX) : (d.setVat v x).rgr = d.rgr := rfl
@[simp] theorem Dev.setVat_hlk (d : Dev) (v : Nat) (x : VatX) : (d.setVat v x).hlk = d.hlk := rfl
@[simp] theorem Dev.setVat_ring (d : Dev) (v : Nat) (x : VatX) : (d.setVat v x).ring = d.ring := rfl
@[simp] theorem Dev.setVat_pps (d : Dev) (v : Nat) (x : VatX) : (d.setVat v x).pps = d.pps := rfl
@[simp] theorem Dev.setVat_msh (d : Dev) (v : Nat) (x : VatX) : (d.setVat v x).msh = d.msh := rfl
@[simp] theorem Dev.setVat_spe (d : Dev) (v : Nat) (x : VatX) : (d.setVat v x).spe = d.spe := rfl

/-! ### The fields of the device after setCh -/

@[simp] theorem Dev.setCh_clk (d : Dev) (c : Nat) (x : ChX) : (d.setCh c x).clk = d.clk := rfl
@[simp] theorem Dev.setCh_hw (d : Dev) (c : Nat) (x : ChX) : (d.setCh c x).hw = d.hw := rfl
@[simp] theorem Dev.setCh_fresh (d : Dev) (c : Nat) (x : ChX) : (d.setCh c x).fresh = d.fresh := rfl
@[simp] theorem Dev.setCh_regs (d : Dev) (c : Nat) (x : ChX) : (d.setCh c x).regs = d.regs := rfl
@[simp] theorem Dev.setCh_mem (d : Dev) (c : Nat) (x : ChX) : (d.setCh c x).mem = d.mem := rfl
@[simp] theorem Dev.setCh_ecc (d : Dev) (c : Nat) (x : ChX) : (d.setCh c x).ecc = d.ecc := rfl
@[simp] theorem Dev.setCh_vat (d : Dev) (c : Nat) (x : ChX) : (d.setCh c x).vat = d.vat := rfl
@[simp] theorem Dev.setCh_syn (d : Dev) (c : Nat) (x : ChX) : (d.setCh c x).syn = d.syn := rfl
@[simp] theorem Dev.setCh_shadowGo (d : Dev) (c : Nat) (x : ChX) : (d.setCh c x).shadowGo = d.shadowGo := rfl
@[simp] theorem Dev.setCh_fe (d : Dev) (c : Nat) (x : ChX) : (d.setCh c x).fe = d.fe := rfl
@[simp] theorem Dev.setCh_rgu (d : Dev) (c : Nat) (x : ChX) : (d.setCh c x).rgu = d.rgu := rfl
@[simp] theorem Dev.setCh_asn (d : Dev) (c : Nat) (x : ChX) : (d.setCh c x).asn = d.asn := rfl
@[simp] theorem Dev.setCh_spare (d : Dev) (c : Nat) (x : ChX) : (d.setCh c x).spare = d.spare := rfl
@[simp] theorem Dev.setCh_cal (d : Dev) (c : Nat) (x : ChX) : (d.setCh c x).cal = d.cal := rfl
@[simp] theorem Dev.setCh_grp (d : Dev) (c : Nat) (x : ChX) : (d.setCh c x).grp = d.grp := rfl
@[simp] theorem Dev.setCh_pcal (d : Dev) (c : Nat) (x : ChX) : (d.setCh c x).pcal = d.pcal := rfl
@[simp] theorem Dev.setCh_q (d : Dev) (c : Nat) (x : ChX) : (d.setCh c x).q = d.q := rfl
@[simp] theorem Dev.setCh_flights (d : Dev) (c : Nat) (x : ChX) : (d.setCh c x).flights = d.flights := rfl
@[simp] theorem Dev.setCh_txPend (d : Dev) (c : Nat) (x : ChX) : (d.setCh c x).txPend = d.txPend := rfl
@[simp] theorem Dev.setCh_ldg (d : Dev) (c : Nat) (x : ChX) : (d.setCh c x).ldg = d.ldg := rfl
@[simp] theorem Dev.setCh_cgen (d : Dev) (c : Nat) (x : ChX) : (d.setCh c x).cgen = d.cgen := rfl
@[simp] theorem Dev.setCh_loopLog (d : Dev) (c : Nat) (x : ChX) : (d.setCh c x).loopLog = d.loopLog := rfl
@[simp] theorem Dev.setCh_cw (d : Dev) (c : Nat) (x : ChX) : (d.setCh c x).cw = d.cw := rfl
@[simp] theorem Dev.setCh_duty (d : Dev) (c : Nat) (x : ChX) : (d.setCh c x).duty = d.duty := rfl
@[simp] theorem Dev.setCh_launched (d : Dev) (c : Nat) (x : ChX) : (d.setCh c x).launched = d.launched := rfl
@[simp] theorem Dev.setCh_calGone (d : Dev) (c : Nat) (x : ChX) : (d.setCh c x).calGone = d.calGone := rfl
@[simp] theorem Dev.setCh_calCut (d : Dev) (c : Nat) (x : ChX) : (d.setCh c x).calCut = d.calCut := rfl
@[simp] theorem Dev.setCh_stws (d : Dev) (c : Nat) (x : ChX) : (d.setCh c x).stws = d.stws := rfl
@[simp] theorem Dev.setCh_bound (d : Dev) (c : Nat) (x : ChX) : (d.setCh c x).bound = d.bound := rfl
@[simp] theorem Dev.setCh_opened (d : Dev) (c : Nat) (x : ChX) : (d.setCh c x).opened = d.opened := rfl
@[simp] theorem Dev.setCh_freeing (d : Dev) (c : Nat) (x : ChX) : (d.setCh c x).freeing = d.freeing := rfl
@[simp] theorem Dev.setCh_idle (d : Dev) (c : Nat) (x : ChX) : (d.setCh c x).idle = d.idle := rfl
@[simp] theorem Dev.setCh_busyAt (d : Dev) (c : Nat) (x : ChX) : (d.setCh c x).busyAt = d.busyAt := rfl
@[simp] theorem Dev.setCh_gated (d : Dev) (c : Nat) (x : ChX) : (d.setCh c x).gated = d.gated := rfl
@[simp] theorem Dev.setCh_assigned (d : Dev) (c : Nat) (x : ChX) : (d.setCh c x).assigned = d.assigned := rfl
@[simp] theorem Dev.setCh_wkr (d : Dev) (c : Nat) (x : ChX) : (d.setCh c x).wkr = d.wkr := rfl
@[simp] theorem Dev.setCh_log (d : Dev) (c : Nat) (x : ChX) : (d.setCh c x).log = d.log := rfl
@[simp] theorem Dev.setCh_pwr (d : Dev) (c : Nat) (x : ChX) : (d.setCh c x).pwr = d.pwr := rfl
@[simp] theorem Dev.setCh_rst (d : Dev) (c : Nat) (x : ChX) : (d.setCh c x).rst = d.rst := rfl
@[simp] theorem Dev.setCh_rgr (d : Dev) (c : Nat) (x : ChX) : (d.setCh c x).rgr = d.rgr := rfl
@[simp] theorem Dev.setCh_hlk (d : Dev) (c : Nat) (x : ChX) : (d.setCh c x).hlk = d.hlk := rfl
@[simp] theorem Dev.setCh_ring (d : Dev) (c : Nat) (x : ChX) : (d.setCh c x).ring = d.ring := rfl
@[simp] theorem Dev.setCh_pps (d : Dev) (c : Nat) (x : ChX) : (d.setCh c x).pps = d.pps := rfl
@[simp] theorem Dev.setCh_msh (d : Dev) (c : Nat) (x : ChX) : (d.setCh c x).msh = d.msh := rfl
@[simp] theorem Dev.setCh_spe (d : Dev) (c : Nat) (x : ChX) : (d.setCh c x).spe = d.spe := rfl

/-! ### The fields of the device after setSyn -/

@[simp] theorem Dev.setSyn_clk (d : Dev) (m : Nat) (x : SynX) : (d.setSyn m x).clk = d.clk := rfl
@[simp] theorem Dev.setSyn_hw (d : Dev) (m : Nat) (x : SynX) : (d.setSyn m x).hw = d.hw := rfl
@[simp] theorem Dev.setSyn_fresh (d : Dev) (m : Nat) (x : SynX) : (d.setSyn m x).fresh = d.fresh := rfl
@[simp] theorem Dev.setSyn_regs (d : Dev) (m : Nat) (x : SynX) : (d.setSyn m x).regs = d.regs := rfl
@[simp] theorem Dev.setSyn_mem (d : Dev) (m : Nat) (x : SynX) : (d.setSyn m x).mem = d.mem := rfl
@[simp] theorem Dev.setSyn_ecc (d : Dev) (m : Nat) (x : SynX) : (d.setSyn m x).ecc = d.ecc := rfl
@[simp] theorem Dev.setSyn_vat (d : Dev) (m : Nat) (x : SynX) : (d.setSyn m x).vat = d.vat := rfl
@[simp] theorem Dev.setSyn_ch (d : Dev) (m : Nat) (x : SynX) : (d.setSyn m x).ch = d.ch := rfl
@[simp] theorem Dev.setSyn_shadowGo (d : Dev) (m : Nat) (x : SynX) : (d.setSyn m x).shadowGo = d.shadowGo := rfl
@[simp] theorem Dev.setSyn_fe (d : Dev) (m : Nat) (x : SynX) : (d.setSyn m x).fe = d.fe := rfl
@[simp] theorem Dev.setSyn_rgu (d : Dev) (m : Nat) (x : SynX) : (d.setSyn m x).rgu = d.rgu := rfl
@[simp] theorem Dev.setSyn_asn (d : Dev) (m : Nat) (x : SynX) : (d.setSyn m x).asn = d.asn := rfl
@[simp] theorem Dev.setSyn_spare (d : Dev) (m : Nat) (x : SynX) : (d.setSyn m x).spare = d.spare := rfl
@[simp] theorem Dev.setSyn_cal (d : Dev) (m : Nat) (x : SynX) : (d.setSyn m x).cal = d.cal := rfl
@[simp] theorem Dev.setSyn_grp (d : Dev) (m : Nat) (x : SynX) : (d.setSyn m x).grp = d.grp := rfl
@[simp] theorem Dev.setSyn_pcal (d : Dev) (m : Nat) (x : SynX) : (d.setSyn m x).pcal = d.pcal := rfl
@[simp] theorem Dev.setSyn_q (d : Dev) (m : Nat) (x : SynX) : (d.setSyn m x).q = d.q := rfl
@[simp] theorem Dev.setSyn_flights (d : Dev) (m : Nat) (x : SynX) : (d.setSyn m x).flights = d.flights := rfl
@[simp] theorem Dev.setSyn_txPend (d : Dev) (m : Nat) (x : SynX) : (d.setSyn m x).txPend = d.txPend := rfl
@[simp] theorem Dev.setSyn_ldg (d : Dev) (m : Nat) (x : SynX) : (d.setSyn m x).ldg = d.ldg := rfl
@[simp] theorem Dev.setSyn_cgen (d : Dev) (m : Nat) (x : SynX) : (d.setSyn m x).cgen = d.cgen := rfl
@[simp] theorem Dev.setSyn_loopLog (d : Dev) (m : Nat) (x : SynX) : (d.setSyn m x).loopLog = d.loopLog := rfl
@[simp] theorem Dev.setSyn_cw (d : Dev) (m : Nat) (x : SynX) : (d.setSyn m x).cw = d.cw := rfl
@[simp] theorem Dev.setSyn_duty (d : Dev) (m : Nat) (x : SynX) : (d.setSyn m x).duty = d.duty := rfl
@[simp] theorem Dev.setSyn_launched (d : Dev) (m : Nat) (x : SynX) : (d.setSyn m x).launched = d.launched := rfl
@[simp] theorem Dev.setSyn_calGone (d : Dev) (m : Nat) (x : SynX) : (d.setSyn m x).calGone = d.calGone := rfl
@[simp] theorem Dev.setSyn_calCut (d : Dev) (m : Nat) (x : SynX) : (d.setSyn m x).calCut = d.calCut := rfl
@[simp] theorem Dev.setSyn_stws (d : Dev) (m : Nat) (x : SynX) : (d.setSyn m x).stws = d.stws := rfl
@[simp] theorem Dev.setSyn_bound (d : Dev) (m : Nat) (x : SynX) : (d.setSyn m x).bound = d.bound := rfl
@[simp] theorem Dev.setSyn_opened (d : Dev) (m : Nat) (x : SynX) : (d.setSyn m x).opened = d.opened := rfl
@[simp] theorem Dev.setSyn_freeing (d : Dev) (m : Nat) (x : SynX) : (d.setSyn m x).freeing = d.freeing := rfl
@[simp] theorem Dev.setSyn_idle (d : Dev) (m : Nat) (x : SynX) : (d.setSyn m x).idle = d.idle := rfl
@[simp] theorem Dev.setSyn_busyAt (d : Dev) (m : Nat) (x : SynX) : (d.setSyn m x).busyAt = d.busyAt := rfl
@[simp] theorem Dev.setSyn_gated (d : Dev) (m : Nat) (x : SynX) : (d.setSyn m x).gated = d.gated := rfl
@[simp] theorem Dev.setSyn_assigned (d : Dev) (m : Nat) (x : SynX) : (d.setSyn m x).assigned = d.assigned := rfl
@[simp] theorem Dev.setSyn_wkr (d : Dev) (m : Nat) (x : SynX) : (d.setSyn m x).wkr = d.wkr := rfl
@[simp] theorem Dev.setSyn_log (d : Dev) (m : Nat) (x : SynX) : (d.setSyn m x).log = d.log := rfl
@[simp] theorem Dev.setSyn_pwr (d : Dev) (m : Nat) (x : SynX) : (d.setSyn m x).pwr = d.pwr := rfl
@[simp] theorem Dev.setSyn_rst (d : Dev) (m : Nat) (x : SynX) : (d.setSyn m x).rst = d.rst := rfl
@[simp] theorem Dev.setSyn_rgr (d : Dev) (m : Nat) (x : SynX) : (d.setSyn m x).rgr = d.rgr := rfl
@[simp] theorem Dev.setSyn_hlk (d : Dev) (m : Nat) (x : SynX) : (d.setSyn m x).hlk = d.hlk := rfl
@[simp] theorem Dev.setSyn_ring (d : Dev) (m : Nat) (x : SynX) : (d.setSyn m x).ring = d.ring := rfl
@[simp] theorem Dev.setSyn_pps (d : Dev) (m : Nat) (x : SynX) : (d.setSyn m x).pps = d.pps := rfl
@[simp] theorem Dev.setSyn_msh (d : Dev) (m : Nat) (x : SynX) : (d.setSyn m x).msh = d.msh := rfl
@[simp] theorem Dev.setSyn_spe (d : Dev) (m : Nat) (x : SynX) : (d.setSyn m x).spe = d.spe := rfl

/-! ### The fields of the device after setFe -/

@[simp] theorem Dev.setFe_clk (d : Dev) (n : Nat) (x : FeX) : (d.setFe n x).clk = d.clk := rfl
@[simp] theorem Dev.setFe_hw (d : Dev) (n : Nat) (x : FeX) : (d.setFe n x).hw = d.hw := rfl
@[simp] theorem Dev.setFe_fresh (d : Dev) (n : Nat) (x : FeX) : (d.setFe n x).fresh = d.fresh := rfl
@[simp] theorem Dev.setFe_regs (d : Dev) (n : Nat) (x : FeX) : (d.setFe n x).regs = d.regs := rfl
@[simp] theorem Dev.setFe_mem (d : Dev) (n : Nat) (x : FeX) : (d.setFe n x).mem = d.mem := rfl
@[simp] theorem Dev.setFe_ecc (d : Dev) (n : Nat) (x : FeX) : (d.setFe n x).ecc = d.ecc := rfl
@[simp] theorem Dev.setFe_vat (d : Dev) (n : Nat) (x : FeX) : (d.setFe n x).vat = d.vat := rfl
@[simp] theorem Dev.setFe_ch (d : Dev) (n : Nat) (x : FeX) : (d.setFe n x).ch = d.ch := rfl
@[simp] theorem Dev.setFe_syn (d : Dev) (n : Nat) (x : FeX) : (d.setFe n x).syn = d.syn := rfl
@[simp] theorem Dev.setFe_shadowGo (d : Dev) (n : Nat) (x : FeX) : (d.setFe n x).shadowGo = d.shadowGo := rfl
@[simp] theorem Dev.setFe_rgu (d : Dev) (n : Nat) (x : FeX) : (d.setFe n x).rgu = d.rgu := rfl
@[simp] theorem Dev.setFe_asn (d : Dev) (n : Nat) (x : FeX) : (d.setFe n x).asn = d.asn := rfl
@[simp] theorem Dev.setFe_spare (d : Dev) (n : Nat) (x : FeX) : (d.setFe n x).spare = d.spare := rfl
@[simp] theorem Dev.setFe_cal (d : Dev) (n : Nat) (x : FeX) : (d.setFe n x).cal = d.cal := rfl
@[simp] theorem Dev.setFe_grp (d : Dev) (n : Nat) (x : FeX) : (d.setFe n x).grp = d.grp := rfl
@[simp] theorem Dev.setFe_pcal (d : Dev) (n : Nat) (x : FeX) : (d.setFe n x).pcal = d.pcal := rfl
@[simp] theorem Dev.setFe_q (d : Dev) (n : Nat) (x : FeX) : (d.setFe n x).q = d.q := rfl
@[simp] theorem Dev.setFe_flights (d : Dev) (n : Nat) (x : FeX) : (d.setFe n x).flights = d.flights := rfl
@[simp] theorem Dev.setFe_txPend (d : Dev) (n : Nat) (x : FeX) : (d.setFe n x).txPend = d.txPend := rfl
@[simp] theorem Dev.setFe_ldg (d : Dev) (n : Nat) (x : FeX) : (d.setFe n x).ldg = d.ldg := rfl
@[simp] theorem Dev.setFe_cgen (d : Dev) (n : Nat) (x : FeX) : (d.setFe n x).cgen = d.cgen := rfl
@[simp] theorem Dev.setFe_loopLog (d : Dev) (n : Nat) (x : FeX) : (d.setFe n x).loopLog = d.loopLog := rfl
@[simp] theorem Dev.setFe_cw (d : Dev) (n : Nat) (x : FeX) : (d.setFe n x).cw = d.cw := rfl
@[simp] theorem Dev.setFe_duty (d : Dev) (n : Nat) (x : FeX) : (d.setFe n x).duty = d.duty := rfl
@[simp] theorem Dev.setFe_launched (d : Dev) (n : Nat) (x : FeX) : (d.setFe n x).launched = d.launched := rfl
@[simp] theorem Dev.setFe_calGone (d : Dev) (n : Nat) (x : FeX) : (d.setFe n x).calGone = d.calGone := rfl
@[simp] theorem Dev.setFe_calCut (d : Dev) (n : Nat) (x : FeX) : (d.setFe n x).calCut = d.calCut := rfl
@[simp] theorem Dev.setFe_stws (d : Dev) (n : Nat) (x : FeX) : (d.setFe n x).stws = d.stws := rfl
@[simp] theorem Dev.setFe_bound (d : Dev) (n : Nat) (x : FeX) : (d.setFe n x).bound = d.bound := rfl
@[simp] theorem Dev.setFe_opened (d : Dev) (n : Nat) (x : FeX) : (d.setFe n x).opened = d.opened := rfl
@[simp] theorem Dev.setFe_freeing (d : Dev) (n : Nat) (x : FeX) : (d.setFe n x).freeing = d.freeing := rfl
@[simp] theorem Dev.setFe_idle (d : Dev) (n : Nat) (x : FeX) : (d.setFe n x).idle = d.idle := rfl
@[simp] theorem Dev.setFe_busyAt (d : Dev) (n : Nat) (x : FeX) : (d.setFe n x).busyAt = d.busyAt := rfl
@[simp] theorem Dev.setFe_gated (d : Dev) (n : Nat) (x : FeX) : (d.setFe n x).gated = d.gated := rfl
@[simp] theorem Dev.setFe_assigned (d : Dev) (n : Nat) (x : FeX) : (d.setFe n x).assigned = d.assigned := rfl
@[simp] theorem Dev.setFe_wkr (d : Dev) (n : Nat) (x : FeX) : (d.setFe n x).wkr = d.wkr := rfl
@[simp] theorem Dev.setFe_log (d : Dev) (n : Nat) (x : FeX) : (d.setFe n x).log = d.log := rfl
@[simp] theorem Dev.setFe_pwr (d : Dev) (n : Nat) (x : FeX) : (d.setFe n x).pwr = d.pwr := rfl
@[simp] theorem Dev.setFe_rst (d : Dev) (n : Nat) (x : FeX) : (d.setFe n x).rst = d.rst := rfl
@[simp] theorem Dev.setFe_rgr (d : Dev) (n : Nat) (x : FeX) : (d.setFe n x).rgr = d.rgr := rfl
@[simp] theorem Dev.setFe_hlk (d : Dev) (n : Nat) (x : FeX) : (d.setFe n x).hlk = d.hlk := rfl
@[simp] theorem Dev.setFe_ring (d : Dev) (n : Nat) (x : FeX) : (d.setFe n x).ring = d.ring := rfl
@[simp] theorem Dev.setFe_pps (d : Dev) (n : Nat) (x : FeX) : (d.setFe n x).pps = d.pps := rfl
@[simp] theorem Dev.setFe_msh (d : Dev) (n : Nat) (x : FeX) : (d.setFe n x).msh = d.msh := rfl
@[simp] theorem Dev.setFe_spe (d : Dev) (n : Nat) (x : FeX) : (d.setFe n x).spe = d.spe := rfl

/-! ### The fields of the device after setGrp -/

@[simp] theorem Dev.setGrp_clk (d : Dev) (k : Nat) (x : GrpX) : (d.setGrp k x).clk = d.clk := rfl
@[simp] theorem Dev.setGrp_hw (d : Dev) (k : Nat) (x : GrpX) : (d.setGrp k x).hw = d.hw := rfl
@[simp] theorem Dev.setGrp_fresh (d : Dev) (k : Nat) (x : GrpX) : (d.setGrp k x).fresh = d.fresh := rfl
@[simp] theorem Dev.setGrp_regs (d : Dev) (k : Nat) (x : GrpX) : (d.setGrp k x).regs = d.regs := rfl
@[simp] theorem Dev.setGrp_mem (d : Dev) (k : Nat) (x : GrpX) : (d.setGrp k x).mem = d.mem := rfl
@[simp] theorem Dev.setGrp_ecc (d : Dev) (k : Nat) (x : GrpX) : (d.setGrp k x).ecc = d.ecc := rfl
@[simp] theorem Dev.setGrp_vat (d : Dev) (k : Nat) (x : GrpX) : (d.setGrp k x).vat = d.vat := rfl
@[simp] theorem Dev.setGrp_ch (d : Dev) (k : Nat) (x : GrpX) : (d.setGrp k x).ch = d.ch := rfl
@[simp] theorem Dev.setGrp_syn (d : Dev) (k : Nat) (x : GrpX) : (d.setGrp k x).syn = d.syn := rfl
@[simp] theorem Dev.setGrp_shadowGo (d : Dev) (k : Nat) (x : GrpX) : (d.setGrp k x).shadowGo = d.shadowGo := rfl
@[simp] theorem Dev.setGrp_fe (d : Dev) (k : Nat) (x : GrpX) : (d.setGrp k x).fe = d.fe := rfl
@[simp] theorem Dev.setGrp_rgu (d : Dev) (k : Nat) (x : GrpX) : (d.setGrp k x).rgu = d.rgu := rfl
@[simp] theorem Dev.setGrp_asn (d : Dev) (k : Nat) (x : GrpX) : (d.setGrp k x).asn = d.asn := rfl
@[simp] theorem Dev.setGrp_spare (d : Dev) (k : Nat) (x : GrpX) : (d.setGrp k x).spare = d.spare := rfl
@[simp] theorem Dev.setGrp_cal (d : Dev) (k : Nat) (x : GrpX) : (d.setGrp k x).cal = d.cal := rfl
@[simp] theorem Dev.setGrp_pcal (d : Dev) (k : Nat) (x : GrpX) : (d.setGrp k x).pcal = d.pcal := rfl
@[simp] theorem Dev.setGrp_q (d : Dev) (k : Nat) (x : GrpX) : (d.setGrp k x).q = d.q := rfl
@[simp] theorem Dev.setGrp_flights (d : Dev) (k : Nat) (x : GrpX) : (d.setGrp k x).flights = d.flights := rfl
@[simp] theorem Dev.setGrp_txPend (d : Dev) (k : Nat) (x : GrpX) : (d.setGrp k x).txPend = d.txPend := rfl
@[simp] theorem Dev.setGrp_ldg (d : Dev) (k : Nat) (x : GrpX) : (d.setGrp k x).ldg = d.ldg := rfl
@[simp] theorem Dev.setGrp_cgen (d : Dev) (k : Nat) (x : GrpX) : (d.setGrp k x).cgen = d.cgen := rfl
@[simp] theorem Dev.setGrp_loopLog (d : Dev) (k : Nat) (x : GrpX) : (d.setGrp k x).loopLog = d.loopLog := rfl
@[simp] theorem Dev.setGrp_cw (d : Dev) (k : Nat) (x : GrpX) : (d.setGrp k x).cw = d.cw := rfl
@[simp] theorem Dev.setGrp_duty (d : Dev) (k : Nat) (x : GrpX) : (d.setGrp k x).duty = d.duty := rfl
@[simp] theorem Dev.setGrp_launched (d : Dev) (k : Nat) (x : GrpX) : (d.setGrp k x).launched = d.launched := rfl
@[simp] theorem Dev.setGrp_calGone (d : Dev) (k : Nat) (x : GrpX) : (d.setGrp k x).calGone = d.calGone := rfl
@[simp] theorem Dev.setGrp_calCut (d : Dev) (k : Nat) (x : GrpX) : (d.setGrp k x).calCut = d.calCut := rfl
@[simp] theorem Dev.setGrp_stws (d : Dev) (k : Nat) (x : GrpX) : (d.setGrp k x).stws = d.stws := rfl
@[simp] theorem Dev.setGrp_bound (d : Dev) (k : Nat) (x : GrpX) : (d.setGrp k x).bound = d.bound := rfl
@[simp] theorem Dev.setGrp_opened (d : Dev) (k : Nat) (x : GrpX) : (d.setGrp k x).opened = d.opened := rfl
@[simp] theorem Dev.setGrp_freeing (d : Dev) (k : Nat) (x : GrpX) : (d.setGrp k x).freeing = d.freeing := rfl
@[simp] theorem Dev.setGrp_idle (d : Dev) (k : Nat) (x : GrpX) : (d.setGrp k x).idle = d.idle := rfl
@[simp] theorem Dev.setGrp_busyAt (d : Dev) (k : Nat) (x : GrpX) : (d.setGrp k x).busyAt = d.busyAt := rfl
@[simp] theorem Dev.setGrp_gated (d : Dev) (k : Nat) (x : GrpX) : (d.setGrp k x).gated = d.gated := rfl
@[simp] theorem Dev.setGrp_assigned (d : Dev) (k : Nat) (x : GrpX) : (d.setGrp k x).assigned = d.assigned := rfl
@[simp] theorem Dev.setGrp_wkr (d : Dev) (k : Nat) (x : GrpX) : (d.setGrp k x).wkr = d.wkr := rfl
@[simp] theorem Dev.setGrp_log (d : Dev) (k : Nat) (x : GrpX) : (d.setGrp k x).log = d.log := rfl
@[simp] theorem Dev.setGrp_pwr (d : Dev) (k : Nat) (x : GrpX) : (d.setGrp k x).pwr = d.pwr := rfl
@[simp] theorem Dev.setGrp_rst (d : Dev) (k : Nat) (x : GrpX) : (d.setGrp k x).rst = d.rst := rfl
@[simp] theorem Dev.setGrp_rgr (d : Dev) (k : Nat) (x : GrpX) : (d.setGrp k x).rgr = d.rgr := rfl
@[simp] theorem Dev.setGrp_hlk (d : Dev) (k : Nat) (x : GrpX) : (d.setGrp k x).hlk = d.hlk := rfl
@[simp] theorem Dev.setGrp_ring (d : Dev) (k : Nat) (x : GrpX) : (d.setGrp k x).ring = d.ring := rfl
@[simp] theorem Dev.setGrp_pps (d : Dev) (k : Nat) (x : GrpX) : (d.setGrp k x).pps = d.pps := rfl
@[simp] theorem Dev.setGrp_msh (d : Dev) (k : Nat) (x : GrpX) : (d.setGrp k x).msh = d.msh := rfl
@[simp] theorem Dev.setGrp_spe (d : Dev) (k : Nat) (x : GrpX) : (d.setGrp k x).spe = d.spe := rfl

/-! ### The fields of the device after setQ -/

@[simp] theorem Dev.setQ_clk (d : Dev) (k : Nat) (x : QX) : (d.setQ k x).clk = d.clk := rfl
@[simp] theorem Dev.setQ_hw (d : Dev) (k : Nat) (x : QX) : (d.setQ k x).hw = d.hw := rfl
@[simp] theorem Dev.setQ_fresh (d : Dev) (k : Nat) (x : QX) : (d.setQ k x).fresh = d.fresh := rfl
@[simp] theorem Dev.setQ_regs (d : Dev) (k : Nat) (x : QX) : (d.setQ k x).regs = d.regs := rfl
@[simp] theorem Dev.setQ_mem (d : Dev) (k : Nat) (x : QX) : (d.setQ k x).mem = d.mem := rfl
@[simp] theorem Dev.setQ_ecc (d : Dev) (k : Nat) (x : QX) : (d.setQ k x).ecc = d.ecc := rfl
@[simp] theorem Dev.setQ_vat (d : Dev) (k : Nat) (x : QX) : (d.setQ k x).vat = d.vat := rfl
@[simp] theorem Dev.setQ_ch (d : Dev) (k : Nat) (x : QX) : (d.setQ k x).ch = d.ch := rfl
@[simp] theorem Dev.setQ_syn (d : Dev) (k : Nat) (x : QX) : (d.setQ k x).syn = d.syn := rfl
@[simp] theorem Dev.setQ_shadowGo (d : Dev) (k : Nat) (x : QX) : (d.setQ k x).shadowGo = d.shadowGo := rfl
@[simp] theorem Dev.setQ_fe (d : Dev) (k : Nat) (x : QX) : (d.setQ k x).fe = d.fe := rfl
@[simp] theorem Dev.setQ_rgu (d : Dev) (k : Nat) (x : QX) : (d.setQ k x).rgu = d.rgu := rfl
@[simp] theorem Dev.setQ_asn (d : Dev) (k : Nat) (x : QX) : (d.setQ k x).asn = d.asn := rfl
@[simp] theorem Dev.setQ_spare (d : Dev) (k : Nat) (x : QX) : (d.setQ k x).spare = d.spare := rfl
@[simp] theorem Dev.setQ_cal (d : Dev) (k : Nat) (x : QX) : (d.setQ k x).cal = d.cal := rfl
@[simp] theorem Dev.setQ_grp (d : Dev) (k : Nat) (x : QX) : (d.setQ k x).grp = d.grp := rfl
@[simp] theorem Dev.setQ_pcal (d : Dev) (k : Nat) (x : QX) : (d.setQ k x).pcal = d.pcal := rfl
@[simp] theorem Dev.setQ_flights (d : Dev) (k : Nat) (x : QX) : (d.setQ k x).flights = d.flights := rfl
@[simp] theorem Dev.setQ_txPend (d : Dev) (k : Nat) (x : QX) : (d.setQ k x).txPend = d.txPend := rfl
@[simp] theorem Dev.setQ_ldg (d : Dev) (k : Nat) (x : QX) : (d.setQ k x).ldg = d.ldg := rfl
@[simp] theorem Dev.setQ_cgen (d : Dev) (k : Nat) (x : QX) : (d.setQ k x).cgen = d.cgen := rfl
@[simp] theorem Dev.setQ_loopLog (d : Dev) (k : Nat) (x : QX) : (d.setQ k x).loopLog = d.loopLog := rfl
@[simp] theorem Dev.setQ_cw (d : Dev) (k : Nat) (x : QX) : (d.setQ k x).cw = d.cw := rfl
@[simp] theorem Dev.setQ_duty (d : Dev) (k : Nat) (x : QX) : (d.setQ k x).duty = d.duty := rfl
@[simp] theorem Dev.setQ_launched (d : Dev) (k : Nat) (x : QX) : (d.setQ k x).launched = d.launched := rfl
@[simp] theorem Dev.setQ_calGone (d : Dev) (k : Nat) (x : QX) : (d.setQ k x).calGone = d.calGone := rfl
@[simp] theorem Dev.setQ_calCut (d : Dev) (k : Nat) (x : QX) : (d.setQ k x).calCut = d.calCut := rfl
@[simp] theorem Dev.setQ_stws (d : Dev) (k : Nat) (x : QX) : (d.setQ k x).stws = d.stws := rfl
@[simp] theorem Dev.setQ_bound (d : Dev) (k : Nat) (x : QX) : (d.setQ k x).bound = d.bound := rfl
@[simp] theorem Dev.setQ_opened (d : Dev) (k : Nat) (x : QX) : (d.setQ k x).opened = d.opened := rfl
@[simp] theorem Dev.setQ_freeing (d : Dev) (k : Nat) (x : QX) : (d.setQ k x).freeing = d.freeing := rfl
@[simp] theorem Dev.setQ_idle (d : Dev) (k : Nat) (x : QX) : (d.setQ k x).idle = d.idle := rfl
@[simp] theorem Dev.setQ_busyAt (d : Dev) (k : Nat) (x : QX) : (d.setQ k x).busyAt = d.busyAt := rfl
@[simp] theorem Dev.setQ_gated (d : Dev) (k : Nat) (x : QX) : (d.setQ k x).gated = d.gated := rfl
@[simp] theorem Dev.setQ_assigned (d : Dev) (k : Nat) (x : QX) : (d.setQ k x).assigned = d.assigned := rfl
@[simp] theorem Dev.setQ_wkr (d : Dev) (k : Nat) (x : QX) : (d.setQ k x).wkr = d.wkr := rfl
@[simp] theorem Dev.setQ_log (d : Dev) (k : Nat) (x : QX) : (d.setQ k x).log = d.log := rfl
@[simp] theorem Dev.setQ_pwr (d : Dev) (k : Nat) (x : QX) : (d.setQ k x).pwr = d.pwr := rfl
@[simp] theorem Dev.setQ_rst (d : Dev) (k : Nat) (x : QX) : (d.setQ k x).rst = d.rst := rfl
@[simp] theorem Dev.setQ_rgr (d : Dev) (k : Nat) (x : QX) : (d.setQ k x).rgr = d.rgr := rfl
@[simp] theorem Dev.setQ_hlk (d : Dev) (k : Nat) (x : QX) : (d.setQ k x).hlk = d.hlk := rfl
@[simp] theorem Dev.setQ_ring (d : Dev) (k : Nat) (x : QX) : (d.setQ k x).ring = d.ring := rfl
@[simp] theorem Dev.setQ_pps (d : Dev) (k : Nat) (x : QX) : (d.setQ k x).pps = d.pps := rfl
@[simp] theorem Dev.setQ_msh (d : Dev) (k : Nat) (x : QX) : (d.setQ k x).msh = d.msh := rfl
@[simp] theorem Dev.setQ_spe (d : Dev) (k : Nat) (x : QX) : (d.setQ k x).spe = d.spe := rfl

/-! ### The fields of the device after time has moved on -/

@[simp] theorem Dev.toClk_clk (d : Dev) (c : Nat) : (d.toClk c).clk = max d.clk c := by
  unfold Dev.toClk; split
  · show c = max d.clk c; omega
  · omega
@[simp] theorem Dev.toClk_fresh (d : Dev) (c : Nat) : (d.toClk c).fresh = d.fresh := by
  unfold Dev.toClk; split <;> rfl
@[simp] theorem Dev.toClk_regs (d : Dev) (c : Nat) : (d.toClk c).regs = d.regs := by
  unfold Dev.toClk; split <;> rfl
@[simp] theorem Dev.toClk_mem (d : Dev) (c : Nat) : (d.toClk c).mem = d.mem := by
  unfold Dev.toClk; split <;> rfl
@[simp] theorem Dev.toClk_ecc (d : Dev) (c : Nat) : (d.toClk c).ecc = d.ecc := by
  unfold Dev.toClk; split <;> rfl
@[simp] theorem Dev.toClk_vat (d : Dev) (c : Nat) : (d.toClk c).vat = d.vat := by
  unfold Dev.toClk; split <;> rfl
@[simp] theorem Dev.toClk_ch (d : Dev) (c : Nat) : (d.toClk c).ch = d.ch := by
  unfold Dev.toClk; split <;> rfl
@[simp] theorem Dev.toClk_syn (d : Dev) (c : Nat) : (d.toClk c).syn = d.syn := by
  unfold Dev.toClk; split <;> rfl
@[simp] theorem Dev.toClk_shadowGo (d : Dev) (c : Nat) : (d.toClk c).shadowGo = d.shadowGo := by
  unfold Dev.toClk; split <;> rfl
@[simp] theorem Dev.toClk_fe (d : Dev) (c : Nat) : (d.toClk c).fe = d.fe := by
  unfold Dev.toClk; split <;> rfl
@[simp] theorem Dev.toClk_rgu (d : Dev) (c : Nat) : (d.toClk c).rgu = d.rgu := by
  unfold Dev.toClk; split <;> rfl
@[simp] theorem Dev.toClk_asn (d : Dev) (c : Nat) : (d.toClk c).asn = d.asn := by
  unfold Dev.toClk; split <;> rfl
@[simp] theorem Dev.toClk_spare (d : Dev) (c : Nat) : (d.toClk c).spare = d.spare := by
  unfold Dev.toClk; split <;> rfl
@[simp] theorem Dev.toClk_cal (d : Dev) (c : Nat) : (d.toClk c).cal = d.cal := by
  unfold Dev.toClk; split <;> rfl
@[simp] theorem Dev.toClk_grp (d : Dev) (c : Nat) : (d.toClk c).grp = d.grp := by
  unfold Dev.toClk; split <;> rfl
@[simp] theorem Dev.toClk_pcal (d : Dev) (c : Nat) : (d.toClk c).pcal = d.pcal := by
  unfold Dev.toClk; split <;> rfl
@[simp] theorem Dev.toClk_q (d : Dev) (c : Nat) : (d.toClk c).q = d.q := by
  unfold Dev.toClk; split <;> rfl
@[simp] theorem Dev.toClk_flights (d : Dev) (c : Nat) : (d.toClk c).flights = d.flights := by
  unfold Dev.toClk; split <;> rfl
@[simp] theorem Dev.toClk_txPend (d : Dev) (c : Nat) : (d.toClk c).txPend = d.txPend := by
  unfold Dev.toClk; split <;> rfl
@[simp] theorem Dev.toClk_ldg (d : Dev) (c : Nat) : (d.toClk c).ldg = d.ldg := by
  unfold Dev.toClk; split <;> rfl
@[simp] theorem Dev.toClk_cgen (d : Dev) (c : Nat) : (d.toClk c).cgen = d.cgen := by
  unfold Dev.toClk; split <;> rfl
@[simp] theorem Dev.toClk_loopLog (d : Dev) (c : Nat) : (d.toClk c).loopLog = d.loopLog := by
  unfold Dev.toClk; split <;> rfl
@[simp] theorem Dev.toClk_cw (d : Dev) (c : Nat) : (d.toClk c).cw = d.cw := by
  unfold Dev.toClk; split <;> rfl
@[simp] theorem Dev.toClk_duty (d : Dev) (c : Nat) : (d.toClk c).duty = d.duty := by
  unfold Dev.toClk; split <;> rfl
@[simp] theorem Dev.toClk_launched (d : Dev) (c : Nat) : (d.toClk c).launched = d.launched := by
  unfold Dev.toClk; split <;> rfl
@[simp] theorem Dev.toClk_calGone (d : Dev) (c : Nat) : (d.toClk c).calGone = d.calGone := by
  unfold Dev.toClk; split <;> rfl
@[simp] theorem Dev.toClk_calCut (d : Dev) (c : Nat) : (d.toClk c).calCut = d.calCut := by
  unfold Dev.toClk; split <;> rfl
@[simp] theorem Dev.toClk_stws (d : Dev) (c : Nat) : (d.toClk c).stws = d.stws := by
  unfold Dev.toClk; split <;> rfl
@[simp] theorem Dev.toClk_bound (d : Dev) (c : Nat) : (d.toClk c).bound = d.bound := by
  unfold Dev.toClk; split <;> rfl
@[simp] theorem Dev.toClk_opened (d : Dev) (c : Nat) : (d.toClk c).opened = d.opened := by
  unfold Dev.toClk; split <;> rfl
@[simp] theorem Dev.toClk_freeing (d : Dev) (c : Nat) : (d.toClk c).freeing = d.freeing := by
  unfold Dev.toClk; split <;> rfl
@[simp] theorem Dev.toClk_idle (d : Dev) (c : Nat) : (d.toClk c).idle = d.idle := by
  unfold Dev.toClk; split <;> rfl
@[simp] theorem Dev.toClk_busyAt (d : Dev) (c : Nat) : (d.toClk c).busyAt = d.busyAt := by
  unfold Dev.toClk; split <;> rfl
@[simp] theorem Dev.toClk_gated (d : Dev) (c : Nat) : (d.toClk c).gated = d.gated := by
  unfold Dev.toClk; split <;> rfl
@[simp] theorem Dev.toClk_assigned (d : Dev) (c : Nat) : (d.toClk c).assigned = d.assigned := by
  unfold Dev.toClk; split <;> rfl
@[simp] theorem Dev.toClk_wkr (d : Dev) (c : Nat) : (d.toClk c).wkr = d.wkr := by
  unfold Dev.toClk; split <;> rfl
@[simp] theorem Dev.toClk_log (d : Dev) (c : Nat) : (d.toClk c).log = d.log := by
  unfold Dev.toClk; split <;> rfl
@[simp] theorem Dev.toClk_pwr (d : Dev) (c : Nat) : (d.toClk c).pwr = d.pwr := by
  unfold Dev.toClk; split <;> rfl
@[simp] theorem Dev.toClk_rst (d : Dev) (c : Nat) : (d.toClk c).rst = d.rst := by
  unfold Dev.toClk; split <;> rfl
@[simp] theorem Dev.toClk_rgr (d : Dev) (c : Nat) : (d.toClk c).rgr = d.rgr := by
  unfold Dev.toClk; split <;> rfl
@[simp] theorem Dev.toClk_hlk (d : Dev) (c : Nat) : (d.toClk c).hlk = d.hlk := by
  unfold Dev.toClk; split <;> rfl
@[simp] theorem Dev.toClk_ring (d : Dev) (c : Nat) : (d.toClk c).ring = d.ring := by
  unfold Dev.toClk; split <;> rfl
@[simp] theorem Dev.toClk_pps (d : Dev) (c : Nat) : (d.toClk c).pps = d.pps := by
  unfold Dev.toClk; split <;> rfl
@[simp] theorem Dev.toClk_msh (d : Dev) (c : Nat) : (d.toClk c).msh = d.msh := by
  unfold Dev.toClk; split <;> rfl
@[simp] theorem Dev.toClk_spe (d : Dev) (c : Nat) : (d.toClk c).spe = d.spe := by
  unfold Dev.toClk; split <;> rfl
@[simp] theorem Dev.toTick_eq (d : Dev) (t : Nat) : d.toTick t = d.toClk (2 * t) := rfl

/-! ### Reads after updates -/

@[simp] theorem Dev.setByte_get (d : Dev) (a : Nat) (b : Byte) (f' : Fld) (i' j' : Nat) :
    (d.setByte a b).get f' i' j' = d.get f' i' j' := rfl
@[simp] theorem Dev.setVat_get (d : Dev) (v : Nat) (x : VatX) (f' : Fld) (i' j' : Nat) :
    (d.setVat v x).get f' i' j' = d.get f' i' j' := rfl
@[simp] theorem Dev.setCh_get (d : Dev) (c : Nat) (x : ChX) (f' : Fld) (i' j' : Nat) :
    (d.setCh c x).get f' i' j' = d.get f' i' j' := rfl
@[simp] theorem Dev.setSyn_get (d : Dev) (m : Nat) (x : SynX) (f' : Fld) (i' j' : Nat) :
    (d.setSyn m x).get f' i' j' = d.get f' i' j' := rfl
@[simp] theorem Dev.setFe_get (d : Dev) (n : Nat) (x : FeX) (f' : Fld) (i' j' : Nat) :
    (d.setFe n x).get f' i' j' = d.get f' i' j' := rfl
@[simp] theorem Dev.setGrp_get (d : Dev) (k : Nat) (x : GrpX) (f' : Fld) (i' j' : Nat) :
    (d.setGrp k x).get f' i' j' = d.get f' i' j' := rfl
@[simp] theorem Dev.setQ_get (d : Dev) (k : Nat) (x : QX) (f' : Fld) (i' j' : Nat) :
    (d.setQ k x).get f' i' j' = d.get f' i' j' := rfl
@[simp] theorem Dev.toClk_get (d : Dev) (c : Nat) (f' : Fld) (i' j' : Nat) :
    (d.toClk c).get f' i' j' = d.get f' i' j' := by
  simp [Dev.get]
@[simp] theorem Dev.put_byte (d : Dev) (f : Fld) (v i j : Nat) (a' : Nat) :
    (d.put f v i j).byte a' = d.byte a' := rfl
@[simp] theorem Dev.setVat_byte (d : Dev) (v : Nat) (x : VatX) (a' : Nat) :
    (d.setVat v x).byte a' = d.byte a' := rfl
@[simp] theorem Dev.setCh_byte (d : Dev) (c : Nat) (x : ChX) (a' : Nat) :
    (d.setCh c x).byte a' = d.byte a' := rfl
@[simp] theorem Dev.setSyn_byte (d : Dev) (m : Nat) (x : SynX) (a' : Nat) :
    (d.setSyn m x).byte a' = d.byte a' := rfl
@[simp] theorem Dev.setFe_byte (d : Dev) (n : Nat) (x : FeX) (a' : Nat) :
    (d.setFe n x).byte a' = d.byte a' := rfl
@[simp] theorem Dev.setGrp_byte (d : Dev) (k : Nat) (x : GrpX) (a' : Nat) :
    (d.setGrp k x).byte a' = d.byte a' := rfl
@[simp] theorem Dev.setQ_byte (d : Dev) (k : Nat) (x : QX) (a' : Nat) :
    (d.setQ k x).byte a' = d.byte a' := rfl
@[simp] theorem Dev.toClk_byte (d : Dev) (c : Nat) (a' : Nat) :
    (d.toClk c).byte a' = d.byte a' := by
  simp [Dev.byte]
@[simp] theorem Dev.put_vatx (d : Dev) (f : Fld) (v i j : Nat) (v' : Nat) :
    (d.put f v i j).vatx v' = d.vatx v' := rfl
@[simp] theorem Dev.setByte_vatx (d : Dev) (a : Nat) (b : Byte) (v' : Nat) :
    (d.setByte a b).vatx v' = d.vatx v' := rfl
@[simp] theorem Dev.setCh_vatx (d : Dev) (c : Nat) (x : ChX) (v' : Nat) :
    (d.setCh c x).vatx v' = d.vatx v' := rfl
@[simp] theorem Dev.setSyn_vatx (d : Dev) (m : Nat) (x : SynX) (v' : Nat) :
    (d.setSyn m x).vatx v' = d.vatx v' := rfl
@[simp] theorem Dev.setFe_vatx (d : Dev) (n : Nat) (x : FeX) (v' : Nat) :
    (d.setFe n x).vatx v' = d.vatx v' := rfl
@[simp] theorem Dev.setGrp_vatx (d : Dev) (k : Nat) (x : GrpX) (v' : Nat) :
    (d.setGrp k x).vatx v' = d.vatx v' := rfl
@[simp] theorem Dev.setQ_vatx (d : Dev) (k : Nat) (x : QX) (v' : Nat) :
    (d.setQ k x).vatx v' = d.vatx v' := rfl
@[simp] theorem Dev.toClk_vatx (d : Dev) (c : Nat) (v' : Nat) :
    (d.toClk c).vatx v' = d.vatx v' := by
  simp [Dev.vatx]
@[simp] theorem Dev.put_chx (d : Dev) (f : Fld) (v i j : Nat) (c' : Nat) :
    (d.put f v i j).chx c' = d.chx c' := rfl
@[simp] theorem Dev.setByte_chx (d : Dev) (a : Nat) (b : Byte) (c' : Nat) :
    (d.setByte a b).chx c' = d.chx c' := rfl
@[simp] theorem Dev.setVat_chx (d : Dev) (v : Nat) (x : VatX) (c' : Nat) :
    (d.setVat v x).chx c' = d.chx c' := rfl
@[simp] theorem Dev.setSyn_chx (d : Dev) (m : Nat) (x : SynX) (c' : Nat) :
    (d.setSyn m x).chx c' = d.chx c' := rfl
@[simp] theorem Dev.setFe_chx (d : Dev) (n : Nat) (x : FeX) (c' : Nat) :
    (d.setFe n x).chx c' = d.chx c' := rfl
@[simp] theorem Dev.setGrp_chx (d : Dev) (k : Nat) (x : GrpX) (c' : Nat) :
    (d.setGrp k x).chx c' = d.chx c' := rfl
@[simp] theorem Dev.setQ_chx (d : Dev) (k : Nat) (x : QX) (c' : Nat) :
    (d.setQ k x).chx c' = d.chx c' := rfl
@[simp] theorem Dev.toClk_chx (d : Dev) (c : Nat) (c' : Nat) :
    (d.toClk c).chx c' = d.chx c' := by
  simp [Dev.chx]
@[simp] theorem Dev.put_synx (d : Dev) (f : Fld) (v i j : Nat) (m' : Nat) :
    (d.put f v i j).synx m' = d.synx m' := rfl
@[simp] theorem Dev.setByte_synx (d : Dev) (a : Nat) (b : Byte) (m' : Nat) :
    (d.setByte a b).synx m' = d.synx m' := rfl
@[simp] theorem Dev.setVat_synx (d : Dev) (v : Nat) (x : VatX) (m' : Nat) :
    (d.setVat v x).synx m' = d.synx m' := rfl
@[simp] theorem Dev.setCh_synx (d : Dev) (c : Nat) (x : ChX) (m' : Nat) :
    (d.setCh c x).synx m' = d.synx m' := rfl
@[simp] theorem Dev.setFe_synx (d : Dev) (n : Nat) (x : FeX) (m' : Nat) :
    (d.setFe n x).synx m' = d.synx m' := rfl
@[simp] theorem Dev.setGrp_synx (d : Dev) (k : Nat) (x : GrpX) (m' : Nat) :
    (d.setGrp k x).synx m' = d.synx m' := rfl
@[simp] theorem Dev.setQ_synx (d : Dev) (k : Nat) (x : QX) (m' : Nat) :
    (d.setQ k x).synx m' = d.synx m' := rfl
@[simp] theorem Dev.toClk_synx (d : Dev) (c : Nat) (m' : Nat) :
    (d.toClk c).synx m' = d.synx m' := by
  simp [Dev.synx]
@[simp] theorem Dev.put_fex (d : Dev) (f : Fld) (v i j : Nat) (n' : Nat) :
    (d.put f v i j).fex n' = d.fex n' := rfl
@[simp] theorem Dev.setByte_fex (d : Dev) (a : Nat) (b : Byte) (n' : Nat) :
    (d.setByte a b).fex n' = d.fex n' := rfl
@[simp] theorem Dev.setVat_fex (d : Dev) (v : Nat) (x : VatX) (n' : Nat) :
    (d.setVat v x).fex n' = d.fex n' := rfl
@[simp] theorem Dev.setCh_fex (d : Dev) (c : Nat) (x : ChX) (n' : Nat) :
    (d.setCh c x).fex n' = d.fex n' := rfl
@[simp] theorem Dev.setSyn_fex (d : Dev) (m : Nat) (x : SynX) (n' : Nat) :
    (d.setSyn m x).fex n' = d.fex n' := rfl
@[simp] theorem Dev.setGrp_fex (d : Dev) (k : Nat) (x : GrpX) (n' : Nat) :
    (d.setGrp k x).fex n' = d.fex n' := rfl
@[simp] theorem Dev.setQ_fex (d : Dev) (k : Nat) (x : QX) (n' : Nat) :
    (d.setQ k x).fex n' = d.fex n' := rfl
@[simp] theorem Dev.toClk_fex (d : Dev) (c : Nat) (n' : Nat) :
    (d.toClk c).fex n' = d.fex n' := by
  simp [Dev.fex]
@[simp] theorem Dev.put_grpx (d : Dev) (f : Fld) (v i j : Nat) (k' : Nat) :
    (d.put f v i j).grpx k' = d.grpx k' := rfl
@[simp] theorem Dev.setByte_grpx (d : Dev) (a : Nat) (b : Byte) (k' : Nat) :
    (d.setByte a b).grpx k' = d.grpx k' := rfl
@[simp] theorem Dev.setVat_grpx (d : Dev) (v : Nat) (x : VatX) (k' : Nat) :
    (d.setVat v x).grpx k' = d.grpx k' := rfl
@[simp] theorem Dev.setCh_grpx (d : Dev) (c : Nat) (x : ChX) (k' : Nat) :
    (d.setCh c x).grpx k' = d.grpx k' := rfl
@[simp] theorem Dev.setSyn_grpx (d : Dev) (m : Nat) (x : SynX) (k' : Nat) :
    (d.setSyn m x).grpx k' = d.grpx k' := rfl
@[simp] theorem Dev.setFe_grpx (d : Dev) (n : Nat) (x : FeX) (k' : Nat) :
    (d.setFe n x).grpx k' = d.grpx k' := rfl
@[simp] theorem Dev.setQ_grpx (d : Dev) (k : Nat) (x : QX) (k' : Nat) :
    (d.setQ k x).grpx k' = d.grpx k' := rfl
@[simp] theorem Dev.toClk_grpx (d : Dev) (c : Nat) (k' : Nat) :
    (d.toClk c).grpx k' = d.grpx k' := by
  simp [Dev.grpx]
@[simp] theorem Dev.put_qx (d : Dev) (f : Fld) (v i j : Nat) (k' : Nat) :
    (d.put f v i j).qx k' = d.qx k' := rfl
@[simp] theorem Dev.setByte_qx (d : Dev) (a : Nat) (b : Byte) (k' : Nat) :
    (d.setByte a b).qx k' = d.qx k' := rfl
@[simp] theorem Dev.setVat_qx (d : Dev) (v : Nat) (x : VatX) (k' : Nat) :
    (d.setVat v x).qx k' = d.qx k' := rfl
@[simp] theorem Dev.setCh_qx (d : Dev) (c : Nat) (x : ChX) (k' : Nat) :
    (d.setCh c x).qx k' = d.qx k' := rfl
@[simp] theorem Dev.setSyn_qx (d : Dev) (m : Nat) (x : SynX) (k' : Nat) :
    (d.setSyn m x).qx k' = d.qx k' := rfl
@[simp] theorem Dev.setFe_qx (d : Dev) (n : Nat) (x : FeX) (k' : Nat) :
    (d.setFe n x).qx k' = d.qx k' := rfl
@[simp] theorem Dev.setGrp_qx (d : Dev) (k : Nat) (x : GrpX) (k' : Nat) :
    (d.setGrp k x).qx k' = d.qx k' := rfl
@[simp] theorem Dev.toClk_qx (d : Dev) (c : Nat) (k' : Nat) :
    (d.toClk c).qx k' = d.qx k' := by
  simp [Dev.qx]
@[simp] theorem Dev.put_eccOf (d : Dev) (f : Fld) (v i j : Nat) (w' : Nat) :
    (d.put f v i j).eccOf w' = d.eccOf w' := rfl
@[simp] theorem Dev.setByte_eccOf (d : Dev) (a : Nat) (b : Byte) (w' : Nat) :
    (d.setByte a b).eccOf w' = d.eccOf w' := rfl
@[simp] theorem Dev.setVat_eccOf (d : Dev) (v : Nat) (x : VatX) (w' : Nat) :
    (d.setVat v x).eccOf w' = d.eccOf w' := rfl
@[simp] theorem Dev.setCh_eccOf (d : Dev) (c : Nat) (x : ChX) (w' : Nat) :
    (d.setCh c x).eccOf w' = d.eccOf w' := rfl
@[simp] theorem Dev.setSyn_eccOf (d : Dev) (m : Nat) (x : SynX) (w' : Nat) :
    (d.setSyn m x).eccOf w' = d.eccOf w' := rfl
@[simp] theorem Dev.setFe_eccOf (d : Dev) (n : Nat) (x : FeX) (w' : Nat) :
    (d.setFe n x).eccOf w' = d.eccOf w' := rfl
@[simp] theorem Dev.setGrp_eccOf (d : Dev) (k : Nat) (x : GrpX) (w' : Nat) :
    (d.setGrp k x).eccOf w' = d.eccOf w' := rfl
@[simp] theorem Dev.setQ_eccOf (d : Dev) (k : Nat) (x : QX) (w' : Nat) :
    (d.setQ k x).eccOf w' = d.eccOf w' := rfl
@[simp] theorem Dev.toClk_eccOf (d : Dev) (c : Nat) (w' : Nat) :
    (d.toClk c).eccOf w' = d.eccOf w' := by
  simp [Dev.eccOf]

/-- A register field just written holds the value, cut to the field. -/
@[simp] theorem Dev.get_put_same (d : Dev) (f : Fld) (v i j : Nat) : (d.put f v i j).get f i j = v % 2 ^ f.width := by
  simp [Dev.get, Dev.put]

/-- A write of a register field, read back at any field. -/
theorem Dev.get_put (d : Dev) (f : Fld) (v i j : Nat) (f' : Fld) (i' j' : Nat) :
    (d.put f v i j).get f' i' j' = if (⟨f', i', j'⟩ : RKey) = ⟨f, i, j⟩ then v % 2 ^ f.width else d.get f' i' j' := by
  simp only [Dev.get, Dev.put, fget_fset]

/-- Another field keeps its value. -/
theorem Dev.get_put_ne (d : Dev) (f : Fld) (v i j : Nat) (f' : Fld) (i' j' : Nat) (h : f' ≠ f) :
    (d.put f v i j).get f' i' j' = d.get f' i' j' := by
  rw [Dev.get_put, if_neg]; intro e; exact h (RKey.mk.inj e).1

/-- The same field of another unit keeps its value. -/
theorem Dev.get_put_unit (d : Dev) (f : Fld) (v i j i' j' : Nat) (h : i' ≠ i) :
    (d.put f v i j).get f i' j' = d.get f i' j' := by
  rw [Dev.get_put, if_neg]; intro e; exact h (RKey.mk.inj e).2.1

/-- The same field of the unit at another index keeps its value. -/
theorem Dev.get_put_index (d : Dev) (f : Fld) (v i j i' j' : Nat) (h : j' ≠ j) :
    (d.put f v i j).get f i' j' = d.get f i' j' := by
  rw [Dev.get_put, if_neg]; intro e; exact h (RKey.mk.inj e).2.2

@[simp] theorem Dev.setVat_vatx_same (d : Dev) (v : Nat) (x : VatX) : (d.setVat v x).vatx v = x := by
  simp [Dev.setVat, Dev.vatx]
theorem Dev.setVat_vatx (d : Dev) (v v' : Nat) (x : VatX) : (d.setVat v x).vatx v' = if v' = v then x else d.vatx v' := by
  simp only [Dev.setVat, Dev.vatx, fget_fset]
@[simp] theorem Dev.setCh_chx_same (d : Dev) (c : Nat) (x : ChX) : (d.setCh c x).chx c = x := by
  simp [Dev.setCh, Dev.chx]
theorem Dev.setCh_chx (d : Dev) (c c' : Nat) (x : ChX) : (d.setCh c x).chx c' = if c' = c then x else d.chx c' := by
  simp only [Dev.setCh, Dev.chx, fget_fset]
@[simp] theorem Dev.setSyn_synx_same (d : Dev) (m : Nat) (x : SynX) : (d.setSyn m x).synx m = x := by
  simp [Dev.setSyn, Dev.synx]
theorem Dev.setSyn_synx (d : Dev) (m m' : Nat) (x : SynX) : (d.setSyn m x).synx m' = if m' = m then x else d.synx m' := by
  simp only [Dev.setSyn, Dev.synx, fget_fset]
@[simp] theorem Dev.setFe_fex_same (d : Dev) (n : Nat) (x : FeX) : (d.setFe n x).fex n = x := by
  simp [Dev.setFe, Dev.fex]
theorem Dev.setFe_fex (d : Dev) (n n' : Nat) (x : FeX) : (d.setFe n x).fex n' = if n' = n then x else d.fex n' := by
  simp only [Dev.setFe, Dev.fex, fget_fset]
@[simp] theorem Dev.setGrp_grpx_same (d : Dev) (k : Nat) (x : GrpX) : (d.setGrp k x).grpx k = x := by
  simp [Dev.setGrp, Dev.grpx]
theorem Dev.setGrp_grpx (d : Dev) (k k' : Nat) (x : GrpX) : (d.setGrp k x).grpx k' = if k' = k then x else d.grpx k' := by
  simp only [Dev.setGrp, Dev.grpx, fget_fset]
@[simp] theorem Dev.setQ_qx_same (d : Dev) (k : Nat) (x : QX) : (d.setQ k x).qx k = x := by
  simp [Dev.setQ, Dev.qx]
theorem Dev.setQ_qx (d : Dev) (k k' : Nat) (x : QX) : (d.setQ k x).qx k' = if k' = k then x else d.qx k' := by
  simp only [Dev.setQ, Dev.qx, fget_fset]

end Sys2Proof.Machine
end

