-- ==== Sys2Proof/Laws/Memory.lean ====
section
/-! SUPPORT. The laws of the memories: a read after a write, what a write leaves alone, and that every operation keeps the
canonical form. -/

namespace Sys2Proof.Machine

/-! ### The canonical form -/

/-- The Boolean test is the canonical form of the sparse maps. -/
theorem memWf_iff (m : List Host.Cell) : memWf m = true ↔ Canonical memDefault id m := by
  induction m with
  | nil => simp [memWf, Canonical]
  | cons x m ih =>
    obtain ⟨a, b⟩ := x
    cases m with
    | nil => simp [memWf, Canonical]
    | cons y m =>
      obtain ⟨a', b'⟩ := y
      simp only [memWf, Bool.and_eq_true, decide_eq_true_eq, ih, Canonical, List.pairwise_cons, List.mem_cons, id]
      constructor
      · rintro ⟨⟨hb, hlt⟩, hp, hd⟩
        refine ⟨⟨?_, hp⟩, ?_⟩
        · rintro z (rfl | hz)
          · exact hlt
          · exact Nat.lt_trans hlt (hp.1 z hz)
        · rintro z (rfl | hz)
          · simpa using hb
          · exact hd z hz
      · rintro ⟨⟨hp1, hp⟩, hd⟩
        refine ⟨⟨?_, hp1 (a', b') (Or.inl rfl)⟩, hp, fun z hz => hd z (Or.inr hz)⟩
        simpa using hd (a, b) (Or.inl rfl)

/-- Writing one byte keeps the canonical form. -/
theorem memWf_fset {m : List Host.Cell} (a : Nat) (b : Byte) (h : memWf m = true) :
    memWf (fset memDefault id m a b) = true := by
  rw [memWf_iff] at *; exact canonical_fset (fun _ _ e => e) a b h

/-- Dropping entries keeps the canonical form. -/
theorem memWf_filter {m : List Host.Cell} (p : Host.Cell → Bool) (h : memWf m = true) : memWf (m.filter p) = true := by
  rw [memWf_iff] at *
  exact ⟨h.1.filter p, fun x hx => h.2 x (List.mem_filter.1 hx).1⟩

theorem Dev.setByte_memWf {d : Dev} (a : Nat) (b : Byte) (h : memWf d.mem = true) : memWf (d.setByte a b).mem = true :=
  memWf_fset a b h

theorem Dev.setWord_memWf {d : Dev} (a v : Nat) (h : memWf d.mem = true) : memWf (d.setWord a v).mem = true :=
  Dev.setByte_memWf _ _ (Dev.setByte_memWf _ _ (Dev.setByte_memWf _ _ (Dev.setByte_memWf _ _ h)))

theorem Dev.setWords_memWf (ws : List Nat) {d : Dev} (a : Nat) (h : memWf d.mem = true) :
    memWf (d.setWords a ws).mem = true := by
  induction ws generalizing d a with
  | nil => exact h
  | cons w ws ih => exact ih _ (Dev.setWord_memWf a w h)

theorem Dev.setBytes_memWf (bs : List Byte) {d : Dev} (a : Nat) (h : memWf d.mem = true) :
    memWf (d.setBytes a bs).mem = true := by
  induction bs generalizing d a with
  | nil => exact h
  | cons b bs ih => exact ih _ (Dev.setByte_memWf a b h)

theorem Nv.setByte_memWf {n : Nv} (a : Nat) (b : Byte) (h : memWf n.mram = true) : memWf (n.setByte a b).mram = true :=
  memWf_fset a b h

theorem Nv.setWord_memWf {n : Nv} (a v : Nat) (h : memWf n.mram = true) : memWf (n.setWord a v).mram = true :=
  Nv.setByte_memWf _ _ (Nv.setByte_memWf _ _ (Nv.setByte_memWf _ _ (Nv.setByte_memWf _ _ h)))

theorem Nv.setWords_memWf (ws : List Nat) {n : Nv} (a : Nat) (h : memWf n.mram = true) :
    memWf (n.setWords a ws).mram = true := by
  induction ws generalizing n a with
  | nil => exact h
  | cons w ws ih => exact ih _ (Nv.setWord_memWf a w h)

theorem Nv.setBytes_memWf (bs : List Byte) {n : Nv} (a : Nat) (h : memWf n.mram = true) :
    memWf (n.setBytes a bs).mram = true := by
  induction bs generalizing n a with
  | nil => exact h
  | cons b bs ih => exact ih _ (Nv.setByte_memWf a b h)

/-- Both memories after reset are in canonical form. -/
theorem reset_memWf : memWf State.reset.dev.mem = true ∧ memWf State.reset.nv.mram = true := ⟨rfl, rfl⟩

/-! ### Reads after writes -/

/-- One byte written, read back at any address. -/
theorem Dev.byte_setByte (d : Dev) (a a' : Nat) (b : Byte) :
    (d.setByte a b).byte a' = if a' = a then b else d.byte a' := by
  simp only [Dev.byte, Dev.setByte, fget_fset]

/-- One word written, read back a byte at a time: little-endian (R23). -/
theorem Dev.byte_setWord (d : Dev) (a v a' : Nat) :
    (d.setWord a v).byte a' =
      if a' = a then BitVec.ofNat 8 v
      else if a' = a + 1 then BitVec.ofNat 8 (v / 256)
      else if a' = a + 2 then BitVec.ofNat 8 (v / 65536)
      else if a' = a + 3 then BitVec.ofNat 8 (v / 16777216)
      else d.byte a' := by
  simp only [Dev.setWord, Dev.byte_setByte]
  by_cases h0 : a' = a
  · subst h0; simp
  · by_cases h1 : a' = a + 1
    · subst h1; simp
    · by_cases h2 : a' = a + 2
      · subst h2; simp
      · simp [h0, h1, h2]

/-- A byte outside the word written keeps its value. -/
theorem Dev.byte_setWord_ne (d : Dev) (a v a' : Nat) (h : a' < a ∨ a + 4 ≤ a') : (d.setWord a v).byte a' = d.byte a' := by
  rw [Dev.byte_setWord, if_neg, if_neg, if_neg, if_neg] <;> omega

/-- The word written reads back, cut to 32 bits. -/
theorem Dev.word_setWord (d : Dev) (a v : Nat) : (d.setWord a v).word a = v % 2 ^ 32 := by
  simp only [Dev.word, Dev.byte_setWord]
  simp [BitVec.toNat_ofNat]
  omega

/-- A byte outside the bytes written keeps its value. -/
theorem Dev.byte_setBytes_ne (bs : List Byte) (d : Dev) (a a' : Nat) (h : a' < a ∨ a + bs.length ≤ a') :
    (d.setBytes a bs).byte a' = d.byte a' := by
  induction bs generalizing d a with
  | nil => rfl
  | cons b bs ih =>
    simp only [List.length_cons] at h
    rw [Dev.setBytes, ih _ _ (by omega), Dev.byte_setByte, if_neg (by omega)]

/-- A byte outside the words written keeps its value. -/
theorem Dev.byte_setWords_ne (ws : List Nat) (d : Dev) (a a' : Nat) (h : a' < a ∨ a + 4 * ws.length ≤ a') :
    (d.setWords a ws).byte a' = d.byte a' := by
  induction ws generalizing d a with
  | nil => rfl
  | cons w ws ih =>
    simp only [List.length_cons] at h
    rw [Dev.setWords, ih _ _ (by omega), Dev.byte_setWord_ne _ _ _ _ (by omega)]

/-! ### What a memory write leaves of the rest of the device -/

@[simp] theorem Dev.setWord_get (d : Dev) (a v : Nat) (f : Fld) (i j : Nat) : (d.setWord a v).get f i j = d.get f i j := rfl
@[simp] theorem Dev.setWord_clk (d : Dev) (a v : Nat) : (d.setWord a v).clk = d.clk := rfl
@[simp] theorem Dev.setWord_vat (d : Dev) (a v : Nat) : (d.setWord a v).vat = d.vat := rfl
@[simp] theorem Dev.setWord_ch (d : Dev) (a v : Nat) : (d.setWord a v).ch = d.ch := rfl
@[simp] theorem Dev.setWord_ecc (d : Dev) (a v : Nat) : (d.setWord a v).ecc = d.ecc := rfl

@[simp] theorem Dev.setWords_get (ws : List Nat) (d : Dev) (a : Nat) (f : Fld) (i j : Nat) :
    (d.setWords a ws).get f i j = d.get f i j := by
  induction ws generalizing d a with
  | nil => rfl
  | cons w ws ih => rw [Dev.setWords, ih]; rfl

/-- The non-volatile state beside the MRAM is left alone by every MRAM write. -/
@[simp] theorem Nv.setWord_fuses (n : Nv) (a v : Nat) : (n.setWord a v).fuses = n.fuses := rfl

@[simp] theorem Nv.setBytes_fuses (bs : List Byte) (n : Nv) (a : Nat) : (n.setBytes a bs).fuses = n.fuses := by
  induction bs generalizing n a with
  | nil => rfl
  | cons b bs ih => rw [Nv.setBytes, ih]; rfl

@[simp] theorem Nv.setWords_fuses (ws : List Nat) (n : Nv) (a : Nat) : (n.setWords a ws).fuses = n.fuses := by
  induction ws generalizing n a with
  | nil => rfl
  | cons w ws ih => rw [Nv.setWords, ih]; rfl

@[simp] theorem Nv.stageOpen_fuses (n : Nv) (r : Nat) : (n.stageOpen r).fuses = n.fuses := by
  unfold Nv.stageOpen; dsimp only; split <;> simp

@[simp] theorem Nv.store_fuses (n : Nv) (r t : Nat) : (n.store r t).fuses = n.fuses := Nv.setWord_fuses _ _ _

theorem Nv.stageOpen_memWf {n : Nv} (r : Nat) (h : memWf n.mram = true) : memWf (n.stageOpen r).mram = true := by
  unfold Nv.stageOpen; dsimp only
  split <;> exact Nv.setBytes_memWf _ _ (Nv.setWord_memWf _ _ h)

theorem Nv.store_memWf {n : Nv} (r t : Nat) (h : memWf n.mram = true) : memWf (n.store r t).mram = true :=
  Nv.setWord_memWf _ _ h

/-! ### Reads of the MRAM after a write -/

/-- One byte of the MRAM written, read back at any address. -/
theorem Nv.byte_setByte (n : Nv) (a a' : Nat) (b : Byte) : (n.setByte a b).byte a' = if a' = a then b else n.byte a' := by
  simp only [Nv.byte, Nv.setByte, fget_fset]

/-- A byte outside the word written keeps its value. -/
theorem Nv.byte_setWord_ne (n : Nv) (a v a' : Nat) (h : a' < a ∨ a + 4 ≤ a') : (n.setWord a v).byte a' = n.byte a' := by
  simp only [Nv.setWord, Nv.byte_setByte]
  rw [if_neg, if_neg, if_neg, if_neg] <;> omega

/-- The word written reads back, cut to 32 bits. -/
theorem Nv.word_setWord (n : Nv) (a v : Nat) : (n.setWord a v).word a = v % 2 ^ 32 := by
  simp only [Nv.word, Nv.setWord, Nv.byte_setByte]
  simp [BitVec.toNat_ofNat]
  omega

/-- A word apart from the word written keeps its value. -/
theorem Nv.word_setWord_ne (n : Nv) (a v a' : Nat) (h : a' + 4 ≤ a ∨ a + 4 ≤ a') : (n.setWord a v).word a' = n.word a' := by
  simp only [Nv.word]
  rw [Nv.byte_setWord_ne, Nv.byte_setWord_ne, Nv.byte_setWord_ne, Nv.byte_setWord_ne] <;> omega

/-- Bytes before the word written keep their values. -/
theorem Nv.bytes_setWord_lt (n : Nv) (a v : Nat) (k : Nat) : ∀ a', a' + k ≤ a → (n.setWord a v).bytes a' k = n.bytes a' k := by
  induction k with
  | zero => intros; rfl
  | succ k ih =>
    intro a' h
    simp only [Nv.bytes]
    rw [Nv.byte_setWord_ne n a v a' (by omega), ih (a' + 1) (by omega)]

/-- One step of the CRC-32 keeps 32 bits. -/
theorem crc32Bit_lt (c : Nat) (h : c < 2 ^ 32) : crc32Bit c < 2 ^ 32 := by
  unfold crc32Bit
  split
  · exact Nat.xor_lt_two_pow (by omega) (by omega)
  · omega

/-- One byte of the CRC-32 keeps 32 bits. -/
theorem crc32Byte_lt (c : Nat) (b : Byte) (h : c < 2 ^ 32) : crc32Byte c b.toNat < 2 ^ 32 := by
  unfold crc32Byte
  have hb : b.toNat < 2 ^ 32 := by have := b.isLt; omega
  exact crc32Bit_lt _ (crc32Bit_lt _ (crc32Bit_lt _ (crc32Bit_lt _ (crc32Bit_lt _ (crc32Bit_lt _ (crc32Bit_lt _
    (crc32Bit_lt _ (Nat.xor_lt_two_pow h hb))))))))

/-- A CRC-32 has 32 bits. -/
theorem crc32Bytes_lt (bs : List Byte) : crc32Bytes bs < 2 ^ 32 := by
  have : ∀ (bs : List Byte) (c : Nat), c < 2 ^ 32 → bs.foldl (fun c b => crc32Byte c b.toNat) c < 2 ^ 32 := by
    intro bs
    induction bs with
    | nil => intro c h; exact h
    | cons b bs ih => intro c h; exact ih _ (crc32Byte_lt c b h)
  exact Nat.xor_lt_two_pow (this bs _ (by omega)) (by omega)

/-- A slot that STORE has ended is valid, when its generation is not 0 (R405, R406). -/
theorem Nv.slotValid_store (n : Nv) (r t : Nat) (hg : n.gen r t ≠ 0)
    (hd : ctrGen r t + 4 ≤ slotBase r t + slotSize r - 4 ∨ slotBase r t + slotSize r ≤ ctrGen r t) (hs : 4 ≤ slotSize r) :
    (n.store r t).slotValid r t = true := by
  have g : (n.store r t).gen r t = n.gen r t := by
    unfold Nv.gen Nv.store; exact Nv.word_setWord_ne _ _ _ _ (by omega)
  have c : (n.store r t).slotCrc r t = n.slotCrc r t := by
    unfold Nv.slotCrc; rw [g]
    unfold Nv.store; rw [Nv.bytes_setWord_lt _ _ _ _ _ (by omega)]
  have w : (n.store r t).word (slotBase r t + slotSize r - 4) = n.slotCrc r t := by
    unfold Nv.store; rw [Nv.word_setWord]; exact Nat.mod_eq_of_lt (crc32Bytes_lt _)
  unfold Nv.slotValid
  rw [g, c, w]; simp [hg]

end Sys2Proof.Machine
end

