-- ==== Sys2Proof/Laws/Frame.lean ====
section
/-! SUPPORT. What an operation leaves alone: the frame relations are kept by each update outside them. -/

namespace Sys2Proof.Machine

/-! ### Commands whose effect is on the device alone -/

/-- A command whose effect is on the device alone completes with that effect. -/
theorem completes_on {c : Instr} {s : State} {f : Dev → Dev} {P : Dev → Prop} (h : exec c s = s.on f) :
    completes c s P ↔ P (f s.dev) := by
  constructor
  · rintro ⟨t, h1, -, h3⟩
    rw [h, State.on_eq] at h1
    injection h1 with h1
    subst h1; exact h3
  · intro hp
    exact ⟨{ s with dev := f s.dev }, h, ⟨rfl, rfl⟩, hp⟩

/-- Every command whose effect is on the device alone leaves the queue and what is non-volatile alone. -/
theorem completes_of_on {c : Instr} {s : State} {f : Dev → Dev} {P : Dev → Prop} (h : exec c s = s.on f) (hp : P (f s.dev)) :
    completes c s P := (completes_on h).2 hp

/-! ### Registers -/

theorem Dev.keeps_refl (d : Dev) (ks : List (Fld × Nat)) : d.keeps d ks := fun _ _ _ _ => rfl

theorem Dev.keeps_trans {d e g : Dev} {ks : List (Fld × Nat)} (h : d.keeps e ks) (h' : e.keeps g ks) : d.keeps g ks :=
  fun f i j hf => (h' f i j hf).trans (h f i j hf)

theorem Dev.keeps_mono {d e : Dev} {ks ls : List (Fld × Nat)} (h : d.keeps e ks) (hs : ∀ x, x ∈ ks → x ∈ ls) : d.keeps e ls :=
  fun f i j hf => h f i j (fun hm => hf (hs _ hm))

/-- A field put that the frame lists. -/
theorem Dev.keeps_put {d e : Dev} {ks : List (Fld × Nat)} {f : Fld} {i : Nat} (x j : Nat) (h : d.keeps e ks)
    (hm : (f, i) ∈ ks) : d.keeps (e.put f x i j) ks := by
  intro g a b hg
  rw [Dev.get_put, if_neg, h g a b hg]
  intro he; obtain ⟨rfl, rfl, -⟩ := RKey.mk.inj he; exact hg hm

/-- A device whose registers are those of one in the frame. -/
theorem Dev.keeps_regs {d e g : Dev} {ks : List (Fld × Nat)} (h : d.keeps e ks) (hr : g.regs = e.regs) : d.keeps g ks := by
  intro f i j hf
  rw [← h f i j hf]; unfold Dev.get; rw [hr]

@[simp] theorem Dev.get_sans_regs (d : Dev) : d.sans.regs = [] := rfl
@[simp] theorem Dev.sans_put (d : Dev) (f : Fld) (x i j : Nat) : (d.put f x i j).sans = d.sans := rfl
@[simp] theorem Dev.sans_inc (d : Dev) (f : Fld) (i j : Nat) : (d.inc f i j).sans = d.sans := rfl
@[simp] theorem Dev.sans_incWrap (d : Dev) (f : Fld) (i j : Nat) : (d.incWrap f i j).sans = d.sans := rfl
@[simp] theorem Dev.sansTime_put (d : Dev) (f : Fld) (x i j : Nat) : (d.put f x i j).sansTime = d.sansTime := rfl
@[simp] theorem Dev.sansTime_toClk (d : Dev) (c : Nat) : (d.toClk c).sansTime = d.sansTime := by
  unfold Dev.toClk; split <;> rfl
@[simp] theorem Dev.sansTime_toTick (d : Dev) (t : Nat) : (d.toTick t).sansTime = d.sansTime := by simp [Dev.toTick]
@[simp] theorem Dev.sansVats_put (d : Dev) (f : Fld) (x i j : Nat) : (d.put f x i j).sansVats = d.sansVats := rfl
@[simp] theorem Dev.sansVats_setVat (d : Dev) (v : Nat) (x : VatX) : (d.setVat v x).sansVats = d.sansVats := rfl
@[simp] theorem Dev.sansVats_toClk (d : Dev) (c : Nat) : (d.toClk c).sansVats = d.sansVats := by
  unfold Dev.toClk; split <;> rfl
@[simp] theorem Dev.sansVats_toTick (d : Dev) (t : Nat) : (d.toTick t).sansVats = d.sansVats := by simp [Dev.toTick]

theorem Dev.writes_refl (d : Dev) (ks : List (Fld × Nat)) : d.writes d ks := ⟨d.keeps_refl ks, rfl⟩

/-- A field put that the frame lists. -/
theorem Dev.writes_put {d e : Dev} {ks : List (Fld × Nat)} {f : Fld} {i : Nat} (x j : Nat) (h : d.writes e ks)
    (hm : (f, i) ∈ ks) : d.writes (e.put f x i j) ks := ⟨Dev.keeps_put x j h.1 hm, h.2⟩

theorem Dev.writes_inc {d e : Dev} {ks : List (Fld × Nat)} {f : Fld} {i : Nat} (j : Nat) (h : d.writes e ks)
    (hm : (f, i) ∈ ks) : d.writes (e.inc f i j) ks := Dev.writes_put _ j h hm

/-- A fold of updates inside the frame. -/
theorem Dev.writes_foldl {α : Type} {d : Dev} {ks : List (Fld × Nat)} {f : Dev → α → Dev} (l : List α)
    (hf : ∀ e a, a ∈ l → d.writes e ks → d.writes (f e a) ks) : ∀ e, d.writes e ks → d.writes (l.foldl f e) ks := by
  induction l with
  | nil => intro e h; exact h
  | cons a l ih =>
    intro e h
    exact ih (fun e b hb => hf e b (List.mem_cons_of_mem _ hb)) _ (hf e a (List.mem_cons_self ..) h)

theorem Dev.get_put_same' (d : Dev) (f : Fld) (x i j : Nat) (h : x < 2 ^ f.width) : (d.put f x i j).get f i j = x := by
  rw [Dev.get_put_same, Nat.mod_eq_of_lt h]

@[simp] theorem Dev.get_inc_same (d : Dev) (f : Fld) (i j : Nat) :
    (d.inc f i j).get f i j = min (d.get f i j + 1) (2 ^ f.width - 1) := by
  have := Nat.two_pow_pos f.width
  unfold Dev.inc; rw [Dev.get_put_same, Nat.mod_eq_of_lt (by omega)]

/-! ### Published events (R360) -/

theorem mem_addFlight_self (f : Flight) (l : List Flight) :
    ∃ g, g ∈ addFlight f l ∧ g.cons = f.cons ∧ g.ch = f.ch ∧ g.at' = f.at' := by
  induction l with
  | nil => exact ⟨f, by simp [addFlight], rfl, rfl, rfl⟩
  | cons a l ih =>
    unfold addFlight; split
    · rename_i h; exact ⟨_, List.mem_cons_self .., h.1, h.2.1, h.2.2⟩
    · obtain ⟨g, hg, h⟩ := ih; exact ⟨g, List.mem_cons_of_mem _ hg, h⟩

theorem mem_addFlight_old (f g : Flight) (l : List Flight) (h : g ∈ l) :
    ∃ x, x ∈ addFlight f l ∧ x.cons = g.cons ∧ x.ch = g.ch ∧ x.at' = g.at' := by
  induction l with
  | nil => cases h
  | cons a l ih =>
    unfold addFlight; split
    · rcases List.mem_cons.1 h with rfl | h
      · exact ⟨_, List.mem_cons_self .., rfl, rfl, rfl⟩
      · exact ⟨g, List.mem_cons_of_mem _ h, rfl, rfl, rfl⟩
    · rcases List.mem_cons.1 h with rfl | h
      · exact ⟨_, List.mem_cons_self .., rfl, rfl, rfl⟩
      · obtain ⟨x, hx, e⟩ := ih h; exact ⟨x, List.mem_cons_of_mem _ hx, e⟩

theorem mem_addFlights (ch gen t w c : Nat) (ids : List Nat) : ∀ fs : List Flight,
    (c ∈ ids ∨ ∃ x, x ∈ fs ∧ x.cons = c ∧ x.ch = ch ∧ x.at' = t) →
    ∃ x, x ∈ ids.foldl (fun fs id => addFlight ⟨id, ch, gen, t, w⟩ fs) fs ∧ x.cons = c ∧ x.ch = ch ∧ x.at' = t := by
  induction ids with
  | nil =>
    rintro fs (h | h)
    · cases h
    · exact h
  | cons a ids ih =>
    rintro fs h
    refine ih _ ?_
    rcases h with h | ⟨x, hx, h1, h2, h3⟩
    · rcases List.mem_cons.1 h with rfl | h
      · obtain ⟨g, hg, e⟩ := mem_addFlight_self ⟨c, ch, gen, t, w⟩ fs
        exact .inr ⟨g, hg, e⟩
      · exact .inl h
    · obtain ⟨y, hy, e1, e2, e3⟩ := mem_addFlight_old ⟨a, ch, gen, t, w⟩ x fs hx
      exact .inr ⟨y, hy, e1.trans h1, e2.trans h2, e3.trans h3⟩

/-- An event at generation 0: SEEN of the channel, and the flights. -/
theorem Dev.publishCh_eq (d : Dev) (ch : Nat) : d.publishCh ch 0 =
    { d.put TRL_CH.SEEN 1 0 ch with
      flights := (consumerIds.filter (fun id => (d.put TRL_CH.SEEN 1 0 ch).subscribes id ch)).foldl
        (fun fs id => addFlight ⟨id, ch, 0, d.clk, d.hw⟩ fs) d.flights } := rfl

theorem Dev.subscribes_put (d : Dev) (f : Fld) (x i j id ch : Nat) (h1 : f ≠ TRL_CMASK_LO.MASK) (h2 : f ≠ TRL_CMASK_HI.MASK) :
    (d.put f x i j).subscribes id ch = d.subscribes id ch := by
  unfold Dev.subscribes
  rw [Dev.get_put_ne _ _ _ _ _ _ _ _ (Ne.symm h1), Dev.get_put_ne _ _ _ _ _ _ _ _ (Ne.symm h2)]

/-- An event that is published at generation 0 by a producer whose events AON does not hold. -/
theorem Dev.publish_deliver (d : Dev) (id : Nat) (h : producerAon id = false) : d.publish id = d.deliverAs id 0 := by
  unfold Dev.publish; split
  · rw [h]; simp
  · rfl

/-- An event at generation 0 goes to the channel that the producer's entry names. -/
theorem Dev.deliverAs_zero (d : Dev) (id : Nat) : d.deliverAs id 0 =
    if d.isSet TRL_PDATA.EN 0 id then d.publishCh (d.get TRL_PDATA.CH 0 id) 0 else d := rfl

theorem Dev.publish_keeps (d : Dev) (id : Nat) (h : producerAon id = false) : d.keeps (d.publish id) [(TRL_CH.SEEN, 0)] := by
  rw [d.publish_deliver id h, Dev.deliverAs_zero]
  split
  · rw [Dev.publishCh_eq]
    exact Dev.keeps_regs (e := d.put TRL_CH.SEEN 1 0 (d.get TRL_PDATA.CH 0 id)) (Dev.keeps_put 1 _ (d.keeps_refl _) (by simp)) rfl
  · exact d.keeps_refl _

theorem Dev.publish_sans (d : Dev) (id : Nat) (h : producerAon id = false) :
    { (d.publish id).sans with flights := [] } = { d.sans with flights := [] } := by
  rw [d.publish_deliver id h, Dev.deliverAs_zero]
  split
  · rw [Dev.publishCh_eq]; rfl
  · rfl

theorem Dev.publish_told (d : Dev) (id : Nat) (h : producerAon id = false) : d.told (d.publish id) id := by
  rw [d.publish_deliver id h, Dev.deliverAs_zero]; unfold Dev.told
  split
  · rename_i hen
    intro c hc hs
    have hsub : (d.put TRL_CH.SEEN 1 0 (d.get TRL_PDATA.CH 0 id)).subscribes c (d.get TRL_PDATA.CH 0 id) = true := by
      rw [Dev.subscribes_put _ _ _ _ _ _ _ (by decide) (by decide)]; exact hs
    rw [Dev.publishCh_eq]
    exact mem_addFlights _ _ _ _ c _ _ (.inl (List.mem_filter.2 ⟨hc, by simpa using hsub⟩))
  · rfl

/-- Publishing after updates inside a frame that holds no register of the trails. -/
theorem Dev.writesTells_publish {d e : Dev} {ks : List (Fld × Nat)} (id : Nat) (h : producerAon id = false)
    (hw : d.writes e ks) (ht : ∀ f, f = TRL_PDATA.EN ∨ f = TRL_PDATA.CH ∨ f = TRL_CMASK_LO.MASK ∨ f = TRL_CMASK_HI.MASK →
      (f, 0) ∉ ks) : d.writesTells (e.publish id) ks id := by
  have hk := fun f i j h => hw.1 f i j h
  have e1 : e.isSet TRL_PDATA.EN 0 id = d.isSet TRL_PDATA.EN 0 id := by
    unfold Dev.isSet; rw [hk _ _ _ (ht _ (.inl rfl))]
  have e2 : e.get TRL_PDATA.CH 0 id = d.get TRL_PDATA.CH 0 id := hk _ _ _ (ht _ (.inr (.inl rfl)))
  have e3 : ∀ c n, e.subscribes c n = d.subscribes c n := by
    intro c n; unfold Dev.subscribes
    rw [hk _ _ _ (ht _ (.inr (.inr (.inl rfl)))), hk _ _ _ (ht _ (.inr (.inr (.inr rfl))))]
  refine ⟨?_, ?_, ?_⟩
  · exact Dev.keeps_trans (Dev.keeps_mono hw.1 (fun x hx => List.mem_cons_of_mem _ hx))
      (Dev.keeps_mono (e.publish_keeps id h) (fun x hx => by simp at hx; simp [hx]))
  · rw [e.publish_sans id h, hw.2]
  · have := e.publish_told id h
    unfold Dev.told at *
    rw [e1, e2] at this
    simp only [e3] at this
    have hf : e.flights = d.flights := by have := congrArg Dev.flights hw.2; exact this
    rw [hf] at this
    exact this

end Sys2Proof.Machine
end

