-- ==== Sys2Proof/Laws/Ties.lean ====
section
/-! SUPPORT. What a command does that a rule orders against others of its moment: its own effect, where none of those that it comes
before has run. -/

namespace Sys2Proof.Machine

@[simp] theorem State.rerun_nil (s : State) (d : Dev) : s.rerun d [] = d := rfl

@[simp] theorem State.rerun_cons (s : State) (d : Dev) (c : Instr) (l : List Instr) :
    s.rerun d (c :: l) = s.rerun ({ s with dev := d }.alone c) l := rfl

theorem State.rerun_append (s : State) (d : Dev) (l m : List Instr) : s.rerun d (l ++ m) = s.rerun (s.rerun d l) m := by
  simp [State.rerun, List.foldl_append]

/-- With no command recorded the record begins at the present device. -/
theorem State.record_none {s : State} (h : s.same = none) : s.record = (s.dev, []) := by
  unfold State.record; rw [h]

/-- What is recorded leads to the present device. -/
theorem State.rerun_record (s : State) : s.rerun s.record.1 s.record.2 = s.dev := by
  unfold State.record
  split
  · split
    · rename_i h; exact h.2
    · rfl
  · rfl

/-- Where no command is recorded, every command is in its turn. -/
theorem State.inTurn_of_none {s : State} (c : Instr) (h : s.same = none) : s.inTurn c = true := by
  unfold State.inTurn State.around; rw [State.record_none h]; rfl

/-- A recorded command answers with its own effect; the queue and what is non-volatile stay. -/
theorem State.marks_next (s : State) (c : Instr) :
    ∃ t, s.marks c = .next t ∧ t.pending = s.pending ∧ t.nv = s.nv ∧ t.dev = s.alone c := ⟨_, rfl, rfl, rfl, rfl⟩

/-- A command in its turn answers with its own effect; the queue and what is non-volatile stay. -/
theorem State.inOrder_next {s : State} {c : Instr} (h : s.inTurn c = true) :
    ∃ t, s.inOrder c = .next t ∧ t.pending = s.pending ∧ t.nv = s.nv ∧ t.dev = s.alone c := by
  unfold State.inOrder; rw [if_pos h]; exact s.marks_next c

/-- A command out of its turn runs before those of its moment that it comes before. -/
theorem State.inOrder_before {s : State} {c : Instr} (h : s.inTurn c = false) :
    ∃ t, s.inOrder c = .next t ∧ t.pending = s.pending ∧ t.nv = s.nv ∧
      t.dev = s.rerun s.record.1 ((s.around c).1 ++ c :: (s.around c).2) := by
  unfold State.inOrder; rw [if_neg (by simp [h])]; exact ⟨_, rfl, rfl, rfl, rfl⟩

end Sys2Proof.Machine
end

