-- ==== Sys2Proof/Laws/Vat.lean ====
section
/-! SUPPORT. What the shared operations of the Vats do: issue, the sequential end, and the commands whose effect is on the
device alone. -/

namespace Sys2Proof.Machine

@[simp] theorem Dev.setVat_vst (d : Dev) (v n : Nat) (x : VatX) : (d.setVat v x).vst n = d.vst n := rfl
@[simp] theorem Dev.setVat_pc (d : Dev) (v n : Nat) (x : VatX) : (d.setVat v x).pc n = d.pc n := rfl
@[simp] theorem Dev.setVat_gr (d : Dev) (v n : Nat) (x : VatX) (r : RegNo) : (d.setVat v x).gr n r = d.gr n r := rfl

/-- The device at the issue of an instruction of Vat `v`. -/
def Dev.issuing (d : Dev) (v : Nat) : Dev :=
  let d := d.toClk (d.vatx v).ready
  d.setVat v { d.vatx v with prevPc := d.pc v }

/-- A fetch of words without errors counts none. -/
theorem Dev.eccCount_none {d : Dev} {v : Nat} {ws : List Nat} (h : ∀ w ∈ ws, d.eccOf w = none) :
    ws.foldl (fun d w => d.eccCount v w) d = d := by
  induction ws with
  | nil => rfl
  | cons w ws ih =>
    have hw : d.eccCount v w = d := by unfold Dev.eccCount; rw [h w (by simp)]; rfl
    rw [List.foldl_cons, hw]; exact ih (fun x hx => h x (by simp [hx]))

/-- An instruction whose words carry no error and lie in hoop memory runs at its fetch (R101, R105). -/
theorem Dev.fetch_eq {d : Dev} {v len : Nat} {adv : Bool} {f : Dev → Dev} (h : ∀ k, k < len → d.eccOf (d.pc v + k) = none)
    (h1 : d.pc v + (len - 1) ≤ 0x3FFFF) (h2 : adv = true → d.pc v + len ≤ 0x3FFFF) : d.fetch v len adv f = f d := by
  have hw : ∀ w ∈ (List.range' (d.pc v) len).filter (fun w => decide (w ≤ 0x3FFFF)), d.eccOf w = none := by
    intro w hw
    have := List.mem_range'_1.1 (List.mem_filter.1 hw).1
    have e := h (w - d.pc v) (by omega)
    rwa [show d.pc v + (w - d.pc v) = w by omega] at e
  have hb : ((List.range' (d.pc v) len).filter (fun w => decide (w ≤ 0x3FFFF))).any (fun w => d.eccOf w == some true) = false := by
    rw [List.any_eq_false]; intro w hw'; simp [hw w hw']
  unfold Dev.fetch
  simp only [Dev.eccCount_none hw, hb]
  rw [if_neg]
  rintro ((hc | ⟨ha, hc⟩) | hc)
  · omega
  · have := h2 ha; omega
  · cases hc

/-- An instruction that is the next to issue runs at its issue cycle. -/
theorem Dev.issue_eq {d : Dev} {v : Nat} {i : Isrin} (h : d.mayIssue v i) : d.issue v i = Isrin.run i v (d.issuing v) := by
  obtain ⟨h1, h2, -, h4, h5, h6⟩ := h
  have hv : d.vst v = vsRun ∧ (d.vatx v).wait = Wait.none := ⟨h1, h2⟩
  unfold Dev.issue
  rw [if_pos hv]
  have hpc : (d.issuing v).pc v = d.pc v := by simp [Dev.issuing, Dev.pc]
  refine Dev.fetch_eq (d := d.issuing v) (fun k hk => ?_) ?_ (fun ha => ?_)
  · rw [hpc]; simpa [Dev.issuing] using h6 k hk
  · rw [hpc]; exact h4
  · rw [hpc]; exact h5 ha

@[simp] theorem Dev.issuing_clk (d : Dev) (v : Nat) : (d.issuing v).clk = d.issueAt v := by simp [Dev.issuing, Dev.issueAt]
@[simp] theorem Dev.issuing_get (d : Dev) (v : Nat) (f : Fld) (i j : Nat) : (d.issuing v).get f i j = d.get f i j := by
  simp [Dev.issuing]
@[simp] theorem Dev.issuing_byte (d : Dev) (v a : Nat) : (d.issuing v).byte a = d.byte a := by simp [Dev.issuing]
@[simp] theorem Dev.issuing_eccOf (d : Dev) (v w : Nat) : (d.issuing v).eccOf w = d.eccOf w := by simp [Dev.issuing]
@[simp] theorem Dev.issuing_vatx (d : Dev) (v : Nat) :
    (d.issuing v).vatx v = { d.vatx v with prevPc := d.pc v } := by simp [Dev.issuing, Dev.pc]
theorem Dev.issuing_vatx_ne (d : Dev) (v n : Nat) (h : n ≠ v) : (d.issuing v).vatx n = d.vatx n := by
  simp [Dev.issuing, Dev.setVat_vatx, h]
@[simp] theorem Dev.issuing_sansVats (d : Dev) (v : Nat) : (d.issuing v).sansVats = d.sansVats := by simp [Dev.issuing]

/-- The sequential end of an instruction of a Vat in RUN that executes no STEP. -/
theorem Dev.seq_eq {d : Dev} {v : Nat} (len cycles : Nat) (h1 : d.vst v = vsRun) (h2 : (d.vatx v).stepping = false) :
    d.seq v len cycles = (d.put VAT_PC.PC (d.pc v + len) v).setVat v
      { d.vatx v with wait := .none, ready := d.clk + cycles, stepping := false,
                      wdCount := (d.put VAT_PC.PC (d.pc v + len) v).wdNow v,
                      wdFrom := max d.tick (d.vatx v).wdFrom } := by
  have h3 : (d.put VAT_PC.PC (d.pc v + len) v).vst v = vsRun := by
    unfold Dev.vst at *; rw [Dev.get_put_ne _ _ _ _ _ _ _ _ (by decide)]; exact h1
  have h4 : ¬ vsRun = vsWait := by decide
  unfold Dev.seq Dev.finish
  simp [h2, h3, h4, Dev.tick]

theorem Dev.vst_put_ne {d : Dev} {f : Fld} (x i j v : Nat) (h : VAT_STATUS.STATE ≠ f) :
    (d.put f x i j).vst v = d.vst v := by
  unfold Dev.vst; exact Dev.get_put_ne _ _ _ _ _ _ _ _ h

theorem Dev.pc_put_ne {d : Dev} {f : Fld} (x i j v : Nat) (h : VAT_PC.PC ≠ f) :
    (d.put f x i j).pc v = d.pc v := by
  unfold Dev.pc; exact Dev.get_put_ne _ _ _ _ _ _ _ _ h

theorem Dev.gr_put_ne {d : Dev} {f : Fld} (x i j v : Nat) (r : RegNo) (h : VAT_G.G ≠ f) :
    (d.put f x i j).gr v r = d.gr v r := by
  unfold Dev.gr; rw [Dev.get_put_ne _ _ _ _ _ _ _ _ h]

theorem Dev.gr_setGr_same (d : Dev) (v : Nat) (r : RegNo) (x : Nat) : (d.setGr v r x).gr v r = x % 2 ^ 32 := by
  simp [Dev.gr, Dev.setGr, Fld.width, VAT_G.G]

theorem Dev.gr_setGr_ne (d : Dev) (v : Nat) (r r' : RegNo) (x : Nat) (h : r' ≠ r) : (d.setGr v r x).gr v r' = d.gr v r' := by
  unfold Dev.gr Dev.setGr
  rw [Dev.get_put_index]
  intro e; exact h (BitVec.eq_of_toNat_eq e)

/-- What an instruction does that has acted on the device of its issue (`e`) and ends sequentially: it ran, and the frame of
what it did is the frame of the whole but for PC. -/
theorem Dev.seq_ran {d e : Dev} {v : Nat} {i : Isrin} (len cycles : Nat) (h : d.mayIssue v i) (hl : Isrin.len i = len)
    (ha : Isrin.advances i = true) (h1 : e.vst v = vsRun) (h2 : (e.vatx v).stepping = false) (h3 : e.pc v = d.pc v)
    (h4 : e.clk = d.issueAt v) (h5 : (e.vatx v).sight = (d.vatx v).sight) (h6 : (e.vatx v).hoop = (d.vatx v).hoop) :
    d.ran (e.seq v len cycles) v (d.pc v + len) cycles := by
  obtain ⟨-, -, -, -, h7, -⟩ := h
  have h7 := h7 ha
  rw [Dev.seq_eq len cycles h1 h2, h3]
  refine ⟨?_, ?_, ?_, ?_, ?_, ?_⟩
  · simp only [Dev.vst, Dev.setVat_get]
    rw [Dev.get_put_ne _ _ _ _ _ _ _ _ (by decide)]
    exact h1
  · simp
  · simp only [Dev.pc, Dev.setVat_get, Dev.get_put_same]
    have hw : Fld.width VAT_PC.PC = 18 := by decide
    rw [hw]; unfold Dev.pc at h7; rw [hl] at h7; omega
  · simp [h4]
  · simp [h5]
  · simp [h6]

theorem Dev.seq_frame {d e : Dev} {v : Nat} {fs : List Fld} (len cycles : Nat) (h1 : e.vst v = vsRun)
    (h2 : (e.vatx v).stepping = false) (hm : VAT_PC.PC ∈ fs) (hf : d.vatFrame e v fs) :
    d.vatFrame (e.seq v len cycles) v fs := by
  rw [Dev.seq_eq len cycles h1 h2]
  refine ⟨?_, ?_, ?_⟩
  · exact Dev.keeps_regs (e := e.put VAT_PC.PC (e.pc v + len) v)
      (Dev.keeps_put _ _ hf.1 (List.mem_map.2 ⟨_, hm, rfl⟩)) rfl
  · intro n hn; simp [Dev.setVat_vatx, hn, hf.2.1 n hn]
  · simpa using hf.2.2

theorem Dev.issuing_frame (d : Dev) (v : Nat) (fs : List Fld) : d.vatFrame (d.issuing v) v fs := by
  refine ⟨?_, ?_, by simp⟩
  · intro f i j _; simp
  · intro n hn; exact d.issuing_vatx_ne v n hn

theorem Dev.vatFrame_put {d e : Dev} {v : Nat} {fs : List Fld} {f : Fld} (x j : Nat) (h : d.vatFrame e v fs) (hm : f ∈ fs) :
    d.vatFrame (e.put f x v j) v fs :=
  ⟨Dev.keeps_put _ _ h.1 (List.mem_map.2 ⟨_, hm, rfl⟩), h.2⟩

/-- An instruction that puts a value into a register of a Vat and goes on. -/
theorem Dev.loaded_of {d : Dev} {v : Nat} {i : Isrin} (rd : RegNo) (x len cycles : Nat) (h : d.mayIssue v i)
    (hl : Isrin.len i = len) (ha : Isrin.advances i = true) :
    d.loaded (((d.issuing v).setGr v rd x).seq v len cycles) v rd (BitVec.ofNat 32 x) len cycles := by
  have e1 : ((d.issuing v).setGr v rd x).vst v = vsRun := by
    unfold Dev.setGr; rw [Dev.vst_put_ne _ _ _ _ (by decide)]; simpa [Dev.vst] using h.1
  have e2 : (((d.issuing v).setGr v rd x).vatx v).stepping = false := by simpa [Dev.setGr] using h.2.2.1
  have e3 : ((d.issuing v).setGr v rd x).pc v = d.pc v := by
    unfold Dev.setGr; rw [Dev.pc_put_ne _ _ _ _ (by decide)]; simp [Dev.pc]
  refine ⟨?_, ?_, ?_, ?_⟩
  · rw [Dev.seq_eq len cycles e1 e2]
    simp only [Dev.g32, Dev.gr, Dev.setVat_get]
    rw [Dev.get_put_ne _ _ _ _ _ _ _ _ (by decide)]
    have := Dev.gr_setGr_same (d.issuing v) v rd x
    unfold Dev.gr at this
    rw [this]; exact BitVec.eq_of_toNat_eq (by simp)
  · intro r hr
    rw [Dev.seq_eq len cycles e1 e2]
    simp only [Dev.gr, Dev.setVat_get]
    rw [Dev.get_put_ne _ _ _ _ _ _ _ _ (by decide)]
    have := Dev.gr_setGr_ne (d.issuing v) v rd r x hr
    unfold Dev.gr at this
    rw [this]; simp
  · exact Dev.seq_ran len cycles h hl ha e1 e2 e3 (by simp [Dev.setGr]) (by simp [Dev.setGr]) (by simp [Dev.setGr])
  · exact Dev.seq_frame len cycles e1 e2 (by simp) (Dev.vatFrame_put _ _ (d.issuing_frame v _) (by simp))

end Sys2Proof.Machine
end

