-- ==== Sys2Proof/Tests/Slice0.lean ====
section
/-! SUPPORT. The model's own tests: the checks of well-formedness, instruction words of the spec's examples, a figure of the spec,
and for every statement with hypotheses a state and operands that meet those of each of its clauses. -/

namespace Sys2Proof.Machine

/-! The theorems of this file are elaborated one after another, up to the `end` of the namespace: `decide +kernel` waits for the
kernel's check of every theorem before it, and elaborated side by side each waiting theorem would hold a thread of its own, with
its stack. -/
set_option Elab.async false

/-! ### States the tests start from -/

/-- A state whose device is `d`. -/
def st (d : Dev) : State := { State.reset with dev := d }
/-- Vat 0 in RUN, at word 16 of hoop memory. -/
def run0 : Dev := (({} : Dev).put VAT_STATUS.STATE vsRun 0).put VAT_PC.PC 16 0
/-- Vat 0 in a wait. -/
def wait0 (w : Wait) : Dev := ((({} : Dev).put VAT_STATUS.STATE vsWait 0).put VAT_PC.PC 16 0).setVat 0 { wait := w }
/-- Vat 0 in RUN, bound to port code `p`. -/
def bound0 (p : Nat) : Dev := run0.put VAT_BIND.PORT p 0
/-- Chain `c` in RX. -/
def Dev.rx (d : Dev) (c : Nat) : Dev := d.put UHF_STATUS.STATE csRx c
/-- Chain `c` in CARRIER. -/
def Dev.carrying (d : Dev) (c : Nat) : Dev := d.put UHF_STATUS.STATE csCarrier c
/-- Canopy group 0 of chains 1 and 2, enabled. -/
def Dev.canopy (d : Dev) : Dev := (d.put BRG_CAN_CFG.MEMBERS 6 0).put BRG_CAN_CFG.EN 1 0
/-- Vat 0 runs the hoop loaded at word 0x1000, whose one section has type `ty`, starts at word 0x1100 and has one item. -/
def Dev.hooped (d : Dev) (ty : Nat) : Dev :=
  (((d.setVat 0 { d.vatx 0 with hoop := some 0x1000 }).setWord 0x4014 0x10000).setWord 0x4040 (ty * 2 ^ 24 + 0x100)).setWord
    0x4044 0x40040
/-- The same hoop has a hop table 0 with one entry: 865.7 MHz, slot 3. -/
def Dev.hopTable (d : Dev) : Dev := (((d.hooped 5).setWord 0x4400 8).setWord 0x4420 1).setWord 0x4424 (3 * 2 ^ 24 + 865700)

/-- The device in service: out of reset and awake. -/
def up : Dev := { rst := { asserted := false } }
/-- The device asleep in state `t` with its domains off, and what AON latched the registers of `l`. -/
def slept (t : Nat) (l : Dev) : Dev :=
  { up with pwr := { asleep := some t, off := true, latch := l.regs } }
/-- Q0 holds one command of a TYPE with a body, and Q1 is free for its response (R403). -/
def Dev.mbx (d : Dev) (type : Nat) (ws : List Nat) : Dev :=
  (((((((((d.put QMX_Q_BASE.EN 1 0).put QMX_Q_BASE.BASE 0 0).put QMX_Q_EP.CONS 0x11 0).put QMX_Q_BASE.LOG2SZ 6 0).put QMX_Q_BASE.EN 1 1).put QMX_Q_EP.PROD
    0x11 1).put QMX_Q_BASE.LOG2SZ 6 1).put QMX_Q_BASE.BASE 16 1).setWords 0x100000 (qHeader type ws.length :: ws)).setQ 0
      { prod := ws.length + 1, vis := ws.length + 1 }
/-- The words of a hoop image of 81 words for Vat 0: a CODE section of one word after the ENTRY section. -/
def hoopWords : List Nat :=
  [0x504F4F48, 1, 0x21, 0, 0, 0x20001, 324] ++ List.replicate 9 0 ++ [0x01000050, 1, 0x02000040, 0x400010] ++ List.replicate 12 0 ++
    List.replicate 32 0 ++ [80] ++ List.replicate 15 0xFFFFFFFF ++ [0]
/-- The image's bytes. -/
def hoopBytes : List Byte := hoopWords.flatMap wordBytes

/-- A data frame of a neighbour, secured with mesh key 1. -/
def aFrame : MshFrame :=
  { kind := .data, sf := 1, fcsOk := true, len := 30, parsable := true, pan := 7, srcExt := 0x1122334455667788, srcShort := 0x55,
    toUs := true, broadcast := false, ackReq := false, nack := false, dsn := 9, counter := 100, level := 6, keyMode := 1,
    keyIdx := 1, mic := true, rssi := 0xF00, ch := 0, startTick := 5000, correction := none, asn := 77, rank := none,
    sched := none, keyroll := none, tables := none, host := none }
/-- Every neighbour entry is valid, and a link names each. -/
def fullTables : Dev :=
  { up with regs := (List.range 64).map (fun i => (⟨MSH_NDATA_W2.VALID, 0, i⟩, 1)) ++
      ((List.range 64).map (fun i => (⟨MSH_LDATA.VALID, 0, i⟩, 1)) ++ (List.range 64).map (fun i => (⟨MSH_LDATA.NBR, 0, i⟩, i))) }
/-- Every transaction handle is open, and Vat 3 opened handle 9 in this Vat cycle. -/
def fullHandles : Dev :=
  { run0 with
    regs := (List.range 256).map (fun i => (⟨TXN_HINFO0.STATE, 0, i⟩, 1)) ++ run0.regs
    opened := [{ clk := 0, vat := 3, what := 9, was := 5, rd := 4 }] }
/-- Hoop-index entry 3 is valid: words 0x1000 to 0x1050. -/
def Dev.hoop3 (d : Dev) : Dev := d.setWords (4 * (0x3FF00 + 8 * 3)) [0x80001000, 0x1051]

/-- The SPI target serves, after a transaction that has disarmed the reset. -/
def spiState : State := st ((up.put SYS_STRAP.HSEL 1).put SYS_STEP.DONE 0x3FF)

/-- Slot 0 holds an unsigned firmware image without a body: its header, and the SHA-512 digest of no bytes. -/
def plainFw : Nv :=
  ((State.reset.nv.setWord (fwBase 0) 0x57464752).setWord (fwBase 0 + 4) 0x00210001).setBytes (fwBase 0 + 0x100)
    [0xcf, 0x83, 0xe1, 0x35, 0x7e, 0xef, 0xb8, 0xbd, 0xf1, 0x54, 0x28, 0x50, 0xd6, 0x6d, 0x80, 0x07, 0xd6, 0x20, 0xe4, 0x05, 0x0b, 0x57, 0x15, 0xdc, 0x83, 0xf4, 0xa9, 0x21, 0xd3, 0x6c, 0xe9, 0xce, 0x47, 0xd0, 0xd1, 0x3c, 0x5d, 0x85, 0xf2, 0xb0, 0xff, 0x83, 0x18, 0xd2, 0x87, 0x7e, 0xec, 0x2f, 0x63, 0xb9, 0x31, 0xbd, 0x47, 0x41, 0x7a, 0x81, 0xa5, 0x38, 0x32, 0x7a, 0xf9, 0x27, 0xda, 0x3e]

/-- The device after the access that command `c` is, before its effect. -/
def State.after (s : State) (c : Instr) : Dev :=
  match accessOf c with
  | some a => s.dev.accessed a.reg a.unit a.by'
  | none => s.dev
/-- The island that command `c` acts in is present and awake. -/
def State.liveFor (s : State) (c : Instr) : Bool :=
  match accessOf c with
  | some a => s.dev.live a.island
  | none => (match eventIsland c with | some k => s.dev.live k | none => true)
/-- With no command of the same moment before it, a command acts. -/
theorem State.acts_after {s : State} {c : Instr} (h : s.same = none) (hl : s.liveFor c = true) : s.acts c (s.after c) := by
  unfold State.acts
  refine ⟨fun _ => State.inTurn_of_none c h, ?_⟩
  unfold State.liveFor at hl
  unfold State.after
  generalize accessOf c = a at *
  cases a <;> exact ⟨hl, rfl⟩

/-- A host's bus write is the write itself. -/
theorem exec_hostWrite (s : State) (w : Width) (a : Word) (v : BitVec 64) :
    exec (.registerWrite .host w a v) s = .next (s.busWrite .host (widthBytes w) a.toNat (v.toNat % 256 ^ widthBytes w)) := by
  show execRegisterWrite .host w a v s = _
  simp [execRegisterWrite, Dev.jtagShut]

/-! ### Each check of well-formedness refuses an ill-formed command -/

theorem test_wf_width : (Instr.registerWrite .host .b1 0x100000 256).wellFormed = false := by decide
theorem test_wf_step : (Instr.startupStepEnd 0 ⟨0, 0x3FF, 0, 0xF⟩).wellFormed = false := by decide
theorem test_wf_rail : (Instr.brownOut 9).wellFormed = false := by decide
theorem test_wf_consumer : (Instr.trailsDelivery 0x7C).wellFormed = false ∧ (Instr.mclr 0x7F).wellFormed = false := by decide
theorem test_wf_spi : (Instr.spiWrite 0x100000 []).wellFormed = false := by decide
theorem test_wf_frame : (Instr.mshFrameRx { aFrame with len := 128 }).wellFormed = false := by decide
theorem test_wf_corr : ∀ (p : RxPort) (o : PreambleObs), (Instr.preambleValidated p { o with hyps := [⟨0, 0, 257, false⟩] }).wellFormed = false := by
  intro p o; rfl
theorem test_wf_illegal : (Instr.illegal 0 0x60092000).wellFormed = false := by decide
theorem test_wf_good : (Instr.mshFrameRx aFrame).wellFormed = true ∧ (Instr.illegal 0 0).wellFormed = true ∧
    (Instr.registerWrite .host .b1 0x100000 255).wellFormed = true := by decide

/-! ### Instruction words and figures of the spec's examples -/

/-- The examples of R113 and R145: WAITA g2, g4 with U = 1; LSN g6, 3; TXC REL, g6, g7, 4. -/
theorem test_words_air : decodeIsrin 0x60092000 0 = .waita 2 4 true ∧ decodeIsrin 0x99800003 0 = .lsn 6 3 ∧
    decodeIsrin 0x9581D004 0 = .txc 6 7 1 4 := by decide
/-- The example of R145: DSP OC with table 0x0_0C10; RXB g8, 4; LPUT g10, g9, g11, 16. -/
theorem test_words_more : decodeIsrin 0x50000000 0xC10 = .dsp 0 0 0 0xC10 ∧ decodeIsrin 0xA0200004 0 = .rxb 8 4 ∧
    decodeIsrin 0xB2A6C010 0 = .lput 10 9 11 16 := by decide
/-- No row of the opcode table has bits. -/
theorem test_no_bits : decodeTableWord 32 0x60092000 = none := by decide
/-- The example of R344: an eight-hour GLADE with RATIO 0x927C_30F3, SD 2 and XDRIFT 300. -/
theorem test_at_restore :
    let d := (((({} : Dev).put AON_ATRATIO.RATIO 0x927C30F3).put AON_ATCFG.RVALID 1).put AON_ATCFG.SD 2).put AON_ATCFG.XDRIFT 300
    d.atGain 943718400 = 4423680000000 + 22555800 ∧ d.atUnc (d.atGain 943718400) = 13536532 := by decide +kernel

/-- A running ring that has counted a source tick in its AT tick. -/
def ringTied : State :=
  let d := up.put RING_CTRL.EN 1 0
  { st (State.alone (st d) (.ringSourceTick 0)) with same := some (d, [.ringSourceTick 0]) }
/-- R346, R355: a source tick of the AT tick of a change of source is not counted, though it stands before it in the queue. -/
theorem test_source_change_first : (ringTied.dev.ringx 0).cnt = 1 ∧
    ((match exec (.ringSrcChange 0 3) ringTied with | .next t => (t.dev.ringx 0).cnt | _ => 9) = 0) := by decide +kernel

/-! ### States for the witnesses that need a lemma -/

/-- A word written to the MRAM leaves the serial number. -/
theorem Nv.setWord_serial (n : Nv) (a v : Nat) : (n.setWord a v).serialBytes = n.serialBytes := rfl

/-- A regulatory store with profile 5, before STORE. -/
def rguOpen : Nv :=
  (((({} : Nv).setWord (ctrGen 3 0) 1).setWord 0x190000 0x05210001).setWord 0x190004 0xFFFF).setWord (0x190240 + 960 * 5) 0x80200000
/-- A regulatory store in force with profile 5 usable. -/
def rguFive : Nv := rguOpen.store 3 0

theorem usable_of_store (n : Nv) (c : Nat) (hn : n = rguOpen.setWord 0x193FFC c) (v0 : n.slotValid 3 0 = true) :
    n.usable 5 = true := by
  have w : ∀ a, a + 4 ≤ 0x193FFC ∨ 0x194000 ≤ a → n.word a = rguOpen.word a := fun a h => by
    rw [hn]; exact Nv.word_setWord_ne _ _ _ _ (by omega)
  have v1 : n.slotValid 3 1 = false := by
    have : n.gen 3 1 = 0 := by
      unfold Nv.gen; rw [w _ (by decide)]; decide +kernel
    unfold Nv.slotValid; rw [this]; rfl
  have k : n.currentBase 3 = some 0x190000 := by
    unfold Nv.currentBase Nv.current; rw [v0, v1]; rfl
  have b : n.byte 0x190002 = rguOpen.byte 0x190002 := by rw [hn]; exact Nv.byte_setWord_ne _ _ _ _ (by decide)
  have s : n.bytes 0x190008 16 = rguOpen.bytes 0x190008 16 := by rw [hn]; exact Nv.bytes_setWord_lt _ _ _ _ _ (by decide)
  have h : n.rguStore = some 0x190000 := by
    have t1 : rguOpen.word 0x190000 = 0x05210001 := by decide +kernel
    have t2 : (rguOpen.byte 0x190002).toNat = 0x21 := by decide +kernel
    have t3 : rguOpen.bytes 0x190008 16 = rguOpen.serialBytes := by decide +kernel
    have t4 : n.serialBytes = rguOpen.serialBytes := by rw [hn]; exact Nv.setWord_serial _ _ _
    unfold Nv.rguStore; rw [k]
    simp only [Option.filter, w 0x190000 (by omega), b, s, t1, t2, t3, t4]
    simp
  have u1 : rguOpen.word (0x190000 + 0x240 + 960 * 5 + 4 * 0) = 0x80200000 := by decide +kernel
  have u2 : rguOpen.word (0x190000 + 4) = 0xFFFF := by decide +kernel
  have x1 : n.profWord 0x190000 5 0 = 0x80200000 := (w _ (by decide)).trans u1
  have x2 : n.word (0x190000 + 4) = 0xFFFF := (w _ (by decide)).trans u2
  unfold Nv.usable
  simp only [h, x1, x2]
  decide

theorem rguFive_usable : rguFive.usable 5 = true := by
  refine usable_of_store _ (rguOpen.slotCrc 3 0) ?_ (Nv.slotValid_store rguOpen 3 0 (by decide +kernel) (by decide) (by decide))
  unfold rguFive Nv.store
  have : slotBase 3 0 + slotSize 3 - 4 = 0x193FFC := by decide
  rw [this]

/-- A phase-reference measurement whose two windows agree. -/
def pairSame : Dev :=
  { (((({} : Dev).canopy).put BRG_PCAL.N 2).put BRG_PCAL_ST.STATE 1) with
    pcal := { gathered := [[(1, 5), (2, 9)], [(1, 5), (2, 9)]] } }
/-- A phase-reference measurement whose last window lies far from the others. -/
def pairApart : Dev :=
  { (((({} : Dev).canopy).put BRG_PCAL.N 4).put BRG_PCAL_ST.STATE 1) with
    pcal := { gathered := [[(1, 5), (2, 9)], [(1, 5), (2, 9)], [(1, 5), (2, 9)], [(1, 205), (2, 9)]] } }

theorem pairSame_stable : (st pairSame).dev.pcalMembers.all (fun n => circStable (pcalOf (st pairSame).dev.pcal.gathered n)) = true := by
  have m : (st pairSame).dev.pcalMembers = [1, 2] := by decide +kernel
  have p1 : pcalOf (st pairSame).dev.pcal.gathered 1 = [5, 5] := by decide +kernel
  have p2 : pcalOf (st pairSame).dev.pcal.gathered 2 = [9, 9] := by decide +kernel
  rw [m, List.all_cons, List.all_cons, List.all_nil, p1, p2, stable_same, stable_same]; rfl

theorem pairApart_unstable :
    (st pairApart).dev.pcalMembers.all (fun n => circStable (pcalOf (st pairApart).dev.pcal.gathered n)) = false := by
  have m : (st pairApart).dev.pcalMembers = [1, 2] := by decide +kernel
  have p1 : pcalOf (st pairApart).dev.pcal.gathered 1 = [5, 5, 5, 205] := by decide +kernel
  have h : circStable [5, 5, 5, 205] = false := unstable_var _ (by decide +kernel)
  rw [m, List.all_cons, p1, h]; rfl


/-! ### Witnesses: the hypotheses of each clause of each statement can be met -/

theorem witness_ScalarInstructionsComplete :
    (∃ (s : State) (v : VatNo) (rd : RegNo) (imm : Imm), s.dev.mayIssue v (.ldi rd imm)) ∧
    (∃ (s : State) (v : VatNo) (rd : RegNo) (ext : Word), s.dev.mayIssue v (.ldx rd ext)) ∧
    (∃ (s : State) (v : VatNo) (rd : RegNo) (ra : RegNo), s.dev.mayIssue v (.mov rd ra)) ∧
    (∃ (s : State) (v : VatNo) (rd : RegNo) (ra : RegNo) (rb : RegNo), s.dev.mayIssue v (.add rd ra rb)) ∧
    (∃ (s : State) (v : VatNo) (rd : RegNo) (ra : RegNo) (imm : Imm), s.dev.mayIssue v (.addi rd ra imm)) ∧
    (∃ (s : State) (v : VatNo) (rd : RegNo) (ra : RegNo) (rb : RegNo), s.dev.mayIssue v (.sub rd ra rb)) ∧
    (∃ (s : State) (v : VatNo) (rd : RegNo) (ra : RegNo) (rb : RegNo), s.dev.mayIssue v (.and rd ra rb)) ∧
    (∃ (s : State) (v : VatNo) (rd : RegNo) (ra : RegNo) (rb : RegNo), s.dev.mayIssue v (.or rd ra rb)) ∧
    (∃ (s : State) (v : VatNo) (rd : RegNo) (ra : RegNo) (rb : RegNo), s.dev.mayIssue v (.xor rd ra rb)) ∧
    (∃ (s : State) (v : VatNo) (rd : RegNo) (ra : RegNo) (rb : RegNo) (imm : Imm), s.dev.mayIssue v (.shl rd ra rb imm)) ∧
    (∃ (s : State) (v : VatNo) (rd : RegNo) (ra : RegNo) (rb : RegNo) (imm : Imm), s.dev.mayIssue v (.shr rd ra rb imm)) :=
  ⟨⟨(st run0), 0, 2, 5, by unfold Dev.mayIssue; decide +kernel⟩,
    ⟨(st run0), 0, 2, 0x40, by unfold Dev.mayIssue; decide +kernel⟩,
    ⟨(st run0), 0, 2, 4, by unfold Dev.mayIssue; decide +kernel⟩,
    ⟨(st run0), 0, 2, 4, 6, by unfold Dev.mayIssue; decide +kernel⟩,
    ⟨(st run0), 0, 2, 4, 5, by unfold Dev.mayIssue; decide +kernel⟩,
    ⟨(st run0), 0, 2, 4, 6, by unfold Dev.mayIssue; decide +kernel⟩,
    ⟨(st run0), 0, 2, 4, 6, by unfold Dev.mayIssue; decide +kernel⟩,
    ⟨(st run0), 0, 2, 4, 6, by unfold Dev.mayIssue; decide +kernel⟩,
    ⟨(st run0), 0, 2, 4, 6, by unfold Dev.mayIssue; decide +kernel⟩,
    ⟨(st run0), 0, 2, 4, 6, 0x2003, by unfold Dev.mayIssue; decide +kernel⟩,
    ⟨(st run0), 0, 2, 4, 6, 0x3003, by unfold Dev.mayIssue; decide +kernel⟩⟩

theorem witness_PlainInstructionsComplete :
    (∃ (s : State) (v : VatNo) (imm : Imm), s.dev.mayIssue v (.nop imm)) ∧
    (∃ (s : State) (v : VatNo) (ra : RegNo) (imm : Imm), s.dev.mayIssue v (.tst ra imm)) ∧
    (∃ (s : State) (v : VatNo) (rb : RegNo), s.dev.mayIssue v (.tmo rb)) ∧
    (∃ (s : State) (v : VatNo) (rd : RegNo), rd.getLsbD 0 = false ∧ s.dev.mayIssue v (.stamp rd 0)) ∧
    (∃ (s : State) (v : VatNo) (rd : RegNo), rd.getLsbD 0 = false ∧ s.dev.mayIssue v (.stamp rd 1)) ∧
    (∃ (s : State) (v : VatNo) (rd : RegNo) (ra : RegNo) (imm : Imm), s.dev.mayIssue v (.ldw rd ra imm) ∧ ldwReach (memAddr (s.dev.gr v ra) imm) = true ∧ (memAddr (s.dev.gr v ra) imm < 0x100000 → s.dev.eccOf (memAddr (s.dev.gr v ra) imm / 4) = none)) ∧
    (∃ (s : State) (v : VatNo) (ra : RegNo) (rb : RegNo) (imm : Imm), s.dev.mayIssue v (.stw ra rb imm) ∧ stwReach (memAddr (s.dev.gr v ra) imm) = true ∧ (∀ x, x ∈ s.dev.stws → x.1 = s.dev.issueAt v → x.2.1 = memAddr (s.dev.gr v ra) imm → x.2.2 ≤ v)) ∧
    (∃ (s : State) (v : VatNo) (ra : RegNo) (rb : RegNo) (imm : Imm) (n : Nat), s.dev.mayIssue v (.stw ra rb imm) ∧ stwReach (memAddr (s.dev.gr v ra) imm) = true ∧ (s.dev.issueAt v, memAddr (s.dev.gr v ra) imm, n) ∈ s.dev.stws ∧ v < n) :=
  ⟨⟨(st run0), 0, 5, by unfold Dev.mayIssue; decide +kernel⟩,
    ⟨(st run0), 0, 4, 5, by unfold Dev.mayIssue; decide +kernel⟩,
    ⟨(st run0), 0, 6, by unfold Dev.mayIssue; decide +kernel⟩,
    ⟨(st run0), 0, 2, by unfold Dev.mayIssue; decide +kernel⟩,
    ⟨(st run0), 0, 2, by unfold Dev.mayIssue; decide +kernel⟩,
    ⟨(st (run0.setGr 0 4 0x100000)), 0, 2, 4, 5, by unfold Dev.mayIssue; decide +kernel⟩,
    ⟨(st (run0.setGr 0 4 0x100000)), 0, 4, 6, 5, by unfold Dev.mayIssue; decide +kernel⟩,
    ⟨(st { run0.setGr 0 4 0x100000 with stws := [(0, 0x100014, 3)] }), 0, 4, 6, 5, 3, by unfold Dev.mayIssue; decide +kernel⟩⟩

theorem witness_FlowInstructionsComplete :
    (∃ (s : State) (v : VatNo) (ext : Word), s.dev.mayIssue v (.jmp ext)) ∧
    (∃ (s : State) (v : VatNo) (ext : Word) (n : Nat), s.dev.mayIssue v (.call ext) ∧ s.dev.get VAT_STATUS.RDEPTH v = n ∧ n < 8) ∧
    (∃ (s : State) (v : VatNo) (n : Nat), s.dev.mayIssue v .ret ∧ s.dev.get VAT_STATUS.RDEPTH v = n + 1 ∧ n < 8) ∧
    (∃ (s : State) (v : VatNo) (ra : RegNo) (mode : BitVec 2) (k : BitVec 4) (ext : Word) (n : Nat) (w : Nat) (entry : Nat), s.dev.mayIssue v (.dsp ra mode k ext) ∧ mode ≠ 3 ∧ (mode = 1 → 1 ≤ k.toNat ∧ k.toNat ≤ 8) ∧ w = (ext.toNat + dspIndex mode.toNat (s.dev.gr v ra) k.toNat (s.dev.get VAT_OC.OC v)) % 2 ^ 18 ∧ s.dev.eccOf w = none ∧ entry = s.dev.hw' w ∧ s.dev.get VAT_STATUS.RDEPTH v = n ∧ (bitsOf entry 31 30 = 1 → n < 8) ∧ (bitsOf entry 31 30 = 2 → s.dev.pc v + 2 ≤ 0x3FFFF) ∧ bitsOf entry 31 30 ≠ 3) ∧
    (∃ (s : State) (v : VatNo) (imm : Imm), s.dev.mayIssue v (.clr imm) ∧ s.dev.isSet VAT_STATUS.SWAP_PEND v = false ∧ s.dev.pc v + 1 ≤ 0x3FFFF ∧ s.dev.isSet VAT_CTRL.STOP_AT_CLR v = false) ∧
    (∃ (s : State) (v : VatNo) (imm : Imm), s.dev.mayIssue v (.clr imm) ∧ s.dev.isSet VAT_STATUS.SWAP_PEND v = true ∧ (s.dev.vatx v).swapFrom ≤ s.dev.issueAt v ∧ s.dev.isSet VAT_CTRL.STOP_AT_CLR v = false) :=
  ⟨⟨(st run0), 0, 0x40, by unfold Dev.mayIssue; decide +kernel⟩,
    ⟨(st run0), 0, 0x40, 0, by unfold Dev.mayIssue; decide +kernel⟩,
    ⟨(st (run0.put VAT_STATUS.RDEPTH 1 0)), 0, 0, by unfold Dev.mayIssue; decide +kernel⟩,
    ⟨(st (run0.setWord 0x100 0x25)), 0, 4, 0, 3, 0x40, 0, 0x40, 0x25, by unfold Dev.mayIssue; decide +kernel⟩,
    ⟨(st run0), 0, 5, by unfold Dev.mayIssue; decide +kernel⟩,
    ⟨(st ((run0.put VAT_STATUS.SWAP_PEND 1 0).put VAT_SWAP.NEW_ENTRY 0x80 0)), 0, 5, by unfold Dev.mayIssue; decide +kernel⟩⟩

theorem witness_FaultsAreTaken :
    (∃ (s : State) (v : VatNo) (word : Word), s.dev.mayIssue v (.illegal word)) ∧
    (∃ (s : State) (v : VatNo) (rd : RegNo) (src : BitVec 2), s.dev.mayIssue v (.stamp rd src) ∧ (rd.getLsbD 0 = true ∨ 2 ≤ src.toNat)) ∧
    (∃ (s : State) (v : VatNo), s.dev.vst v = vsRun ∧ (s.dev.vatx v).wait = .none ∧ 0x3FFFF < s.dev.pc v + 1 ∧ s.dev.eccOf (s.dev.pc v) = none) ∧
    (∃ (s : State) (v : VatNo), s.dev.vst v = vsRun ∧ (s.dev.vatx v).wait = .none ∧ s.dev.pc v = 0x3FFFF ∧ s.dev.eccOf (s.dev.pc v) = some true) ∧
    (∃ (s : State) (v : VatNo), s.dev.vst v = vsRun ∧ (s.dev.vatx v).wait = .none ∧ s.dev.pc v + 1 ≤ 0x3FFFF ∧ s.dev.eccOf (s.dev.pc v) = some true) ∧
    (∃ (s : State) (v : VatNo) (rd : RegNo) (ra : RegNo) (imm : Imm), s.dev.mayIssue v (.ldw rd ra imm) ∧ ldwReach (memAddr (s.dev.gr v ra) imm) = false) ∧
    (∃ (s : State) (v : VatNo) (ra : RegNo) (rb : RegNo) (imm : Imm), s.dev.mayIssue v (.stw ra rb imm) ∧ stwReach (memAddr (s.dev.gr v ra) imm) = false) ∧
    (∃ (s : State) (v : VatNo) (ext : Word), s.dev.mayIssue v (.call ext) ∧ 8 ≤ s.dev.get VAT_STATUS.RDEPTH v) ∧
    (∃ (s : State) (v : VatNo), s.dev.mayIssue v .ret ∧ s.dev.get VAT_STATUS.RDEPTH v = 0) ∧
    (∃ (s : State) (v : VatNo) (t : Nat), s.dev.wdDue v = some t ∧ s.dev.clearsAt v t = false) ∧
    (∃ (s : State) (v : VatNo) (t : Nat), s.dev.wdDue v = some t ∧ s.dev.clearsAt v t = true) ∧
    (∃ (s : State) (v : VatNo), s.dev.wdDue v = none ∧ s.dev.wdExpired v = true ∧ s.dev.vst v = vsFault) ∧
    (∃ (s : State) (v : VatNo), s.dev.wdDue v = none ∧ s.dev.wdExpired v = false) :=
  ⟨⟨(st run0), 0, 0, by unfold Dev.mayIssue; decide +kernel⟩,
    ⟨(st run0), 0, 2, 2, by unfold Dev.mayIssue; decide +kernel⟩,
    ⟨(st (run0.put VAT_PC.PC 0x3FFFF 0)), 0, by decide +kernel⟩,
    ⟨(st { run0.put VAT_PC.PC 0x3FFFF 0 with ecc := [(0x3FFFF, true)] }), 0, by decide +kernel⟩,
    ⟨(st { run0 with ecc := [(16, true)] }), 0, by decide +kernel⟩,
    ⟨(st (run0.setGr 0 4 0x180000)), 0, 2, 4, 5, by unfold Dev.mayIssue; decide +kernel⟩,
    ⟨(st run0), 0, 4, 6, 5, by unfold Dev.mayIssue; decide +kernel⟩,
    ⟨(st (run0.put VAT_STATUS.RDEPTH 8 0)), 0, 0x40, by unfold Dev.mayIssue; decide +kernel⟩,
    ⟨(st run0), 0, by unfold Dev.mayIssue; decide +kernel⟩,
    ⟨(st (run0.put VAT_WDOG.PERIOD 2 0)), 0, 2048, by decide +kernel⟩,
    ⟨(st ((run0.put VAT_WDOG.PERIOD 2 0).setWord 64 0x54000000 |>.setVat 0 { ready := 4096 })), 0, 2048, by decide +kernel⟩,
    ⟨(st { ((run0.put VAT_STATUS.STATE vsFault 0).put VAT_WDOG.PERIOD 2 0).setVat 0 { wdCount := 2048, left := some (0, true) } with clk := 0 }), 0, by decide +kernel⟩,
    ⟨(st {}), 0, by decide +kernel⟩⟩

theorem witness_WaitsBeginAndEnd :
    (∃ (s : State) (v : VatNo) (ra : RegNo) (rb : RegNo) (u : Bool) (n : Nat), ra.getLsbD 0 = false ∧ s.dev.mayIssue v (.waita ra rb u) ∧ n = waitaAhead (s.dev.grPair v ra) (s.dev.issueAt v / 2) ∧ waitaOnTime n = true) ∧
    (∃ (s : State) (v : VatNo) (ra : RegNo) (rb : RegNo) (u : Bool) (n : Nat), ra.getLsbD 0 = false ∧ s.dev.mayIssue v (.waita ra rb u) ∧ n = waitaAhead (s.dev.grPair v ra) (s.dev.issueAt v / 2) ∧ waitaOnTime n = false) ∧
    (∃ (s : State) (v : VatNo) (ra : RegNo) (rb : RegNo) (u : Bool) (target : Nat), s.dev.waiting v (.waita target ra rb u) ∧ (∀ t, s.dev.wdDue v = some t → target < t)) ∧
    (∃ (s : State) (v : VatNo) (input : BitVec 2), s.dev.mayIssue v (.waitt input) ∧ s.dev.isSet TRL_CSTAT.PEND 0 (taskInput v input.toNat) = true) ∧
    (∃ (s : State) (v : VatNo) (input : BitVec 2), s.dev.mayIssue v (.waitt input) ∧ s.dev.isSet TRL_CSTAT.PEND 0 (taskInput v input.toNat) = false ∧ s.dev.polls v = true) ∧
    (∃ (s : State) (v : VatNo) (input : BitVec 2), s.dev.mayIssue v (.waitt input) ∧ s.dev.isSet TRL_CSTAT.PEND 0 (taskInput v input.toNat) = false ∧ s.dev.polls v = false) ∧
    (∃ (s : State) (v : VatNo) (n : Nat) (give : Option Nat), s.dev.waiting v (.waitt n give) ∧ s.dev.isSet TRL_CSTAT.PEND 0 (taskInput v n) = true) ∧
    (∃ (s : State) (v : VatNo) (n : Nat) (target : Nat), s.dev.waiting v (.waitt n (some target)) ∧ s.dev.isSet TRL_CSTAT.PEND 0 (taskInput v n) = false) :=
  ⟨⟨(st (run0.setGr 0 4 5)), 0, 4, 6, true, 5, by unfold Dev.mayIssue; decide +kernel⟩,
    ⟨(st run0), 0, 4, 6, true, 0, by unfold Dev.mayIssue; decide +kernel⟩,
    ⟨(st (wait0 (.waita 9 4 6 true))), 0, 4, 6, true, 9, by unfold Dev.waiting; decide +kernel⟩,
    ⟨(st (run0.put TRL_CSTAT.PEND 1 0 1)), 0, 1, by unfold Dev.mayIssue; decide +kernel⟩,
    ⟨(st (run0.put VAT_STATUS.TMO_ARMED 1 0)), 0, 1, by unfold Dev.mayIssue; decide +kernel⟩,
    ⟨(st run0), 0, 1, by unfold Dev.mayIssue; decide +kernel⟩,
    ⟨(st ((wait0 (.waitt 1 none)).put TRL_CSTAT.PEND 1 0 1)), 0, 1, none, by unfold Dev.waiting; decide +kernel⟩,
    ⟨(st (wait0 (.waitt 1 (some 9)))), 0, 1, 9, by unfold Dev.waiting; decide +kernel⟩⟩

theorem witness_VatControlCompletes :
    (∃ (s : State) (v : VatNo) (d : Dev), s.acts (.start v) d ∧ d.mayStart v) ∧
    (∃ (s : State) (v : VatNo) (d : Dev), s.acts (.start v) d ∧ ¬ d.mayStart v) ∧
    (∃ (s : State) (v : VatNo) (d : Dev), s.acts (.resume v) d ∧ d.open' = true ∧ d.vShown v = vsDebug) ∧
    (∃ (s : State) (v : VatNo) (i : Isrin) (d : Dev), s.acts (.step v) d ∧ d.open' = true ∧ d.vShown v = vsDebug ∧ i = decodeIsrin (BitVec.ofNat 32 (d.hw' (d.pc v))) (BitVec.ofNat 32 (d.hw' (d.pc v + 1)))) ∧
    (∃ (s : State) (mask : BitVec 16) (d : Dev), s.acts (.vatGstart mask) d ∧ (∀ n : Nat, n < 16 → mask.getLsbD n = true → d.mayStart n)) ∧
    (∃ (s : State) (v : VatNo), s.dev.mayIssue v .halt) ∧
    (∃ (s : State) (v : VatNo) (imm : Imm), s.dev.mayIssue v (.clr imm) ∧ s.dev.isSet VAT_STATUS.SWAP_PEND v = false ∧ s.dev.pc v + 1 ≤ 0x3FFFF ∧ s.dev.isSet VAT_CTRL.STOP_AT_CLR v = true) ∧
    (∃ (s : State) (v : VatNo) (d : Dev), s.acts (.stop v) d ∧ d.vActive v = true) ∧
    (∃ (s : State) (v : VatNo) (d : Dev), s.acts (.stop v) d ∧ d.vActive v = false ∧ (d.vst v ≠ vsFault ∨ d.leftNow v = false)) ∧
    (∃ (s : State) (v : VatNo) (d : Dev), s.acts (.stop v) d ∧ d.vst v = vsFault ∧ d.leftNow v = true) ∧
    (∃ (s : State) (v : VatNo) (d : Dev), s.acts (.dbgHalt v) d ∧ d.open' = true ∧ d.vActive v = true ∧ (d.vatx v).stepping = false) ∧
    (∃ (s : State) (v : VatNo) (d : Dev), s.acts (.stop v) d ∧ d.vActive v = true ∧ d.clk ≤ (d.vatx v).copyEnd) ∧
    (∃ (s : State) (mask : BitVec 16) (d : Dev), s.acts (.vatGstop mask) d ∧ (∀ n : Nat, n < 16 → mask.getLsbD n = true → d.vst n = vsFault → (d.vatx n).left.all (fun l => decide (l.1 < d.clk)) = true)) ∧
    (∃ (s : State) (v : VatNo) (d : Dev), s.acts (.dbgHalt v) d ∧ d.open' = false) ∧
    (∃ (s : State) (v : VatNo) (d : Dev), s.acts (.resume v) d ∧ d.open' = false) ∧
    (∃ (s : State) (v : VatNo) (d : Dev), s.acts (.step v) d ∧ d.open' = false) ∧
    (∃ (s : State) (v : VatNo) (d : Dev), s.acts (.resume v) d ∧ d.vShown v ≠ vsDebug) ∧
    (∃ (s : State) (v : VatNo) (d : Dev), s.acts (.step v) d ∧ d.vShown v ≠ vsDebug) ∧
    (∃ (s : State) (v : VatNo) (d : Dev), s.acts (.dbgHalt v) d ∧ (d.vActive v = false ∨ (d.vatx v).stepping = true)) :=
  ⟨⟨(st {}), 0, ((st {}).after (.start 0)), ⟨State.acts_after rfl (by decide +kernel), by unfold Dev.mayStart; decide +kernel⟩⟩,
    ⟨(st run0), 0, ((st run0).after (.start 0)), ⟨State.acts_after rfl (by decide +kernel), by unfold Dev.mayStart; decide +kernel⟩⟩,
    ⟨(st (up.put VAT_STATUS.STATE vsDebug 0 |>.put VAT_PC.PC 16 0)), 0, ((st (up.put VAT_STATUS.STATE vsDebug 0 |>.put VAT_PC.PC 16 0)).after (.resume 0)), ⟨State.acts_after rfl (by decide +kernel), by decide +kernel⟩⟩,
    ⟨(st ((up.put VAT_STATUS.STATE vsDebug 0 |>.put VAT_PC.PC 16 0).setWord 64 0x04000005)), 0, .nop 5, ((st ((up.put VAT_STATUS.STATE vsDebug 0 |>.put VAT_PC.PC 16 0).setWord 64 0x04000005)).after (.step 0)), ⟨State.acts_after rfl (by decide +kernel), by decide +kernel⟩⟩,
    ⟨(st {}), 3, ((st {}).after (.vatGstart 3)), ⟨State.acts_after rfl (by decide +kernel), by unfold Dev.mayStart; decide +kernel⟩⟩,
    ⟨(st run0), 0, by unfold Dev.mayIssue; decide +kernel⟩,
    ⟨(st (run0.put VAT_CTRL.STOP_AT_CLR 1 0)), 0, 5, by unfold Dev.mayIssue; decide +kernel⟩,
    ⟨(st run0), 0, ((st run0).after (.stop 0)), ⟨State.acts_after rfl (by decide +kernel), by decide +kernel⟩⟩,
    ⟨(st {}), 0, ((st {}).after (.stop 0)), ⟨State.acts_after rfl (by decide +kernel), by decide +kernel⟩⟩,
    ⟨(st (run0.put VAT_STATUS.STATE vsFault 0 |>.setVat 0 { left := some (0, true) })), 0, ((st (run0.put VAT_STATUS.STATE vsFault 0 |>.setVat 0 { left := some (0, true) })).after (.stop 0)), ⟨State.acts_after rfl (by decide +kernel), by decide +kernel⟩⟩,
    ⟨(st (up.put VAT_STATUS.STATE vsRun 0 |>.put VAT_PC.PC 16 0)), 0, ((st (up.put VAT_STATUS.STATE vsRun 0 |>.put VAT_PC.PC 16 0)).after (.dbgHalt 0)), ⟨State.acts_after rfl (by decide +kernel), by decide +kernel⟩⟩,
    ⟨(st (run0.setVat 0 { copyEnd := 40 })), 0, ((st (run0.setVat 0 { copyEnd := 40 })).after (.stop 0)), ⟨State.acts_after rfl (by decide +kernel), by decide +kernel⟩⟩,
    ⟨(st run0), 3, ((st run0).after (.vatGstop 3)), ⟨State.acts_after rfl (by decide +kernel), by decide +kernel⟩⟩,
    ⟨(st ((run0.put VAT_STATUS.STATE 5 0).put LCS_STATE.STATE 2)), 0, ((st ((run0.put VAT_STATUS.STATE 5 0).put LCS_STATE.STATE 2)).after (.dbgHalt 0)), ⟨State.acts_after rfl (by decide +kernel), by decide +kernel⟩⟩,
    ⟨(st (up.put LCS_STATE.STATE 2)), 0, ((st (up.put LCS_STATE.STATE 2)).after (.resume 0)), ⟨State.acts_after rfl (by decide +kernel), by decide +kernel⟩⟩,
    ⟨(st (up.put LCS_STATE.STATE 2)), 0, ((st (up.put LCS_STATE.STATE 2)).after (.step 0)), ⟨State.acts_after rfl (by decide +kernel), by decide +kernel⟩⟩,
    ⟨(st run0), 0, ((st run0).after (.resume 0)), ⟨State.acts_after rfl (by decide +kernel), by decide +kernel⟩⟩,
    ⟨(st up), 0, ((st up).after (.step 0)), ⟨State.acts_after rfl (by decide +kernel), by decide +kernel⟩⟩,
    ⟨(st {}), 0, ((st {}).after (.dbgHalt 0)), ⟨State.acts_after rfl (by decide +kernel), by decide +kernel⟩⟩⟩

theorem witness_PortInstructionsComplete :
    (∃ (s : State) (v : VatNo) (port : BitVec 5) (p : Nat) (old : Nat), s.dev.mayIssue v (.bind port) ∧ p = port.toNat ∧ old = s.dev.get VAT_BIND.PORT v ∧ p ≠ 0x0B ∧ (p ≤ 0x0F ∨ p = 0x1F) ∧ p ≠ old ∧ (old ≠ 0x1F → (s.dev.portFes old).any s.dev.switching = false) ∧ s.dev.portMissing p = false ∧ (0x0C ≤ p → p ≤ 0x0F → s.dev.members (p - 0x0C) ≠ [] ∧ s.dev.grpEn (p - 0x0C) = true) ∧ (p ≠ 0x1F → s.dev.portTaken v p = false) ∧ (s.dev.atIssue v).anyGate (s.dev.portUnits old) = false ∧ s.dev.bound.all (fun b => b.clk != s.dev.issueAt v) = true ∧ (old = 8 → s.dev.usTaken = false)) ∧
    (∃ (s : State) (v : VatNo) (port : BitVec 5), s.dev.mayIssue v (.bind port) ∧ s.dev.get VAT_BIND.PORT v = 8 ∧ s.dev.usTaken = true ∧ port.toNat ≠ 0x0B ∧ (port.toNat ≤ 0x0F ∨ port.toNat = 0x1F)) ∧
    (∃ (s : State) (v : VatNo) (port : BitVec 5) (p : Nat) (b : Won), s.dev.mayIssue v (.bind port) ∧ p = port.toNat ∧ s.dev.get VAT_BIND.PORT v = 0x1F ∧ p < 8 ∧ s.dev.portTaken v p = true ∧ s.dev.bound = [b] ∧ b.clk = s.dev.issueAt v ∧ v < b.vat ∧ b.vat < 16 ∧ b.what = p ∧ b.was = 0x1F ∧ ((s.dev.atIssue v).bindTake v p).portTaken v p = false ∧ s.dev.cal = [] ∧ s.dev.calGone = none) ∧
    (∃ (s : State) (v : VatNo) (port : BitVec 5), s.dev.mayIssue v (.bind port) ∧ s.dev.get VAT_BIND.PORT v = port.toNat ∧ port.toNat ≠ 0x0B ∧ (port.toNat = 8 → s.dev.usTaken = false) ∧ (port.toNat ≤ 0x0F ∨ port.toNat = 0x1F) ∧ (s.dev.portFes port.toNat).any s.dev.switching = false) ∧
    (∃ (s : State) (v : VatNo) (port : BitVec 5) (p : Nat), s.dev.mayIssue v (.bind port) ∧ p = port.toNat ∧ s.dev.get VAT_BIND.PORT v = 0x1F ∧ p ≠ 0x0B ∧ p ≤ 0x0F ∧ s.dev.portMissing p = false ∧ (0x0C ≤ p → p ≤ 0x0F → s.dev.members (p - 0x0C) ≠ [] ∧ s.dev.grpEn (p - 0x0C) = true) ∧ s.dev.portTaken v p = true ∧ s.dev.bound.all (fun b => b.clk != s.dev.issueAt v) = true) ∧
    (∃ (s : State) (v : VatNo) (ra : RegNo) (i : Bool) (table : BitVec 3) (idx : BitVec 10) (p : Nat) (m : Nat) (w : Nat), s.dev.mayIssue v (.hop ra i table idx) ∧ s.dev.airOpen v p ∧ p ≠ 9 ∧ p ≠ 10 ∧ s.dev.hopEntry v table.toNat (if i then idx.toNat else s.dev.gr v ra % 1024) = some w ∧ m = s.dev.synOf ((s.dev.portUnits p).headD 0) ∧ s.dev.shadowRuns = false ∧ (s.dev.atIssue v).retuneCheck m (bitsOf w 19 0) = 0 ∧ (s.dev.synx m).reqClk ≠ s.dev.issueAt v ∧ (s.dev.atIssue v).noLaunchNow) ∧
    (∃ (s : State) (v : VatNo) (ra : RegNo) (i : Bool) (table : BitVec 3) (idx : BitVec 10) (p : Nat) (m : Nat) (w : Nat) (r : SynReq), s.dev.mayIssue v (.hop ra i table idx) ∧ s.dev.airOpen v p ∧ p ≠ 9 ∧ p ≠ 10 ∧ s.dev.hopEntry v table.toNat (if i then idx.toNat else s.dev.gr v ra % 1024) = some w ∧ m = s.dev.synOf ((s.dev.portUnits p).headD 0) ∧ (s.dev.atIssue v).retuneCheck m (bitsOf w 19 0) = 0 ∧ (s.dev.synx m).reqClk = s.dev.issueAt v ∧ (s.dev.synx m).reqs = [r] ∧ r.vat < v ∧ r.khz ≠ bitsOf w 19 0 ∧ (s.dev.atIssue v).noLaunchNow) ∧
    (∃ (s : State) (v : VatNo) (ra : RegNo) (i : Bool) (table : BitVec 3) (idx : BitVec 10) (p : Nat) (m : Nat) (w : Nat), s.dev.mayIssue v (.hop ra i table idx) ∧ s.dev.airOpen v p ∧ p ≠ 9 ∧ p ≠ 10 ∧ s.dev.hopEntry v table.toNat (if i then idx.toNat else s.dev.gr v ra % 1024) = some w ∧ m = s.dev.synOf ((s.dev.portUnits p).headD 0) ∧ (s.dev.atIssue v).noLaunchNow ∧ s.dev.shadowDst m = false ∧ 860000 ≤ bitsOf w 19 0 ∧ bitsOf w 19 0 ≤ 960000 ∧ (s.dev.atIssue v).anyGate (s.dev.synUsers m) = true) ∧
    (∃ (s : State) (v : VatNo) (ra : RegNo) (i : Bool) (setpt : BitVec 9) (p : Nat) (x : Nat), s.dev.mayIssue v (.pwr ra i setpt) ∧ s.dev.airOpen v p ∧ p ≠ 9 ∧ p ≠ 10 ∧ x = min 330 (if i then setpt.toNat else s.dev.gr v ra % 512) ∧ (∀ c : Nat, c ∈ s.dev.portUnits p → (s.dev.atIssue v).setptBad c x = false ∧ (s.dev.chx (s.dev.cfg c)).hostSet.all (fun h => h.1 != s.dev.namedAt v) = true)) ∧
    (∃ (s : State) (v : VatNo) (ra : RegNo) (i : Bool) (setpt : BitVec 9) (p : Nat) (x : Nat) (y : Nat), s.dev.mayIssue v (.pwr ra i setpt) ∧ s.dev.airOpen v p ∧ p < 8 ∧ s.dev.attached = none ∧ x = min 330 (if i then setpt.toNat else s.dev.gr v ra % 512) ∧ (s.dev.chx p).hostSet = some (s.dev.namedAt v, y) ∧ (s.dev.atIssue v).setptBad p y = false ∧ (s.dev.atIssue v).setptBad p x = false) ∧
    (∃ (s : State) (v : VatNo) (ra : RegNo) (i : Bool) (setpt : BitVec 9) (p : Nat) (x : Nat), s.dev.mayIssue v (.pwr ra i setpt) ∧ s.dev.airOpen v p ∧ (p = 9 ∨ p = 10) ∧ s.dev.portCalm p ∧ x = (if i then setpt.toNat else s.dev.gr v ra % 512)) ∧
    (∃ (s : State) (v : VatNo) (ra : RegNo) (i : Bool) (ant : BitVec 4) (p : Nat) (x : Nat), s.dev.mayIssue v (.ant ra i ant) ∧ s.dev.airOpen v p ∧ p ≠ 9 ∧ p ≠ 10 ∧ x = (if i then ant.toNat else s.dev.gr v ra % 16) ∧ (∀ u : Nat, u ∈ s.dev.portRegs p → (s.dev.atIssue v).portRefusal u x = 0) ∧ (s.dev.atIssue v).noLaunchNow) ∧
    (∃ (s : State) (v : VatNo) (ra : RegNo) (i : Bool) (set : BitVec 10) (p : Nat) (x : Nat) (w : Nat), s.dev.mayIssue v (.beam ra i set) ∧ s.dev.airOpen v p ∧ 0x0C ≤ p ∧ p ≤ 0x0F ∧ s.dev.weightSet v (if i then set.toNat else s.dev.gr v ra % 1024) = some w ∧ x = bitsOf (s.dev.hw' w) 11 0 ∧ (x = 0xFFF ∨ x < s.dev.steerCount v) ∧ (∀ n : Nat, n ∈ s.dev.portRegs p → (s.dev.chx n).txOn = false)) :=
  ⟨⟨(st run0), 0, 0, 0, 0x1F, by unfold Dev.mayIssue; decide +kernel⟩,
    ⟨(st { bound0 8 with spare := { now := some 3 } }), 0, 0, by unfold Dev.mayIssue; decide +kernel⟩,
    ⟨(st { run0.put VAT_BIND.PORT 3 5 with bound := [{ clk := 0, vat := 5, what := 3, was := 0x1F }] }), 0, 3, 3, { clk := 0, vat := 5, what := 3, was := 0x1F }, by unfold Dev.mayIssue; decide +kernel⟩,
    ⟨(st (bound0 3)), 0, 3, by unfold Dev.mayIssue; decide +kernel⟩,
    ⟨(st (run0.put VAT_BIND.PORT 0 5)), 0, 0, 0, by unfold Dev.mayIssue; decide +kernel⟩,
    ⟨(st { (bound0 0).hopTable with clk := 10 }), 0, 4, true, 0, 0, 0, 0, 3 * 2 ^ 24 + 865700, by unfold Dev.mayIssue Dev.noLaunchNow Dev.airOpen Dev.feSettled; decide +kernel⟩,
    ⟨(st { ((bound0 0).put VAT_BIND.PORT 0 1 |>.put VAT_STATUS.STATE vsRun 1 |>.put VAT_PC.PC 16 1 |>.hopTable |>.setVat 1 { hoop := some 0x1000 }) with clk := 10, syn := [(0, { reqClk := 10, reqs := [{ vat := 0, khz := 900000, slot := 1 }] })] }), 1, 4, true, 0, 0, 0, 0, 3 * 2 ^ 24 + 865700, { vat := 0, khz := 900000, slot := 1 }, by unfold Dev.mayIssue Dev.noLaunchNow Dev.airOpen Dev.feSettled; decide +kernel⟩,
    ⟨(st { (bound0 0).hopTable.carrying 0 with clk := 10 }), 0, 4, true, 0, 0, 0, 0, 3 * 2 ^ 24 + 865700, by unfold Dev.mayIssue Dev.noLaunchNow Dev.airOpen Dev.feSettled; decide +kernel⟩,
    ⟨(st (bound0 0)), 0, 4, true, 100, 0, 100, by unfold Dev.mayIssue Dev.airOpen Dev.feSettled; decide +kernel⟩,
    ⟨(st ((bound0 0).setCh 0 { hostSet := some (0, 50) })), 0, 4, true, 100, 0, 100, 50, by unfold Dev.mayIssue Dev.airOpen Dev.feSettled; decide +kernel⟩,
    ⟨(st (bound0 9)), 0, 4, true, 100, 9, 100, by unfold Dev.mayIssue Dev.portCalm Dev.airOpen Dev.feSettled; decide +kernel⟩,
    ⟨(st ((bound0 0).put UHF_ANT.FITTED 0xFFFF 0)), 0, 4, true, 1, 0, 1, by unfold Dev.mayIssue Dev.noLaunchNow Dev.airOpen Dev.feSettled; decide +kernel⟩,
    ⟨(st (((bound0 12).canopy.hooped 7).setWord 0x4404 0xFFF)), 0, 4, true, 0, 12, 0xFFF, 0x1101, by unfold Dev.mayIssue Dev.airOpen Dev.feSettled; decide +kernel⟩⟩

theorem witness_CarrierInstructionsComplete :
    (∃ (s : State) (v : VatNo) (p : Nat), s.dev.mayIssue v (.carry true) ∧ s.dev.airOpen v p ∧ p ≠ 9 ∧ p ≠ 10 ∧ s.dev.portUnits p ≠ [] ∧ (∀ c : Nat, c ∈ s.dev.portUnits p → s.dev.inRx c = true)) ∧
    (∃ (s : State) (v : VatNo) (p : Nat), s.dev.mayIssue v (.carry true) ∧ s.dev.airOpen v p ∧ p ≠ 9 ∧ p ≠ 10 ∧ (∀ c : Nat, c ∈ s.dev.portUnits p → s.dev.carrierOn c = true ∧ (s.dev.chx c).goal = none)) ∧
    (∃ (s : State) (v : VatNo) (p : Nat), s.dev.mayIssue v (.carry false) ∧ s.dev.airOpen v p ∧ p ≠ 9 ∧ p ≠ 10 ∧ s.dev.portUnits p ≠ [] ∧ (∀ c : Nat, c ∈ s.dev.portUnits p → s.dev.carrierOn c = true ∧ (s.dev.chx c).goal = none)) ∧
    (∃ (s : State) (v : VatNo) (p : Nat), s.dev.mayIssue v (.carry false) ∧ s.dev.airOpen v p ∧ p ≠ 9 ∧ p ≠ 10 ∧ (∀ c : Nat, c ∈ s.dev.portUnits p → (s.dev.chx c).goal = none) ∧ (s.dev.atIssue v).anyGate (s.dev.portUnits p) = false) ∧
    (∃ (s : State) (v : VatNo) (p : Nat), s.dev.mayIssue v (.carry true) ∧ s.dev.airOpen v p ∧ (p = 9 ∨ p = 10) ∧ s.dev.pst p = 1 ∧ s.dev.portCalm p) ∧
    (∃ (s : State) (v : VatNo) (p : Nat), s.dev.mayIssue v (.carry true) ∧ s.dev.airOpen v p ∧ (p = 9 ∨ p = 10) ∧ s.dev.pst p = 0 ∧ s.dev.portCalm p) ∧
    (∃ (s : State) (v : VatNo), s.dev.mayIssue v (.carry false) ∧ s.dev.airOpen v 9 ∧ s.dev.pst 9 = 2 ∧ s.dev.portCalm 9) ∧
    (∃ (s : State) (v : VatNo), s.dev.mayIssue v (.carry false) ∧ s.dev.airOpen v 10 ∧ s.dev.pst 10 = 2 ∧ s.dev.portCalm 10) ∧
    (∃ (s : State) (v : VatNo) (p : Nat) (t : Nat) (n : Nat), s.dev.waiting v (.carryOn n) ∧ s.dev.get VAT_BIND.PORT v = p ∧ p ≠ 9 ∧ p ≠ 10 ∧ t = s.dev.launchTick (s.dev.portUnits p) n ∧ (∀ c : Nat, c ∈ s.dev.portUnits p → s.dev.inRx c = true ∧ s.dev.settledAt (s.dev.cfg c) t = true ∧ s.dev.locked (s.dev.synOf c) = true) ∧ s.dev.feSettled ∧ (s.dev.toTick t).launchChecks t (s.dev.portUnits p) = none) ∧
    (∃ (s : State) (v : VatNo) (p : Nat) (t : Nat) (n : Nat) (r : Nat) (fe : Nat), s.dev.waiting v (.carryOn n) ∧ s.dev.get VAT_BIND.PORT v = p ∧ p ≠ 9 ∧ p ≠ 10 ∧ t = s.dev.launchTick (s.dev.portUnits p) n ∧ (∀ c : Nat, c ∈ s.dev.portUnits p → s.dev.inRx c = true ∧ s.dev.settledAt (s.dev.cfg c) t = true ∧ s.dev.locked (s.dev.synOf c) = true) ∧ s.dev.feSettled ∧ (s.dev.toTick t).launchChecks t (s.dev.portUnits p) = some (r, fe)) ∧
    (∃ (s : State) (v : VatNo) (n : Nat), s.dev.waiting v (.carryOn n) ∧ s.dev.get VAT_BIND.PORT v = 9 ∧ s.dev.pst 9 = 1 ∧ s.dev.portCalm 9 ∧ s.dev.isSet HFR_STATUS.PLL_LOCK = true ∧ s.dev.cw.pulse = none) ∧
    (∃ (s : State) (v : VatNo) (t : Nat) (n : Nat) (r : Nat) (fe : Nat), s.dev.waiting v (.carryOn n) ∧ s.dev.get VAT_BIND.PORT v = 9 ∧ s.dev.pst 9 = 1 ∧ s.dev.portCalm 9 ∧ s.dev.isSet HFR_STATUS.PLL_LOCK = true ∧ s.dev.pwr.asleep = none ∧ s.dev.cw.pulse = some (r, fe, t) ∧ max s.dev.tick (n + 154) < r + cwLength) ∧
    (∃ (s : State) (v : VatNo) (n : Nat), s.dev.waiting v (.carryOn n) ∧ s.dev.get VAT_BIND.PORT v = 10 ∧ s.dev.portCalm 10) ∧
    (∃ (s : State) (v : VatNo) (p : Nat) (n : Nat), s.dev.waiting v (.carryOn n) ∧ s.dev.get VAT_BIND.PORT v = p ∧ p ≠ 9 ∧ p ≠ 10 ∧ (s.dev.portUnits p).any (fun c => !s.dev.locked (s.dev.synOf c)) = true) ∧
    (∃ (s : State) (v : VatNo) (p : Nat) (n : Nat), s.dev.waiting v (.carryOn n) ∧ s.dev.get VAT_BIND.PORT v = p ∧ (p = 9 ∨ p = 10) ∧ s.dev.portOn p = false ∧ s.dev.pst p ≠ 4) :=
  ⟨⟨(st ((bound0 0).rx 0)), 0, 0, by unfold Dev.mayIssue Dev.airOpen Dev.feSettled; decide +kernel⟩,
    ⟨(st ((bound0 0).carrying 0)), 0, 0, by unfold Dev.mayIssue Dev.airOpen Dev.feSettled; decide +kernel⟩,
    ⟨(st ((bound0 0).carrying 0)), 0, 0, by unfold Dev.mayIssue Dev.airOpen Dev.feSettled; decide +kernel⟩,
    ⟨(st ((bound0 0).rx 0)), 0, 0, by unfold Dev.mayIssue Dev.airOpen Dev.feSettled; decide +kernel⟩,
    ⟨(st ((bound0 9).put HFR_STATUS.STATE 1)), 0, 9, by unfold Dev.mayIssue Dev.portCalm Dev.airOpen Dev.feSettled; decide +kernel⟩,
    ⟨(st (bound0 9)), 0, 9, by unfold Dev.mayIssue Dev.portCalm Dev.airOpen Dev.feSettled; decide +kernel⟩,
    ⟨(st ((bound0 9).put HFR_STATUS.STATE 2)), 0, by unfold Dev.mayIssue Dev.portCalm Dev.airOpen Dev.feSettled; decide +kernel⟩,
    ⟨(st ((bound0 10).put ACT_STATUS.STATE 2)), 0, by unfold Dev.mayIssue Dev.portCalm Dev.airOpen Dev.feSettled; decide +kernel⟩,
    ⟨(st { ((((((wait0 (.carryOn 9)).put VAT_BIND.PORT 0 0).rx 0).put SYN_F_STATUS.LOCK 1 0).put SYN_F_FREQ.FREQ_KHZ 865700 0).setCh 0 { settleAt := 0 }).put RGU_ACTIVE.VALID 1 with rgu := { hdr := [0x10000, 0, 0xFFFF0000, 0, 0, 0, 1, 0], chan := [(865700, 300)], ant := [(0, 0x80000000)] } }), 0, 0, 9, 9, by unfold Dev.waiting Dev.feSettled; decide +kernel⟩,
    ⟨(st ((((((wait0 (.carryOn 9)).put VAT_BIND.PORT 0 0).rx 0).put SYN_F_STATUS.LOCK 1 0).put SYN_F_FREQ.FREQ_KHZ 865700 0).setCh 0 { settleAt := 0 })), 0, 0, 9, 9, 1, 0, by unfold Dev.waiting Dev.feSettled; decide +kernel⟩,
    ⟨(st ((((wait0 (.carryOn 9)).put VAT_BIND.PORT 9 0).put HFR_STATUS.STATE 1).put HFR_STATUS.PLL_LOCK 1)), 0, 9, by unfold Dev.waiting Dev.portCalm; decide +kernel⟩,
    ⟨(st { (((wait0 (.carryOn 9)).put VAT_BIND.PORT 9 0).put HFR_STATUS.STATE 1).put HFR_STATUS.PLL_LOCK 1 with cw := { pulse := some (0, 7, 9) } }), 0, 9, 9, 0, 7, by unfold Dev.waiting Dev.portCalm; decide +kernel⟩,
    ⟨(st ((wait0 (.carryOn 9)).put VAT_BIND.PORT 10 0)), 0, 9, by unfold Dev.waiting Dev.portCalm; decide +kernel⟩,
    ⟨(st ((wait0 (.carryOn 9)).put VAT_BIND.PORT 0 0)), 0, 0, 9, by unfold Dev.waiting; decide +kernel⟩,
    ⟨(st ((wait0 (.carryOn 9)).put VAT_BIND.PORT 9 0)), 0, 9, 9, by unfold Dev.waiting; decide +kernel⟩⟩

theorem witness_TransmitInstructionsComplete :
    (∃ (s : State) (v : VatNo) (rd : RegNo) (rb : RegNo) (tpl : BitVec 10) (p : Nat) (w : Nat) (n : Nat) (bits : List Bool), s.dev.mayIssue v (.txc rd rb 0 tpl) ∧ s.dev.airOpen v p ∧ p ≠ 9 ∧ p ≠ 10 ∧ s.dev.template v 3 tpl.toNat = some w ∧ bitsOf (s.dev.hw' w) 25 24 = 0 ∧ (∀ c : Nat, c ∈ s.dev.portUnits p → s.dev.cst c = csCarrier ∧ (s.dev.chx c).goal = none) ∧ (s.dev.portRegs p).all (fun u => s.dev.isSet UHF_MODP_A.VALID u (bitsOf (s.dev.hw' w) 31 30)) = true ∧ bits = s.dev.txBits v rd w ∧ n = ((s.dev.portRegs p).map (fun u => s.dev.uhfTicks u w bits)).foldl max 0) ∧
    (∃ (s : State) (v : VatNo) (rd : RegNo) (rb : RegNo) (tpl : BitVec 10) (p : Nat) (w : Nat) (n : Nat) (l : Nat) (ref : Nat) (bits : List Bool), s.dev.mayIssue v (.txc rd rb 1 tpl) ∧ s.dev.airOpen v p ∧ p ≠ 9 ∧ p ≠ 10 ∧ s.dev.template v 3 tpl.toNat = some w ∧ bitsOf (s.dev.hw' w) 25 24 = 0 ∧ (∀ c : Nat, c ∈ s.dev.portUnits p → s.dev.cst c = csCarrier ∧ (s.dev.chx c).goal = none) ∧ (s.dev.portRegs p).all (fun u => s.dev.isSet UHF_MODP_A.VALID u (bitsOf (s.dev.hw' w) 31 30)) = true ∧ bits = s.dev.txBits v rd w ∧ n = ((s.dev.portRegs p).map (fun u => s.dev.uhfTicks u w bits)).foldl max 0 ∧ (s.dev.chx (s.dev.refUnit p)).refE = some ref ∧ l = ref + s.dev.gr v rb ∧ s.dev.namedAt v ≤ l) ∧
    (∃ (s : State) (v : VatNo) (rd : RegNo) (rb : RegNo) (tpl : BitVec 10) (p : Nat) (w : Nat) (ref : Nat), s.dev.mayIssue v (.txc rd rb 1 tpl) ∧ s.dev.airOpen v p ∧ p ≠ 9 ∧ p ≠ 10 ∧ s.dev.template v 3 tpl.toNat = some w ∧ bitsOf (s.dev.hw' w) 25 24 = 0 ∧ (∀ c : Nat, c ∈ s.dev.portUnits p → s.dev.cst c = csCarrier ∧ (s.dev.chx c).goal = none) ∧ (s.dev.portRegs p).all (fun u => s.dev.isSet UHF_MODP_A.VALID u (bitsOf (s.dev.hw' w) 31 30)) = true ∧ s.dev.portRegs p ≠ [] ∧ (s.dev.chx (s.dev.refUnit p)).refE = some ref ∧ ref + s.dev.gr v rb < s.dev.namedAt v) ∧
    (∃ (s : State) (v : VatNo) (rd : RegNo) (rb : RegNo) (tpl : BitVec 10) (p : Nat) (w : Nat) (n : Nat) (l : Nat) (bits : List Bool), s.dev.mayIssue v (.txc rd rb 0 tpl) ∧ s.dev.airOpen v p ∧ (p = 9 ∨ p = 10) ∧ s.dev.template v 3 tpl.toNat = some w ∧ bitsOf (s.dev.hw' w) 25 24 = portKind p ∧ s.dev.pst p = 2 ∧ s.dev.portCalm p ∧ (p = 9 → s.dev.isSet HFR_MODE.VALID 0 (bitsOf (s.dev.hw' w) 31 30) = true) ∧ bits = s.dev.txBits v rd w ∧ n = (if p = 9 then s.dev.hfTicks w bits else s.dev.actTicks w) ∧ (p = 10 → s.dev.dutySum + n ≤ (s.dev.atIssue v).dutyLimit) ∧ l = s.dev.namedAt v + 154) ∧
    (∃ (s : State) (v : VatNo) (p : Nat) (n : Nat) (l : Nat), s.dev.waiting v (.txc l n) ∧ s.dev.get VAT_BIND.PORT v = p ∧ p ≠ 9 ∧ p ≠ 10 ∧ s.dev.feSettled ∧ (∀ c : Nat, c ∈ s.dev.portUnits p → (s.dev.chx c).goal = none) ∧ (∀ u : Nat, u ∈ s.dev.portRegs p → (s.dev.chx u).txOn = true)) ∧
    (∃ (s : State) (v : VatNo) (n : Nat) (l : Nat), s.dev.waiting v (.txc l n) ∧ s.dev.get VAT_BIND.PORT v = 10 ∧ (s.dev.chx 10).levels = []) ∧
    (∃ (s : State) (v : VatNo) (n : Nat) (l : Nat), s.dev.waiting v (.txc l n) ∧ s.dev.get VAT_BIND.PORT v = 9 ∧ (s.dev.chx 9).levels = []) ∧
    (∃ (s : State) (v : VatNo) (ra : RegNo) (w8 : BitVec 8) (p : Nat), s.dev.mayIssue v (.rxb ra w8) ∧ s.dev.airOpen v p ∧ w8.toNat ≤ 144 ∧ sramWords (s.dev.gr v ra) (8 + w8.toNat) = true) :=
  ⟨⟨(st ((((((bound0 0).carrying 0).put UHF_MODP_A.VALID 1 0 0).hooped 3).setWord 0x4400 8).setWord 0x4420 4)), 0, 2, 6, 0, 0, 0x1108, ((((st ((((((bound0 0).carrying 0).put UHF_MODP_A.VALID 1 0 0).hooped 3).setWord 0x4400 8).setWord 0x4420 4)).dev.portRegs 0).map (fun u => (st ((((((bound0 0).carrying 0).put UHF_MODP_A.VALID 1 0 0).hooped 3).setWord 0x4400 8).setWord 0x4420 4)).dev.uhfTicks u 0x1108 ((st ((((((bound0 0).carrying 0).put UHF_MODP_A.VALID 1 0 0).hooped 3).setWord 0x4400 8).setWord 0x4420 4)).dev.txBits 0 2 0x1108))).foldl max 0), (st ((((((bound0 0).carrying 0).put UHF_MODP_A.VALID 1 0 0).hooped 3).setWord 0x4400 8).setWord 0x4420 4)).dev.txBits 0 2 0x1108, by unfold Dev.mayIssue Dev.airOpen Dev.feSettled; decide +kernel⟩,
    ⟨(st (((((((bound0 0).carrying 0).put UHF_MODP_A.VALID 1 0 0).hooped 3).setWord 0x4400 8).setWord 0x4420 4).setCh 0 { refE := some 50 })), 0, 2, 6, 0, 0, 0x1108, ((((st (((((((bound0 0).carrying 0).put UHF_MODP_A.VALID 1 0 0).hooped 3).setWord 0x4400 8).setWord 0x4420 4).setCh 0 { refE := some 50 })).dev.portRegs 0).map (fun u => (st (((((((bound0 0).carrying 0).put UHF_MODP_A.VALID 1 0 0).hooped 3).setWord 0x4400 8).setWord 0x4420 4).setCh 0 { refE := some 50 })).dev.uhfTicks u 0x1108 ((st (((((((bound0 0).carrying 0).put UHF_MODP_A.VALID 1 0 0).hooped 3).setWord 0x4400 8).setWord 0x4420 4).setCh 0 { refE := some 50 })).dev.txBits 0 2 0x1108))).foldl max 0), 50 + (st (((((((bound0 0).carrying 0).put UHF_MODP_A.VALID 1 0 0).hooped 3).setWord 0x4400 8).setWord 0x4420 4).setCh 0 { refE := some 50 })).dev.gr 0 6, 50, (st (((((((bound0 0).carrying 0).put UHF_MODP_A.VALID 1 0 0).hooped 3).setWord 0x4400 8).setWord 0x4420 4).setCh 0 { refE := some 50 })).dev.txBits 0 2 0x1108, by unfold Dev.mayIssue Dev.airOpen Dev.feSettled; decide +kernel⟩,
    ⟨(st { ((((((bound0 0).carrying 0).put UHF_MODP_A.VALID 1 0 0).hooped 3).setWord 0x4400 8).setWord 0x4420 4).setCh 0 { refE := some 50 } with clk := 200 }), 0, 2, 6, 0, 0, 0x1108, 50, by unfold Dev.mayIssue Dev.airOpen Dev.feSettled; decide +kernel⟩,
    ⟨(st ((((((bound0 10).put ACT_STATUS.STATE 2).hooped 3).setWord 0x4400 8).setWord 0x4420 0x02000008))), 0, 2, 6, 0, 10, 0x1108, (st ((((((bound0 10).put ACT_STATUS.STATE 2).hooped 3).setWord 0x4400 8).setWord 0x4420 0x02000008))).dev.actTicks 0x1108, (st ((((((bound0 10).put ACT_STATUS.STATE 2).hooped 3).setWord 0x4400 8).setWord 0x4420 0x02000008))).dev.namedAt 0 + 154, (st ((((((bound0 10).put ACT_STATUS.STATE 2).hooped 3).setWord 0x4400 8).setWord 0x4420 0x02000008))).dev.txBits 0 2 0x1108, by unfold Dev.mayIssue Dev.portCalm Dev.airOpen Dev.feSettled; decide +kernel⟩,
    ⟨(st (((wait0 (.txc 9 20)).put VAT_BIND.PORT 0 0).setCh 0 { txOn := true })), 0, 0, 20, 9, by unfold Dev.waiting Dev.feSettled; decide +kernel⟩,
    ⟨(st (((wait0 (.txc 9 20)).put VAT_BIND.PORT 10 0).setCh 10 { txOn := true })), 0, 20, 9, by unfold Dev.waiting; decide +kernel⟩,
    ⟨(st ((wait0 (.txc 9 99)).put VAT_BIND.PORT 9 0)), 0, 99, 9, by unfold Dev.waiting; decide +kernel⟩,
    ⟨(st ((bound0 0).setGr 0 4 0x100000)), 0, 4, 4, 0, by unfold Dev.mayIssue Dev.airOpen Dev.feSettled; decide +kernel⟩⟩

theorem witness_ReceptionCompletes :
    (∃ (s : State) (v : VatNo) (rd : RegNo) (tpl : BitVec 10) (p : Nat) (w : Nat) (x : Window), s.dev.mayIssue v (.lsn rd tpl) ∧ s.dev.airOpen v p ∧ p ≤ 8 ∧ s.dev.template v 4 tpl.toNat = some w ∧ bitsOf (s.dev.hw' w) 25 24 = 0 ∧ x = s.dev.windowOf w ((s.dev.chx p).lastTx.getD (s.dev.namedAt v)) v none ∧ x.valid false = true ∧ s.dev.namedAt v ≤ x.openAt ∧ csRx ≤ s.dev.cst (s.dev.driver p) ∧ s.dev.cst (s.dev.driver p) ≤ csCarrier ∧ (s.dev.chx (s.dev.driver p)).goal = none ∧ s.dev.capOn p = false) ∧
    (∃ (s : State) (v : VatNo) (rd : RegNo) (tpl : BitVec 10) (p : Nat) (w : Nat), s.dev.mayIssue v (.lsn rd tpl) ∧ s.dev.airOpen v p ∧ 0x0C ≤ p ∧ p ≤ 0x0F ∧ s.dev.template v 4 tpl.toNat = some w ∧ bitsOf (s.dev.hw' w) 25 24 = 0 ∧ (∀ u : Nat, u ∈ s.dev.portRegs p → (s.dev.windowOf w ((s.dev.chx u).lastTx.getD (s.dev.namedAt v)) v none).valid false = true ∧ s.dev.namedAt v ≤ (s.dev.windowOf w ((s.dev.chx u).lastTx.getD (s.dev.namedAt v)) v none).openAt ∧ s.dev.cst (s.dev.driver u) = csCarrier ∧ (s.dev.chx (s.dev.driver u)).goal = none ∧ s.dev.capOn u = false)) ∧
    (∃ (s : State) (c : ChainNo) (x : Window) (o : PreambleObs) (h : Hyp) (d : Dev), s.acts (.preambleValidated (.uhf c) o) d ∧ (d.chx c).win = some x ∧ x.pre = none ∧ x.openAt ≤ o.start ∧ o.start < x.close ∧ x.group = none ∧ takeHyp (d.get UHF_RX_CTRL.PRE_THR c) x.m (o.hyps.filter (hypReach x.blf o.blf.toNat)) = some h) ∧
    (∃ (s : State) (p : Nat) (x : Window) (o : PreambleObs) (d : Dev), s.acts (.preambleValidated (if p = 9 then .hfr else .act) o) d ∧ (p = 9 ∨ p = 10) ∧ (d.chx p).win = some x ∧ x.pre = none ∧ x.openAt ≤ o.start ∧ o.start < x.close) ∧
    (∃ (s : State) (v : VatNo) (c : ChainNo) (rd : RegNo) (x : Window) (r : ReplyObs) (d : Dev), s.acts (.lsnDecision (.uhf c) r) d ∧ (d.chx c).win = some x ∧ x.pre = none ∧ x.group = none ∧ x.vat = some v.val ∧ d.waiting v (.lsn rd) ∧ (x.close ≤ x.openAt ∨ r.level < d.get UHF_RX_CTRL.EN_THR c) ∧ d.guardLater c x r) ∧
    (∃ (s : State) (v : VatNo) (c : ChainNo) (rd : RegNo) (x : Window) (r : ReplyObs) (h : Hyp) (pr : PreambleObs) (d : Dev), s.acts (.lsnDecision (.uhf c) r) d ∧ (d.chx c).win = some x ∧ x.pre = some pr ∧ pr.hyps.head? = some h ∧ x.group = none ∧ x.vat = some v.val ∧ d.waiting v (.lsn rd) ∧ (x.strict = true → h.coding.toNat = x.m) ∧ x.crc16 = true ∧ crc16Good r.bits = true ∧ r.bits.length ≤ 4608 ∧ (expectedLen x.lmode x.len r.bits).1 = some r.bits.length ∧ r.overrun = false ∧ x.t1Min ≤ pr.start ∧ pr.start < x.t1Max ∧ d.floorOf c x.qsel ≤ r.snr.toNat ∧ 1 ≤ r.bits.length ∧ d.guardLater c x r) ∧
    (∃ (s : State) (v : VatNo) (c : ChainNo) (rd : RegNo) (reason : Nat) (x : Window) (r : ReplyObs) (d : Dev), s.acts (.lsnDecision (.uhf c) r) d ∧ (d.chx c).win = some x ∧ c ≠ 8 ∧ d.feSettled ∧ d.feOf c = some c.val ∧ d.driver c = c ∧ d.cst c = csDown ∧ (d.chx c).goal = some csRx ∧ (d.chx c).target = none ∧ (d.chx c).guarded = some reason ∧ (d.chx c).due ≤ d.decideTick c x r ∧ d.calOf c = none ∧ (d.chx c).calBack = none ∧ x.group = none ∧ x.vat = some v.val ∧ d.vatOf c = some v.val ∧ d.get VAT_BIND.PORT v = c ∧ d.waiting v (.lsn rd)) ∧
    (∃ (s : State) (v : VatNo) (rd : RegNo) (p : Nat) (x : Window) (r : ReplyObs) (d : Dev), s.acts (.lsnDecision (if p = 9 then .hfr else .act) r) d ∧ (p = 9 ∨ p = 10) ∧ (d.chx p).win = some x ∧ x.pre = none ∧ x.vat = some v.val ∧ d.binder p = some v.val ∧ d.waiting v (.lsn rd) ∧ (x.close ≤ x.openAt ∨ r.level < (if p = 9 then d.get HFR_RX.EN_THR else d.get ACT_RX.EN_THR))) ∧
    (∃ (s : State) (v : VatNo) (rd : RegNo) (p : Nat) (x : Window) (r : ReplyObs) (pr : PreambleObs) (d : Dev), s.acts (.lsnDecision (if p = 9 then .hfr else .act) r) d ∧ (p = 9 ∨ p = 10) ∧ (d.chx p).win = some x ∧ x.pre = some pr ∧ x.vat = some v.val ∧ d.binder p = some v.val ∧ d.waiting v (.lsn rd) ∧ r.violation = false ∧ r.collisions = [] ∧ r.parityErr = false ∧ r.overrun = false ∧ x.lmode = 0 ∧ x.len = r.bits.length ∧ r.bits.length ≤ 4608 ∧ 1 ≤ r.bits.length ∧ x.crc16 = true ∧ crcHolds (d.portCrc p x.m).1 (d.portCrc p x.m).2 r.bits = true ∧ x.t1Min ≤ pr.start ∧ pr.start < x.t1Max ∧ d.portFloor p x.qsel ≤ r.snr.toNat) :=
  ⟨⟨(st ((((((((((bound0 0).carrying 0).hooped 4).setWord 0x4400 8).setWord 0x4420 16).setWord 0x4424 100).setWord 0x4428 400).setWord 0x442C 150).setWord 0x4430 300).setWord 0x4434 0x03E80200)), 0, 2, 0, 0, 0x1108, (st ((((((((((bound0 0).carrying 0).hooped 4).setWord 0x4400 8).setWord 0x4420 16).setWord 0x4424 100).setWord 0x4428 400).setWord 0x442C 150).setWord 0x4430 300).setWord 0x4434 0x03E80200)).dev.windowOf 0x1108 (((st ((((((((((bound0 0).carrying 0).hooped 4).setWord 0x4400 8).setWord 0x4420 16).setWord 0x4424 100).setWord 0x4428 400).setWord 0x442C 150).setWord 0x4430 300).setWord 0x4434 0x03E80200)).dev.chx 0).lastTx.getD ((st ((((((((((bound0 0).carrying 0).hooped 4).setWord 0x4400 8).setWord 0x4420 16).setWord 0x4424 100).setWord 0x4428 400).setWord 0x442C 150).setWord 0x4430 300).setWord 0x4434 0x03E80200)).dev.namedAt 0)) 0 none, by unfold Dev.mayIssue Dev.airOpen Dev.feSettled; decide +kernel⟩,
    ⟨(st (((((((((((bound0 12).canopy.carrying 1).carrying 2).hooped 4).setWord 0x4400 8).setWord 0x4420 16).setWord 0x4424 100).setWord 0x4428 400).setWord 0x442C 150).setWord 0x4430 300).setWord 0x4434 0x03E80200)), 0, 2, 0, 12, 0x1108, by unfold Dev.mayIssue Dev.airOpen Dev.feSettled; decide +kernel⟩,
    ⟨(st (({} : Dev).setCh 0 { win := some { ref := 0, openAt := 100, close := 400, t1Min := 150, t1Max := 300, blf := 1000, m := 1, trext := false, strict := false, lmode := 0, len := 16, crc16 := true, qsel := 0, vat := some 0 } })), 0, { ref := 0, openAt := 100, close := 400, t1Min := 150, t1Max := 300, blf := 1000, m := 1, trext := false, strict := false, lmode := 0, len := 16, crc16 := true, qsel := 0, vat := some 0 }, { start := 200, tick := 250, hyps := [{ coding := 1, fhyp := 2, corr := 256, pilotLong := false }], gain := 3, rssi := 0, snr := 40, phase := 0, blf := 1000 }, { coding := 1, fhyp := 2, corr := 256, pilotLong := false }, ((st (({} : Dev).setCh 0 { win := some { ref := 0, openAt := 100, close := 400, t1Min := 150, t1Max := 300, blf := 1000, m := 1, trext := false, strict := false, lmode := 0, len := 16, crc16 := true, qsel := 0, vat := some 0 } })).after (.preambleValidated (.uhf 0) ({ start := 200, tick := 250, hyps := [{ coding := 1, fhyp := 2, corr := 256, pilotLong := false }], gain := 3, rssi := 0, snr := 40, phase := 0, blf := 1000 }))), ⟨State.acts_after rfl (by decide +kernel), by decide +kernel⟩⟩,
    ⟨(st (({} : Dev).setCh 9 { win := some { ref := 0, openAt := 100, close := 400, t1Min := 150, t1Max := 300, blf := 1000, m := 1, trext := false, strict := false, lmode := 0, len := 16, crc16 := true, qsel := 0, vat := some 0 } })), 9, { ref := 0, openAt := 100, close := 400, t1Min := 150, t1Max := 300, blf := 1000, m := 1, trext := false, strict := false, lmode := 0, len := 16, crc16 := true, qsel := 0, vat := some 0 }, { start := 200, tick := 250, hyps := [{ coding := 1, fhyp := 2, corr := 256, pilotLong := false }], gain := 3, rssi := 0, snr := 40, phase := 0, blf := 1000 }, ((st (({} : Dev).setCh 9 { win := some { ref := 0, openAt := 100, close := 400, t1Min := 150, t1Max := 300, blf := 1000, m := 1, trext := false, strict := false, lmode := 0, len := 16, crc16 := true, qsel := 0, vat := some 0 } })).after (.preambleValidated (if 9 = 9 then .hfr else .act) ({ start := 200, tick := 250, hyps := [{ coding := 1, fhyp := 2, corr := 256, pilotLong := false }], gain := 3, rssi := 0, snr := 40, phase := 0, blf := 1000 }))), ⟨State.acts_after rfl (by decide +kernel), by decide +kernel⟩⟩,
    ⟨(st ((wait0 (.lsn 2)).setCh 0 { win := some { ref := 0, openAt := 100, close := 400, t1Min := 150, t1Max := 300, blf := 1000, m := 1, trext := false, strict := false, lmode := 0, len := 16, crc16 := true, qsel := 0, vat := some 0 } })), 0, 0, 2, { ref := 0, openAt := 100, close := 400, t1Min := 150, t1Max := 300, blf := 1000, m := 1, trext := false, strict := false, lmode := 0, len := 16, crc16 := true, qsel := 0, vat := some 0 }, { bits := bitsMsb 16 (0xFFFF - crc16Reg []), overrun := false, lowc := 0, clip := false, drift := false, blf := 1000, snr := 40, rssi := 0, level := 0, energyEnd := 0, eD := 500, eR := 600, collisions := [], parityErr := false, violation := false, fofs := 0 }, ((st ((wait0 (.lsn 2)).setCh 0 { win := some { ref := 0, openAt := 100, close := 400, t1Min := 150, t1Max := 300, blf := 1000, m := 1, trext := false, strict := false, lmode := 0, len := 16, crc16 := true, qsel := 0, vat := some 0 } })).after (.lsnDecision (.uhf 0) ({ bits := bitsMsb 16 (0xFFFF - crc16Reg []), overrun := false, lowc := 0, clip := false, drift := false, blf := 1000, snr := 40, rssi := 0, level := 0, energyEnd := 0, eD := 500, eR := 600, collisions := [], parityErr := false, violation := false, fofs := 0 }))), ⟨State.acts_after rfl (by decide +kernel), by unfold Dev.waiting Dev.guardLater; decide +kernel⟩⟩,
    ⟨(st ((wait0 (.lsn 2)).setCh 0 { win := some { ref := 0, openAt := 100, close := 400, t1Min := 150, t1Max := 300, blf := 1000, m := 1, trext := false, strict := false, lmode := 0, len := 16, crc16 := true, qsel := 0, vat := some 0 , pre := some { start := 200, tick := 250, hyps := [{ coding := 1, fhyp := 2, corr := 256, pilotLong := false }], gain := 3, rssi := 0, snr := 40, phase := 0, blf := 1000 } } })), 0, 0, 2, { ref := 0, openAt := 100, close := 400, t1Min := 150, t1Max := 300, blf := 1000, m := 1, trext := false, strict := false, lmode := 0, len := 16, crc16 := true, qsel := 0, vat := some 0 , pre := some { start := 200, tick := 250, hyps := [{ coding := 1, fhyp := 2, corr := 256, pilotLong := false }], gain := 3, rssi := 0, snr := 40, phase := 0, blf := 1000 } }, { bits := bitsMsb 16 (0xFFFF - crc16Reg []), overrun := false, lowc := 0, clip := false, drift := false, blf := 1000, snr := 40, rssi := 0, level := 0, energyEnd := 0, eD := 500, eR := 600, collisions := [], parityErr := false, violation := false, fofs := 0 }, { coding := 1, fhyp := 2, corr := 256, pilotLong := false }, { start := 200, tick := 250, hyps := [{ coding := 1, fhyp := 2, corr := 256, pilotLong := false }], gain := 3, rssi := 0, snr := 40, phase := 0, blf := 1000 }, ((st ((wait0 (.lsn 2)).setCh 0 { win := some { ref := 0, openAt := 100, close := 400, t1Min := 150, t1Max := 300, blf := 1000, m := 1, trext := false, strict := false, lmode := 0, len := 16, crc16 := true, qsel := 0, vat := some 0 , pre := some { start := 200, tick := 250, hyps := [{ coding := 1, fhyp := 2, corr := 256, pilotLong := false }], gain := 3, rssi := 0, snr := 40, phase := 0, blf := 1000 } } })).after (.lsnDecision (.uhf 0) ({ bits := bitsMsb 16 (0xFFFF - crc16Reg []), overrun := false, lowc := 0, clip := false, drift := false, blf := 1000, snr := 40, rssi := 0, level := 0, energyEnd := 0, eD := 500, eR := 600, collisions := [], parityErr := false, violation := false, fofs := 0 }))), ⟨State.acts_after rfl (by decide +kernel), by unfold Dev.waiting Dev.guardLater; decide +kernel⟩⟩,
    ⟨(st ((((wait0 (.lsn 2)).put VAT_BIND.PORT 0 0).put UHF_STATUS.STATE csDown 0).setCh 0 { goal := some csRx, due := 100, guarded := some 3, win := some { ref := 0, openAt := 100, close := 400, t1Min := 150, t1Max := 300, blf := 1000, m := 0, trext := false, strict := false, lmode := 0, len := 24, crc16 := true, qsel := 0, vat := some 0 } })), 0, 0, 2, 3, { ref := 0, openAt := 100, close := 400, t1Min := 150, t1Max := 300, blf := 1000, m := 0, trext := false, strict := false, lmode := 0, len := 24, crc16 := true, qsel := 0, vat := some 0 }, { bits := [], overrun := false, lowc := 0, clip := false, drift := false, blf := 1000, snr := 40, rssi := 0, level := 0, energyEnd := 0, eD := 500, eR := 600, collisions := [], parityErr := false, violation := false, fofs := 0 }, ((st ((((wait0 (.lsn 2)).put VAT_BIND.PORT 0 0).put UHF_STATUS.STATE csDown 0).setCh 0 { goal := some csRx, due := 100, guarded := some 3, win := some { ref := 0, openAt := 100, close := 400, t1Min := 150, t1Max := 300, blf := 1000, m := 0, trext := false, strict := false, lmode := 0, len := 24, crc16 := true, qsel := 0, vat := some 0 } })).after (.lsnDecision (.uhf 0) ({ bits := [], overrun := false, lowc := 0, clip := false, drift := false, blf := 1000, snr := 40, rssi := 0, level := 0, energyEnd := 0, eD := 500, eR := 600, collisions := [], parityErr := false, violation := false, fofs := 0 }))), ⟨State.acts_after rfl (by decide +kernel), by unfold Dev.waiting Dev.feSettled; decide +kernel⟩⟩,
    ⟨(st (((wait0 (.lsn 2)).put VAT_BIND.PORT 9 0).setCh 9 { win := some { ref := 0, openAt := 100, close := 400, t1Min := 150, t1Max := 300, blf := 1000, m := 1, trext := false, strict := false, lmode := 0, len := 16, crc16 := true, qsel := 0, vat := some 0 } })), 0, 2, 9, { ref := 0, openAt := 100, close := 400, t1Min := 150, t1Max := 300, blf := 1000, m := 1, trext := false, strict := false, lmode := 0, len := 16, crc16 := true, qsel := 0, vat := some 0 }, { bits := bitsMsb 16 (0xFFFF - crc16Reg []), overrun := false, lowc := 0, clip := false, drift := false, blf := 1000, snr := 40, rssi := 0, level := 0, energyEnd := 0, eD := 500, eR := 600, collisions := [], parityErr := false, violation := false, fofs := 0 }, ((st (((wait0 (.lsn 2)).put VAT_BIND.PORT 9 0).setCh 9 { win := some { ref := 0, openAt := 100, close := 400, t1Min := 150, t1Max := 300, blf := 1000, m := 1, trext := false, strict := false, lmode := 0, len := 16, crc16 := true, qsel := 0, vat := some 0 } })).after (.lsnDecision (if 9 = 9 then .hfr else .act) ({ bits := bitsMsb 16 (0xFFFF - crc16Reg []), overrun := false, lowc := 0, clip := false, drift := false, blf := 1000, snr := 40, rssi := 0, level := 0, energyEnd := 0, eD := 500, eR := 600, collisions := [], parityErr := false, violation := false, fofs := 0 }))), ⟨State.acts_after rfl (by decide +kernel), by unfold Dev.waiting; decide +kernel⟩⟩,
    ⟨(st (((wait0 (.lsn 2)).put VAT_BIND.PORT 10 0).setCh 10 { win := some { ref := 0, openAt := 100, close := 400, t1Min := 150, t1Max := 300, blf := 1000, m := 0, trext := false, strict := false, lmode := 0, len := 24, crc16 := true, qsel := 0, vat := some 0, pre := some { start := 200, tick := 250, hyps := [], gain := 3, rssi := 0, snr := 40, phase := 0, blf := 1000 } } })), 0, 2, 10, { ref := 0, openAt := 100, close := 400, t1Min := 150, t1Max := 300, blf := 1000, m := 0, trext := false, strict := false, lmode := 0, len := 24, crc16 := true, qsel := 0, vat := some 0, pre := some { start := 200, tick := 250, hyps := [], gain := 3, rssi := 0, snr := 40, phase := 0, blf := 1000 } }, { bits := (List.replicate 8 true ++ crcTail 0 false (List.replicate 8 true)), overrun := false, lowc := 0, clip := false, drift := false, blf := 1000, snr := 40, rssi := 0, level := 0, energyEnd := 0, eD := 500, eR := 600, collisions := [], parityErr := false, violation := false, fofs := 0 }, { start := 200, tick := 250, hyps := [], gain := 3, rssi := 0, snr := 40, phase := 0, blf := 1000 }, ((st (((wait0 (.lsn 2)).put VAT_BIND.PORT 10 0).setCh 10 { win := some { ref := 0, openAt := 100, close := 400, t1Min := 150, t1Max := 300, blf := 1000, m := 0, trext := false, strict := false, lmode := 0, len := 24, crc16 := true, qsel := 0, vat := some 0, pre := some { start := 200, tick := 250, hyps := [], gain := 3, rssi := 0, snr := 40, phase := 0, blf := 1000 } } })).after (.lsnDecision (if 10 = 9 then .hfr else .act) ({ bits := (List.replicate 8 true ++ crcTail 0 false (List.replicate 8 true)), overrun := false, lowc := 0, clip := false, drift := false, blf := 1000, snr := 40, rssi := 0, level := 0, energyEnd := 0, eD := 500, eR := 600, collisions := [], parityErr := false, violation := false, fofs := 0 }))), ⟨State.acts_after rfl (by decide +kernel), by unfold Dev.waiting; decide +kernel⟩⟩⟩

theorem witness_LedgerInstructionsComplete :
    (∃ (s : State) (v : VatNo) (rd : RegNo) (ra : RegNo) (rb : RegNo) (off : BitVec 5) (n : Nat), s.dev.mayIssue v (.lput rd ra rb off) ∧ n = s.dev.gr v rb % 2048 ∧ 1 ≤ n ∧ n ≤ 1024 ∧ sramWords (s.dev.gr v ra) ((off.toNat + n + 31) / 32) = true) ∧
    (∃ (s : State) (v : VatNo) (rd : RegNo) (ra : RegNo) (rb : RegNo) (off : BitVec 5) (n : Nat), s.dev.mayIssue v (.lget rd ra rb off) ∧ n = s.dev.gr v rb % 2048 ∧ 1 ≤ n ∧ n ≤ 1024 ∧ sramWords (s.dev.gr v ra) ((off.toNat + n + 31) / 32) = true) ∧
    (∃ (s : State) (v : VatNo) (ra : RegNo), s.dev.mayIssue v (.ltouch ra)) ∧
    (∃ (s : State) (v : VatNo) (r : Nat) (h : Nat) (q : LReq) (field : List Nat), s.dev.waiting v .ledger ∧ s.dev.ldg.reqs = [q] ∧ q.vat = v ∧ q.ans = none ∧ q.bad = false ∧ s.dev.present 3 = true ∧ s.dev.isSet LDG_STATUS.READY = true ∧ q.op = opLget ∧ h = keyHash (s.dev.get LDG_SEED.SEED) q.key ∧ s.dev.stale (bitsOf h 15 12) = false ∧ field = keyField (s.dev.get LDG_SEED.SEED) q.key ∧ r = ((probeSet h).find? (fun k => s.dev.recMatch k h q.key field)).getD 0xFFFFFFFF) ∧
    (∃ (s : State) (v : VatNo) (r : Nat) (h : Nat) (q : LReq) (field : List Nat), s.dev.waiting v .ledger ∧ s.dev.ldg.reqs = [q] ∧ q.vat = v ∧ q.ans = none ∧ q.bad = false ∧ s.dev.present 3 = true ∧ s.dev.isSet LDG_STATUS.READY = true ∧ q.op = opLput ∧ h = keyHash (s.dev.get LDG_SEED.SEED) q.key ∧ s.dev.stale (bitsOf h 15 12) = false ∧ field = keyField (s.dev.get LDG_SEED.SEED) q.key ∧ (probeSet h).find? (fun k => s.dev.recMatch k h q.key field) = some r ∧ q.sight = none) ∧
    (∃ (s : State) (v : VatNo) (r : Nat) (h : Nat) (q : LReq) (field : List Nat), s.dev.waiting v .ledger ∧ s.dev.ldg.reqs = [q] ∧ q.vat = v ∧ q.ans = none ∧ q.bad = false ∧ s.dev.present 3 = true ∧ s.dev.isSet LDG_STATUS.READY = true ∧ q.op = opLput ∧ h = keyHash (s.dev.get LDG_SEED.SEED) q.key ∧ s.dev.stale (bitsOf h 15 12) = false ∧ field = keyField (s.dev.get LDG_SEED.SEED) q.key ∧ (probeSet h).find? (fun k => s.dev.recMatch k h q.key field) = none ∧ (probeSet h).find? (fun k => !s.dev.recValid k) = some r ∧ 1 ≤ q.key.length ∧ q.key.length ≤ 256 ∧ q.sight = none) ∧
    (∃ (s : State) (v : VatNo) (q : LReq), s.dev.waiting v .ledger ∧ s.dev.ldg.reqs = [q] ∧ q.vat = v ∧ q.ans = none ∧ q.bad = false ∧ s.dev.present 3 = true ∧ s.dev.isSet LDG_STATUS.READY = true ∧ q.op = opLtouch ∧ q.recNo ≤ 65535 ∧ s.dev.stale (q.recNo / 4096) = false ∧ q.sight = none) :=
  ⟨⟨(st ((((run0.setGr 0 4 0x100000).setGr 0 6 40).setWord 0x100000 0xE2801160).setWord 0x100004 0x60000000)), 0, 2, 4, 6, 0, 40, by unfold Dev.mayIssue; decide +kernel⟩,
    ⟨(st ((((run0.setGr 0 4 0x100000).setGr 0 6 40).setWord 0x100000 0xE2801160).setWord 0x100004 0x60000000)), 0, 2, 4, 6, 0, 40, by unfold Dev.mayIssue; decide +kernel⟩,
    ⟨(st run0), 0, 4, by unfold Dev.mayIssue; decide +kernel⟩,
    ⟨(st { ((wait0 .ledger).put LDG_STATUS.READY 1) with ldg := { ((wait0 .ledger).put LDG_STATUS.READY 1).ldg with reqs := [{ vat := 0, at' := 0, op := opLget, rd := 2, key := [true, false, true, true], recNo := 0 }] } }), 0, 0xFFFFFFFF, keyHash 0 [true, false, true, true], { vat := 0, at' := 0, op := opLget, rd := 2, key := [true, false, true, true], recNo := 0 }, keyField 0 [true, false, true, true], by unfold Dev.waiting; decide +kernel⟩,
    ⟨(st { ((((((wait0 .ledger).put LDG_STATUS.READY 1).setRec ((probeSet (keyHash 0 [true, false, true, true])).getD 0 0) 8 0x80040000).setRec ((probeSet (keyHash 0 [true, false, true, true])).getD 0 0) 9 (keyHash 0 [true, false, true, true] / 2 ^ 32)).setRec ((probeSet (keyHash 0 [true, false, true, true])).getD 0 0) 0 0xB0000000)) with ldg := { ((((((wait0 .ledger).put LDG_STATUS.READY 1).setRec ((probeSet (keyHash 0 [true, false, true, true])).getD 0 0) 8 0x80040000).setRec ((probeSet (keyHash 0 [true, false, true, true])).getD 0 0) 9 (keyHash 0 [true, false, true, true] / 2 ^ 32)).setRec ((probeSet (keyHash 0 [true, false, true, true])).getD 0 0) 0 0xB0000000)).ldg with reqs := [{ vat := 0, at' := 0, op := opLput, rd := 2, key := [true, false, true, true], recNo := 0 }] } }), 0, ((probeSet (keyHash 0 [true, false, true, true])).getD 0 0), keyHash 0 [true, false, true, true], { vat := 0, at' := 0, op := opLput, rd := 2, key := [true, false, true, true], recNo := 0 }, keyField 0 [true, false, true, true], by unfold Dev.waiting; decide +kernel⟩,
    ⟨(st { ((wait0 .ledger).put LDG_STATUS.READY 1) with ldg := { ((wait0 .ledger).put LDG_STATUS.READY 1).ldg with reqs := [{ vat := 0, at' := 0, op := opLput, rd := 2, key := [true, false, true, true], recNo := 0 }] } }), 0, ((probeSet (keyHash 0 [true, false, true, true])).getD 0 0), keyHash 0 [true, false, true, true], { vat := 0, at' := 0, op := opLput, rd := 2, key := [true, false, true, true], recNo := 0 }, keyField 0 [true, false, true, true], by unfold Dev.waiting; decide +kernel⟩,
    ⟨(st { ((wait0 .ledger).put LDG_STATUS.READY 1) with ldg := { ((wait0 .ledger).put LDG_STATUS.READY 1).ldg with reqs := [{ vat := 0, at' := 0, op := opLtouch, rd := 2, key := [true, false, true, true], recNo := 5 }] } }), 0, { vat := 0, at' := 0, op := opLtouch, rd := 2, key := [true, false, true, true], recNo := 5 }, by unfold Dev.waiting; decide +kernel⟩⟩

theorem witness_TransactionInstructionsComplete :
    (∃ (s : State) (v : VatNo) (rd : RegNo) (ra : RegNo) (rb : RegNo) (queue : BitVec 6) (ext : Word) (h : Nat) (b : Nat) (d : Dev), s.acts (.topen v rd ra rb queue ext) d ∧ d.mayIssue v (.topen rd ra rb queue ext) ∧ queue.toNat < 48 ∧ d.mayFeed v queue.toNat = true ∧ d.gr v rb % 65536 ≤ 16 * d.get TXN_POOL.SIZE ∧ d.freeHandle = some h ∧ (if blocksOf (d.gr v rb % 65536) = 0 then some 0 else d.lowestRun (blocksOf (d.gr v rb % 65536))) = some b) ∧
    (∃ (s : State) (v : VatNo) (rd : RegNo) (ra : RegNo) (rb : RegNo) (queue : BitVec 6) (ext : Word) (o : Won) (d : Dev), s.acts (.topen v rd ra rb queue ext) d ∧ d.mayIssue v (.topen rd ra rb queue ext) ∧ queue.toNat < 48 ∧ d.mayFeed v queue.toNat = true ∧ d.gr v rb % 65536 = 0 ∧ d.freeHandle = none ∧ d.opened = [o] ∧ o.clk = d.issueAt v ∧ v < o.vat ∧ o.vat < 16 ∧ o.what < 256) ∧
    (∃ (s : State) (v : VatNo) (ra : RegNo) (rb : RegNo) (w8 : BitVec 8) (src : Bool) (h : Nat) (b : Nat), s.dev.mayIssue v (.tput ra rb src w8) ∧ 1 ≤ w8.toNat ∧ (src = true → w8.toNat ≤ 144) ∧ h = s.dev.gr v ra ∧ (src = false → sramWords (s.dev.gr v rb) w8.toNat = true) ∧ s.dev.ownsHandle v h = true ∧ s.dev.get TXN_HINFO1.FILL 0 h + w8.toNat ≤ s.dev.get TXN_HINFO1.DECL 0 h ∧ b = s.dev.get TXN_HINFO2.ADDR 0 h + 4 * s.dev.get TXN_HINFO1.FILL 0 h) ∧
    (∃ (s : State) (v : VatNo) (ra : RegNo) (rb : RegNo) (h : Nat) (q : Nat) (st : Nat) (c : Instr) (i : Isrin) (d : Dev), s.acts c d ∧ ((c, i) = (.tdone v ra, .tdone ra) ∧ st = 0 ∨ (c, i) = (.tfail v ra rb, .tfail ra rb) ∧ st = (if d.gr v rb % 65536 = 0 then stTxnFailed else d.gr v rb % 65536)) ∧ d.mayIssue v i ∧ h = d.gr v ra ∧ d.ownsHandle v h = true ∧ q = d.get TXN_HINFO0.QUEUE 0 h ∧ (d.atIssue v).hasRoom q = true ∧ d.txPend = [] ∧ (d.qx q).stall = none ∧ d.freeing.all (fun f => f.1 != d.issueAt v || f.2.1 != h) = true) ∧
    (∃ (s : State) (v : VatNo) (ra : RegNo) (rb : RegNo) (h : Nat) (q : Nat) (st : Nat) (c : Instr) (i : Isrin) (d : Dev), s.acts c d ∧ ((c, i) = (.tdone v ra, .tdone ra) ∧ st = 0 ∨ (c, i) = (.tfail v ra rb, .tfail ra rb) ∧ st = (if d.gr v rb % 65536 = 0 then stTxnFailed else d.gr v rb % 65536)) ∧ d.mayIssue v i ∧ h = d.gr v ra ∧ d.ownsHandle v h = true ∧ q = d.get TXN_HINFO0.QUEUE 0 h ∧ (d.atIssue v).hasRoom q = false ∧ d.freeing.all (fun f => f.1 != d.issueAt v || f.2.1 != h) = true) ∧
    (∃ (s : State) (v : VatNo) (ra : RegNo) (rb : RegNo) (h : Nat) (b : Nat) (c : Instr) (i : Isrin) (d : Dev), s.acts c d ∧ ((c, i) = (.tdone v ra, .tdone ra) ∨ (c, i) = (.tfail v ra rb, .tfail ra rb)) ∧ d.mayIssue v i ∧ h = d.gr v ra ∧ d.ownsHandle v h = true ∧ d.freeing = some (d.issueAt v, h, b)) :=
  ⟨⟨(st ((((((((run0.put TXN_CQ.EN 1 0 0).put TXN_CQ.QUEUE 2 0 0).put TXN_CQ.VMASK 1 0 0).put QMX_Q_BASE.EN 1 2).put QMX_Q_BASE.LOG2SZ 6 2).put TXN_POOL.BASE 0x100).put TXN_POOL.SIZE 0x100).setGr 0 6 20)), 0, 2, 4, 6, 2, 7, 0, 256, ((st ((((((((run0.put TXN_CQ.EN 1 0 0).put TXN_CQ.QUEUE 2 0 0).put TXN_CQ.VMASK 1 0 0).put QMX_Q_BASE.EN 1 2).put QMX_Q_BASE.LOG2SZ 6 2).put TXN_POOL.BASE 0x100).put TXN_POOL.SIZE 0x100).setGr 0 6 20)).after (.topen 0 2 4 6 2 7)), ⟨State.acts_after rfl (by decide +kernel), by unfold Dev.mayIssue; decide +kernel⟩⟩,
    ⟨(st { ((((((fullHandles.put TXN_CQ.EN 1 0 0).put TXN_CQ.QUEUE 2 0 0).put TXN_CQ.VMASK 1 0 0).put QMX_Q_BASE.EN 1 2).put QMX_Q_BASE.LOG2SZ 6 2)) with opened := [{ clk := 0, vat := 3, what := 9, was := 5, rd := 4 }] }), 0, 2, 4, 6, 2, 7, { clk := 0, vat := 3, what := 9, was := 5, rd := 4 }, ((st { ((((((fullHandles.put TXN_CQ.EN 1 0 0).put TXN_CQ.QUEUE 2 0 0).put TXN_CQ.VMASK 1 0 0).put QMX_Q_BASE.EN 1 2).put QMX_Q_BASE.LOG2SZ 6 2)) with opened := [{ clk := 0, vat := 3, what := 9, was := 5, rd := 4 }] }).after (.topen 0 2 4 6 2 7)), ⟨State.acts_after rfl (by decide +kernel), by unfold Dev.mayIssue; decide +kernel⟩⟩,
    ⟨(st (((run0.put TXN_HINFO0.STATE 1 0 0).put TXN_HINFO1.DECL 20 0 0).put TXN_HINFO2.ADDR 0x104000 0 0)), 0, 4, 6, 4, true, 0, 0x104000, by unfold Dev.mayIssue; decide +kernel⟩,
    ⟨(st (((((run0.put TXN_HINFO0.STATE 1 0 0).put TXN_HINFO0.QUEUE 2 0 0).put QMX_Q_BASE.EN 1 2).put QMX_Q_BASE.LOG2SZ 6 2).put QMX_Q_EP.PROD 0x12 2)), 0, 4, 6, 0, 2, 0, .tdone 0 4, .tdone 4, ((st (((((run0.put TXN_HINFO0.STATE 1 0 0).put TXN_HINFO0.QUEUE 2 0 0).put QMX_Q_BASE.EN 1 2).put QMX_Q_BASE.LOG2SZ 6 2).put QMX_Q_EP.PROD 0x12 2)).after (.tdone 0 4)), ⟨State.acts_after rfl (by decide +kernel), by unfold Dev.mayIssue; decide +kernel⟩⟩,
    ⟨(st (((run0.put TXN_HINFO0.STATE 1 0 0).put TXN_HINFO0.QUEUE 2 0 0))), 0, 4, 6, 0, 2, 0, .tdone 0 4, .tdone 4, ((st (((run0.put TXN_HINFO0.STATE 1 0 0).put TXN_HINFO0.QUEUE 2 0 0))).after (.tdone 0 4)), ⟨State.acts_after rfl (by decide +kernel), by unfold Dev.mayIssue; decide +kernel⟩⟩,
    ⟨(st { (run0.put TXN_HINFO0.STATE 1 0 0) with freeing := some (0, 0, 5) }), 0, 4, 6, 0, 5, .tdone 0 4, .tdone 4, ((st { (run0.put TXN_HINFO0.STATE 1 0 0) with freeing := some (0, 0, 5) }).after (.tdone 0 4)), ⟨State.acts_after rfl (by decide +kernel), by unfold Dev.mayIssue; decide +kernel⟩⟩⟩

theorem witness_QueueInstructionsComplete :
    (∃ (s : State) (v : VatNo) (ch : BitVec 6) (n : Nat), s.dev.mayIssue v (.post ch) ∧ s.dev.vatMayPost v ch.toNat = true ∧ n = (if s.dev.isSet VAT_GEN.GVALID v then s.dev.get VAT_GEN.GEN v + 1 else 0) ∧ n < 7) ∧
    (∃ (s : State) (v : VatNo) (ch : BitVec 6), s.dev.mayIssue v (.post ch) ∧ s.dev.vatMayPost v ch.toNat = false) ∧
    (∃ (s : State) (v : VatNo) (ra : RegNo) (rb : RegNo) (queue : BitVec 6) (w8 : BitVec 8) (q : Nat) (n : Nat) (d : Dev), s.acts (.qpush v ra rb w8 queue) d ∧ d.mayIssue v (.qpush ra rb w8 queue) ∧ q = queue.toNat ∧ q < 48 ∧ d.qEn q = true ∧ d.qProd q = v ∧ sramWords (d.gr v ra) w8.toNat = true ∧ w8.toNat + 1 ≤ d.qSize q ∧ w8.toNat + 1 ≤ (d.atIssue v).qFree q ∧ ((d.qx q).stall = none ∨ (d.atIssue v).qReady q = false) ∧ n = 4 + (w8.toNat + 2) / 2 ∧ (d.gr v ra + 4 * w8.toNat ≤ d.qAddr q ∨ d.qAddr q + 4 * d.qSize q ≤ d.gr v ra)) ∧
    (∃ (s : State) (v : VatNo) (rd : RegNo) (ra : RegNo) (queue : BitVec 6) (w8 : BitVec 8) (q : Nat) (n : Nat) (d : Dev), s.acts (.qpop v rd ra w8 queue) d ∧ d.mayIssue v (.qpop rd ra w8 queue) ∧ q = queue.toNat ∧ q < 48 ∧ d.qEn q = true ∧ d.qCons q = v ∧ sramWords (d.gr v ra) w8.toNat = true ∧ (d.atIssue v).qReady q = true ∧ n = bitsOf (d.qHead q) 15 0) ∧
    (∃ (s : State) (v : VatNo) (rd : RegNo) (ra : RegNo) (queue : BitVec 6) (w8 : BitVec 8) (q : Nat) (d : Dev), s.acts (.qpop v rd ra w8 queue) d ∧ d.mayIssue v (.qpop rd ra w8 queue) ∧ q = queue.toNat ∧ q < 48 ∧ d.qEn q = true ∧ d.qCons q = v ∧ sramWords (d.gr v ra) w8.toNat = true ∧ (d.atIssue v).qReady q = false ∧ d.polls v = true) ∧
    (∃ (s : State) (v : VatNo) (rd : RegNo) (ra : RegNo) (queue : BitVec 6) (w8 : BitVec 8) (q : Nat) (d : Dev), s.acts (.qpop v rd ra w8 queue) d ∧ d.mayIssue v (.qpop rd ra w8 queue) ∧ q = queue.toNat ∧ q < 48 ∧ d.qEn q = true ∧ d.qCons q = v ∧ sramWords (d.gr v ra) w8.toNat = true ∧ (d.atIssue v).qReady q = false ∧ d.polls v = false) ∧
    (∃ (s : State) (v : VatNo) (rd : RegNo) (ra : RegNo) (q : Nat) (n : Nat) (t : Nat) (give : Option Nat), s.dev.waiting v (.qpop rd ra t q give) ∧ s.dev.qCopying q = false ∧ s.dev.qReady q = true ∧ n = bitsOf (s.dev.qHead q) 15 0) ∧
    (∃ (s : State) (v : VatNo) (rd : RegNo) (ra : RegNo) (q : Nat) (n : Nat) (t : Nat), s.dev.waiting v (.qpop rd ra n q (some t)) ∧ (s.dev.toTick t).qReady q = false) :=
  ⟨⟨(st (run0.put TRL_CH.OWNER 1 0 3)), 0, 3, 0, by unfold Dev.mayIssue; decide +kernel⟩,
    ⟨(st (run0.put TRL_CH.SECURE 1 0 3)), 0, 3, by unfold Dev.mayIssue; decide +kernel⟩,
    ⟨(st ((((((run0.setGr 0 4 0x100000).put QMX_Q_BASE.EN 1 2).put QMX_Q_BASE.LOG2SZ 6 2).put QMX_Q_BASE.BASE 64 2).put QMX_Q_EP.PROD 0 2).put QMX_Q_EP.CONS 0 2)), 0, 4, 6, 2, 4, 2, 7, ((st ((((((run0.setGr 0 4 0x100000).put QMX_Q_BASE.EN 1 2).put QMX_Q_BASE.LOG2SZ 6 2).put QMX_Q_BASE.BASE 64 2).put QMX_Q_EP.PROD 0 2).put QMX_Q_EP.CONS 0 2)).after (.qpush 0 4 6 4 2)), ⟨State.acts_after rfl (by decide +kernel), by unfold Dev.mayIssue; decide +kernel⟩⟩,
    ⟨(st ((((((((run0.setGr 0 4 0x100000).put QMX_Q_BASE.EN 1 2).put QMX_Q_BASE.LOG2SZ 6 2).put QMX_Q_BASE.BASE 64 2).put QMX_Q_EP.PROD 0 2).put QMX_Q_EP.CONS 0 2).setQ 2 { prod := 4, vis := 4 }).setWord 0x101000 0x80050003)), 0, 2, 4, 2, 4, 2, 3, ((st ((((((((run0.setGr 0 4 0x100000).put QMX_Q_BASE.EN 1 2).put QMX_Q_BASE.LOG2SZ 6 2).put QMX_Q_BASE.BASE 64 2).put QMX_Q_EP.PROD 0 2).put QMX_Q_EP.CONS 0 2).setQ 2 { prod := 4, vis := 4 }).setWord 0x101000 0x80050003)).after (.qpop 0 2 4 4 2)), ⟨State.acts_after rfl (by decide +kernel), by unfold Dev.mayIssue; decide +kernel⟩⟩,
    ⟨(st (((((((run0.setGr 0 4 0x100000).put QMX_Q_BASE.EN 1 2).put QMX_Q_BASE.LOG2SZ 6 2).put QMX_Q_BASE.BASE 64 2).put QMX_Q_EP.PROD 0 2).put QMX_Q_EP.CONS 0 2).put VAT_STATUS.TMO_ARMED 1 0)), 0, 2, 4, 2, 4, 2, ((st (((((((run0.setGr 0 4 0x100000).put QMX_Q_BASE.EN 1 2).put QMX_Q_BASE.LOG2SZ 6 2).put QMX_Q_BASE.BASE 64 2).put QMX_Q_EP.PROD 0 2).put QMX_Q_EP.CONS 0 2).put VAT_STATUS.TMO_ARMED 1 0)).after (.qpop 0 2 4 4 2)), ⟨State.acts_after rfl (by decide +kernel), by unfold Dev.mayIssue; decide +kernel⟩⟩,
    ⟨(st ((((((run0.setGr 0 4 0x100000).put QMX_Q_BASE.EN 1 2).put QMX_Q_BASE.LOG2SZ 6 2).put QMX_Q_BASE.BASE 64 2).put QMX_Q_EP.PROD 0 2).put QMX_Q_EP.CONS 0 2)), 0, 2, 4, 2, 4, 2, ((st ((((((run0.setGr 0 4 0x100000).put QMX_Q_BASE.EN 1 2).put QMX_Q_BASE.LOG2SZ 6 2).put QMX_Q_BASE.BASE 64 2).put QMX_Q_EP.PROD 0 2).put QMX_Q_EP.CONS 0 2)).after (.qpop 0 2 4 4 2)), ⟨State.acts_after rfl (by decide +kernel), by unfold Dev.mayIssue; decide +kernel⟩⟩,
    ⟨(st (((((((wait0 (.qpop 2 4 4 2 none)).setQ 2 { prod := 4, vis := 4 }).put QMX_Q_BASE.EN 1 2).put QMX_Q_BASE.LOG2SZ 6 2).setWord 0x100000 0x80050003)).setGr 0 4 0x104000)), 0, 2, 4, 2, 3, 4, none, by unfold Dev.waiting; decide +kernel⟩,
    ⟨(st (wait0 (.qpop 2 4 4 2 (some 9)))), 0, 2, 4, 2, 4, 9, by unfold Dev.waiting; decide +kernel⟩⟩

theorem witness_HousekeepingCompletes :
    (∃ (s : State) (v : VatNo) (d : Dev), s.acts (.cntClr v) d) ∧
    (∃ (s : State) (v : VatNo) (d : Dev), s.acts (.aclr v) d) ∧
    (∃ (s : State) (v : VatNo) (by' : Writer) (entry : BitVec 18) (d : Dev), s.acts (.vatSwapArm by' v entry) d ∧ (by' = .loader ∨ d.open' = true)) ∧
    (∃ (s : State) (v : VatNo) (by' : Writer) (entry : BitVec 18) (d : Dev), s.acts (.vatSwapArm by' v entry) d ∧ by' ≠ .loader ∧ d.open' = false) ∧
    (∃ (s : State) (v : VatNo) (d : Dev), s.acts (.vatSwapCancel v) d) ∧
    (∃ (s : State) (v : VatNo) (d : Dev), s.acts (.unbind v) d ∧ (d.vst v = vsStopped ∨ d.vst v = vsHalted ∨ d.vst v = vsFault) ∧ (∀ c : Nat, c ∈ d.portUnits (d.get VAT_BIND.PORT v) → d.gate c = false)) ∧
    (∃ (s : State) (v : VatNo) (d : Dev), s.acts (.unbind v) d ∧ (d.vst v = vsRun ∨ d.vst v = vsWait ∨ d.vst v = vsDebug)) :=
  ⟨⟨(st up), 0, ((st up).after (.cntClr 0)), State.acts_after rfl (by decide +kernel)⟩,
    ⟨(st up), 0, ((st up).after (.aclr 0)), State.acts_after rfl (by decide +kernel)⟩,
    ⟨(st { up with clk := 7 }), 0, .host, 0, ((st { up with clk := 7 }).after (.vatSwapArm .host 0 0)), ⟨State.acts_after rfl (by decide +kernel), by decide +kernel⟩⟩,
    ⟨(st (run0.put LCS_STATE.STATE 2)), 0, .host, 0, ((st (run0.put LCS_STATE.STATE 2)).after (.vatSwapArm .host 0 0)), ⟨State.acts_after rfl (by decide +kernel), by decide +kernel⟩⟩,
    ⟨(st up), 0, ((st up).after (.vatSwapCancel 0)), State.acts_after rfl (by decide +kernel)⟩,
    ⟨(st ((({}:Dev).put VAT_BIND.PORT 3 0))), 0, ((st ((({}:Dev).put VAT_BIND.PORT 3 0))).after (.unbind 0)), ⟨State.acts_after rfl (by decide +kernel), by decide +kernel⟩⟩,
    ⟨(st (bound0 3)), 0, ((st (bound0 3)).after (.unbind 0)), ⟨State.acts_after rfl (by decide +kernel), by decide +kernel⟩⟩⟩

theorem witness_ChainRegisterWritesComplete :
    (∃ (s : State) (c : ChainNo) (sel : BitVec 2) (d : Dev), s.acts (.synSelWrite c sel) d ∧ d.get UHF_CTRL.SYN_SEL c = sel.toNat) ∧
    (∃ (s : State) (c : ChainNo) (sel : BitVec 2) (e0 : Nat) (d : Dev), s.acts (.synSelWrite c sel) d ∧ d.get UHF_CTRL.SYN_SEL c ≠ sel.toNat ∧ e0 = d.driver c ∧ (d.gate c = true ∨ d.gate e0 = true ∨ d.shadowDst sel.toNat = true ∨ (∃ g : Fin 4, d.grpEn g = true ∧ (d.members g).contains c.val = true))) ∧
    (∃ (s : State) (c : ChainNo) (sel : BitVec 2) (e0 : Nat) (d : Dev), s.acts (.synSelWrite c sel) d ∧ d.get UHF_CTRL.SYN_SEL c ≠ sel.toNat ∧ e0 = d.driver c ∧ d.gate c = false ∧ d.gate e0 = false ∧ d.shadowDst sel.toNat = false ∧ (∀ g : Fin 4, d.grpEn g = true → (d.members g).contains c.val = false)) ∧
    (∃ (s : State) (c : ChainNo) (setpt : BitVec 9) (d : Dev), s.acts (.setptWrite c setpt) d ∧ d.setptBad (d.driver c) (min 330 setpt.toNat) = false) ∧
    (∃ (s : State) (c : ChainNo) (setpt : BitVec 9) (d : Dev), s.acts (.setptWrite c setpt) d ∧ d.setptBad (d.driver c) (min 330 setpt.toNat) = true) ∧
    (∃ (s : State) (c : ChainNo) (amp : BitVec 8) (phase : BitVec 10) (d : Dev), s.acts (.txwWrite c amp phase) d ∧ ((d.chx c).txOn = false ∨ d.tick < (d.chx c).txStart) ∧ d.gate (d.driver c) = false) ∧
    (∃ (s : State) (c : ChainNo) (amp : BitVec 8) (phase : BitVec 10) (e0 : Nat) (d : Dev), s.acts (.txwWrite c amp phase) d ∧ ((d.chx c).txOn = false ∨ d.tick < (d.chx c).txStart) ∧ e0 = d.driver c ∧ d.gate e0 = true) ∧
    (∃ (s : State) (c : ChainNo) (amp : BitVec 8) (phase : BitVec 10) (e0 : Nat) (d : Dev), s.acts (.txwWrite c amp phase) d ∧ (d.chx c).txOn = true ∧ (d.chx c).txStart ≤ d.tick ∧ e0 = d.driver c) ∧
    (∃ (s : State) (c : ChainNo) (port : BitVec 4) (d : Dev), s.acts (.portWrite c port) d ∧ d.get UHF_ANT.PORT c = port.toNat) ∧
    (∃ (s : State) (c : ChainNo) (port : BitVec 4) (d : Dev), s.acts (.portWrite c port) d ∧ d.get UHF_ANT.PORT c ≠ port.toNat ∧ d.gate (d.driver c) = false ∧ d.noLaunchNow ∧ bitOf (d.get UHF_ANT.FITTED c) port.toNat = true) ∧
    (∃ (s : State) (c : ChainNo) (port : BitVec 4) (d : Dev), s.acts (.portWrite c port) d ∧ d.get UHF_ANT.PORT c ≠ port.toNat ∧ d.noLaunchNow ∧ (d.gate (d.driver c) = true ∨ bitOf (d.get UHF_ANT.FITTED c) port.toNat = false)) ∧
    (∃ (s : State) (c : ChainNo) (d : Dev), s.acts (.portSettled c) d ∧ d.calOf (d.driver c) = none) ∧
    (∃ (s : State) (c : ChainNo) (k : Fin 4) (part : Fin 3) (value : Word) (d : Dev), s.acts (.modpWrite c k part value) d) ∧
    (∃ (s : State) (c : ChainNo) (pol : Bool) (d : Dev), s.acts (.paenPolWrite c pol) d) ∧
    (∃ (s : State) (c : ChainNo) (mean : BitVec 12) (d : Dev), s.acts (.noiseMean c mean) d ∧ d.cst (d.driver c) = csCarrier ∧ ((d.chx c).txOn = false ∨ d.tick < (d.chx c).txStart) ∧ (d.chx c).win.all (fun w => decide (d.tick < w.openAt)) = true ∧ (c.val = 8 → d.attached = none)) ∧
    (∃ (s : State) (c : ChainNo) (mean : BitVec 12) (d : Dev), s.acts (.noiseMean c mean) d ∧ (d.cst (d.driver c) ≠ csCarrier ∨ (d.chx c).txOn = true ∧ (d.chx c).txStart ≤ d.tick ∨ (d.chx c).win.any (fun w => decide (w.openAt ≤ d.tick)) = true ∨ c.val = 8 ∧ d.attached ≠ none)) ∧
    (∃ (s : State) (c : ChainNo) (d : Dev), s.acts (.vclrVio c) d) ∧
    (∃ (s : State) (c : ChainNo) (d : Dev), s.acts (.vclrCls c) d) :=
  ⟨⟨(st {}), 0, 0, ((st {}).after (.synSelWrite 0 0)), ⟨State.acts_after rfl (by decide +kernel), by decide +kernel⟩⟩,
    ⟨(st (({} : Dev).carrying 0)), 0, 1, 0, ((st (({} : Dev).carrying 0)).after (.synSelWrite 0 1)), ⟨State.acts_after rfl (by decide +kernel), by decide +kernel⟩⟩,
    ⟨(st {}), 0, 1, 0, ((st {}).after (.synSelWrite 0 1)), ⟨State.acts_after rfl (by decide +kernel), by decide +kernel⟩⟩,
    ⟨(st {}), 0, 400, ((st {}).after (.setptWrite 0 400)), ⟨State.acts_after rfl (by decide +kernel), by decide +kernel⟩⟩,
    ⟨(st { ((({} : Dev).carrying 0).put SYN_F_FREQ.FREQ_KHZ 865700 0) with rgu := { hdr := [0x10000, 0, 0xFFFF0000, 0, 0, 0, 1, 0], chan := [(865700, 300)], ant := [(0, 0x80000000)] } }), 0, 330, ((st { ((({} : Dev).carrying 0).put SYN_F_FREQ.FREQ_KHZ 865700 0) with rgu := { hdr := [0x10000, 0, 0xFFFF0000, 0, 0, 0, 1, 0], chan := [(865700, 300)], ant := [(0, 0x80000000)] } }).after (.setptWrite 0 330)), ⟨State.acts_after rfl (by decide +kernel), by decide +kernel⟩⟩,
    ⟨(st {}), 0, 0, 0, ((st {}).after (.txwWrite 0 0 0)), ⟨State.acts_after rfl (by decide +kernel), by decide +kernel⟩⟩,
    ⟨(st (({} : Dev).carrying 0)), 0, 0, 0, 0, ((st (({} : Dev).carrying 0)).after (.txwWrite 0 0 0)), ⟨State.acts_after rfl (by decide +kernel), by decide +kernel⟩⟩,
    ⟨(st (({} : Dev).setCh 0 { txOn := true })), 0, 0, 0, 0, ((st (({} : Dev).setCh 0 { txOn := true })).after (.txwWrite 0 0 0)), ⟨State.acts_after rfl (by decide +kernel), by decide +kernel⟩⟩,
    ⟨(st {}), 0, 0, ((st {}).after (.portWrite 0 0)), ⟨State.acts_after rfl (by decide +kernel), by decide +kernel⟩⟩,
    ⟨(st (({} : Dev).put UHF_ANT.FITTED 0xFF 0)), 0, 3, ((st (({} : Dev).put UHF_ANT.FITTED 0xFF 0)).after (.portWrite 0 3)), ⟨State.acts_after rfl (by decide +kernel), by unfold Dev.noLaunchNow; decide +kernel⟩⟩,
    ⟨(st {}), 0, 3, ((st {}).after (.portWrite 0 3)), ⟨State.acts_after rfl (by decide +kernel), by unfold Dev.noLaunchNow; decide +kernel⟩⟩,
    ⟨(st {}), 0, ((st {}).after (.portSettled 0)), ⟨State.acts_after rfl (by decide +kernel), by decide +kernel⟩⟩,
    ⟨(st up), 0, 0, 0, 0, ((st up).after (.modpWrite 0 0 0 0)), State.acts_after rfl (by decide +kernel)⟩,
    ⟨(st up), 0, false, ((st up).after (.paenPolWrite 0 false)), State.acts_after rfl (by decide +kernel)⟩,
    ⟨(st (({} : Dev).carrying 0)), 0, 0, ((st (({} : Dev).carrying 0)).after (.noiseMean 0 0)), ⟨State.acts_after rfl (by decide +kernel), by decide +kernel⟩⟩,
    ⟨(st {}), 0, 0, ((st {}).after (.noiseMean 0 0)), ⟨State.acts_after rfl (by decide +kernel), by decide +kernel⟩⟩,
    ⟨(st up), 0, ((st up).after (.vclrVio 0)), State.acts_after rfl (by decide +kernel)⟩,
    ⟨(st up), 0, ((st up).after (.vclrCls 0)), State.acts_after rfl (by decide +kernel)⟩⟩

theorem witness_ChainTransitionsComplete :
    (∃ (s : State) (c : ChainNo) (target : BitVec 3) (d : Dev), s.acts (.uhfTargetWrite c target) d ∧ 2 < target.toNat) ∧
    (∃ (s : State) (c : ChainNo) (target : BitVec 3) (d : Dev), s.acts (.uhfTargetWrite c target) d ∧ target.toNat ≤ 2 ∧ d.unattended c ∧ d.carrierOn c = false ∧ d.cst c ≠ csDown ∧ (d.chx c).goal = none ∧ d.noLaunchNow) ∧
    (∃ (s : State) (c : ChainNo) (target : BitVec 3) (d : Dev), s.acts (.uhfTargetWrite c target) d ∧ target.toNat ≤ 2 ∧ d.unattended c ∧ d.carrierOn c = true ∧ (d.chx c).goal = none ∧ d.noLaunchNow) ∧
    (∃ (s : State) (c : ChainNo) (target : BitVec 3) (v : VatNo) (l : Nat) (n : Nat) (d : Dev), s.acts (.uhfTargetWrite c target) d ∧ target.toNat ≤ 2 ∧ d.feOf c = some c.val ∧ d.get VAT_BIND.PORT v = c ∧ d.vatOf c = some v.val ∧ d.waiting v (.txc l n) ∧ (d.chx c).win = none ∧ d.calOf c = none ∧ (d.chx c).goal = none ∧ (d.chx c).txOn = true ∧ d.carrierOn c = true ∧ d.noLaunchNow) ∧
    (∃ (s : State) (c : ChainNo) (d : Dev), s.acts (.rampUpDone c) d ∧ (d.chx c).goal = some csCarrier ∧ d.spare.sw = none ∧ d.noneHeld ∧ d.feSettled) ∧
    (∃ (s : State) (c : ChainNo) (d : Dev), s.acts (.rampDownDone c) d ∧ d.cst c = csDown ∧ (d.chx c).goal = some csRx ∧ d.calOf c = none ∧ (d.chx c).calBack = none ∧ c ≠ 8 ∧ d.feSettled ∧ (d.chx c).guarded = none ∧ (d.vatOf c).all (fun v => decide ((d.vatx v).wait ≠ .carryOff)) = true ∧ (d.chx c).target = none) ∧
    (∃ (s : State) (c : ChainNo) (tg : Nat) (d : Dev), s.acts (.rampDownDone c) d ∧ d.cst c = csDown ∧ (d.chx c).goal = some csRx ∧ d.calOf c = none ∧ (d.chx c).calBack = none ∧ c ≠ 8 ∧ d.feSettled ∧ (d.chx c).guarded = none ∧ d.vatOf c = none ∧ (d.chx c).target = some tg ∧ tg < 2) ∧
    (∃ (s : State) (c : ChainNo) (v : VatNo) (d : Dev), s.acts (.rampDownDone c) d ∧ d.cst c = csDown ∧ (d.chx c).goal = some csRx ∧ d.calOf c = none ∧ (d.chx c).calBack = none ∧ d.feSettled ∧ d.cfg c = c ∧ (d.chx c).guarded = none ∧ d.get VAT_BIND.PORT v = c ∧ d.vatOf c = some v.val ∧ d.portUnits c = [c.val] ∧ (d.chx c).target = none ∧ d.waiting v .carryOff) ∧
    (∃ (s : State) (d : Dev), s.acts (.rampDownDone 8) d ∧ d.cst 8 = csDown ∧ (d.chx 8).goal = some csRx ∧ d.calOf 8 = none ∧ (d.chx 8).calBack = none ∧ d.usFree ∧ d.feSettled ∧ d.spare.sw = none ∧ d.spare.waitTake = none ∧ d.binder 8 = none ∧ (d.chx 8).guarded = none ∧ (d.chx 8).target = none ∧ d.get UHFS_SPARE.READINESS < 2) ∧
    (∃ (s : State) (c : ChainNo) (d : Dev), s.acts (.rampDownDone c) d ∧ d.cst c ≠ csDown) ∧
    (∃ (s : State) (c : ChainNo) (g : Nat) (d : Dev), s.acts (.chainTransitionDone c) d ∧ (d.chx c).goal = some g ∧ g < csCarrier ∧ d.cst c ≠ csDown ∧ d.calOf c = none ∧ d.spare.sw = none ∧ d.noneHeld ∧ (d.chx c).calBack = none ∧ ((d.chx c).target = none ∨ (d.chx c).target = some g)) ∧
    (∃ (s : State) (c : ChainNo) (d : Dev), s.acts (.chainTransitionDone c) d ∧ (d.chx c).goal = some csReady ∧ d.cst c = csOff ∧ d.calOf c = none ∧ d.spare.sw = none ∧ d.noneHeld ∧ (d.chx c).calBack = none ∧ d.feSettled ∧ (d.chx c).target = some csRx) ∧
    (∃ (s : State) (c : ChainNo) (d : Dev), s.acts (.chainTransitionDone c) d ∧ (d.chx c).goal = none) :=
  ⟨⟨(st up), 0, 3, ((st up).after (.uhfTargetWrite 0 3)), ⟨State.acts_after rfl (by decide +kernel), by decide +kernel⟩⟩,
    ⟨(st (({} : Dev).put UHF_STATUS.STATE csReady 0)), 0, 2, ((st (({} : Dev).put UHF_STATUS.STATE csReady 0)).after (.uhfTargetWrite 0 2)), ⟨State.acts_after rfl (by decide +kernel), by unfold Dev.noLaunchNow Dev.unattended; decide +kernel⟩⟩,
    ⟨(st (({} : Dev).carrying 0)), 0, 0, ((st (({} : Dev).carrying 0)).after (.uhfTargetWrite 0 0)), ⟨State.acts_after rfl (by decide +kernel), by unfold Dev.noLaunchNow Dev.unattended; decide +kernel⟩⟩,
    ⟨(st ((((wait0 (.txc 9 99)).put VAT_BIND.PORT 0 0).carrying 0).setCh 0 { txOn := true })), 0, 2, 0, 9, 99, ((st ((((wait0 (.txc 9 99)).put VAT_BIND.PORT 0 0).carrying 0).setCh 0 { txOn := true })).after (.uhfTargetWrite 0 2)), ⟨State.acts_after rfl (by decide +kernel), by unfold Dev.waiting Dev.noLaunchNow; decide +kernel⟩⟩,
    ⟨(st ((({} : Dev).put UHF_STATUS.STATE 3 0).setCh 0 { goal := some 4, due := 50 })), 0, ((st ((({} : Dev).put UHF_STATUS.STATE 3 0).setCh 0 { goal := some 4, due := 50 })).after (.rampUpDone 0)), ⟨State.acts_after rfl (by decide +kernel), by unfold Dev.feSettled Dev.noneHeld; decide +kernel⟩⟩,
    ⟨(st ((({} : Dev).put UHF_STATUS.STATE 6 0).setCh 0 { goal := some 2, due := 50 })), 0, ((st ((({} : Dev).put UHF_STATUS.STATE 6 0).setCh 0 { goal := some 2, due := 50 })).after (.rampDownDone 0)), ⟨State.acts_after rfl (by decide +kernel), by unfold Dev.feSettled; decide +kernel⟩⟩,
    ⟨(st ((({} : Dev).put UHF_STATUS.STATE 6 0).setCh 0 { goal := some 2, due := 50, target := some 1 })), 0, 1, ((st ((({} : Dev).put UHF_STATUS.STATE 6 0).setCh 0 { goal := some 2, due := 50, target := some 1 })).after (.rampDownDone 0)), ⟨State.acts_after rfl (by decide +kernel), by unfold Dev.feSettled; decide +kernel⟩⟩,
    ⟨(st ((((wait0 .carryOff).put VAT_BIND.PORT 0 0).put UHF_STATUS.STATE 6 0).setCh 0 { goal := some 2, due := 50 })), 0, 0, ((st ((((wait0 .carryOff).put VAT_BIND.PORT 0 0).put UHF_STATUS.STATE 6 0).setCh 0 { goal := some 2, due := 50 })).after (.rampDownDone 0)), ⟨State.acts_after rfl (by decide +kernel), by unfold Dev.waiting Dev.feSettled; decide +kernel⟩⟩,
    ⟨(st ((({} : Dev).put UHF_STATUS.STATE 6 8).setCh 8 { goal := some 2, due := 50 })), ((st ((({} : Dev).put UHF_STATUS.STATE 6 8).setCh 8 { goal := some 2, due := 50 })).after (.rampDownDone 8)), ⟨State.acts_after rfl (by decide +kernel), by unfold Dev.usFree Dev.feSettled; decide +kernel⟩⟩,
    ⟨(st {}), 0, ((st {}).after (.rampDownDone 0)), ⟨State.acts_after rfl (by decide +kernel), by decide +kernel⟩⟩,
    ⟨(st (({} : Dev).setCh 0 { goal := some 2, due := 50 })), 0, 2, ((st (({} : Dev).setCh 0 { goal := some 2, due := 50 })).after (.chainTransitionDone 0)), ⟨State.acts_after rfl (by decide +kernel), by unfold Dev.noneHeld; decide +kernel⟩⟩,
    ⟨(st (({} : Dev).setCh 0 { goal := some 1, due := 50, target := some 2 })), 0, ((st (({} : Dev).setCh 0 { goal := some 1, due := 50, target := some 2 })).after (.chainTransitionDone 0)), ⟨State.acts_after rfl (by decide +kernel), by unfold Dev.feSettled Dev.noneHeld; decide +kernel⟩⟩,
    ⟨(st {}), 0, ((st {}).after (.chainTransitionDone 0)), ⟨State.acts_after rfl (by decide +kernel), by decide +kernel⟩⟩⟩

theorem witness_TripsComplete :
    (∃ (s : State) (c : ChainNo) (causes : BitVec 10) (cmd : Instr) (m0 : Nat) (d : Dev), s.acts cmd d ∧ (cmd = .tripForce c ∧ m0 = tripHost ∨ cmd = .chainTrip c causes ∧ m0 = causes.toNat) ∧ (d.chx c).goal = none ∧ d.noneHeld ∧ d.noLaunchNow ∧ d.tripMask c m0 = 0) ∧
    (∃ (s : State) (c : ChainNo) (causes : BitVec 10) (cmd : Instr) (m0 : Nat) (m : Nat) (d : Dev), s.acts cmd d ∧ (cmd = .tripForce c ∧ m0 = tripHost ∨ cmd = .chainTrip c causes ∧ m0 = causes.toNat) ∧ (d.chx c).goal = none ∧ d.noneHeld ∧ d.noLaunchNow ∧ m = d.tripMask c m0 ∧ m ≠ 0 ∧ d.tripRamps c = false ∧ d.unattended c ∧ d.takesOver c m = false ∧ d.spare.sw = none ∧ (c = 8 → d.usFree)) ∧
    (∃ (s : State) (c : ChainNo) (causes : BitVec 10) (cmd : Instr) (m0 : Nat) (d : Dev), s.acts cmd d ∧ (cmd = .tripForce c ∧ m0 = tripHost ∨ cmd = .chainTrip c causes ∧ m0 = causes.toNat) ∧ (d.chx c).goal = none ∧ d.noneHeld ∧ d.noLaunchNow ∧ m0 ≠ 0 ∧ d.tripRamps c = true ∧ d.spare.sw = none) ∧
    (∃ (s : State) (c : ChainNo) (causes : BitVec 10) (cmd : Instr) (v : VatNo) (m0 : Nat) (m : Nat) (n : Nat) (l : Nat) (d : Dev), s.acts cmd d ∧ (cmd = .tripForce c ∧ m0 = tripHost ∨ cmd = .chainTrip c causes ∧ m0 = causes.toNat) ∧ (d.chx c).goal = none ∧ d.noneHeld ∧ d.noLaunchNow ∧ m = d.tripMask c m0 ∧ m ≠ 0 ∧ d.tripRamps c = false ∧ d.takesOver c m = false ∧ d.spare.sw = none ∧ d.feOf c = some c.val ∧ d.get VAT_BIND.PORT v = c ∧ d.vatOf c = some v.val ∧ d.waiting v (.txc l n) ∧ (d.chx c).win = none ∧ d.calOf c = none) ∧
    (∃ (s : State) (c : ChainNo) (causes : BitVec 10) (cmd : Instr) (m0 : Nat) (m : Nat) (d : Dev), s.acts cmd d ∧ (cmd = .tripForce c ∧ m0 = tripHost ∨ cmd = .chainTrip c causes ∧ m0 = causes.toNat) ∧ (d.chx c).goal = none ∧ d.noneHeld ∧ d.noLaunchNow ∧ m = d.tripMask c m0 ∧ m ≠ 0 ∧ d.tripRamps c = false ∧ d.takesOver c m = true ∧ d.unattended c ∧ d.unattended 8 ∧ d.gate 8 = false ∧ d.usFree ∧ d.spare.waitTake = none) ∧
    (∃ (s : State) (causes : BitVec 10) (cmd : Instr) (m0 : Nat) (m : Nat) (n : Nat) (d : Dev), s.acts cmd d ∧ (cmd = .tripForce 8 ∧ m0 = tripHost ∨ cmd = .chainTrip 8 causes ∧ m0 = causes.toNat) ∧ (d.chx 8).goal = none ∧ d.noneHeld ∧ d.noLaunchNow ∧ m = d.tripMask 8 m0 ∧ m ≠ 0 ∧ d.tripRamps 8 = false ∧ d.spare.sw = none ∧ d.attached = some n ∧ n < 8 ∧ d.cfg 8 = n ∧ d.spare.waitRel = none ∧ Nat.land m tripChainKind ≠ 0 ∧ (d.cst n = csReady ∨ d.cst n = csRx) ∧ d.unattended 8 ∧ d.calOf n = none) ∧
    (∃ (s : State) (c : ChainNo) (mask : BitVec 10) (asserted : BitVec 10) (x : Nat) (d : Dev), s.acts (.tripClear c mask asserted) d ∧ x = Nat.land (d.get UHF_TRIP.CAUSE c) (Nat.lor asserted.toNat (0x3FF - mask.toNat)) ∧ (x ≠ 0 ∨ d.cst c ≠ csTrip ∨ (d.chx c).goal ≠ none)) ∧
    (∃ (s : State) (c : ChainNo) (mask : BitVec 10) (asserted : BitVec 10) (d : Dev), s.acts (.tripClear c mask asserted) d ∧ Nat.land (d.get UHF_TRIP.CAUSE c) (Nat.lor asserted.toNat (0x3FF - mask.toNat)) = 0 ∧ d.cst c = csTrip ∧ (d.chx c).goal = none ∧ (d.chx c).calBack = none) ∧
    (∃ (s : State) (syn : Fin 4) (d : Dev), s.acts (.synUnlock syn) d ∧ d.locked syn = false) ∧
    (∃ (s : State) (syn : Fin 4) (d : Dev), s.acts (.synUnlock syn) d ∧ d.locked syn = true ∧ d.noneHeld ∧ (d.synUsers syn).all (fun k => !d.gate k) = true ∧ (∀ k : Nat, k < 9 → (d.chx k).goal = none)) ∧
    (∃ (s : State) (c : ChainNo) (syn : Fin 4) (d : Dev), s.acts (.synUnlock syn) d ∧ d.locked syn = true ∧ d.noneHeld ∧ (d.synUsers syn).filter d.gate = [c.val] ∧ d.cst c ≠ csTrip ∧ (∀ k : Nat, k < 9 → (d.chx k).goal = none) ∧ d.unattended c ∧ d.takesOver c tripSynUnl = false ∧ d.noLaunchNow ∧ d.spare.sw = none ∧ (c = 8 → d.usFree)) :=
  ⟨⟨(st up), 0, 0x80, .chainTrip 0 0x80, 0x80, ((st up).after (.chainTrip 0 0x80)), ⟨State.acts_after rfl (by decide +kernel), by unfold Dev.noLaunchNow Dev.noneHeld; decide +kernel⟩⟩,
    ⟨(st ((({} : Dev).put UHFS_SPARE.ELIGIBLE 0).carrying 0)), 0, 0x80, .tripForce 0, 0x80, 0x80, ((st ((({} : Dev).put UHFS_SPARE.ELIGIBLE 0).carrying 0)).after (.tripForce 0)), ⟨State.acts_after rfl (by decide +kernel), by unfold Dev.noLaunchNow Dev.usFree Dev.unattended Dev.noneHeld; decide +kernel⟩⟩,
    ⟨(st ((({} : Dev).put UHF_STATUS.STATE csTrip 0).setCh 0 { gateShut := 154 })), 0, 0x80, .tripForce 0, 0x80, ((st ((({} : Dev).put UHF_STATUS.STATE csTrip 0).setCh 0 { gateShut := 154 })).after (.tripForce 0)), ⟨State.acts_after rfl (by decide +kernel), by unfold Dev.noLaunchNow Dev.noneHeld; decide +kernel⟩⟩,
    ⟨(st (((((wait0 (.txc 9 99)).put UHFS_SPARE.ELIGIBLE 0).put VAT_BIND.PORT 0 0).carrying 0).setCh 0 { txOn := true })), 0, 0x80, .tripForce 0, 0, 0x80, 0x80, 99, 9, ((st (((((wait0 (.txc 9 99)).put UHFS_SPARE.ELIGIBLE 0).put VAT_BIND.PORT 0 0).carrying 0).setCh 0 { txOn := true })).after (.tripForce 0)), ⟨State.acts_after rfl (by decide +kernel), by unfold Dev.waiting Dev.noLaunchNow Dev.noneHeld; decide +kernel⟩⟩,
    ⟨(st ((({} : Dev).put UHFS_SPARE.ELIGIBLE 1).carrying 0)), 0, 0x80, .tripForce 0, 0x80, 0x80, ((st ((({} : Dev).put UHFS_SPARE.ELIGIBLE 1).carrying 0)).after (.tripForce 0)), ⟨State.acts_after rfl (by decide +kernel), by unfold Dev.noLaunchNow Dev.usFree Dev.unattended Dev.noneHeld; decide +kernel⟩⟩,
    ⟨(st { ((({} : Dev).carrying 8).put UHFS_SPARE.ATTACHED 3).rx 3 with spare := { now := some 3 } }), 0x80, .tripForce 8, 0x80, 0x80, 3, ((st { ((({} : Dev).carrying 8).put UHFS_SPARE.ATTACHED 3).rx 3 with spare := { now := some 3 } }).after (.tripForce 8)), ⟨State.acts_after rfl (by decide +kernel), by unfold Dev.noLaunchNow Dev.unattended Dev.noneHeld; decide +kernel⟩⟩,
    ⟨(st (({} : Dev).put UHF_TRIP.CAUSE 0x12 0)), 0, 0x10, 0, 2, ((st (({} : Dev).put UHF_TRIP.CAUSE 0x12 0)).after (.tripClear 0 0x10 0)), ⟨State.acts_after rfl (by decide +kernel), by decide +kernel⟩⟩,
    ⟨(st ((({} : Dev).put UHF_TRIP.CAUSE 0x12 0).put UHF_STATUS.STATE 7 0)), 0, 0x3FF, 0, ((st ((({} : Dev).put UHF_TRIP.CAUSE 0x12 0).put UHF_STATUS.STATE 7 0)).after (.tripClear 0 0x3FF 0)), ⟨State.acts_after rfl (by decide +kernel), by decide +kernel⟩⟩,
    ⟨(st {}), 0, ((st {}).after (.synUnlock 0)), ⟨State.acts_after rfl (by decide +kernel), by decide +kernel⟩⟩,
    ⟨(st (({} : Dev).put SYN_F_STATUS.LOCK 1 0)), 0, ((st (({} : Dev).put SYN_F_STATUS.LOCK 1 0)).after (.synUnlock 0)), ⟨State.acts_after rfl (by decide +kernel), by unfold Dev.noneHeld; decide +kernel⟩⟩,
    ⟨(st ((({} : Dev).put SYN_F_STATUS.LOCK 1 0).carrying 0)), 0, 0, ((st ((({} : Dev).put SYN_F_STATUS.LOCK 1 0).carrying 0)).after (.synUnlock 0)), ⟨State.acts_after rfl (by decide +kernel), by unfold Dev.noLaunchNow Dev.usFree Dev.unattended Dev.noneHeld; decide +kernel⟩⟩⟩

theorem witness_SynthesisersComplete :
    (∃ (s : State) (m : Fin 4) (freq : BitVec 20) (x0 : Dev), s.acts (.synFreqWrite m freq) x0 ∧ (freq.toNat < 860000 ∨ 960000 < freq.toNat)) ∧
    (∃ (s : State) (m : Fin 4) (freq : BitVec 20) (d : Dev) (x0 : Dev), s.acts (.synFreqWrite m freq) x0 ∧ d = x0.unlaunchs (x0.synUsers m) ∧ 860000 ≤ freq.toNat ∧ freq.toNat ≤ 960000 ∧ (d.anyGate (d.synUsers m) = true ∨ d.shadowDst m = true)) ∧
    (∃ (s : State) (m : Fin 4) (freq : BitVec 20) (d : Dev) (q : SynReq) (x0 : Dev), s.acts (.synFreqWrite m freq) x0 ∧ d = x0.unlaunchs (x0.synUsers m) ∧ 860000 ≤ freq.toNat ∧ freq.toNat ≤ 960000 ∧ d.anyGate (d.synUsers m) = false ∧ d.shadowDst m = false ∧ firstReq (x0.synReqs m) = some q ∧ q.khz ≠ freq.toNat) ∧
    (∃ (s : State) (m : Fin 4) (freq : BitVec 20) (d : Dev) (q : SynReq) (x0 : Dev), s.acts (.synFreqWrite m freq) x0 ∧ d = x0.unlaunchs (x0.synUsers m) ∧ 860000 ≤ freq.toNat ∧ freq.toNat ≤ 960000 ∧ d.anyGate (d.synUsers m) = false ∧ d.shadowDst m = false ∧ firstReq (x0.synReqs m) = some q ∧ q.khz = freq.toNat) ∧
    (∃ (s : State) (m : Fin 4) (freq : BitVec 20) (d : Dev) (x0 : Dev), s.acts (.synFreqWrite m freq) x0 ∧ d = x0.unlaunchs (x0.synUsers m) ∧ 860000 ≤ freq.toNat ∧ freq.toNat ≤ 960000 ∧ d.anyGate (d.synUsers m) = false ∧ d.shadowDst m = false ∧ (d.shadowEarly = false ∨ d.get SYN_SHADOW.SRC ≠ m) ∧ x0.synReqs m = []) ∧
    (∃ (s : State) (m : Fin 4) (freq : BitVec 20) (k : Nat) (d : Dev) (x0 : Dev), s.acts (.synFreqWrite m freq) x0 ∧ d = x0.unlaunchs (x0.synUsers m) ∧ 860000 ≤ freq.toNat ∧ freq.toNat ≤ 960000 ∧ d.anyGate (d.synUsers m) = false ∧ d.shadowDst m = false ∧ d.shadowEarly = true ∧ d.get SYN_SHADOW.SRC = m ∧ d.get SYN_SHADOW.DST = k ∧ x0.synReqs m = []) ∧
    (∃ (s : State) (m : Fin 4) (x0 : Dev), s.acts (.synLock m) x0 ∧ x0.locked m = false ∧ x0.cal = [] ∧ x0.spare.sw = none ∧ x0.noneHeld) ∧
    (∃ (s : State) (m : Fin 4) (x0 : Dev), s.acts (.synLock m) x0 ∧ (x0.synCal m = true ∨ x0.locked m = true)) ∧
    (∃ (s : State) (m : Fin 4) (temp : BitVec 8) (cmd : Instr) (d : Dev), s.acts cmd d ∧ (cmd = .recal m ∨ (cmd = .synDriftRecal m temp ∧ (d.get SYN_DRIFT.DT : Int) < (temp.toInt - signedOf 8 (d.get SYN_F_CAL.TCAL m)).natAbs)) ∧ d.synUsers m = [] ∧ d.shadowing m = false ∧ d.synCal m = false) ∧
    (∃ (s : State) (m : Fin 4) (temp : BitVec 8) (cmd : Instr) (d : Dev), s.acts cmd d ∧ ((cmd = .recal m ∧ d.synUsers m ≠ []) ∨ ((cmd = .recal m ∨ (cmd = .synDriftRecal m temp ∧ d.synUsers m = [] ∧ (d.get SYN_DRIFT.DT : Int) < (temp.toInt - signedOf 8 (d.get SYN_F_CAL.TCAL m)).natAbs)) ∧ (d.shadowing m = true ∨ d.synCal m = true)))) ∧
    (∃ (s : State) (m : Fin 4) (ok : Bool) (temp : BitVec 8) (r : CalRun) (d : Dev) (x0 : Dev), s.acts (.synRecalDone m ok temp) x0 ∧ d = x0.calUncut (9 + m) ∧ d.calOf (9 + m) = some r ∧ d.spare.auto = none) ∧
    (∃ (s : State) (m : Fin 4) (ok : Bool) (temp : BitVec 8) (x0 : Dev), s.acts (.synRecalDone m ok temp) x0 ∧ (x0.calUncut (9 + m)).calOf (9 + m) = none) ∧
    (∃ (s : State) (m : Fin 4) (temp : BitVec 8) (x0 : Dev), s.acts (.synDriftRecal m temp) x0 ∧ x0.synUsers m ≠ [] ∧ (x0.shadowRuns = true ∨ (List.range 4).find? (fun j => j != m.val && (x0.synUsers j).isEmpty && !x0.synCal j && !x0.shadowing j) = none)) ∧
    (∃ (s : State) (m : Fin 4) (temp : BitVec 8) (x0 : Dev), s.acts (.synDriftRecal m temp) x0 ∧ (temp.toInt - signedOf 8 (x0.get SYN_F_CAL.TCAL m)).natAbs ≤ (x0.get SYN_DRIFT.DT : Int)) ∧
    (∃ (s : State) (m : Fin 4) (temp : BitVec 8) (org : BitVec 2) (dst : BitVec 2) (cmd : Instr) (k : Nat) (o : Nat) (d : Dev), s.acts cmd d ∧ (cmd = .shadowGo org dst ∧ o = org.toNat ∧ k = dst.toNat ∨ (cmd = .synDriftRecal m temp ∧ o = m ∧ d.synUsers m ≠ [] ∧ (d.get SYN_DRIFT.DT : Int) < (temp.toInt - signedOf 8 (d.get SYN_F_CAL.TCAL m)).natAbs ∧ (List.range 4).find? (fun j => j != m.val && (d.synUsers j).isEmpty && !d.synCal j && !d.shadowing j) = some k)) ∧ d.shadowRuns = false ∧ k ≠ o ∧ d.synUsers k = [] ∧ d.synCal k = false) ∧
    (∃ (s : State) (org : BitVec 2) (dst : BitVec 2) (o : Nat) (x0 : Dev), s.acts (.shadowGo org dst) x0 ∧ x0.shadowRuns = true ∧ o = x0.get SYN_SHADOW.SRC) ∧
    (∃ (s : State) (org : BitVec 2) (dst : BitVec 2) (o : Nat) (x0 : Dev), s.acts (.shadowGo org dst) x0 ∧ x0.shadowRuns = false ∧ o = org.toNat ∧ (dst = org ∨ x0.synUsers dst.toNat ≠ [] ∨ x0.synCal dst.toNat = true)) ∧
    (∃ (s : State) (x0 : Dev), s.acts .shadowCancel x0 ∧ x0.shadowEarly = true) ∧
    (∃ (s : State) (x0 : Dev), s.acts .shadowCancel x0 ∧ x0.shadowEarly = false) ∧
    (∃ (s : State) (x0 : Dev), s.acts .shadowAbandon x0 ∧ x0.shadowEarly = false) ∧
    (∃ (s : State) (o : Nat) (x0 : Dev), s.acts .shadowAbandon x0 ∧ x0.shadowEarly = true ∧ o = x0.get SYN_SHADOW.SRC) ∧
    (∃ (s : State) (k : Nat) (o : Nat) (x0 : Dev), s.acts .shadowSwap x0 ∧ o = x0.get SYN_SHADOW.SRC ∧ k = x0.get SYN_SHADOW.DST ∧ x0.get SYN_SHADOW.STATE = 2 ∧ x0.locked k = true ∧ x0.anyGate (x0.synUsers o) = false ∧ k < 4 ∧ x0.noLaunchNow) ∧
    (∃ (s : State) (x0 : Dev), s.acts .shadowSwap x0 ∧ (x0.get SYN_SHADOW.STATE ≠ 2 ∨ x0.locked (x0.get SYN_SHADOW.DST) = false ∨ (x0.unlaunchs (x0.synUsers (x0.get SYN_SHADOW.SRC))).anyGate (x0.synUsers (x0.get SYN_SHADOW.SRC)) = true)) :=
  ⟨⟨(st up), 0, 859999, ((st up).after (.synFreqWrite 0 859999)), ⟨State.acts_after rfl (by decide +kernel), by decide +kernel⟩⟩,
    ⟨(st (({} : Dev).carrying 0)), 0, 860000, (((st (({} : Dev).carrying 0)).after (.synFreqWrite 0 860000)).unlaunchs (((st (({} : Dev).carrying 0)).after (.synFreqWrite 0 860000)).synUsers 0)), ((st (({} : Dev).carrying 0)).after (.synFreqWrite 0 860000)), ⟨State.acts_after rfl (by decide +kernel), by decide +kernel⟩⟩,
    ⟨(st { ({} : Dev) with syn := [(0, { reqs := [{ vat := 3, khz := 900000, slot := 1 }] })] }), 0, 860000, (((st { ({} : Dev) with syn := [(0, { reqs := [{ vat := 3, khz := 900000, slot := 1 }] })] }).after (.synFreqWrite 0 860000)).unlaunchs (((st { ({} : Dev) with syn := [(0, { reqs := [{ vat := 3, khz := 900000, slot := 1 }] })] }).after (.synFreqWrite 0 860000)).synUsers 0)), { vat := 3, khz := 900000, slot := 1 }, ((st { ({} : Dev) with syn := [(0, { reqs := [{ vat := 3, khz := 900000, slot := 1 }] })] }).after (.synFreqWrite 0 860000)), ⟨State.acts_after rfl (by decide +kernel), by decide +kernel⟩⟩,
    ⟨(st { ({} : Dev) with syn := [(0, { reqs := [{ vat := 3, khz := 860000, slot := 1 }] })] }), 0, 860000, (((st { ({} : Dev) with syn := [(0, { reqs := [{ vat := 3, khz := 860000, slot := 1 }] })] }).after (.synFreqWrite 0 860000)).unlaunchs (((st { ({} : Dev) with syn := [(0, { reqs := [{ vat := 3, khz := 860000, slot := 1 }] })] }).after (.synFreqWrite 0 860000)).synUsers 0)), { vat := 3, khz := 860000, slot := 1 }, ((st { ({} : Dev) with syn := [(0, { reqs := [{ vat := 3, khz := 860000, slot := 1 }] })] }).after (.synFreqWrite 0 860000)), ⟨State.acts_after rfl (by decide +kernel), by decide +kernel⟩⟩,
    ⟨(st {}), 0, 860000, (((st {}).after (.synFreqWrite 0 860000)).unlaunchs (((st {}).after (.synFreqWrite 0 860000)).synUsers 0)), ((st {}).after (.synFreqWrite 0 860000)), ⟨State.acts_after rfl (by decide +kernel), by decide +kernel⟩⟩,
    ⟨(st (((({} : Dev).put SYN_SHADOW.STATE 2).put SYN_SHADOW.SRC 0).put SYN_SHADOW.DST 1)), 0, 865700, 1, (((st (((({} : Dev).put SYN_SHADOW.STATE 2).put SYN_SHADOW.SRC 0).put SYN_SHADOW.DST 1)).after (.synFreqWrite 0 865700)).unlaunchs (((st (((({} : Dev).put SYN_SHADOW.STATE 2).put SYN_SHADOW.SRC 0).put SYN_SHADOW.DST 1)).after (.synFreqWrite 0 865700)).synUsers 0)), ((st (((({} : Dev).put SYN_SHADOW.STATE 2).put SYN_SHADOW.SRC 0).put SYN_SHADOW.DST 1)).after (.synFreqWrite 0 865700)), ⟨State.acts_after rfl (by decide +kernel), by decide +kernel⟩⟩,
    ⟨(st {}), 0, ((st {}).after (.synLock 0)), ⟨State.acts_after rfl (by decide +kernel), by unfold Dev.noneHeld; decide +kernel⟩⟩,
    ⟨(st (({} : Dev).put SYN_F_STATUS.LOCK 1 0)), 0, ((st (({} : Dev).put SYN_F_STATUS.LOCK 1 0)).after (.synLock 0)), ⟨State.acts_after rfl (by decide +kernel), by decide +kernel⟩⟩,
    ⟨(st ((((((((((({} : Dev).put UHF_CTRL.SYN_SEL 3 0).put UHF_CTRL.SYN_SEL 3 1).put UHF_CTRL.SYN_SEL 3 2).put UHF_CTRL.SYN_SEL 3 3).put UHF_CTRL.SYN_SEL 3 4).put UHF_CTRL.SYN_SEL 3 5).put UHF_CTRL.SYN_SEL 3 6).put UHF_CTRL.SYN_SEL 3 7).put UHF_CTRL.SYN_SEL 3 8))), 0, 30, .recal 0, ((st ((((((((((({} : Dev).put UHF_CTRL.SYN_SEL 3 0).put UHF_CTRL.SYN_SEL 3 1).put UHF_CTRL.SYN_SEL 3 2).put UHF_CTRL.SYN_SEL 3 3).put UHF_CTRL.SYN_SEL 3 4).put UHF_CTRL.SYN_SEL 3 5).put UHF_CTRL.SYN_SEL 3 6).put UHF_CTRL.SYN_SEL 3 7).put UHF_CTRL.SYN_SEL 3 8))).after (.recal 0)), ⟨State.acts_after rfl (by decide +kernel), by decide +kernel⟩⟩,
    ⟨(st ((((((((((({} : Dev).put UHF_CTRL.SYN_SEL 0 0).put UHF_CTRL.SYN_SEL 3 1).put UHF_CTRL.SYN_SEL 3 2).put UHF_CTRL.SYN_SEL 3 3).put UHF_CTRL.SYN_SEL 3 4).put UHF_CTRL.SYN_SEL 3 5).put UHF_CTRL.SYN_SEL 3 6).put UHF_CTRL.SYN_SEL 3 7).put UHF_CTRL.SYN_SEL 3 8))), 0, 30, .recal 0, ((st ((((((((((({} : Dev).put UHF_CTRL.SYN_SEL 0 0).put UHF_CTRL.SYN_SEL 3 1).put UHF_CTRL.SYN_SEL 3 2).put UHF_CTRL.SYN_SEL 3 3).put UHF_CTRL.SYN_SEL 3 4).put UHF_CTRL.SYN_SEL 3 5).put UHF_CTRL.SYN_SEL 3 6).put UHF_CTRL.SYN_SEL 3 7).put UHF_CTRL.SYN_SEL 3 8))).after (.recal 0)), ⟨State.acts_after rfl (by decide +kernel), by decide +kernel⟩⟩,
    ⟨(st { ({} : Dev) with cal := [(9, { op := 1, sub := 1 })] }), 0, false, 0, { op := 1, sub := 1 }, ((st { ({} : Dev) with cal := [(9, { op := 1, sub := 1 })] }).dev.calUncut (9 + (0 : Fin 4))), ((st { ({} : Dev) with cal := [(9, { op := 1, sub := 1 })] }).after (.synRecalDone 0 false 0)), ⟨State.acts_after rfl (by decide +kernel), by decide +kernel⟩⟩,
    ⟨(st {}), 0, false, 0, ((st {}).after (.synRecalDone 0 false 0)), ⟨State.acts_after rfl (by decide +kernel), by decide +kernel⟩⟩,
    ⟨(st (({} : Dev).put SYN_SHADOW.STATE 1)), 0, 0, ((st (({} : Dev).put SYN_SHADOW.STATE 1)).after (.synDriftRecal 0 0)), ⟨State.acts_after rfl (by decide +kernel), by decide +kernel⟩⟩,
    ⟨(st {}), 0, 0, ((st {}).after (.synDriftRecal 0 0)), ⟨State.acts_after rfl (by decide +kernel), by decide +kernel⟩⟩,
    ⟨(st ((((((((((({} : Dev).put UHF_CTRL.SYN_SEL 3 0).put UHF_CTRL.SYN_SEL 3 1).put UHF_CTRL.SYN_SEL 3 2).put UHF_CTRL.SYN_SEL 3 3).put UHF_CTRL.SYN_SEL 3 4).put UHF_CTRL.SYN_SEL 3 5).put UHF_CTRL.SYN_SEL 3 6).put UHF_CTRL.SYN_SEL 3 7).put UHF_CTRL.SYN_SEL 3 8))), 0, 30, 3, 0, .shadowGo 3 0, 0, 3, ((st ((((((((((({} : Dev).put UHF_CTRL.SYN_SEL 3 0).put UHF_CTRL.SYN_SEL 3 1).put UHF_CTRL.SYN_SEL 3 2).put UHF_CTRL.SYN_SEL 3 3).put UHF_CTRL.SYN_SEL 3 4).put UHF_CTRL.SYN_SEL 3 5).put UHF_CTRL.SYN_SEL 3 6).put UHF_CTRL.SYN_SEL 3 7).put UHF_CTRL.SYN_SEL 3 8))).after (.shadowGo 3 0)), ⟨State.acts_after rfl (by decide +kernel), by decide +kernel⟩⟩,
    ⟨(st (((({} : Dev).put SYN_SHADOW.STATE 1).put SYN_SHADOW.SRC 0).put SYN_SHADOW.DST 1)), 0, 0, 0, ((st (((({} : Dev).put SYN_SHADOW.STATE 1).put SYN_SHADOW.SRC 0).put SYN_SHADOW.DST 1)).after (.shadowGo 0 0)), ⟨State.acts_after rfl (by decide +kernel), by decide +kernel⟩⟩,
    ⟨(st {}), 0, 0, 0, ((st {}).after (.shadowGo 0 0)), ⟨State.acts_after rfl (by decide +kernel), by decide +kernel⟩⟩,
    ⟨(st (((({} : Dev).put SYN_SHADOW.STATE 1).put SYN_SHADOW.SRC 0).put SYN_SHADOW.DST 1)), ((st (((({} : Dev).put SYN_SHADOW.STATE 1).put SYN_SHADOW.SRC 0).put SYN_SHADOW.DST 1)).after .shadowCancel), ⟨State.acts_after rfl (by decide +kernel), by decide +kernel⟩⟩,
    ⟨(st up), ((st up).after .shadowCancel), ⟨State.acts_after rfl (by decide +kernel), by decide +kernel⟩⟩,
    ⟨(st {}), ((st {}).after .shadowAbandon), ⟨State.acts_after rfl (by decide +kernel), by decide +kernel⟩⟩,
    ⟨(st (((({} : Dev).put SYN_SHADOW.STATE 1).put SYN_SHADOW.SRC 0).put SYN_SHADOW.DST 1)), 0, ((st (((({} : Dev).put SYN_SHADOW.STATE 1).put SYN_SHADOW.SRC 0).put SYN_SHADOW.DST 1)).after .shadowAbandon), ⟨State.acts_after rfl (by decide +kernel), by decide +kernel⟩⟩,
    ⟨(st ((((((((((((({} : Dev).put UHF_CTRL.SYN_SEL 0 0).put UHF_CTRL.SYN_SEL 3 1).put UHF_CTRL.SYN_SEL 3 2).put UHF_CTRL.SYN_SEL 3 3).put UHF_CTRL.SYN_SEL 3 4).put UHF_CTRL.SYN_SEL 3 5).put UHF_CTRL.SYN_SEL 3 6).put UHF_CTRL.SYN_SEL 3 7).put UHF_CTRL.SYN_SEL 3 8)).put SYN_SHADOW.STATE 2).put SYN_SHADOW.DST 1 |>.put SYN_F_STATUS.LOCK 1 1)), 1, 0, ((st ((((((((((((({} : Dev).put UHF_CTRL.SYN_SEL 0 0).put UHF_CTRL.SYN_SEL 3 1).put UHF_CTRL.SYN_SEL 3 2).put UHF_CTRL.SYN_SEL 3 3).put UHF_CTRL.SYN_SEL 3 4).put UHF_CTRL.SYN_SEL 3 5).put UHF_CTRL.SYN_SEL 3 6).put UHF_CTRL.SYN_SEL 3 7).put UHF_CTRL.SYN_SEL 3 8)).put SYN_SHADOW.STATE 2).put SYN_SHADOW.DST 1 |>.put SYN_F_STATUS.LOCK 1 1)).after .shadowSwap), ⟨State.acts_after rfl (by decide +kernel), by unfold Dev.noLaunchNow; decide +kernel⟩⟩,
    ⟨(st {}), ((st {}).after .shadowSwap), ⟨State.acts_after rfl (by decide +kernel), by decide +kernel⟩⟩⟩

theorem witness_RepliesAndCapturesComplete :
    (∃ (s : State) (c : ChainNo) (d : Dev), s.acts (.capArm c) d ∧ d.rxShut c = true) ∧
    (∃ (s : State) (c : ChainNo) (d : Dev), s.acts (.capArm c) d ∧ d.rxShut c = false ∧ d.capOwner = none ∧ d.get UHF_CAP_CTRL.TRIG c ≠ 0) ∧
    (∃ (s : State) (c : ChainNo) (d : Dev), s.acts (.capArm c) d ∧ d.rxShut c = false ∧ d.capOwner = none ∧ d.get UHF_CAP_CTRL.TRIG c = 0) ∧
    (∃ (s : State) (c : ChainNo) (o : Nat) (d : Dev), s.acts (.capArm c) d ∧ d.rxShut c = false ∧ d.capOwner = some o ∧ o ≠ c) ∧
    (∃ (s : State) (c : ChainNo) (d : Dev), s.acts (.capArm c) d ∧ d.capOwner = some c.val) ∧
    (∃ (s : State) (c : ChainNo) (d : Dev), s.acts (.capAbort c) d ∧ d.capOwner = some c.val) ∧
    (∃ (s : State) (c : ChainNo) (d : Dev), s.acts (.capAbort c) d ∧ d.capOwner ≠ some c.val) ∧
    (∃ (s : State) (c : ChainNo) (idx : BitVec 16) (written : Nat) (t : Nat) (n : Nat) (d : Dev), s.acts (.capTrigger c idx written) d ∧ d.get UHF_CAP_STATUS.STATE c = 1 ∧ ((d.get UHF_CAP_CTRL.TRIG c = 1 ∧ (d.chx c).win.map (fun w => w.openAt) = some t) ∨ (d.get UHF_CAP_CTRL.TRIG c = 2 ∧ ((d.chx c).win.bind (fun w => w.pre)).map (fun y => y.tick) = some t) ∨ (d.get UHF_CAP_CTRL.TRIG c = 3 ∧ d.get UHF_RX_STATUS.LAST_CLASS c = d.get UHF_CAP_CTRL.CMATCH c ∧ t = (d.chx c).slotTick)) ∧ (d.chx c).capAt ≤ t ∧ 0 < t ∧ n = d.capCount c t) ∧
    (∃ (s : State) (c : ChainNo) (idx : BitVec 16) (written : Nat) (t : Nat) (d : Dev), s.acts (.capTrigger c idx written) d ∧ (d.get UHF_CAP_STATUS.STATE c ≠ 1 ∨ d.capWhen c = none ∨ (d.capWhen c = some t ∧ (t < (d.chx c).capAt ∨ t = 0)))) ∧
    (∃ (s : State) (c : ChainNo) (samples : List Word) (n : Nat) (o : Nat) (d : Dev), s.acts (.capDone c samples) d ∧ d.get UHF_CAP_STATUS.STATE c = 2 ∧ n = (d.chx c).capTrig + 8192 * (8 - d.get UHF_CAP_CTRL.PRE c) ∧ o = (d.chx c).capDone) ∧
    (∃ (s : State) (c : ChainNo) (samples : List Word) (d : Dev), s.acts (.capDone c samples) d ∧ d.get UHF_CAP_STATUS.STATE c ≠ 2) :=
  ⟨⟨(st { ({} : Dev) with spare := { now := some 3 } }), 8, ((st { ({} : Dev) with spare := { now := some 3 } }).after (.capArm 8)), ⟨State.acts_after rfl (by decide +kernel), by decide +kernel⟩⟩,
    ⟨(st (({} : Dev).put UHF_CAP_CTRL.TRIG 1 0)), 0, ((st (({} : Dev).put UHF_CAP_CTRL.TRIG 1 0)).after (.capArm 0)), ⟨State.acts_after rfl (by decide +kernel), by decide +kernel⟩⟩,
    ⟨(st {}), 0, ((st {}).after (.capArm 0)), ⟨State.acts_after rfl (by decide +kernel), by decide +kernel⟩⟩,
    ⟨(st (({} : Dev).put UHF_CAP_STATUS.STATE 2 1)), 0, 1, ((st (({} : Dev).put UHF_CAP_STATUS.STATE 2 1)).after (.capArm 0)), ⟨State.acts_after rfl (by decide +kernel), by decide +kernel⟩⟩,
    ⟨(st (({} : Dev).put UHF_CAP_STATUS.STATE 1 0)), 0, ((st (({} : Dev).put UHF_CAP_STATUS.STATE 1 0)).after (.capArm 0)), ⟨State.acts_after rfl (by decide +kernel), by decide +kernel⟩⟩,
    ⟨(st (({} : Dev).put UHF_CAP_STATUS.STATE 2 0)), 0, ((st (({} : Dev).put UHF_CAP_STATUS.STATE 2 0)).after (.capAbort 0)), ⟨State.acts_after rfl (by decide +kernel), by decide +kernel⟩⟩,
    ⟨(st {}), 0, ((st {}).after (.capAbort 0)), ⟨State.acts_after rfl (by decide +kernel), by decide +kernel⟩⟩,
    ⟨(st ((({} : Dev).put UHF_CAP_STATUS.STATE 1 0).put UHF_CAP_CTRL.TRIG 1 0 |>.setCh 0 { win := some { ref := 0, openAt := 100, close := 400, t1Min := 150, t1Max := 300, blf := 1000, m := 0, trext := false, strict := false, lmode := 0, len := 24, crc16 := true, qsel := 0 } })), 0, 0, 0, 100, (st ((({} : Dev).put UHF_CAP_STATUS.STATE 1 0).put UHF_CAP_CTRL.TRIG 1 0 |>.setCh 0 { win := some { ref := 0, openAt := 100, close := 400, t1Min := 150, t1Max := 300, blf := 1000, m := 0, trext := false, strict := false, lmode := 0, len := 24, crc16 := true, qsel := 0 } })).dev.capCount 0 100, ((st ((({} : Dev).put UHF_CAP_STATUS.STATE 1 0).put UHF_CAP_CTRL.TRIG 1 0 |>.setCh 0 { win := some { ref := 0, openAt := 100, close := 400, t1Min := 150, t1Max := 300, blf := 1000, m := 0, trext := false, strict := false, lmode := 0, len := 24, crc16 := true, qsel := 0 } })).after (.capTrigger 0 0 0)), ⟨State.acts_after rfl (by decide +kernel), by decide +kernel⟩⟩,
    ⟨(st {}), 0, 0, 0, 0, ((st {}).after (.capTrigger 0 0 0)), ⟨State.acts_after rfl (by decide +kernel), by decide +kernel⟩⟩,
    ⟨(st (({} : Dev).put UHF_CAP_STATUS.STATE 2 0)), 0, [], (((st (({} : Dev).put UHF_CAP_STATUS.STATE 2 0)).dev.chx (0 : ChainNo)).capTrig + 8192 * (8 - (st (({} : Dev).put UHF_CAP_STATUS.STATE 2 0)).dev.get UHF_CAP_CTRL.PRE (0 : ChainNo))), 0, ((st (({} : Dev).put UHF_CAP_STATUS.STATE 2 0)).after (.capDone 0 [])), ⟨State.acts_after rfl (by decide +kernel), by decide +kernel⟩⟩,
    ⟨(st {}), 0, [], ((st {}).after (.capDone 0 [])), ⟨State.acts_after rfl (by decide +kernel), by decide +kernel⟩⟩⟩

theorem witness_CanopiesComplete :
    (∃ (s : State) (k : Fin 4) (value : Word) (x : Nat) (d : Dev), s.acts (.brgCfgWrite k value) d ∧ x = value.toNat ∧ d.binder (0x0C + k) = none ∧ (bitOf x 31 = false ∨ d.canEnable k (bitsOf x 7 0) (bitsOf x 26 24) = true)) ∧
    (∃ (s : State) (k : Fin 4) (value : Word) (x : Nat) (d : Dev), s.acts (.brgCfgWrite k value) d ∧ x = value.toNat ∧ ((d.binder (0x0C + k)).isSome = true ∨ bitOf x 31 = true ∧ d.canEnable k (bitsOf x 7 0) (bitsOf x 26 24) = false)) ∧
    (∃ (s : State) (k : Fin 4) (value : Word) (x : Nat) (d : Dev), s.acts (.brgRaddrWrite k value) d ∧ x = value.toNat ∧ d.binder (0x0C + k) = none ∧ (d.grpEn k = false ∨ bitOf x 31 = false ∨ 0x10000 ≤ bitsOf x 27 0 ∧ bitsOf x 27 0 ≤ 0x17FFF)) ∧
    (∃ (s : State) (k : Fin 4) (value : Word) (x : Nat) (d : Dev), s.acts (.brgRaddrWrite k value) d ∧ x = value.toNat ∧ ((d.binder (0x0C + k)).isSome = true ∨ d.grpEn k = true ∧ bitOf x 31 = true ∧ (bitsOf x 27 0 < 0x10000 ∨ 0x17FFF < bitsOf x 27 0))) ∧
    (∃ (s : State) (k : Fin 4) (t : Nat) (t0 : Nat) (ts : List Nat) (m : Match) (d : Dev), s.acts (.matchStart k) d ∧ (d.grpx k).valid.map (fun y => y.2.1) = t0 :: ts ∧ (d.grpx k).started = false ∧ ((d.grpx k).run = none ∨ (d.grpx k).run = some m ∧ t < max m.ready m.dec) ∧ t = min (ts.foldl min t0 + 64) (ts.foldl max t0 + 4)) ∧
    (∃ (s : State) (k : Fin 4) (d : Dev), s.acts (.matchStart k) d ∧ ((d.grpx k).valid = [] ∨ (d.grpx k).started = true)) ∧
    (∃ (s : State) (k : Fin 4) (m : Match) (bear : Option (Nat × Nat × Nat)) (d : Dev), s.acts (.matchReady k) d ∧ (d.grpx k).run = some m ∧ ((d.grpx k).opened = false ∨ m.window ≠ (d.grpx k).window) ∧ bear = (if m.score = 0 then none else some (m.bin, m.runner, m.score))) ∧
    (∃ (s : State) (k : Fin 4) (d : Dev), s.acts (.matchReady k) d ∧ (d.grpx k).run = none) ∧
    (∃ (s : State) (value : Word) (x : Nat) (d : Dev), s.acts (.pcalArm value) d ∧ d.pcalRuns = true ∧ x = value.toNat) ∧
    (∃ (s : State) (value : Word) (x : Nat) (d : Dev), s.acts (.pcalArm value) d ∧ d.pcalRuns = false ∧ x = value.toNat) ∧
    (∃ (s : State) (d : Dev), s.acts .pcalAbort d ∧ d.pcalRuns = true) ∧
    (∃ (s : State) (d : Dev), s.acts .pcalAbort d ∧ d.pcalRuns = false) ∧
    (∃ (s : State) (d : Dev), s.acts .pcalEnd d ∧ d.pcalRuns = false) ∧
    (∃ (s : State) (d : Dev), s.acts .pcalNoLoad d ∧ d.get BRG_PCAL_ST.STATE = 1 ∧ d.pcal.gathered = []) ∧
    (∃ (s : State) (d : Dev), s.acts .pcalEnd d ∧ d.pcalRuns = true ∧ max 2 (d.get BRG_PCAL.N) ≤ d.pcal.gathered.length ∧ d.pcalMembers.all (fun n => circStable (pcalOf d.pcal.gathered n)) = true) ∧
    (∃ (s : State) (d : Dev), s.acts .pcalEnd d ∧ d.pcalRuns = true ∧ max 2 (d.get BRG_PCAL.N) ≤ d.pcal.gathered.length ∧ d.pcalMembers.all (fun n => circStable (pcalOf d.pcal.gathered n)) = false) :=
  ⟨⟨(st {}), 0, 0x01000006, 0x01000006, ((st {}).after (.brgCfgWrite 0 0x01000006)), ⟨State.acts_after rfl (by decide +kernel), by decide +kernel⟩⟩,
    ⟨(st (bound0 12)), 0, 6, 6, ((st (bound0 12)).after (.brgCfgWrite 0 6)), ⟨State.acts_after rfl (by decide +kernel), by decide +kernel⟩⟩,
    ⟨(st (({} : Dev).canopy)), 0, 0x80010000, 0x80010000, ((st (({} : Dev).canopy)).after (.brgRaddrWrite 0 0x80010000)), ⟨State.acts_after rfl (by decide +kernel), by decide +kernel⟩⟩,
    ⟨(st (({} : Dev).canopy)), 0, 0x80018000, 0x80018000, ((st (({} : Dev).canopy)).after (.brgRaddrWrite 0 0x80018000)), ⟨State.acts_after rfl (by decide +kernel), by decide +kernel⟩⟩,
    ⟨(st ((({} : Dev).canopy).setGrp 0 { valid := [(1, 40, 7, 3), (2, 50, 9, 3)] })), 0, 54, 40, [50], { ready := 90, window := 0, steer := 0, bin := 5, score := 9, runner := 6, rscore := 3, used := 6, pivot := 1 }, ((st ((({} : Dev).canopy).setGrp 0 { valid := [(1, 40, 7, 3), (2, 50, 9, 3)] })).after (.matchStart 0)), ⟨State.acts_after rfl (by decide +kernel), by decide +kernel⟩⟩,
    ⟨(st {}), 0, ((st {}).after (.matchStart 0)), ⟨State.acts_after rfl (by decide +kernel), by decide +kernel⟩⟩,
    ⟨(st ((({} : Dev).canopy).setGrp 0 { run := some { ready := 90, window := 0, steer := 0, bin := 5, score := 9, runner := 6, rscore := 3, used := 6, pivot := 1 } })), 0, { ready := 90, window := 0, steer := 0, bin := 5, score := 9, runner := 6, rscore := 3, used := 6, pivot := 1 }, some (5, 6, 9), ((st ((({} : Dev).canopy).setGrp 0 { run := some { ready := 90, window := 0, steer := 0, bin := 5, score := 9, runner := 6, rscore := 3, used := 6, pivot := 1 } })).after (.matchReady 0)), ⟨State.acts_after rfl (by decide +kernel), by decide +kernel⟩⟩,
    ⟨(st {}), 0, ((st {}).after (.matchReady 0)), ⟨State.acts_after rfl (by decide +kernel), by decide +kernel⟩⟩,
    ⟨(st (({} : Dev).put BRG_PCAL_ST.STATE 1)), 0, 0, ((st (({} : Dev).put BRG_PCAL_ST.STATE 1)).after (.pcalArm 0)), ⟨State.acts_after rfl (by decide +kernel), by decide +kernel⟩⟩,
    ⟨(st {}), 0x12345678, 0x12345678, ((st {}).after (.pcalArm 0x12345678)), ⟨State.acts_after rfl (by decide +kernel), by decide +kernel⟩⟩,
    ⟨(st (({} : Dev).put BRG_PCAL_ST.STATE 2)), ((st (({} : Dev).put BRG_PCAL_ST.STATE 2)).after .pcalAbort), ⟨State.acts_after rfl (by decide +kernel), by decide +kernel⟩⟩,
    ⟨(st {}), ((st {}).after .pcalAbort), ⟨State.acts_after rfl (by decide +kernel), by decide +kernel⟩⟩,
    ⟨(st up), ((st up).after .pcalEnd), ⟨State.acts_after rfl (by decide +kernel), by decide +kernel⟩⟩,
    ⟨(st (({} : Dev).put BRG_PCAL_ST.STATE 1)), ((st (({} : Dev).put BRG_PCAL_ST.STATE 1)).after .pcalNoLoad), ⟨State.acts_after rfl (by decide +kernel), by decide +kernel⟩⟩,
    ⟨(st pairSame), ((st pairSame).after .pcalEnd), ⟨State.acts_after rfl (by decide +kernel), by exact ⟨by decide +kernel, by decide +kernel, pairSame_stable⟩⟩⟩,
    ⟨(st pairApart), ((st pairApart).after .pcalEnd), ⟨State.acts_after rfl (by decide +kernel), by exact ⟨by decide +kernel, by decide +kernel, pairApart_unstable⟩⟩⟩⟩

theorem witness_CalibrationStartsComplete :
    (∃ (s : State) (unit : BitVec 4) (op : BitVec 4) (port : BitVec 4) (ch : BitVec 3) (x0 : Dev), s.acts (.calGo unit op port ch) x0 ∧ x0.entering = true) ∧
    (∃ (s : State) (unit : BitVec 4) (op : BitVec 4) (port : BitVec 4) (ch : BitVec 3) (x0 : Dev), s.acts (.calGo unit op port ch) x0 ∧ x0.entering = false ∧ (calListed op.toNat unit.toNat = false ∨ x0.calAvailable op.toNat unit.toNat = false)) ∧
    (∃ (s : State) (unit : BitVec 4) (op : BitVec 4) (port : BitVec 4) (ch : BitVec 3) (x0 : Dev), s.acts (.calGo unit op port ch) x0 ∧ x0.entering = false ∧ calListed op.toNat unit.toNat = true ∧ x0.calAvailable op.toNat unit.toNat = true ∧ op ≠ 6) ∧
    (∃ (s : State) (unit : BitVec 4) (port : BitVec 4) (ch : BitVec 3) (n : Nat) (u : Nat) (x0 : Dev), s.acts (.calGo unit 6 port ch) x0 ∧ x0.entering = false ∧ n = unit.toNat ∧ calListed 6 n = true ∧ x0.calAvailable 6 n = true ∧ u = x0.cfg n ∧ x0.cst n = csReady ∧ (x0.chx n).goal = none) ∧
    (∃ (s : State) (unit : BitVec 4) (port : BitVec 4) (ch : BitVec 3) (n : Nat) (u : Nat) (x0 : Dev), s.acts (.calGo unit 6 port ch) x0 ∧ x0.entering = false ∧ n = unit.toNat ∧ calListed 6 n = true ∧ x0.calAvailable 6 n = true ∧ u = x0.cfg n ∧ x0.inRx n = true ∧ x0.get UHF_ANT.PORT u = port.toNat ∧ x0.settledAt u x0.tick = true ∧ x0.locked (x0.synOf n) = true ∧ x0.launchCheck n x0.tick false = 0) ∧
    (∃ (s : State) (unit : BitVec 4) (x0 : Dev), s.acts (.calAbort unit) x0 ∧ x0.calOf unit.toNat = none) ∧
    (∃ (s : State) (unit : BitVec 4) (r : CalRun) (x0 : Dev), s.acts (.calAbort unit) x0 ∧ x0.calOf unit.toNat = some r ∧ r.op ≠ 6 ∧ x0.spare.auto = none ∧ (x0.chx unit.toNat).calBack = none) ∧
    (∃ (s : State) (unit : BitVec 4) (r : CalRun) (n : Nat) (u : Nat) (k : Nat) (x0 : Dev), s.acts (.calAbort unit) x0 ∧ x0.calOf unit.toNat = some r ∧ r.op = 6 ∧ x0.spare.auto = none ∧ unit.toNat ≤ 8 ∧ x0.gate unit.toNat = false ∧ (x0.chx unit.toNat).calBack = some (n, u, k)) ∧
    (∃ (s : State) (unit : BitVec 4) (r : CalRun) (x0 : Dev), s.acts (.calAbort unit) x0 ∧ x0.calOf unit.toNat = some r ∧ r.op = 6 ∧ x0.spare.auto = none ∧ unit.toNat ≤ 8 ∧ x0.carrierOn unit.toNat = true) ∧
    (∃ (s : State) (value : Word) (n : Nat) (x0 : Dev), s.acts (.calTdataWrite value) x0 ∧ n = x0.get CAL_TIDX.UNIT ∧ x0.calOf n ≠ none) ∧
    (∃ (s : State) (value : Word) (n : Nat) (k : Nat) (x0 : Dev), s.acts (.calTdataWrite value) x0 ∧ n = x0.get CAL_TIDX.UNIT ∧ k = trimIdx n (x0.get CAL_TIDX.KIND) (x0.get CAL_TIDX.SUB) ∧ x0.calOf n = none ∧ trimListed n (x0.get CAL_TIDX.KIND) (x0.get CAL_TIDX.SUB) = true) ∧
    (∃ (s : State) (value : Word) (n : Nat) (x0 : Dev), s.acts (.calTdataWrite value) x0 ∧ n = x0.get CAL_TIDX.UNIT ∧ x0.calOf n = none ∧ trimListed n (x0.get CAL_TIDX.KIND) (x0.get CAL_TIDX.SUB) = false) ∧
    (∃ (s : State) (c : ChainNo) (temp : BitVec 12) (cmd : Instr) (k : Nat) (moved : Nat) (d : Dev), s.acts cmd d ∧ (cmd = .calAuto c temp ∧ d = d ∨ cmd = .calAutoRetry c temp ∧ d = (d.toTick k).undefer c ∧ d.spare.deferred.find? (fun x => x.1 == c.val) = some (c.val, k)) ∧ moved = (temp.toInt - signedOf 12 (d.get CAL_TDATA.VALUE 0 (trimIdx c kindTcal 0))).natAbs ∧ (d.isSet CAL_CTRL.AUTO = false ∨ moved < d.get CAL_CTRL.DT)) ∧
    (∃ (s : State) (c : ChainNo) (temp : BitVec 12) (cmd : Instr) (k : Nat) (moved : Nat) (d : Dev), s.acts cmd d ∧ (cmd = .calAuto c temp ∧ d = d ∨ cmd = .calAutoRetry c temp ∧ d = (d.toTick k).undefer c ∧ d.spare.deferred.find? (fun x => x.1 == c.val) = some (c.val, k)) ∧ moved = (temp.toInt - signedOf 12 (d.get CAL_TDATA.VALUE 0 (trimIdx c kindTcal 0))).natAbs ∧ d.isSet CAL_CTRL.AUTO = true ∧ d.get CAL_CTRL.DT ≤ moved ∧ d.calAvailable 7 c = true) ∧
    (∃ (s : State) (c : ChainNo) (temp : BitVec 12) (cmd : Instr) (k : Nat) (moved : Nat) (d : Dev), s.acts cmd d ∧ (cmd = .calAuto c temp ∧ d = d ∨ cmd = .calAutoRetry c temp ∧ d = (d.toTick k).undefer c ∧ d.spare.deferred.find? (fun x => x.1 == c.val) = some (c.val, k)) ∧ moved = (temp.toInt - signedOf 12 (d.get CAL_TDATA.VALUE 0 (trimIdx c kindTcal 0))).natAbs ∧ d.isSet CAL_CTRL.AUTO = true ∧ d.get CAL_CTRL.DT ≤ moved ∧ d.calAvailable 7 c = false ∧ (c = 8 ∨ d.isSet CAL_CTRL.VIA_SPARE = false ∨ bitOf (d.get UHFS_SPARE.ELIGIBLE) c = false ∨ d.usTaken = true ∨ d.binder 8 ≠ none ∨ d.spare.waitTake ≠ none ∨ d.spare.waitRel ≠ none ∨ d.cst c = csTrip ∨ d.cst c = csOff ∨ d.calOf 8 ≠ none)) ∧
    (∃ (s : State) (c : ChainNo) (temp : BitVec 12) (cmd : Instr) (k : Nat) (moved : Nat) (d : Dev), s.acts cmd d ∧ (cmd = .calAuto c temp ∧ d = d ∨ cmd = .calAutoRetry c temp ∧ d = (d.toTick k).undefer c ∧ d.spare.deferred.find? (fun x => x.1 == c.val) = some (c.val, k)) ∧ moved = (temp.toInt - signedOf 12 (d.get CAL_TDATA.VALUE 0 (trimIdx c kindTcal 0))).natAbs ∧ d.isSet CAL_CTRL.AUTO = true ∧ d.get CAL_CTRL.DT ≤ moved ∧ d.calAvailable 7 c = false ∧ c ≠ 8 ∧ d.isSet CAL_CTRL.VIA_SPARE = true ∧ bitOf (d.get UHFS_SPARE.ELIGIBLE) c = true ∧ d.usTaken = false ∧ d.binder 8 = none ∧ d.spare.waitTake = none ∧ d.spare.waitRel = none ∧ d.cst c ≠ csTrip ∧ d.cst c ≠ csOff ∧ d.calOf 8 = none) ∧
    (∃ (s : State) (c : ChainNo) (temp : BitVec 12) (x0 : Dev), s.acts (.calAutoRetry c temp) x0 ∧ x0.spare.deferred.find? (fun x => x.1 == c.val) = none) :=
  ⟨⟨(st { ({} : Dev) with pwr := { ({} : Dev).pwr with entry := some { target := 1 } } }), 0, 0, 0, 0, ((st { ({} : Dev) with pwr := { ({} : Dev).pwr with entry := some { target := 1 } } }).after (.calGo 0 0 0 0)), ⟨State.acts_after rfl (by decide +kernel), by decide +kernel⟩⟩,
    ⟨(st {}), 0, 0, 0, 0, ((st {}).after (.calGo 0 0 0 0)), ⟨State.acts_after rfl (by decide +kernel), by decide +kernel⟩⟩,
    ⟨(st (({} : Dev).rx 0)), 0, 2, 0, 0, ((st (({} : Dev).rx 0)).after (.calGo 0 2 0 0)), ⟨State.acts_after rfl (by decide +kernel), by decide +kernel⟩⟩,
    ⟨(st (({} : Dev).put UHF_STATUS.STATE 1 0)), 0, 0, 0, 0, 0, ((st (({} : Dev).put UHF_STATUS.STATE 1 0)).after (.calGo 0 6 0 0)), ⟨State.acts_after rfl (by decide +kernel), by decide +kernel⟩⟩,
    ⟨(st { ((({} : Dev).rx 0).put SYN_F_FREQ.FREQ_KHZ 865700 0 |>.put SYN_F_STATUS.LOCK 1 0 |>.put RGU_ACTIVE.VALID 1 |>.setCh 0 { settleAt := 0 }) with rgu := { hdr := [0x10000, 0, 0xFFFF0000, 0, 0, 0, 1, 0], chan := [(865700, 300)], ant := [(0, 0x80000000)] } }), 0, 0, 0, 0, 0, ((st { ((({} : Dev).rx 0).put SYN_F_FREQ.FREQ_KHZ 865700 0 |>.put SYN_F_STATUS.LOCK 1 0 |>.put RGU_ACTIVE.VALID 1 |>.setCh 0 { settleAt := 0 }) with rgu := { hdr := [0x10000, 0, 0xFFFF0000, 0, 0, 0, 1, 0], chan := [(865700, 300)], ant := [(0, 0x80000000)] } }).after (.calGo 0 6 0 0)), ⟨State.acts_after rfl (by decide +kernel), by decide +kernel⟩⟩,
    ⟨(st {}), 0, ((st {}).after (.calAbort 0)), ⟨State.acts_after rfl (by decide +kernel), by decide +kernel⟩⟩,
    ⟨(st { ({} : Dev) with cal := [(0, { op := 2, sub := 2 })] }), 0, { op := 2, sub := 2 }, ((st { ({} : Dev) with cal := [(0, { op := 2, sub := 2 })] }).after (.calAbort 0)), ⟨State.acts_after rfl (by decide +kernel), by decide +kernel⟩⟩,
    ⟨(st { (({} : Dev).setCh 0 { calBack := some (2, 1, 3) }) with cal := [(0, { op := 6, sub := 6 })] }), 0, { op := 6, sub := 6 }, 2, 1, 3, ((st { (({} : Dev).setCh 0 { calBack := some (2, 1, 3) }) with cal := [(0, { op := 6, sub := 6 })] }).after (.calAbort 0)), ⟨State.acts_after rfl (by decide +kernel), by decide +kernel⟩⟩,
    ⟨(st { (({} : Dev).carrying 0) with cal := [(0, { op := 6, sub := 6, stage := 1 })] }), 0, { op := 6, sub := 6, stage := 1 }, ((st { (({} : Dev).carrying 0) with cal := [(0, { op := 6, sub := 6, stage := 1 })] }).after (.calAbort 0)), ⟨State.acts_after rfl (by decide +kernel), by decide +kernel⟩⟩,
    ⟨(st { ({} : Dev) with cal := [(0, { op := 2, sub := 2 })] }), 0, 0, ((st { ({} : Dev) with cal := [(0, { op := 2, sub := 2 })] }).after (.calTdataWrite 0)), ⟨State.acts_after rfl (by decide +kernel), by decide +kernel⟩⟩,
    ⟨(st ((({} : Dev).put CAL_TIDX.KIND 1).put CAL_TIDX.SUB 14)), 0, 0, trimIdx 0 1 14, ((st ((({} : Dev).put CAL_TIDX.KIND 1).put CAL_TIDX.SUB 14)).after (.calTdataWrite 0)), ⟨State.acts_after rfl (by decide +kernel), by decide +kernel⟩⟩,
    ⟨(st (({} : Dev).put CAL_TIDX.KIND 0)), 0, 0, ((st (({} : Dev).put CAL_TIDX.KIND 0)).after (.calTdataWrite 0)), ⟨State.acts_after rfl (by decide +kernel), by decide +kernel⟩⟩,
    ⟨(st (({} : Dev).put CAL_CTRL.AUTO 0)), 0, 1000, .calAuto 0 1000, 0, ((1000 : Int) - signedOf 12 ((st (({} : Dev).put CAL_CTRL.AUTO 0)).dev.get CAL_TDATA.VALUE 0 (trimIdx 0 kindTcal 0))).natAbs, (st (({} : Dev).put CAL_CTRL.AUTO 0)).dev, ⟨State.acts_after rfl (by decide +kernel), by decide +kernel⟩⟩,
    ⟨(st ((({} : Dev).put CAL_CTRL.AUTO 1).put CAL_CTRL.DT 5 |>.rx 0)), 0, 1000, .calAuto 0 1000, 0, ((1000 : Int) - signedOf 12 ((st ((({} : Dev).put CAL_CTRL.AUTO 1).put CAL_CTRL.DT 5 |>.rx 0)).dev.get CAL_TDATA.VALUE 0 (trimIdx 0 kindTcal 0))).natAbs, (st ((({} : Dev).put CAL_CTRL.AUTO 1).put CAL_CTRL.DT 5 |>.rx 0)).dev, ⟨State.acts_after rfl (by decide +kernel), by decide +kernel⟩⟩,
    ⟨(st ((((({} : Dev).put CAL_CTRL.AUTO 1).put CAL_CTRL.DT 5).rx 0).put CAL_CTRL.VIA_SPARE 0 |>.put VAT_BIND.PORT 0 0)), 0, 1000, .calAuto 0 1000, 0, ((1000 : Int) - signedOf 12 ((st ((((({} : Dev).put CAL_CTRL.AUTO 1).put CAL_CTRL.DT 5).rx 0).put CAL_CTRL.VIA_SPARE 0 |>.put VAT_BIND.PORT 0 0)).dev.get CAL_TDATA.VALUE 0 (trimIdx 0 kindTcal 0))).natAbs, (st ((((({} : Dev).put CAL_CTRL.AUTO 1).put CAL_CTRL.DT 5).rx 0).put CAL_CTRL.VIA_SPARE 0 |>.put VAT_BIND.PORT 0 0)).dev, ⟨State.acts_after rfl (by decide +kernel), by decide +kernel⟩⟩,
    ⟨(st (((((({} : Dev).put CAL_CTRL.AUTO 1).put CAL_CTRL.DT 5).rx 0).put VAT_BIND.PORT 0 0).put CAL_CTRL.VIA_SPARE 1 |>.put UHFS_SPARE.ELIGIBLE 1)), 0, 1000, .calAuto 0 1000, 0, ((1000 : Int) - signedOf 12 ((st (((((({} : Dev).put CAL_CTRL.AUTO 1).put CAL_CTRL.DT 5).rx 0).put VAT_BIND.PORT 0 0).put CAL_CTRL.VIA_SPARE 1 |>.put UHFS_SPARE.ELIGIBLE 1)).dev.get CAL_TDATA.VALUE 0 (trimIdx 0 kindTcal 0))).natAbs, (st (((((({} : Dev).put CAL_CTRL.AUTO 1).put CAL_CTRL.DT 5).rx 0).put VAT_BIND.PORT 0 0).put CAL_CTRL.VIA_SPARE 1 |>.put UHFS_SPARE.ELIGIBLE 1)).dev, ⟨State.acts_after rfl (by decide +kernel), by decide +kernel⟩⟩,
    ⟨(st {}), 0, 0, ((st {}).after (.calAutoRetry 0 0)), ⟨State.acts_after rfl (by decide +kernel), by decide +kernel⟩⟩⟩

theorem witness_CalibrationEndsComplete :
    (∃ (s : State) (unit : Fin 15) (o : CalObs) (x0 : Dev), s.acts (.calDone unit o) x0 ∧ (x0.calUncut unit).calOf unit = none) ∧
    (∃ (s : State) (unit : Fin 15) (o : CalObs) (r : CalRun) (x0 : Dev), s.acts (.calDone unit o) x0 ∧ x0.calOf unit = none ∧ (((x0.calUncut unit).calAttempt unit r o).calOf unit).isSome = true ∧ (x0.calUncut unit).calOf unit = some r) ∧
    (∃ (s : State) (unit : Fin 15) (o : CalObs) (r : CalRun) (x0 : Dev), s.acts (.calDone unit o) x0 ∧ x0.calOf unit = some r ∧ x0.attempt o = stCalDisturbed ∧ r.attempt = 1 ∧ (r.op ≠ 6 ∨ r.stage = 1)) ∧
    (∃ (s : State) (unit : Fin 15) (o : CalObs) (r : CalRun) (x0 : Dev), s.acts (.calDone unit o) x0 ∧ x0.calOf unit = some r ∧ r.op = 7 ∧ r.sub < 5 ∧ (x0.attempt o ≠ stCalDisturbed ∨ r.attempt ≠ 1)) ∧
    (∃ (s : State) (unit : Fin 15) (o : CalObs) (r : CalRun) (d : Dev) (x0 : Dev), s.acts (.calDone unit o) x0 ∧ d = x0.calUncut unit ∧ d.calOf unit = some r ∧ r.op ≠ 6 ∧ r.op ≠ 7 ∧ calListed r.op unit = true ∧ d.attempt o = 0 ∧ d.spare.auto = none ∧ (d.chx unit).calBack = none) ∧
    (∃ (s : State) (unit : Fin 15) (o : CalObs) (r : CalRun) (x : Nat) (d : Dev) (x0 : Dev), s.acts (.calDone unit o) x0 ∧ d = x0.calUncut unit ∧ d.calOf unit = some r ∧ r.op ≠ 6 ∧ (r.op ≠ 7 ∨ r.sub = 5) ∧ calListed r.op unit = true ∧ x = (if r.op = 7 ∧ r.first ≠ 0 then r.first else d.attempt o) ∧ x ≠ 0 ∧ (d.attempt o ≠ stCalDisturbed ∨ r.attempt ≠ 1) ∧ d.spare.auto = none ∧ (d.chx unit).calBack = none) ∧
    (∃ (s : State) (unit : Fin 15) (o : CalObs) (r : CalRun) (ts : List TrimVal) (d : Dev) (x0 : Dev), s.acts (.calDone unit o) x0 ∧ d = x0.calUncut unit ∧ d.calOf unit = some r ∧ r.op = 7 ∧ r.sub = 5 ∧ r.first = 0 ∧ d.attempt o = 0 ∧ unit.val ≤ 8 ∧ ts = r.acc ++ foundTrims 5 d.fresh o ∧ d.spare.auto = none ∧ (d.chx unit).calBack = none) ∧
    (∃ (s : State) (unit : Fin 15) (o : CalObs) (r : CalRun) (x0 : Dev), s.acts (.calDone unit o) x0 ∧ x0.calOf unit = some r ∧ r.op = 6 ∧ r.stage = 1 ∧ unit.val ≤ 8 ∧ x0.carrierOn unit = true ∧ (x0.attempt o ≠ stCalDisturbed ∨ r.attempt ≠ 1)) ∧
    (∃ (s : State) (unit : Fin 15) (o : CalObs) (r : CalRun) (x0 : Dev), s.acts (.calDone unit o) x0 ∧ x0.calOf unit = some r ∧ r.op = 6 ∧ r.stage = 0 ∧ unit.val ≤ 8 ∧ x0.locked (x0.synOf unit) = false ∧ r.since + 15360 ≤ x0.tick ∧ x0.spare.auto = none ∧ (x0.chx unit).calBack = none) ∧
    (∃ (s : State) (unit : Fin 15) (o : CalObs) (r : CalRun) (x0 : Dev), s.acts (.calDone unit o) x0 ∧ x0.calOf unit = some r ∧ r.op = 6 ∧ r.stage ≠ 1 ∧ (r.stage ≠ 0 ∨ x0.locked (x0.synOf unit) = true ∨ x0.tick < r.since + 15360)) :=
  ⟨⟨(st {}), 0, ⟨0, 0, false, false, 0, 0, 0, []⟩, ((st {}).after (.calDone 0 (⟨0, 0, false, false, 0, 0, 0, []⟩))), ⟨State.acts_after rfl (by decide +kernel), by decide +kernel⟩⟩,
    ⟨(st { ({} : Dev) with calCut := some (0, 0, { op := 2, sub := 2 }) }), 0, { vr := 200, qual := 9, absent := false, outOfRange := false, temp := 77, ratio := 0x01234567, sd := 5, trims := [{ kind := 1, sub := 3, value := 88 }] }, { op := 2, sub := 2 }, ((st { ({} : Dev) with calCut := some (0, 0, { op := 2, sub := 2 }) }).after (.calDone 0 ({ vr := 200, qual := 9, absent := false, outOfRange := false, temp := 77, ratio := 0x01234567, sd := 5, trims := [{ kind := 1, sub := 3, value := 88 }] }))), ⟨State.acts_after rfl (by decide +kernel), by decide +kernel⟩⟩,
    ⟨(st { ({} : Dev) with cal := [(0, { op := 2, sub := 2 })] }), 0, { vr := 3000, qual := 9, absent := false, outOfRange := false, temp := 77, ratio := 0x01234567, sd := 5, trims := [{ kind := 1, sub := 3, value := 88 }] }, { op := 2, sub := 2 }, ((st { ({} : Dev) with cal := [(0, { op := 2, sub := 2 })] }).after (.calDone 0 ({ vr := 3000, qual := 9, absent := false, outOfRange := false, temp := 77, ratio := 0x01234567, sd := 5, trims := [{ kind := 1, sub := 3, value := 88 }] }))), ⟨State.acts_after rfl (by decide +kernel), by decide +kernel⟩⟩,
    ⟨(st { ({} : Dev) with cal := [(0, { op := 7, sub := 3 })] }), 0, { vr := 3, qual := 9, absent := false, outOfRange := false, temp := 77, ratio := 0x01234567, sd := 5, trims := [{ kind := 1, sub := 3, value := 88 }] }, { op := 7, sub := 3 }, ((st { ({} : Dev) with cal := [(0, { op := 7, sub := 3 })] }).after (.calDone 0 ({ vr := 3, qual := 9, absent := false, outOfRange := false, temp := 77, ratio := 0x01234567, sd := 5, trims := [{ kind := 1, sub := 3, value := 88 }] }))), ⟨State.acts_after rfl (by decide +kernel), by decide +kernel⟩⟩,
    ⟨(st { ({} : Dev) with cal := [(0, { op := 2, sub := 2 })] }), 0, { vr := 3, qual := 9, absent := false, outOfRange := false, temp := 77, ratio := 0x01234567, sd := 5, trims := [{ kind := 1, sub := 3, value := 88 }] }, { op := 2, sub := 2 }, (st { ({} : Dev) with cal := [(0, { op := 2, sub := 2 })] }).dev, ((st { ({} : Dev) with cal := [(0, { op := 2, sub := 2 })] }).after (.calDone 0 ({ vr := 3, qual := 9, absent := false, outOfRange := false, temp := 77, ratio := 0x01234567, sd := 5, trims := [{ kind := 1, sub := 3, value := 88 }] }))), ⟨State.acts_after rfl (by decide +kernel), by decide +kernel⟩⟩,
    ⟨(st { ({} : Dev) with cal := [(0, { op := 2, sub := 2 })] }), 0, { vr := 3, qual := 9, absent := true, outOfRange := false, temp := 77, ratio := 0x01234567, sd := 5, trims := [{ kind := 1, sub := 3, value := 88 }] }, { op := 2, sub := 2 }, 0x302, (st { ({} : Dev) with cal := [(0, { op := 2, sub := 2 })] }).dev, ((st { ({} : Dev) with cal := [(0, { op := 2, sub := 2 })] }).after (.calDone 0 ({ vr := 3, qual := 9, absent := true, outOfRange := false, temp := 77, ratio := 0x01234567, sd := 5, trims := [{ kind := 1, sub := 3, value := 88 }] }))), ⟨State.acts_after rfl (by decide +kernel), by decide +kernel⟩⟩,
    ⟨(st { ({} : Dev) with cal := [(0, { op := 7, sub := 5 })] }), 0, { vr := 3, qual := 9, absent := false, outOfRange := false, temp := 77, ratio := 0x01234567, sd := 5, trims := [{ kind := 1, sub := 3, value := 88 }] }, { op := 7, sub := 5 }, foundTrims 5 0 ({ vr := 3, qual := 9, absent := false, outOfRange := false, temp := 77, ratio := 0x01234567, sd := 5, trims := [{ kind := 1, sub := 3, value := 88 }] }), (st { ({} : Dev) with cal := [(0, { op := 7, sub := 5 })] }).dev, ((st { ({} : Dev) with cal := [(0, { op := 7, sub := 5 })] }).after (.calDone 0 ({ vr := 3, qual := 9, absent := false, outOfRange := false, temp := 77, ratio := 0x01234567, sd := 5, trims := [{ kind := 1, sub := 3, value := 88 }] }))), ⟨State.acts_after rfl (by decide +kernel), by and_intros <;> first | decide +kernel | rfl⟩⟩,
    ⟨(st { (({} : Dev).carrying 0) with cal := [(0, { op := 6, sub := 6, stage := 1 })] }), 0, { vr := 3, qual := 9, absent := false, outOfRange := false, temp := 77, ratio := 0x01234567, sd := 5, trims := [{ kind := 1, sub := 3, value := 88 }] }, { op := 6, sub := 6, stage := 1 }, ((st { (({} : Dev).carrying 0) with cal := [(0, { op := 6, sub := 6, stage := 1 })] }).after (.calDone 0 ({ vr := 3, qual := 9, absent := false, outOfRange := false, temp := 77, ratio := 0x01234567, sd := 5, trims := [{ kind := 1, sub := 3, value := 88 }] }))), ⟨State.acts_after rfl (by decide +kernel), by decide +kernel⟩⟩,
    ⟨(st { ({} : Dev) with cal := [(0, { op := 6, sub := 6 })], clk := 40000 }), 0, ⟨0, 0, false, false, 0, 0, 0, []⟩, { op := 6, sub := 6 }, ((st { ({} : Dev) with cal := [(0, { op := 6, sub := 6 })], clk := 40000 }).after (.calDone 0 (⟨0, 0, false, false, 0, 0, 0, []⟩))), ⟨State.acts_after rfl (by decide +kernel), by decide +kernel⟩⟩,
    ⟨(st { ({} : Dev) with cal := [(0, { op := 6, sub := 6 })] }), 0, ⟨0, 0, false, false, 0, 0, 0, []⟩, { op := 6, sub := 6 }, ((st { ({} : Dev) with cal := [(0, { op := 6, sub := 6 })] }).after (.calDone 0 (⟨0, 0, false, false, 0, 0, 0, []⟩))), ⟨State.acts_after rfl (by decide +kernel), by decide +kernel⟩⟩⟩

theorem witness_SpareCompletes :
    (∃ (s : State) (r : BitVec 2) (x0 : Dev), s.acts (.readinessWrite r) x0 ∧ r = 3) ∧
    (∃ (s : State) (r : BitVec 2) (x0 : Dev), s.acts (.readinessWrite r) x0 ∧ r ≠ 3 ∧ (x0.attached ≠ none ∨ x0.spare.sw ≠ none ∨ x0.spare.waitTake ≠ none ∨ x0.binder 8 ≠ none ∨ x0.gate 8 = true ∨ x0.cst 8 = csTrip ∨ x0.calOf 8 ≠ none)) ∧
    (∃ (s : State) (r : BitVec 2) (x0 : Dev), s.acts (.readinessWrite r) x0 ∧ r ≠ 3 ∧ x0.attached = none ∧ x0.spare.sw = none ∧ x0.spare.waitTake = none ∧ x0.binder 8 = none ∧ x0.gate 8 = false ∧ x0.calOf 8 = none ∧ (x0.chx 8).goal = none) ∧
    (∃ (s : State) (o : CalObs) (x0 : Dev), s.acts (.spareDcRerun o) x0 ∧ x0.dcMayRun = true ∧ x0.attempt o = 0) ∧
    (∃ (s : State) (o : CalObs) (x0 : Dev), s.acts (.spareDcRerun o) x0 ∧ (x0.dcMayRun = false ∨ x0.attempt o ≠ 0)) ∧
    (∃ (s : State) (t : Nat) (x0 : Dev), s.acts .spareDcAged x0 ∧ x0.spare.dcTick = some t) ∧
    (∃ (s : State) (x0 : Dev), s.acts .spareDcAged x0 ∧ x0.spare.dcTick = none) ∧
    (∃ (s : State) (x0 : Dev), s.acts .spareSwitchSettled x0 ∧ x0.spare.sw = none) ∧
    (∃ (s : State) (c : Nat) (w : Switch) (x0 : Dev), s.acts .spareSwitchSettled x0 ∧ x0.spare.sw = some w ∧ c = (if w.take then 8 else w.fe) ∧ w.launched = false ∧ w.needDc = false ∧ w.restore = false ∧ (x0.chx c).goal = none ∧ x0.spare.auto = none ∧ w.take = true ∧ x0.noneHeld) ∧
    (∃ (s : State) (w : Switch) (x0 : Dev), s.acts .spareSwitchSettled x0 ∧ x0.spare.sw = some w ∧ w.launched = false ∧ w.needDc = false ∧ w.restore = false ∧ w.take = false ∧ (x0.chx w.fe).goal = none ∧ x0.noneHeld) ∧
    (∃ (s : State) (w : Switch) (x0 : Dev), s.acts .spareSwitchSettled x0 ∧ x0.spare.sw = some w ∧ w.launched = false ∧ w.needDc = true ∧ w.dcDue = none ∧ w.take = true ∧ x0.inRx 8 = true ∧ x0.noneHeld) ∧
    (∃ (s : State) (t : Nat) (c : Nat) (w : Switch) (d : Dev) (x0 : Dev), s.acts .spareSwitchSettled x0 ∧ x0.spare.sw = some w ∧ c = (if w.take then 8 else w.fe) ∧ w.launched = false ∧ w.needDc = false ∧ w.restore = true ∧ w.t4 = none ∧ d = x0.toTick w.settled ∧ d.inRx c = true ∧ d.locked (d.synOf c) = true ∧ t = max x0.tick w.settled ∧ d.launchCheck c t true = 0 ∧ x0.noneHeld) ∧
    (∃ (s : State) (k : Nat) (w : Switch) (d : Dev) (x0 : Dev), s.acts .spareSwitchSettled x0 ∧ x0.spare.sw = some w ∧ w.take = true ∧ w.launched = false ∧ w.needDc = false ∧ w.restore = true ∧ w.t4 = none ∧ d = x0.toTick w.settled ∧ d.inRx 8 = true ∧ d.locked (d.synOf 8) = true ∧ k = d.launchCheck 8 d.tick true ∧ k ≠ 0 ∧ x0.spare.auto = none ∧ x0.noneHeld) ∧
    (∃ (s : State) (o : CalObs) (t : Nat) (w : Switch) (x0 : Dev), s.acts (.spareDcPassDone o) x0 ∧ x0.spare.sw = some w ∧ w.needDc = true ∧ w.dcDue = some t ∧ w.take = true ∧ w.restore = false ∧ w.launched = false ∧ w.settled ≤ t ∧ x0.spare.auto = none ∧ x0.noneHeld) ∧
    (∃ (s : State) (chain : BitVec 4) (n : Nat) (x0 : Dev), s.acts (.takeGo chain) x0 ∧ n = chain.toNat ∧ x0.usTaken = false ∧ x0.spare.waitTake = none ∧ x0.spare.waitRel = none ∧ n < 8 ∧ bitOf (x0.get UHFS_SPARE.ELIGIBLE) n = true ∧ x0.binder 8 = none ∧ x0.cst n ≠ csTrip ∧ x0.cst n ≠ csOff ∧ x0.calOf 8 = none ∧ (x0.chx 8).goal = none) ∧
    (∃ (s : State) (chain : BitVec 4) (n : Nat) (x0 : Dev), s.acts (.takeGo chain) x0 ∧ n = chain.toNat ∧ x0.spare.sw = none ∧ (x0.usTaken = true ∨ x0.spare.waitTake ≠ none ∨ x0.spare.waitRel ≠ none ∨ 8 ≤ n ∨ bitOf (x0.get UHFS_SPARE.ELIGIBLE) n = false ∨ x0.binder 8 ≠ none ∨ x0.cst n = csTrip ∨ x0.cst n = csOff ∨ x0.calOf 8 ≠ none)) ∧
    (∃ (s : State) (chain : BitVec 4) (w : Switch) (x0 : Dev), s.acts (.takeGo chain) x0 ∧ x0.spare.sw = some w) ∧
    (∃ (s : State) (n : Nat) (x0 : Dev), s.acts .takeRelease x0 ∧ x0.attached = some n ∧ x0.spare.sw = none ∧ x0.spare.waitRel = none ∧ x0.cst n ≠ csTrip ∧ (x0.chx n).goal = none) ∧
    (∃ (s : State) (n : Nat) (t : Nat) (w : Switch) (x0 : Dev), s.acts .takeRelease x0 ∧ (x0.attached = none ∧ x0.spare.sw = none ∧ t = stSpareBusy ∨ (x0.spare.sw = none ∧ t = stTakeBlocked ∧ x0.attached = some n ∧ (x0.cst n = csTrip ∨ x0.spare.waitRel ≠ none)) ∨ (x0.spare.sw = some w ∧ t = if x0.attached = none ∧ w.take = true then stSpareBusy else stTakeBlocked))) ∧
    (∃ (s : State) (n : Nat) (t : Nat) (x0 : Dev), s.acts .plannedSwitch x0 ∧ x0.spare.waitTake = some (n, t) ∧ n < 8 ∧ x0.gate n = false ∧ x0.gate 8 = false ∧ x0.usHot = true ∧ x0.spare.sw = none ∧ x0.attached = none ∧ (x0.chx n).goal = none ∧ x0.calOf n = none ∧ x0.calOf 8 = none ∧ (x0.chx n).win = none ∧ x0.feVat n = none) ∧
    (∃ (s : State) (n : Nat) (t : Nat) (x0 : Dev), s.acts .plannedSwitch x0 ∧ (x0.spare.waitTake = none ∨ (x0.spare.waitTake = some (n, t) ∧ (x0.chx n).goal = none ∧ (x0.chx 8).goal = none ∧ (x0.gate n = true ∨ x0.gate 8 = true ∨ x0.usHot = false)))) ∧
    (∃ (s : State) (n : Nat) (t : Nat) (x0 : Dev), s.acts .releaseSwitch x0 ∧ x0.spare.waitRel = some t ∧ x0.attached = some n ∧ x0.gate n = false ∧ x0.gate 8 = false ∧ x0.inRx n = true ∧ (x0.chx 8).goal = none ∧ x0.calOf n = none ∧ x0.calOf 8 = none ∧ x0.spare.sw = none ∧ (x0.chx n).win = none ∧ x0.feVat n = none) ∧
    (∃ (s : State) (n : Nat) (x0 : Dev), s.acts .releaseSwitch x0 ∧ (x0.spare.waitRel = none ∨ x0.attached = none ∨ (x0.attached = some n ∧ (x0.chx n).goal = none ∧ (x0.chx 8).goal = none ∧ (x0.gate n = true ∨ x0.gate 8 = true ∨ x0.cst n ≠ csRx)))) ∧
    (∃ (s : State) (n : Nat) (t : Nat) (x0 : Dev), s.acts .takeTimeout x0 ∧ x0.spare.waitTake = some (n, t) ∧ x0.spare.auto = none) ∧
    (∃ (s : State) (n : Nat) (t : Nat) (x0 : Dev), s.acts .takeTimeout x0 ∧ x0.spare.waitTake = some (n, t) ∧ x0.spare.auto ≠ none) ∧
    (∃ (s : State) (t : Nat) (x0 : Dev), s.acts .takeTimeout x0 ∧ x0.spare.waitTake = none ∧ x0.spare.waitRel = some t) ∧
    (∃ (s : State) (x0 : Dev), s.acts .takeTimeout x0 ∧ x0.spare.waitTake = none ∧ x0.spare.waitRel = none) :=
  ⟨⟨(st up), 3, ((st up).after (.readinessWrite 3)), ⟨State.acts_after rfl (by decide +kernel), by decide +kernel⟩⟩,
    ⟨(st { ({} : Dev) with spare := { now := some 3 } }), 2, ((st { ({} : Dev) with spare := { now := some 3 } }).after (.readinessWrite 2)), ⟨State.acts_after rfl (by decide +kernel), by decide +kernel⟩⟩,
    ⟨(st (({} : Dev).put UHF_STATUS.STATE csReady 8)), 2, ((st (({} : Dev).put UHF_STATUS.STATE csReady 8)).after (.readinessWrite 2)), ⟨State.acts_after rfl (by decide +kernel), by decide +kernel⟩⟩,
    ⟨(st ((({} : Dev).put UHFS_SPARE.READINESS 2).rx 8)), { vr := 3, qual := 9, absent := false, outOfRange := false, temp := 77, ratio := 0x01234567, sd := 5, trims := [{ kind := 1, sub := 3, value := 88 }] }, ((st ((({} : Dev).put UHFS_SPARE.READINESS 2).rx 8)).after (.spareDcRerun ({ vr := 3, qual := 9, absent := false, outOfRange := false, temp := 77, ratio := 0x01234567, sd := 5, trims := [{ kind := 1, sub := 3, value := 88 }] }))), ⟨State.acts_after rfl (by decide +kernel), by decide +kernel⟩⟩,
    ⟨(st {}), { vr := 3, qual := 9, absent := false, outOfRange := false, temp := 77, ratio := 0x01234567, sd := 5, trims := [{ kind := 1, sub := 3, value := 88 }] }, ((st {}).after (.spareDcRerun ({ vr := 3, qual := 9, absent := false, outOfRange := false, temp := 77, ratio := 0x01234567, sd := 5, trims := [{ kind := 1, sub := 3, value := 88 }] }))), ⟨State.acts_after rfl (by decide +kernel), by decide +kernel⟩⟩,
    ⟨(st { ({} : Dev) with spare := { ({} : Dev).spare with dcTick := some 7 } }), 7, ((st { ({} : Dev) with spare := { ({} : Dev).spare with dcTick := some 7 } }).after .spareDcAged), ⟨State.acts_after rfl (by decide +kernel), by decide +kernel⟩⟩,
    ⟨(st {}), ((st {}).after .spareDcAged), ⟨State.acts_after rfl (by decide +kernel), by decide +kernel⟩⟩,
    ⟨(st {}), ((st {}).after .spareSwitchSettled), ⟨State.acts_after rfl (by decide +kernel), by decide +kernel⟩⟩,
    ⟨(st { ({} : Dev) with spare := { ({} : Dev).spare with sw := some { fe := 0, take := true, restore := false, planned := true, hadCarrier := false, start := 5, selAt := 5, settled := 50, dcDue := none, needDc := false, t4 := none, launched := false } } }), 8, { fe := 0, take := true, restore := false, planned := true, hadCarrier := false, start := 5, selAt := 5, settled := 50, dcDue := none, needDc := false, t4 := none, launched := false }, ((st { ({} : Dev) with spare := { ({} : Dev).spare with sw := some { fe := 0, take := true, restore := false, planned := true, hadCarrier := false, start := 5, selAt := 5, settled := 50, dcDue := none, needDc := false, t4 := none, launched := false } } }).after .spareSwitchSettled), ⟨State.acts_after rfl (by decide +kernel), by unfold Dev.noneHeld; decide +kernel⟩⟩,
    ⟨(st { ({} : Dev) with spare := { ({} : Dev).spare with sw := some { fe := 0, take := false, restore := false, planned := true, hadCarrier := false, start := 5, selAt := 5, settled := 50, dcDue := none, needDc := false, t4 := none, launched := false } } }), { fe := 0, take := false, restore := false, planned := true, hadCarrier := false, start := 5, selAt := 5, settled := 50, dcDue := none, needDc := false, t4 := none, launched := false }, ((st { ({} : Dev) with spare := { ({} : Dev).spare with sw := some { fe := 0, take := false, restore := false, planned := true, hadCarrier := false, start := 5, selAt := 5, settled := 50, dcDue := none, needDc := false, t4 := none, launched := false } } }).after .spareSwitchSettled), ⟨State.acts_after rfl (by decide +kernel), by unfold Dev.noneHeld; decide +kernel⟩⟩,
    ⟨(st { (({} : Dev).rx 8) with spare := { (({} : Dev).rx 8).spare with sw := some { fe := 0, take := true, restore := false, planned := true, hadCarrier := false, start := 5, selAt := 5, settled := 50, dcDue := none, needDc := true, t4 := none, launched := false } } }), { fe := 0, take := true, restore := false, planned := true, hadCarrier := false, start := 5, selAt := 5, settled := 50, dcDue := none, needDc := true, t4 := none, launched := false }, ((st { (({} : Dev).rx 8) with spare := { (({} : Dev).rx 8).spare with sw := some { fe := 0, take := true, restore := false, planned := true, hadCarrier := false, start := 5, selAt := 5, settled := 50, dcDue := none, needDc := true, t4 := none, launched := false } } }).after .spareSwitchSettled), ⟨State.acts_after rfl (by decide +kernel), by unfold Dev.noneHeld; decide +kernel⟩⟩,
    ⟨(st { ({ ((({} : Dev).rx 0).put SYN_F_FREQ.FREQ_KHZ 865700 0 |>.put SYN_F_STATUS.LOCK 1 0 |>.put RGU_ACTIVE.VALID 1 |>.setCh 0 { settleAt := 0 }) with rgu := { hdr := [0x10000, 0, 0xFFFF0000, 0, 0, 0, 1, 0], chan := [(865700, 300)], ant := [(0, 0x80000000)] } }) with spare := { ({ ((({} : Dev).rx 0).put SYN_F_FREQ.FREQ_KHZ 865700 0 |>.put SYN_F_STATUS.LOCK 1 0 |>.put RGU_ACTIVE.VALID 1 |>.setCh 0 { settleAt := 0 }) with rgu := { hdr := [0x10000, 0, 0xFFFF0000, 0, 0, 0, 1, 0], chan := [(865700, 300)], ant := [(0, 0x80000000)] } }).spare with sw := some { fe := 0, take := false, restore := true, planned := true, hadCarrier := false, start := 5, selAt := 5, settled := 50, dcDue := none, needDc := false, t4 := none, launched := false } } }), 50, 0, { fe := 0, take := false, restore := true, planned := true, hadCarrier := false, start := 5, selAt := 5, settled := 50, dcDue := none, needDc := false, t4 := none, launched := false }, ((st { ({ ((({} : Dev).rx 0).put SYN_F_FREQ.FREQ_KHZ 865700 0 |>.put SYN_F_STATUS.LOCK 1 0 |>.put RGU_ACTIVE.VALID 1 |>.setCh 0 { settleAt := 0 }) with rgu := { hdr := [0x10000, 0, 0xFFFF0000, 0, 0, 0, 1, 0], chan := [(865700, 300)], ant := [(0, 0x80000000)] } }) with spare := { ({ ((({} : Dev).rx 0).put SYN_F_FREQ.FREQ_KHZ 865700 0 |>.put SYN_F_STATUS.LOCK 1 0 |>.put RGU_ACTIVE.VALID 1 |>.setCh 0 { settleAt := 0 }) with rgu := { hdr := [0x10000, 0, 0xFFFF0000, 0, 0, 0, 1, 0], chan := [(865700, 300)], ant := [(0, 0x80000000)] } }).spare with sw := some { fe := 0, take := false, restore := true, planned := true, hadCarrier := false, start := 5, selAt := 5, settled := 50, dcDue := none, needDc := false, t4 := none, launched := false } } }).dev.toTick ({ fe := 0, take := false, restore := true, planned := true, hadCarrier := false, start := 5, selAt := 5, settled := 50, dcDue := none, needDc := false, t4 := none, launched := false } : Switch).settled), ((st { ({ ((({} : Dev).rx 0).put SYN_F_FREQ.FREQ_KHZ 865700 0 |>.put SYN_F_STATUS.LOCK 1 0 |>.put RGU_ACTIVE.VALID 1 |>.setCh 0 { settleAt := 0 }) with rgu := { hdr := [0x10000, 0, 0xFFFF0000, 0, 0, 0, 1, 0], chan := [(865700, 300)], ant := [(0, 0x80000000)] } }) with spare := { ({ ((({} : Dev).rx 0).put SYN_F_FREQ.FREQ_KHZ 865700 0 |>.put SYN_F_STATUS.LOCK 1 0 |>.put RGU_ACTIVE.VALID 1 |>.setCh 0 { settleAt := 0 }) with rgu := { hdr := [0x10000, 0, 0xFFFF0000, 0, 0, 0, 1, 0], chan := [(865700, 300)], ant := [(0, 0x80000000)] } }).spare with sw := some { fe := 0, take := false, restore := true, planned := true, hadCarrier := false, start := 5, selAt := 5, settled := 50, dcDue := none, needDc := false, t4 := none, launched := false } } }).after .spareSwitchSettled), ⟨State.acts_after rfl (by decide +kernel), by unfold Dev.noneHeld; and_intros <;> first | decide +kernel | rfl⟩⟩,
    ⟨(st { ((({} : Dev).rx 8).put SYN_F_STATUS.LOCK 1 0) with spare := { sw := some { fe := 0, take := true, restore := true, planned := false, hadCarrier := false, start := 5, selAt := 5, settled := 50, dcDue := none, needDc := false, t4 := none, launched := false }, now := some 0 } }), 1, { fe := 0, take := true, restore := true, planned := false, hadCarrier := false, start := 5, selAt := 5, settled := 50, dcDue := none, needDc := false, t4 := none, launched := false }, (st { ((({} : Dev).rx 8).put SYN_F_STATUS.LOCK 1 0) with spare := { sw := some { fe := 0, take := true, restore := true, planned := false, hadCarrier := false, start := 5, selAt := 5, settled := 50, dcDue := none, needDc := false, t4 := none, launched := false }, now := some 0 } }).dev.toTick 50, ((st { ((({} : Dev).rx 8).put SYN_F_STATUS.LOCK 1 0) with spare := { sw := some { fe := 0, take := true, restore := true, planned := false, hadCarrier := false, start := 5, selAt := 5, settled := 50, dcDue := none, needDc := false, t4 := none, launched := false }, now := some 0 } }).after .spareSwitchSettled), ⟨State.acts_after rfl (by decide +kernel), by unfold Dev.noneHeld; and_intros <;> first | decide +kernel | rfl⟩⟩,
    ⟨(st { ({} : Dev) with spare := { ({} : Dev).spare with sw := some { fe := 0, take := true, restore := false, planned := true, hadCarrier := false, start := 5, selAt := 5, settled := 50, dcDue := some 99, needDc := true, t4 := none, launched := false } } }), ⟨0, 0, false, false, 0, 0, 0, []⟩, 99, { fe := 0, take := true, restore := false, planned := true, hadCarrier := false, start := 5, selAt := 5, settled := 50, dcDue := some 99, needDc := true, t4 := none, launched := false }, ((st { ({} : Dev) with spare := { ({} : Dev).spare with sw := some { fe := 0, take := true, restore := false, planned := true, hadCarrier := false, start := 5, selAt := 5, settled := 50, dcDue := some 99, needDc := true, t4 := none, launched := false } } }).after (.spareDcPassDone (⟨0, 0, false, false, 0, 0, 0, []⟩))), ⟨State.acts_after rfl (by decide +kernel), by unfold Dev.noneHeld; decide +kernel⟩⟩,
    ⟨(st (((({} : Dev).put UHFS_SPARE.ELIGIBLE 1).rx 0).put UHF_STATUS.STATE csReady 8)), 0, 0, ((st (((({} : Dev).put UHFS_SPARE.ELIGIBLE 1).rx 0).put UHF_STATUS.STATE csReady 8)).after (.takeGo 0)), ⟨State.acts_after rfl (by decide +kernel), by decide +kernel⟩⟩,
    ⟨(st (({} : Dev).put UHFS_SPARE.ATTACHED 3)), 0, 0, ((st (({} : Dev).put UHFS_SPARE.ATTACHED 3)).after (.takeGo 0)), ⟨State.acts_after rfl (by decide +kernel), by decide +kernel⟩⟩,
    ⟨(st { ({} : Dev) with spare := { sw := some { fe := 0, take := true, restore := true, planned := false, hadCarrier := false, start := 5, selAt := 5, settled := 50, dcDue := none, needDc := false, t4 := none, launched := false } } }), 0, { fe := 0, take := true, restore := true, planned := false, hadCarrier := false, start := 5, selAt := 5, settled := 50, dcDue := none, needDc := false, t4 := none, launched := false }, ((st { ({} : Dev) with spare := { sw := some { fe := 0, take := true, restore := true, planned := false, hadCarrier := false, start := 5, selAt := 5, settled := 50, dcDue := none, needDc := false, t4 := none, launched := false } } }).after (.takeGo 0)), ⟨State.acts_after rfl (by decide +kernel), by decide +kernel⟩⟩,
    ⟨(st { (({} : Dev).put UHFS_SPARE.ATTACHED 3).put UHF_STATUS.STATE 1 3 with spare := { now := some 3 } }), 3, ((st { (({} : Dev).put UHFS_SPARE.ATTACHED 3).put UHF_STATUS.STATE 1 3 with spare := { now := some 3 } }).after .takeRelease), ⟨State.acts_after rfl (by decide +kernel), by decide +kernel⟩⟩,
    ⟨(st {}), 0, stSpareBusy, { fe := 0, take := true, restore := true, planned := false, hadCarrier := false, start := 5, selAt := 5, settled := 50, dcDue := none, needDc := false, t4 := none, launched := false }, ((st {}).after .takeRelease), ⟨State.acts_after rfl (by decide +kernel), by decide +kernel⟩⟩,
    ⟨(st { (((List.range 15).foldl (fun (d : Dev) k => (d.putTrim 8 1 k 5 5).putTrim 8 2 k 5 5) ({} : Dev)).rx 8) with spare := { (((List.range 15).foldl (fun (d : Dev) k => (d.putTrim 8 1 k 5 5).putTrim 8 2 k 5 5) ({} : Dev)).rx 8).spare with waitTake := some (0, 7), dcTick := some 0 } }), 0, 7, ((st { (((List.range 15).foldl (fun (d : Dev) k => (d.putTrim 8 1 k 5 5).putTrim 8 2 k 5 5) ({} : Dev)).rx 8) with spare := { (((List.range 15).foldl (fun (d : Dev) k => (d.putTrim 8 1 k 5 5).putTrim 8 2 k 5 5) ({} : Dev)).rx 8).spare with waitTake := some (0, 7), dcTick := some 0 } }).after .plannedSwitch), ⟨State.acts_after rfl (by decide +kernel), by decide +kernel⟩⟩,
    ⟨(st {}), 0, 0, ((st {}).after .plannedSwitch), ⟨State.acts_after rfl (by decide +kernel), by decide +kernel⟩⟩,
    ⟨(st { ((({} : Dev).put UHFS_SPARE.ATTACHED 3).rx 3) with spare := { now := some 3, waitRel := some 7 } }), 3, 7, ((st { ((({} : Dev).put UHFS_SPARE.ATTACHED 3).rx 3) with spare := { now := some 3, waitRel := some 7 } }).after .releaseSwitch), ⟨State.acts_after rfl (by decide +kernel), by decide +kernel⟩⟩,
    ⟨(st {}), 0, ((st {}).after .releaseSwitch), ⟨State.acts_after rfl (by decide +kernel), by decide +kernel⟩⟩,
    ⟨(st { ({} : Dev) with spare := { ({} : Dev).spare with waitTake := some (0, 7) } }), 0, 7, ((st { ({} : Dev) with spare := { ({} : Dev).spare with waitTake := some (0, 7) } }).after .takeTimeout), ⟨State.acts_after rfl (by decide +kernel), by decide +kernel⟩⟩,
    ⟨(st { ({} : Dev) with spare := { waitTake := some (0, 5), auto := some 0 } }), 0, 5, ((st { ({} : Dev) with spare := { waitTake := some (0, 5), auto := some 0 } }).after .takeTimeout), ⟨State.acts_after rfl (by decide +kernel), by decide +kernel⟩⟩,
    ⟨(st { ({} : Dev) with spare := { ({} : Dev).spare with waitRel := some 7 } }), 7, ((st { ({} : Dev) with spare := { ({} : Dev).spare with waitRel := some 7 } }).after .takeTimeout), ⟨State.acts_after rfl (by decide +kernel), by decide +kernel⟩⟩,
    ⟨(st {}), ((st {}).after .takeTimeout), ⟨State.acts_after rfl (by decide +kernel), by decide +kernel⟩⟩⟩

theorem witness_GuardEndsComplete :
    (∃ (s : State) (fe : Fin 8) (d : Dev), s.acts (.rguLimitEnd fe) d ∧ d.carrierOn (d.carrierOf fe) = false) ∧
    (∃ (s : State) (fe : Fin 8) (c : Nat) (l : Nat) (t : Nat) (dn : Nat) (n : Nat) (reason : Nat) (d : Dev), s.acts (.rguLimitEnd fe) d ∧ c = d.carrierOf fe ∧ d.carrierOn c = true ∧ d.calOf c = none ∧ d.spare.sw = none ∧ firstLimit (d.limits fe d.tick) = some (reason, l) ∧ dn = (if reason = 10 ∧ l < d.tick + d.get UHF_RAMP.RAMP_DN (d.cfg c) then 154 else d.get UHF_RAMP.RAMP_DN (d.cfg c)) ∧ t = max d.tick (l - dn) ∧ n = (d.toTick t).cfg c) ∧
    (∃ (s : State) (u : ChainNo) (reason : Nat) (d : Dev), s.acts (.rampDownDone u) d ∧ u ≠ 8 ∧ d.cst u = csDown ∧ (d.chx u).goal = some csRx ∧ (d.chx u).guarded = some reason ∧ d.calOf u = none ∧ (d.chx u).calBack = none ∧ d.feSettled ∧ d.vatOf u = none ∧ (d.chx u).win = none ∧ (d.chx u).target = none ∧ d.feOf u = some u.val) ∧
    (∃ (s : State) (v : VatNo) (u : ChainNo) (l : Nat) (n : Nat) (reason : Nat) (d : Dev), s.acts (.rampDownDone u) d ∧ u ≠ 8 ∧ d.cst u = csDown ∧ (d.chx u).goal = some csRx ∧ (d.chx u).guarded = some reason ∧ d.calOf u = none ∧ (d.chx u).calBack = none ∧ d.feSettled ∧ d.get VAT_BIND.PORT v = u ∧ d.vatOf u = some v.val ∧ d.waiting v (.txc n l) ∧ (d.chx u).win = none ∧ (d.chx u).target = none ∧ d.feOf u = some u.val) ∧
    (∃ (s : State) (fe : Fin 8) (fwd : BitVec 12) (c : Nat) (d : Dev), s.acts (.overpower fe fwd) d ∧ c = d.carrierOf fe ∧ (d.onAir c = false ∨ fwd.toInt ≤ d.setptMax (d.fex fe).ch fe (d.get UHF_ANT.PORT (d.cfg c)) + 10)) ∧
    (∃ (s : State) (fe : Fin 8) (fwd : BitVec 12) (c : Nat) (d : Dev), s.acts (.overpower fe fwd) d ∧ c = d.carrierOf fe ∧ d.carrierOn c = true ∧ d.setptMax (d.fex fe).ch fe (d.get UHF_ANT.PORT (d.cfg c)) + 10 < fwd.toInt ∧ d.calOf c = none ∧ d.spare.sw = none) ∧
    (∃ (s : State) (d : Dev), s.acts .occSubwindow d ∧ d.occLen = 0) ∧
    (∃ (s : State) (t : Nat) (d : Dev), s.acts .occSubwindow d ∧ d.occLen ≠ 0 ∧ t = (d.tick / d.occLen + 1) * d.occLen) ∧
    (∃ (s : State) (d : Dev), s.acts .rguDesync d ∧ (∀ k : Nat, k < 9 → d.carrierOn k = false) ∧ d.noLaunchNow) ∧
    (∃ (s : State) (fe : Fin 8) (c : Nat) (n : Nat) (d : Dev), s.acts .rguDesync d ∧ c = d.carrierOf fe ∧ d.carrierOn c = true ∧ (∀ k : Nat, k < 9 → k ≠ c → d.carrierOn k = false) ∧ bitOf (d.get RGU_SLOT.FE) fe = false ∧ d.chanOf (d.get SYN_F_FREQ.FREQ_KHZ (d.synOf c)) = some n ∧ d.unsyncOk n = false ∧ d.calOf c = none ∧ d.spare.sw = none ∧ d.noLaunchNow) ∧
    (∃ (s : State) (d : Dev), s.acts .rguResync d ∧ d.isSet RGU_STATUS.DESYNC = true ∧ d.meshSync = true) ∧
    (∃ (s : State) (d : Dev), s.acts .rguResync d ∧ (d.isSet RGU_STATUS.DESYNC = false ∨ d.meshSync = false)) :=
  ⟨⟨(st {}), 0, ((st {}).after (.rguLimitEnd 0)), ⟨State.acts_after rfl (by decide +kernel), by decide +kernel⟩⟩,
    ⟨(st ((({ ((({} : Dev).carrying 0).put SYN_F_FREQ.FREQ_KHZ 865700 0 |>.put RGU_ACTIVE.VALID 1) with rgu := { hdr := [0x10000, 0, 0xFFFF0000, 0, 0, 0, 1, 0], chan := [(865700, 300)], ant := [(0, 0x80000000)] } }).put UHF_RAMP.RAMP_DN 200 0).setFe 0 { onSince := some 0, live := true, known := true })), 0, 0, ((firstLimit ((st ((({ ((({} : Dev).carrying 0).put SYN_F_FREQ.FREQ_KHZ 865700 0 |>.put RGU_ACTIVE.VALID 1) with rgu := { hdr := [0x10000, 0, 0xFFFF0000, 0, 0, 0, 1, 0], chan := [(865700, 300)], ant := [(0, 0x80000000)] } }).put UHF_RAMP.RAMP_DN 200 0).setFe 0 { onSince := some 0, live := true, known := true })).dev.limits 0 (st ((({ ((({} : Dev).carrying 0).put SYN_F_FREQ.FREQ_KHZ 865700 0 |>.put RGU_ACTIVE.VALID 1) with rgu := { hdr := [0x10000, 0, 0xFFFF0000, 0, 0, 0, 1, 0], chan := [(865700, 300)], ant := [(0, 0x80000000)] } }).put UHF_RAMP.RAMP_DN 200 0).setFe 0 { onSince := some 0, live := true, known := true })).dev.tick)).getD (0, 0)).2, max (st ((({ ((({} : Dev).carrying 0).put SYN_F_FREQ.FREQ_KHZ 865700 0 |>.put RGU_ACTIVE.VALID 1) with rgu := { hdr := [0x10000, 0, 0xFFFF0000, 0, 0, 0, 1, 0], chan := [(865700, 300)], ant := [(0, 0x80000000)] } }).put UHF_RAMP.RAMP_DN 200 0).setFe 0 { onSince := some 0, live := true, known := true })).dev.tick (((firstLimit ((st ((({ ((({} : Dev).carrying 0).put SYN_F_FREQ.FREQ_KHZ 865700 0 |>.put RGU_ACTIVE.VALID 1) with rgu := { hdr := [0x10000, 0, 0xFFFF0000, 0, 0, 0, 1, 0], chan := [(865700, 300)], ant := [(0, 0x80000000)] } }).put UHF_RAMP.RAMP_DN 200 0).setFe 0 { onSince := some 0, live := true, known := true })).dev.limits 0 (st ((({ ((({} : Dev).carrying 0).put SYN_F_FREQ.FREQ_KHZ 865700 0 |>.put RGU_ACTIVE.VALID 1) with rgu := { hdr := [0x10000, 0, 0xFFFF0000, 0, 0, 0, 1, 0], chan := [(865700, 300)], ant := [(0, 0x80000000)] } }).put UHF_RAMP.RAMP_DN 200 0).setFe 0 { onSince := some 0, live := true, known := true })).dev.tick)).getD (0, 0)).2 - 200), 200, 0, ((firstLimit ((st ((({ ((({} : Dev).carrying 0).put SYN_F_FREQ.FREQ_KHZ 865700 0 |>.put RGU_ACTIVE.VALID 1) with rgu := { hdr := [0x10000, 0, 0xFFFF0000, 0, 0, 0, 1, 0], chan := [(865700, 300)], ant := [(0, 0x80000000)] } }).put UHF_RAMP.RAMP_DN 200 0).setFe 0 { onSince := some 0, live := true, known := true })).dev.limits 0 (st ((({ ((({} : Dev).carrying 0).put SYN_F_FREQ.FREQ_KHZ 865700 0 |>.put RGU_ACTIVE.VALID 1) with rgu := { hdr := [0x10000, 0, 0xFFFF0000, 0, 0, 0, 1, 0], chan := [(865700, 300)], ant := [(0, 0x80000000)] } }).put UHF_RAMP.RAMP_DN 200 0).setFe 0 { onSince := some 0, live := true, known := true })).dev.tick)).getD (0, 0)).1, ((st ((({ ((({} : Dev).carrying 0).put SYN_F_FREQ.FREQ_KHZ 865700 0 |>.put RGU_ACTIVE.VALID 1) with rgu := { hdr := [0x10000, 0, 0xFFFF0000, 0, 0, 0, 1, 0], chan := [(865700, 300)], ant := [(0, 0x80000000)] } }).put UHF_RAMP.RAMP_DN 200 0).setFe 0 { onSince := some 0, live := true, known := true })).after (.rguLimitEnd 0)), ⟨State.acts_after rfl (by decide +kernel), by decide +kernel⟩⟩,
    ⟨(st ((({} : Dev).put UHF_STATUS.STATE csDown 0).setCh 0 { goal := some csRx, due := 50, guarded := some 9 })), 0, 9, ((st ((({} : Dev).put UHF_STATUS.STATE csDown 0).setCh 0 { goal := some csRx, due := 50, guarded := some 9 })).after (.rampDownDone 0)), ⟨State.acts_after rfl (by decide +kernel), by unfold Dev.feSettled; decide +kernel⟩⟩,
    ⟨(st ((((wait0 (.txc 9 99)).put VAT_BIND.PORT 0 0).put UHF_STATUS.STATE csDown 0).setCh 0 { goal := some csRx, due := 50, guarded := some 9, txOn := true })), 0, 0, 99, 9, 9, ((st ((((wait0 (.txc 9 99)).put VAT_BIND.PORT 0 0).put UHF_STATUS.STATE csDown 0).setCh 0 { goal := some csRx, due := 50, guarded := some 9, txOn := true })).after (.rampDownDone 0)), ⟨State.acts_after rfl (by decide +kernel), by unfold Dev.waiting Dev.feSettled; decide +kernel⟩⟩,
    ⟨(st {}), 0, 5, 0, ((st {}).after (.overpower 0 5)), ⟨State.acts_after rfl (by decide +kernel), by decide +kernel⟩⟩,
    ⟨(st ((({ ((({} : Dev).carrying 0).put SYN_F_FREQ.FREQ_KHZ 865700 0 |>.put RGU_ACTIVE.VALID 1) with rgu := { hdr := [0x10000, 0, 0xFFFF0000, 0, 0, 0, 1, 0], chan := [(865700, 300)], ant := [(0, 0x80000000)] } }).put UHF_RAMP.RAMP_DN 200 0).setFe 0 { onSince := some 0, live := true, known := true })), 0, 2000, 0, ((st ((({ ((({} : Dev).carrying 0).put SYN_F_FREQ.FREQ_KHZ 865700 0 |>.put RGU_ACTIVE.VALID 1) with rgu := { hdr := [0x10000, 0, 0xFFFF0000, 0, 0, 0, 1, 0], chan := [(865700, 300)], ant := [(0, 0x80000000)] } }).put UHF_RAMP.RAMP_DN 200 0).setFe 0 { onSince := some 0, live := true, known := true })).after (.overpower 0 2000)), ⟨State.acts_after rfl (by decide +kernel), by decide +kernel⟩⟩,
    ⟨(st {}), ((st {}).after .occSubwindow), ⟨State.acts_after rfl (by decide +kernel), by decide +kernel⟩⟩,
    ⟨(st { ({} : Dev) with rgu := { hdr := [0, 0, 0, 0x10000] } }), ((st { ({} : Dev) with rgu := { hdr := [0, 0, 0, 0x10000] } }).dev.tick / 960000 + 1) * 960000, ((st { ({} : Dev) with rgu := { hdr := [0, 0, 0, 0x10000] } }).after .occSubwindow), ⟨State.acts_after rfl (by decide +kernel), by decide +kernel⟩⟩,
    ⟨(st {}), ((st {}).after .rguDesync), ⟨State.acts_after rfl (by decide +kernel), by unfold Dev.noLaunchNow; decide +kernel⟩⟩,
    ⟨(st (((({ ((({} : Dev).carrying 0).put SYN_F_FREQ.FREQ_KHZ 865700 0 |>.put RGU_ACTIVE.VALID 1) with rgu := { hdr := [0x10000, 0, 0xFFFF0000, 0, 0, 0, 0, 0], chan := [(865700, 300)], ant := [(0, 0x80000000)] } }).put UHF_RAMP.RAMP_DN 200 0).setFe 0 { onSince := some 0, live := true, known := true }))), 0, 0, 0, ((st (((({ ((({} : Dev).carrying 0).put SYN_F_FREQ.FREQ_KHZ 865700 0 |>.put RGU_ACTIVE.VALID 1) with rgu := { hdr := [0x10000, 0, 0xFFFF0000, 0, 0, 0, 0, 0], chan := [(865700, 300)], ant := [(0, 0x80000000)] } }).put UHF_RAMP.RAMP_DN 200 0).setFe 0 { onSince := some 0, live := true, known := true }))).after .rguDesync), ⟨State.acts_after rfl (by decide +kernel), by unfold Dev.noLaunchNow; decide +kernel⟩⟩,
    ⟨(st { ((({} : Dev).put RGU_STATUS.DESYNC 1).put MSH_STATUS.STATE 2) with asn := { missing := false } }), ((st { ((({} : Dev).put RGU_STATUS.DESYNC 1).put MSH_STATUS.STATE 2) with asn := { missing := false } }).after .rguResync), ⟨State.acts_after rfl (by decide +kernel), by decide +kernel⟩⟩,
    ⟨(st {}), ((st {}).after .rguResync), ⟨State.acts_after rfl (by decide +kernel), by decide +kernel⟩⟩⟩

theorem witness_PortStatesComplete :
    (∃ (s : State) (target : BitVec 3) (hm : BitVec 6) (ha : BitVec 6) (am : BitVec 4) (aa : BitVec 4) (imeas : BitVec 9) (k : Fin 4) (value : Word) (cmd : Instr) (m : Nat) (reg : Reg), (cmd, m, reg) ∈ [(Instr.hfrTargetWrite target, 5, Reg.HFR_CTRL), (.hfrForce, 5, .HFR_TRIP), (.hfrTripClear hm ha, 5, .HFR_TRIP), (.hfrDrvWrite imeas, 5, .HFR_DRV), (.hfrModeWrite k value, 5, .HFR_MODE), (.actTargetWrite target, 6, .ACT_CTRL), (.actForce, 6, .ACT_TRIP), (.actTripClear am aa, 6, .ACT_TRIP)] ∧ s.dev.present m = false ∧ s.dev.pwr.asleep = none) ∧
    (∃ (s : State) (target : BitVec 3) (cmd : Instr) (p : Nat) (d : Dev), s.acts cmd d ∧ (cmd = .hfrTargetWrite target ∧ p = 9 ∨ cmd = .actTargetWrite target ∧ p = 10) ∧ 1 < target.toNat) ∧
    (∃ (s : State) (target : BitVec 3) (cmd : Instr) (p : Nat) (d : Dev), s.acts cmd d ∧ (cmd = .hfrTargetWrite target ∧ p = 9 ∨ cmd = .actTargetWrite target ∧ p = 10) ∧ target.toNat ≤ 1 ∧ d.pst p ≠ 2 ∧ d.portCarryHeld p = false ∧ d.portCalm p) ∧
    (∃ (s : State) (target : BitVec 3) (cmd : Instr) (p : Nat) (t : Nat) (d : Dev), s.acts cmd d ∧ (cmd = .hfrTargetWrite target ∧ p = 9 ∨ cmd = .actTargetWrite target ∧ p = 10) ∧ target.toNat ≤ 1 ∧ d.pst p = 2 ∧ d.binder p = none ∧ (d.chx p).win = none ∧ (d.chx p).txOn = false ∧ d.portCalm p ∧ t = (if p = 9 then d.tick + 1 else d.tick + usTicks 1)) ∧
    (∃ (s : State) (v : VatNo) (target : BitVec 3) (cmd : Instr) (p : Nat) (n : Nat) (l : Nat) (d : Dev), s.acts cmd d ∧ (cmd = .hfrTargetWrite target ∧ p = 9 ∨ cmd = .actTargetWrite target ∧ p = 10) ∧ target.toNat ≤ 1 ∧ d.pst p = 2 ∧ d.get VAT_BIND.PORT v = p ∧ d.binder p = some v.val ∧ (d.chx p).win = none ∧ d.portCalm p ∧ d.waiting v (.txc n l)) ∧
    (∃ (s : State) (hc : BitVec 6) (ac : BitVec 4) (cmd : Instr) (p : Nat) (c0 : Nat) (d : Dev), s.acts cmd d ∧ (cmd = .hfrForce ∧ p = 9 ∧ c0 = 0x10 ∨ cmd = .hfrTrip hc ∧ p = 9 ∧ c0 = hc.toNat ∨ cmd = .actForce ∧ p = 10 ∧ c0 = 4 ∨ cmd = .actTrip ac ∧ p = 10 ∧ c0 = ac.toNat) ∧ (cmd = .hfrForce ∨ cmd = .actForce → d.present (portIsland p) = true) ∧ d.portCalm p ∧ d.portMask p c0 = 0) ∧
    (∃ (s : State) (hc : BitVec 6) (ac : BitVec 4) (cmd : Instr) (p : Nat) (c0 : Nat) (m : Nat) (d : Dev), s.acts cmd d ∧ (cmd = .hfrForce ∧ p = 9 ∧ c0 = 0x10 ∨ cmd = .hfrTrip hc ∧ p = 9 ∧ c0 = hc.toNat ∨ cmd = .actForce ∧ p = 10 ∧ c0 = 4 ∨ cmd = .actTrip ac ∧ p = 10 ∧ c0 = ac.toNat) ∧ (cmd = .hfrForce ∨ cmd = .actForce → d.present (portIsland p) = true) ∧ d.portCalm p ∧ m = d.portMask p c0 ∧ m ≠ 0 ∧ d.pst p = 4) ∧
    (∃ (s : State) (hc : BitVec 6) (ac : BitVec 4) (cmd : Instr) (p : Nat) (c0 : Nat) (m : Nat) (d : Dev), s.acts cmd d ∧ (cmd = .hfrForce ∧ p = 9 ∧ c0 = 0x10 ∨ cmd = .hfrTrip hc ∧ p = 9 ∧ c0 = hc.toNat ∨ cmd = .actForce ∧ p = 10 ∧ c0 = 4 ∨ cmd = .actTrip ac ∧ p = 10 ∧ c0 = ac.toNat) ∧ (cmd = .hfrForce ∨ cmd = .actForce → d.present (portIsland p) = true) ∧ d.portCalm p ∧ m = d.portMask p c0 ∧ m ≠ 0 ∧ d.pst p ≠ 4 ∧ d.binder p = none ∧ (d.chx p).win = none ∧ (d.chx p).txOn = false) ∧
    (∃ (s : State) (v : VatNo) (hc : BitVec 6) (ac : BitVec 4) (cmd : Instr) (p : Nat) (c0 : Nat) (n : Nat) (l : Nat) (d : Dev), s.acts cmd d ∧ (cmd = .hfrForce ∧ p = 9 ∧ c0 = 0x10 ∨ cmd = .hfrTrip hc ∧ p = 9 ∧ c0 = hc.toNat ∨ cmd = .actForce ∧ p = 10 ∧ c0 = 4 ∨ cmd = .actTrip ac ∧ p = 10 ∧ c0 = ac.toNat) ∧ (cmd = .hfrForce ∨ cmd = .actForce → d.present (portIsland p) = true) ∧ d.portCalm p ∧ d.portMask p c0 ≠ 0 ∧ d.pst p ≠ 4 ∧ d.get VAT_BIND.PORT v = p ∧ d.binder p = some v.val ∧ (d.chx p).win = none ∧ d.waiting v (.txc n l)) ∧
    (∃ (s : State) (hm : BitVec 6) (ha : BitVec 6) (am : BitVec 4) (aa : BitVec 4) (cmd : Instr) (p : Nat) (x : Nat) (d : Dev), s.acts cmd d ∧ (cmd = .hfrTripClear hm ha ∧ p = 9 ∧ x = Nat.land (d.get HFR_TRIP.CAUSE) (Nat.lor (Nat.land ha.toNat 0x0C) (0x3F - hm.toNat)) ∨ cmd = .actTripClear am aa ∧ p = 10 ∧ x = Nat.land (d.get ACT_TRIP.CAUSE) (Nat.lor (Nat.land aa.toNat 0x3) (0x3F - am.toNat))) ∧ d.portCalm p) ∧
    (∃ (s : State) (act : Bool) (p : Nat), p = (if act then 10 else 9) ∧ (((s.dev.chx p).goal = some 1 ∧ (s.dev.chx p).target = none) ∨ ((s.dev.chx p).goal = some 0 ∧ (s.dev.chx p).target = some 1)) ∧ (s.dev.chx p).levels = [] ∧ s.dev.pst p ≠ 2) ∧
    (∃ (s : State) (act : Bool) (p : Nat), p = (if act then 10 else 9) ∧ (s.dev.chx p).goal ≠ some 1 ∧ ((s.dev.chx p).goal ≠ some 0 ∨ (s.dev.chx p).target ≠ some 1)) ∧
    (∃ (s : State) (v : VatNo) (imeas : BitVec 9) (n : Nat) (d : Dev), s.acts (.hfrCarryEnd imeas) d ∧ d.pst 9 = 2 ∧ d.portCalm 9 ∧ 9 * d.hfCurrent ≤ 10 * imeas.toNat ∧ d.binder 9 = some v.val ∧ d.waiting v (.carryOn n)) ∧
    (∃ (s : State) (imeas : BitVec 9) (d : Dev), s.acts (.hfrCarryEnd imeas) d ∧ d.portCalm 9 ∧ (d.pst 9 ≠ 2 ∨ 10 * imeas.toNat < 9 * d.hfCurrent)) ∧
    (∃ (s : State) (v : VatNo) (d : Dev), s.acts .hfrFieldOff d ∧ d.pst 9 = 2 ∧ (d.chx 9).goal = some 5 ∧ (d.chx 9).target = none ∧ (d.chx 9).levels = [] ∧ (d.chx 9).txOn = false ∧ d.binder 9 = some v.val ∧ d.waiting v .carryOff) ∧
    (∃ (s : State) (v : VatNo) (d : Dev), s.acts .hfrFieldOff d ∧ d.pst 9 = 1 ∧ d.binder 9 = some v.val ∧ d.waiting v .carryOff) ∧
    (∃ (s : State) (d : Dev), s.acts .hfrFieldOff d ∧ (d.chx 9).goal ≠ some 5 ∧ (d.binder 9 = none ∨ d.pst 9 ≠ 1)) ∧
    (∃ (s : State) (v : VatNo) (n : Nat) (t : Nat) (d : Dev), s.acts .actLock d ∧ d.binder 10 = some v.val ∧ d.waiting v (.carryOn n) ∧ d.pst 10 = 1 ∧ d.portCalm 10 ∧ t = max d.tick (n + 154) ∧ t ≤ n + 154 + 15360) ∧
    (∃ (s : State) (d : Dev), s.acts .actLock d ∧ d.binder 10 = none) ∧
    (∃ (s : State) (imeas : BitVec 9) (d : Dev), s.acts (.hfrDrvWrite imeas) d ∧ d.portCalm 9) ∧
    (∃ (s : State) (k : Fin 4) (value : Word) (x : Nat) (d : Dev), s.acts (.hfrModeWrite k value) d ∧ x = value.toNat) ∧
    (∃ (s : State) (n : Nat) (t : Nat) (d : Dev), s.acts .actDutySubwindow d ∧ t = (d.tick / dutyWindow + 1) * dutyWindow ∧ n = d.dutyAhead t) :=
  ⟨⟨(st (({} : Dev).put SYS_ROLL.MISSING 0x60)), 0, 0, 0, 0, 0, 0, 0, 0, .hfrForce, 5, .HFR_TRIP, by decide +kernel⟩,
    ⟨(st {}), 2, .hfrTargetWrite 2, 9, ((st {}).after (.hfrTargetWrite 2)), ⟨State.acts_after rfl (by decide +kernel), by decide +kernel⟩⟩,
    ⟨(st (({} : Dev).put HFR_STATUS.STATE 1)), 1, .hfrTargetWrite 1, 9, ((st (({} : Dev).put HFR_STATUS.STATE 1)).after (.hfrTargetWrite 1)), ⟨State.acts_after rfl (by decide +kernel), by unfold Dev.portCalm; decide +kernel⟩⟩,
    ⟨(st (({} : Dev).put HFR_STATUS.STATE 2)), 0, .hfrTargetWrite 0, 9, 1, ((st (({} : Dev).put HFR_STATUS.STATE 2)).after (.hfrTargetWrite 0)), ⟨State.acts_after rfl (by decide +kernel), by unfold Dev.portCalm; decide +kernel⟩⟩,
    ⟨(st ((((((({} : Dev).put HFR_STATUS.STATE 2).put VAT_STATUS.STATE vsWait 0).put VAT_PC.PC 16 0).setVat 0 { wait := .txc 9 99 }).put VAT_BIND.PORT 9 0).setCh 9 { txOn := true })), 0, 0, .hfrTargetWrite 0, 9, 9, 99, ((st ((((((({} : Dev).put HFR_STATUS.STATE 2).put VAT_STATUS.STATE vsWait 0).put VAT_PC.PC 16 0).setVat 0 { wait := .txc 9 99 }).put VAT_BIND.PORT 9 0).setCh 9 { txOn := true })).after (.hfrTargetWrite 0)), ⟨State.acts_after rfl (by decide +kernel), by unfold Dev.waiting Dev.portCalm; decide +kernel⟩⟩,
    ⟨(st {}), 0x10, 4, .hfrTrip 0x10, 9, 0x10, ((st {}).after (.hfrTrip 0x10)), ⟨State.acts_after rfl (by decide +kernel), by unfold Dev.portCalm; decide +kernel⟩⟩,
    ⟨(st (({} : Dev).put HFR_STATUS.STATE 4)), 0x10, 4, .hfrForce, 9, 0x10, 0x10, ((st (({} : Dev).put HFR_STATUS.STATE 4)).after .hfrForce), ⟨State.acts_after rfl (by decide +kernel), by unfold Dev.portCalm; decide +kernel⟩⟩,
    ⟨(st (({} : Dev).put HFR_STATUS.STATE 2)), 0x10, 4, .hfrForce, 9, 0x10, 0x10, ((st (({} : Dev).put HFR_STATUS.STATE 2)).after .hfrForce), ⟨State.acts_after rfl (by decide +kernel), by unfold Dev.portCalm; decide +kernel⟩⟩,
    ⟨(st (((((({} : Dev).put HFR_STATUS.STATE 2).put VAT_STATUS.STATE vsWait 0).put VAT_PC.PC 16 0).setVat 0 { wait := .txc 9 99 }).put VAT_BIND.PORT 9 0)), 0, 0x10, 4, .hfrForce, 9, 0x10, 9, 99, ((st (((((({} : Dev).put HFR_STATUS.STATE 2).put VAT_STATUS.STATE vsWait 0).put VAT_PC.PC 16 0).setVat 0 { wait := .txc 9 99 }).put VAT_BIND.PORT 9 0)).after .hfrForce), ⟨State.acts_after rfl (by decide +kernel), by unfold Dev.waiting Dev.portCalm; decide +kernel⟩⟩,
    ⟨(st ((({} : Dev).put HFR_TRIP.CAUSE 3).put HFR_STATUS.STATE 4)), 3, 0, 0xF, 0, .hfrTripClear 3 0, 9, 0, ((st ((({} : Dev).put HFR_TRIP.CAUSE 3).put HFR_STATUS.STATE 4)).after (.hfrTripClear 3 0)), ⟨State.acts_after rfl (by decide +kernel), by unfold Dev.portCalm; decide +kernel⟩⟩,
    ⟨(st (({} : Dev).setCh 9 { goal := some 1, due := 50 })), false, 9, by decide +kernel⟩,
    ⟨(st {}), false, 9, by decide +kernel⟩,
    ⟨(st ((((((({} : Dev).put HFR_STATUS.STATE 2).put VAT_STATUS.STATE vsWait 0).put VAT_PC.PC 16 0).setVat 0 { wait := .carryOn 9 }).put VAT_BIND.PORT 9 0).put HFR_DRV.ITGT 100)), 0, 100, 9, ((st ((((((({} : Dev).put HFR_STATUS.STATE 2).put VAT_STATUS.STATE vsWait 0).put VAT_PC.PC 16 0).setVat 0 { wait := .carryOn 9 }).put VAT_BIND.PORT 9 0).put HFR_DRV.ITGT 100)).after (.hfrCarryEnd 100)), ⟨State.acts_after rfl (by decide +kernel), by unfold Dev.waiting Dev.portCalm; decide +kernel⟩⟩,
    ⟨(st {}), 100, ((st {}).after (.hfrCarryEnd 100)), ⟨State.acts_after rfl (by decide +kernel), by unfold Dev.portCalm; decide +kernel⟩⟩,
    ⟨(st ((((((({} : Dev).put HFR_STATUS.STATE 2).put VAT_STATUS.STATE vsWait 0).put VAT_PC.PC 16 0).setVat 0 { wait := .carryOff }).put VAT_BIND.PORT 9 0).setCh 9 { goal := some 5, due := 50 })), 0, ((st ((((((({} : Dev).put HFR_STATUS.STATE 2).put VAT_STATUS.STATE vsWait 0).put VAT_PC.PC 16 0).setVat 0 { wait := .carryOff }).put VAT_BIND.PORT 9 0).setCh 9 { goal := some 5, due := 50 })).after .hfrFieldOff), ⟨State.acts_after rfl (by decide +kernel), by unfold Dev.waiting; decide +kernel⟩⟩,
    ⟨(st ((((({} : Dev).put HFR_STATUS.STATE 1).put VAT_STATUS.STATE vsWait 0).put VAT_PC.PC 16 0).setVat 0 { wait := .carryOff } |>.put VAT_BIND.PORT 9 0)), 0, ((st ((((({} : Dev).put HFR_STATUS.STATE 1).put VAT_STATUS.STATE vsWait 0).put VAT_PC.PC 16 0).setVat 0 { wait := .carryOff } |>.put VAT_BIND.PORT 9 0)).after .hfrFieldOff), ⟨State.acts_after rfl (by decide +kernel), by unfold Dev.waiting; decide +kernel⟩⟩,
    ⟨(st {}), ((st {}).after .hfrFieldOff), ⟨State.acts_after rfl (by decide +kernel), by decide +kernel⟩⟩,
    ⟨(st (((((({} : Dev).put VAT_STATUS.STATE vsWait 0).put VAT_PC.PC 16 0).setVat 0 { wait := .carryOn 9 }).put VAT_BIND.PORT 10 0).put ACT_STATUS.STATE 1)), 0, 9, max (st (((((({} : Dev).put VAT_STATUS.STATE vsWait 0).put VAT_PC.PC 16 0).setVat 0 { wait := .carryOn 9 }).put VAT_BIND.PORT 10 0).put ACT_STATUS.STATE 1)).dev.tick 163, ((st (((((({} : Dev).put VAT_STATUS.STATE vsWait 0).put VAT_PC.PC 16 0).setVat 0 { wait := .carryOn 9 }).put VAT_BIND.PORT 10 0).put ACT_STATUS.STATE 1)).after .actLock), ⟨State.acts_after rfl (by decide +kernel), by unfold Dev.waiting Dev.portCalm; decide +kernel⟩⟩,
    ⟨(st {}), ((st {}).after .actLock), ⟨State.acts_after rfl (by decide +kernel), by decide +kernel⟩⟩,
    ⟨(st (({} : Dev).put HFR_STATUS.STATE 1)), 0, ((st (({} : Dev).put HFR_STATUS.STATE 1)).after (.hfrDrvWrite 0)), ⟨State.acts_after rfl (by decide +kernel), by unfold Dev.portCalm; decide +kernel⟩⟩,
    ⟨(st {}), 0, 0x00006400, 0x00006400, ((st {}).after (.hfrModeWrite 0 0x00006400)), ⟨State.acts_after rfl (by decide +kernel), by decide +kernel⟩⟩,
    ⟨(st {}), ((st {}).dev.dutyAhead (((st {}).dev.tick / dutyWindow + 1) * dutyWindow : Nat)), ((st {}).dev.tick / dutyWindow + 1) * dutyWindow, ((st {}).after .actDutySubwindow), ⟨State.acts_after rfl (by decide +kernel), by decide +kernel⟩⟩⟩

theorem witness_WatchesComplete :
    (∃ s : State, s.dev.awake ∧ (s.dev.isSet HFR_CW_CTRL.EN = false ∨ s.dev.cwIsDue = false)) ∧
    (∃ s : State, s.dev.awake ∧ s.dev.isSet HFR_CW_CTRL.EN = true ∧ s.dev.cwIsDue = true ∧ s.dev.cw.pulse = none ∧ s.dev.portCalm 9 ∧ (2 ≤ s.dev.pst 9 ∨ s.dev.calOf 13 ≠ none)) ∧
    (∃ (s : State) (n : Nat), s.dev.awake ∧ s.dev.isSet HFR_CW_CTRL.EN = true ∧ s.dev.cwIsDue = true ∧ s.dev.cw.pulse = none ∧ s.dev.portCalm 9 ∧ s.dev.pst 9 < 2 ∧ s.dev.calOf 13 = none ∧ n = (max 50 (min 2000 (s.dev.get HFR_CW_CTRL.INTERVAL)) * 32768 + 500) / 1000) ∧
    (∃ (s : State) (amp : BitVec 12) (phase : BitVec 8) (far : Bool) (t : Nat) (d : Dev), s.pending = [] ∧ s.dev.awake ∧ s.dev.qCalm ∧ s.dev.cw.pulse = some (t, amp.toNat, phase.toNat) ∧ t + cwLength ≤ s.dev.tick + 1 ∧ d = { s.dev.toTick (s.dev.tick + 1) with cw := { s.dev.cw with pulse := none } } ∧ far = decide (d.get HFR_CW_THR.A_THR * d.get HFR_CW_BASE.AMP < 200 * ((amp.toNat : Int) - d.get HFR_CW_BASE.AMP).natAbs ∨ d.get HFR_CW_THR.P_THR < (phaseDiff phase.toNat (d.get HFR_CW_BASE.PH)).natAbs) ∧ far = false) ∧
    (∃ (s : State) (amp : BitVec 12) (phase : BitVec 8) (far : Bool) (t : Nat) (d : Dev), s.pending = [] ∧ s.dev.awake ∧ s.dev.qCalm ∧ s.dev.cw.pulse = some (t, amp.toNat, phase.toNat) ∧ t + cwLength ≤ s.dev.tick + 1 ∧ d = { s.dev.toTick (s.dev.tick + 1) with cw := { s.dev.cw with pulse := none } } ∧ far = decide (d.get HFR_CW_THR.A_THR * d.get HFR_CW_BASE.AMP < 200 * ((amp.toNat : Int) - d.get HFR_CW_BASE.AMP).natAbs ∨ d.get HFR_CW_THR.P_THR < (phaseDiff phase.toNat (d.get HFR_CW_BASE.PH)).natAbs) ∧ far = true ∧ d.cw.held = false ∧ d.cw.devs + 1 < max 1 (d.get HFR_CW_CTRL.DEBOUNCE)) ∧
    (∃ (s : State) (amp : BitVec 12) (phase : BitVec 8) (far : Bool) (t : Nat) (d : Dev), s.pending = [] ∧ s.dev.awake ∧ s.dev.qCalm ∧ s.dev.cw.pulse = some (t, amp.toNat, phase.toNat) ∧ t + cwLength ≤ s.dev.tick + 1 ∧ d = { s.dev.toTick (s.dev.tick + 1) with cw := { s.dev.cw with pulse := none } } ∧ far = decide (d.get HFR_CW_THR.A_THR * d.get HFR_CW_BASE.AMP < 200 * ((amp.toNat : Int) - d.get HFR_CW_BASE.AMP).natAbs ∨ d.get HFR_CW_THR.P_THR < (phaseDiff phase.toNat (d.get HFR_CW_BASE.PH)).natAbs) ∧ far = true ∧ d.cw.held = false ∧ max 1 (d.get HFR_CW_CTRL.DEBOUNCE) ≤ d.cw.devs + 1) ∧
    (∃ (s : State) (amp : BitVec 12), s.dev.sleeps 1 ∧ s.dev.latched.isSet HFR_CW_CTRL.EN = true ∧ bitOf (s.dev.sources 1) 2 = true ∧ s.dev.cw.held = false ∧ max 1 (s.dev.latched.get HFR_CW_CTRL.DEBOUNCE) ≤ s.dev.cw.devs + 1 ∧ s.dev.latched.get HFR_CW_THR.A_THR * s.dev.latched.get HFR_CW_BASE.AMP < 200 * ((amp.toNat : Int) - s.dev.latched.get HFR_CW_BASE.AMP).natAbs) ∧
    (∃ (s : State) (code : Word) (x0 : Dev), s.acts (.wkrCodeWrite code) x0) ∧
    (∃ (s : State) (code : Word) (n : Nat), s.dev.awake ∧ n = popcount (Nat.xor code.toNat (s.dev.get WKR_CODE.CODE)) ∧ s.dev.isSet WKR_CTRL.EN433 = true ∧ s.dev.isSet WKR_STATUS.CODE_BAD = false ∧ n ≤ s.dev.get WKR_433CFG.ERRS ∧ s.dev.wkr.hold ≤ s.dev.tick ∧ s.dev.actBlanks = false) ∧
    (∃ (s : State) (code : Word) (n : Nat), s.dev.awake ∧ n = popcount (Nat.xor code.toNat (s.dev.get WKR_CODE.CODE)) ∧ (s.dev.isSet WKR_CTRL.EN433 = false ∨ s.dev.isSet WKR_STATUS.CODE_BAD = true ∨ s.dev.get WKR_433CFG.ERRS < n ∨ s.dev.tick < s.dev.wkr.hold ∨ s.dev.actBlanks = true)) ∧
    (∃ (s : State) (code : Word) (n : Nat) (t : Nat), s.dev.sleeps t ∧ (t = 1 ∨ t = 2) ∧ s.dev.latched.isSet WKR_CTRL.EN433 = true ∧ s.dev.latched.isSet WKR_STATUS.CODE_BAD = false ∧ n = popcount (Nat.xor code.toNat (s.dev.latched.get WKR_CODE.CODE)) ∧ n ≤ s.dev.latched.get WKR_433CFG.ERRS ∧ bitOf (s.dev.sources t) 0 = true ∧ s.dev.wkr.holdHw ≤ s.dev.sleepOn.hw ∧ s.dev.wkr.blank433Hw ≤ s.dev.sleepOn.hw) ∧
    (∃ (s : State) (pulses : List (Nat × Nat)) (n : Nat), s.dev.awake ∧ n = max 2 (s.dev.get WKR_24SEQ.PCOUNT) ∧ s.dev.isSet WKR_CTRL.EN24 = true ∧ s.dev.meshBlanks = false ∧ n ≤ pulseRun (s.dev.get WKR_24PW.PW_MIN) (s.dev.get WKR_24PW.PW_MAX) (s.dev.get WKR_24SEQ.GAP_MAX) n 0 pulses) ∧
    (∃ (s : State) (pulses : List (Nat × Nat)) (n : Nat), s.dev.awake ∧ n = max 2 (s.dev.get WKR_24SEQ.PCOUNT) ∧ (s.dev.isSet WKR_CTRL.EN24 = false ∨ s.dev.meshBlanks = true ∨ pulseRun (s.dev.get WKR_24PW.PW_MIN) (s.dev.get WKR_24PW.PW_MAX) (s.dev.get WKR_24SEQ.GAP_MAX) n 0 pulses < n)) ∧
    (∃ (s : State) (pulses : List (Nat × Nat)) (n : Nat) (t : Nat), s.dev.sleeps t ∧ (t = 1 ∨ t = 2) ∧ s.dev.latched.isSet WKR_CTRL.EN24 = true ∧ n = max 2 (s.dev.latched.get WKR_24SEQ.PCOUNT) ∧ n ≤ pulseRun (s.dev.latched.get WKR_24PW.PW_MIN) (s.dev.latched.get WKR_24PW.PW_MAX) (s.dev.latched.get WKR_24SEQ.GAP_MAX) n 0 pulses ∧ bitOf (s.dev.sources t) 1 = true ∧ s.dev.wkr.blank24Hw ≤ s.dev.sleepOn.hw) :=
  ⟨⟨(st up), by unfold Dev.awake; decide +kernel⟩,
    ⟨(st (((up.put HFR_CW_CTRL.EN 1).put HFR_CW_THR.A_THR 10).put HFR_STATUS.STATE 2)), by unfold Dev.portCalm Dev.awake; decide +kernel⟩,
    ⟨(st (up.put HFR_CW_CTRL.EN 1)), (max 50 (min 2000 (up.get HFR_CW_CTRL.INTERVAL)) * 32768 + 500) / 1000, by unfold Dev.portCalm Dev.awake; decide +kernel⟩,
    ⟨(st { (((((up.put HFR_CW_CTRL.EN 1).put HFR_CW_THR.A_THR 10).put HFR_CW_BASE.AMP 7).put HFR_CW_BASE.PH 9).put HFR_CW_CTRL.TRACK 1) with cw := { pulse := some (0, 7, 9) }, clk := 2000000 }), 7, 9, false, 0, { (st { (((((up.put HFR_CW_CTRL.EN 1).put HFR_CW_THR.A_THR 10).put HFR_CW_BASE.AMP 7).put HFR_CW_BASE.PH 9).put HFR_CW_CTRL.TRACK 1) with cw := { pulse := some (0, 7, 9) }, clk := 2000000 }).dev.toTick ((st { (((((up.put HFR_CW_CTRL.EN 1).put HFR_CW_THR.A_THR 10).put HFR_CW_BASE.AMP 7).put HFR_CW_BASE.PH 9).put HFR_CW_CTRL.TRACK 1) with cw := { pulse := some (0, 7, 9) }, clk := 2000000 }).dev.tick + 1) with cw := { (st { (((((up.put HFR_CW_CTRL.EN 1).put HFR_CW_THR.A_THR 10).put HFR_CW_BASE.AMP 7).put HFR_CW_BASE.PH 9).put HFR_CW_CTRL.TRACK 1) with cw := { pulse := some (0, 7, 9) }, clk := 2000000 }).dev.cw with pulse := none } }, by unfold Dev.qCalm Dev.awake; and_intros <;> first | decide +kernel | rfl⟩,
    ⟨(st { ((((up.put HFR_CW_CTRL.EN 1).put HFR_CW_THR.A_THR 10)).put HFR_CW_CTRL.DEBOUNCE 2) with cw := { pulse := some (0, 7, 9) }, clk := 2000000 }), 7, 9, true, 0, { (st { ((((up.put HFR_CW_CTRL.EN 1).put HFR_CW_THR.A_THR 10)).put HFR_CW_CTRL.DEBOUNCE 2) with cw := { pulse := some (0, 7, 9) }, clk := 2000000 }).dev.toTick ((st { ((((up.put HFR_CW_CTRL.EN 1).put HFR_CW_THR.A_THR 10)).put HFR_CW_CTRL.DEBOUNCE 2) with cw := { pulse := some (0, 7, 9) }, clk := 2000000 }).dev.tick + 1) with cw := { (st { ((((up.put HFR_CW_CTRL.EN 1).put HFR_CW_THR.A_THR 10)).put HFR_CW_CTRL.DEBOUNCE 2) with cw := { pulse := some (0, 7, 9) }, clk := 2000000 }).dev.cw with pulse := none } }, by unfold Dev.qCalm Dev.awake; and_intros <;> first | decide +kernel | rfl⟩,
    ⟨(st { ((((up.put HFR_CW_CTRL.EN 1).put HFR_CW_THR.A_THR 10)).put HFR_CW_CTRL.DEBOUNCE 1) with cw := { pulse := some (0, 7, 9) }, clk := 2000000 }), 7, 9, true, 0, { (st { ((((up.put HFR_CW_CTRL.EN 1).put HFR_CW_THR.A_THR 10)).put HFR_CW_CTRL.DEBOUNCE 1) with cw := { pulse := some (0, 7, 9) }, clk := 2000000 }).dev.toTick ((st { ((((up.put HFR_CW_CTRL.EN 1).put HFR_CW_THR.A_THR 10)).put HFR_CW_CTRL.DEBOUNCE 1) with cw := { pulse := some (0, 7, 9) }, clk := 2000000 }).dev.tick + 1) with cw := { (st { ((((up.put HFR_CW_CTRL.EN 1).put HFR_CW_THR.A_THR 10)).put HFR_CW_CTRL.DEBOUNCE 1) with cw := { pulse := some (0, 7, 9) }, clk := 2000000 }).dev.cw with pulse := none } }, by unfold Dev.qCalm Dev.awake; and_intros <;> first | decide +kernel | rfl⟩,
    ⟨(st ((slept 1 ((((up.put HFR_CW_CTRL.EN 1).put HFR_CW_THR.A_THR 10)).put HFR_CW_CTRL.DEBOUNCE 1)).put PWR_WAKEEN.EN 4)), 7, by unfold Dev.sleeps; decide +kernel⟩,
    ⟨(st up), 0, ((st up).after (.wkrCodeWrite 0)), State.acts_after rfl (by decide +kernel)⟩,
    ⟨(st (((up.put WKR_CTRL.EN433 1).put WKR_STATUS.CODE_BAD 0).put WKR_CODE.CODE 0x12345678)), 0x12345678, 0, by unfold Dev.awake; decide +kernel⟩,
    ⟨(st up), 0x12345678, popcount 0x12345678, by unfold Dev.awake; decide +kernel⟩,
    ⟨(st ((slept 1 (((up.put WKR_CTRL.EN433 1).put WKR_STATUS.CODE_BAD 0).put WKR_CODE.CODE 0x12345678)).put PWR_WAKEEN.EN 1)), 0x12345678, 0, 1, by unfold Dev.sleeps; decide +kernel⟩,
    ⟨(st ((((up.put WKR_CTRL.EN24 1).put WKR_24SEQ.PCOUNT 2).put WKR_24PW.PW_MAX 100 |>.put WKR_24PW.PW_MIN 1).put WKR_24SEQ.GAP_MAX 9)), [(5, 0), (5, 3)], 2, by unfold Dev.awake; decide +kernel⟩,
    ⟨(st up), [], max 2 ((st up).dev.get WKR_24SEQ.PCOUNT), by unfold Dev.awake; decide +kernel⟩,
    ⟨(st ((slept 2 ((((up.put WKR_CTRL.EN24 1).put WKR_24SEQ.PCOUNT 2).put WKR_24PW.PW_MAX 100 |>.put WKR_24PW.PW_MIN 1).put WKR_24SEQ.GAP_MAX 9)).put PWR_WAKEEN.EN 2)), [(5, 0), (5, 3)], 2, 2, by unfold Dev.sleeps; decide +kernel⟩⟩

theorem witness_RingsComplete :
    (∃ (s : State) (n : Fin 8) (x0 : Dev), s.acts (.ringSourceTick n) x0 ∧ (x0.isSet RING_CTRL.EN n = false ∨ 8 < x0.get RING_CTRL.SRC n ∨ x0.frozen n = true)) ∧
    (∃ (s : State) (n : Fin 8) (p : Nat) (x : Nat) (c : Nat) (x0 : Dev), s.acts (.ringSourceTick n) x0 ∧ x0.isSet RING_CTRL.EN n = true ∧ x0.get RING_CTRL.SRC n ≤ 8 ∧ x0.frozen n = false ∧ p = max 1 (x0.get RING_PRE.N n) * 65536 + x0.get RING_PRE.F n ∧ x = (x0.ringx n).phi + 65536 ∧ c = (if p ≤ x then ((x0.ringx n).cnt + 1) % 2 ^ 64 else (x0.ringx n).cnt)) ∧
    (∃ (s : State) (n : Fin 8) (src : BitVec 4) (x0 : Dev), s.acts (.ringSrcChange n src) x0 ∧ (8 < src.toNat ∨ src.toNat = x0.get RING_CTRL.SRC n)) ∧
    (∃ (s : State) (n : Fin 8) (src : BitVec 4) (x0 : Dev), s.acts (.ringSrcChange n src) x0 ∧ src.toNat ≤ 8 ∧ src.toNat ≠ x0.get RING_CTRL.SRC n ∧ x0.isSet RING_CTRL.EN n = false) ∧
    (∃ (s : State) (n : Fin 8) (src : BitVec 4) (x0 : Dev), s.acts (.ringSrcChange n src) x0 ∧ src.toNat ≤ 8 ∧ src.toNat ≠ x0.get RING_CTRL.SRC n ∧ x0.isSet RING_CTRL.EN n = true) ∧
    (∃ (s : State) (n : Fin 8) (k : Fin 4) (lo : Word) (x : Nat) (c : Nat) (late : Bool) (x0 : Dev), s.acts (.ringCmpArm n k lo) x0 ∧ x = x0.get RING_CMP_W1.CMP_HI n k * 2 ^ 32 + lo.toNat ∧ c = ((x0.ringx n).cnt + 2 ^ 64 - x % 2 ^ 64) % 2 ^ 64 ∧ late = (!x0.frozen n && decide (1 ≤ c) && decide (c < 2 ^ 63))) ∧
    (∃ (s : State) (n : Fin 8) (mask : BitVec 4) (x0 : Dev), s.acts (.ringDisarm n mask) x0) ∧
    (∃ (s : State) (n : Fin 8) (lo : Word) (x0 : Dev), s.acts (.ringCntWrite n lo) x0 ∧ x0.isSet RING_CTRL.EN n = true) ∧
    (∃ (s : State) (n : Fin 8) (lo : Word) (x : Nat) (x0 : Dev), s.acts (.ringCntWrite n lo) x0 ∧ x0.isSet RING_CTRL.EN n = false ∧ x = (x0.ringx n).cntHi * 2 ^ 32 + lo.toNat) ∧
    (∃ (s : State) (n : Fin 8) (x0 : Dev), s.acts (.ringCntRead n) x0) ∧
    (∃ (s : State) (n : Fin 8) (j : Fin 2) (x0 : Dev), s.acts (.ringCapture n j) x0 ∧ (x0.capSel n j < 2 ∨ 7 < x0.capSel n j)) ∧
    (∃ (s : State) (n : Fin 8) (j : Fin 2) (x0 : Dev), s.acts (.ringCapture n j) x0 ∧ 2 ≤ x0.capSel n j ∧ x0.capSel n j ≤ 7 ∧ ((x0.ringx n).caps j).length < 8) ∧
    (∃ (s : State) (n : Fin 8) (j : Fin 2) (x0 : Dev), s.acts (.ringCapture n j) x0 ∧ 2 ≤ x0.capSel n j ∧ x0.capSel n j ≤ 7 ∧ 8 ≤ ((x0.ringx n).caps j).length) ∧
    (∃ (s : State) (n : Fin 8) (j : Fin 2) (x0 : Dev), s.acts (.ringCapRead n j) x0 ∧ (x0.ringx n).caps j = []) ∧
    (∃ (s : State) (n : Fin 8) (j : Fin 2) (c : Nat) (cs : List Nat) (x0 : Dev), s.acts (.ringCapRead n j) x0 ∧ (x0.ringx n).caps j = c :: cs) :=
  ⟨⟨(st {}), 0, ((st {}).after (.ringSourceTick 0)), ⟨State.acts_after rfl (by decide +kernel), by decide +kernel⟩⟩,
    ⟨(st (((((({} : Dev).put RING_CTRL.EN 1 0).put RING_CTRL.SRC 1 0)).put RING_CMPST.ARMED 3 0).setRing 0 { cnt := 7, cmp := [(0, 8), (1, 99)] })), 0, max 1 ((st (((((({} : Dev).put RING_CTRL.EN 1 0).put RING_CTRL.SRC 1 0)).put RING_CMPST.ARMED 3 0).setRing 0 { cnt := 7, cmp := [(0, 8), (1, 99)] })).dev.get RING_PRE.N 0) * 65536 + (st (((((({} : Dev).put RING_CTRL.EN 1 0).put RING_CTRL.SRC 1 0)).put RING_CMPST.ARMED 3 0).setRing 0 { cnt := 7, cmp := [(0, 8), (1, 99)] })).dev.get RING_PRE.F 0, ((st (((((({} : Dev).put RING_CTRL.EN 1 0).put RING_CTRL.SRC 1 0)).put RING_CMPST.ARMED 3 0).setRing 0 { cnt := 7, cmp := [(0, 8), (1, 99)] })).dev.ringx 0).phi + 65536, if (max 1 ((st (((((({} : Dev).put RING_CTRL.EN 1 0).put RING_CTRL.SRC 1 0)).put RING_CMPST.ARMED 3 0).setRing 0 { cnt := 7, cmp := [(0, 8), (1, 99)] })).dev.get RING_PRE.N 0) * 65536 + (st (((((({} : Dev).put RING_CTRL.EN 1 0).put RING_CTRL.SRC 1 0)).put RING_CMPST.ARMED 3 0).setRing 0 { cnt := 7, cmp := [(0, 8), (1, 99)] })).dev.get RING_PRE.F 0) ≤ ((st (((((({} : Dev).put RING_CTRL.EN 1 0).put RING_CTRL.SRC 1 0)).put RING_CMPST.ARMED 3 0).setRing 0 { cnt := 7, cmp := [(0, 8), (1, 99)] })).dev.ringx 0).phi + 65536 then (((st (((((({} : Dev).put RING_CTRL.EN 1 0).put RING_CTRL.SRC 1 0)).put RING_CMPST.ARMED 3 0).setRing 0 { cnt := 7, cmp := [(0, 8), (1, 99)] })).dev.ringx 0).cnt + 1) % 2 ^ 64 else ((st (((((({} : Dev).put RING_CTRL.EN 1 0).put RING_CTRL.SRC 1 0)).put RING_CMPST.ARMED 3 0).setRing 0 { cnt := 7, cmp := [(0, 8), (1, 99)] })).dev.ringx 0).cnt, ((st (((((({} : Dev).put RING_CTRL.EN 1 0).put RING_CTRL.SRC 1 0)).put RING_CMPST.ARMED 3 0).setRing 0 { cnt := 7, cmp := [(0, 8), (1, 99)] })).after (.ringSourceTick 0)), ⟨State.acts_after rfl (by decide +kernel), by decide +kernel⟩⟩,
    ⟨(st {}), 0, 9, ((st {}).after (.ringSrcChange 0 9)), ⟨State.acts_after rfl (by decide +kernel), by decide +kernel⟩⟩,
    ⟨(st {}), 0, 3, ((st {}).after (.ringSrcChange 0 3)), ⟨State.acts_after rfl (by decide +kernel), by decide +kernel⟩⟩,
    ⟨(st (((({} : Dev).put RING_CTRL.EN 1 0).put RING_CTRL.SRC 1 0).setRing 0 { cnt := 2 ^ 33 + 7 })), 0, 3, ((st (((({} : Dev).put RING_CTRL.EN 1 0).put RING_CTRL.SRC 1 0).setRing 0 { cnt := 2 ^ 33 + 7 })).after (.ringSrcChange 0 3)), ⟨State.acts_after rfl (by decide +kernel), by decide +kernel⟩⟩,
    ⟨(st {}), 0, 1, 5, (st {}).dev.get RING_CMP_W1.CMP_HI 0 1 * 2 ^ 32 + 5, (((st {}).dev.ringx 0).cnt + 2 ^ 64 - ((st {}).dev.get RING_CMP_W1.CMP_HI 0 1 * 2 ^ 32 + 5) % 2 ^ 64) % 2 ^ 64, false, ((st {}).after (.ringCmpArm 0 1 5)), ⟨State.acts_after rfl (by decide +kernel), by decide +kernel⟩⟩,
    ⟨(st up), 0, 0, ((st up).after (.ringDisarm 0 0)), State.acts_after rfl (by decide +kernel)⟩,
    ⟨(st ((({} : Dev).put RING_CTRL.EN 1 0).put RING_CTRL.SRC 1 0)), 0, 0, ((st ((({} : Dev).put RING_CTRL.EN 1 0).put RING_CTRL.SRC 1 0)).after (.ringCntWrite 0 0)), ⟨State.acts_after rfl (by decide +kernel), by decide +kernel⟩⟩,
    ⟨(st (((({} : Dev).put RING_CMPST.ARMED 3 0)).setRing 0 { cmp := [(0, 3), (1, 99)] })), 0, 5, ((st (((({} : Dev).put RING_CMPST.ARMED 3 0)).setRing 0 { cmp := [(0, 3), (1, 99)] })).dev.ringx 0).cntHi * 2 ^ 32 + 5, ((st (((({} : Dev).put RING_CMPST.ARMED 3 0)).setRing 0 { cmp := [(0, 3), (1, 99)] })).after (.ringCntWrite 0 5)), ⟨State.acts_after rfl (by decide +kernel), by decide +kernel⟩⟩,
    ⟨(st up), 0, ((st up).after (.ringCntRead 0)), State.acts_after rfl (by decide +kernel)⟩,
    ⟨(st {}), 0, 0, ((st {}).after (.ringCapture 0 0)), ⟨State.acts_after rfl (by decide +kernel), by decide +kernel⟩⟩,
    ⟨(st (({} : Dev).put RING_CAPCFG.SEL0 2 0)), 0, 0, ((st (({} : Dev).put RING_CAPCFG.SEL0 2 0)).after (.ringCapture 0 0)), ⟨State.acts_after rfl (by decide +kernel), by decide +kernel⟩⟩,
    ⟨(st ((({} : Dev).put RING_CAPCFG.SEL0 2 0).setRing 0 { cap0 := [1,2,3,4,5,6,7,8] })), 0, 0, ((st ((({} : Dev).put RING_CAPCFG.SEL0 2 0).setRing 0 { cap0 := [1,2,3,4,5,6,7,8] })).after (.ringCapture 0 0)), ⟨State.acts_after rfl (by decide +kernel), by decide +kernel⟩⟩,
    ⟨(st {}), 0, 0, ((st {}).after (.ringCapRead 0 0)), ⟨State.acts_after rfl (by decide +kernel), by decide +kernel⟩⟩,
    ⟨(st (({} : Dev).setRing 0 { cap0 := [2 ^ 40 + 1, 7] })), 0, 0, 2 ^ 40 + 1, [7], ((st (({} : Dev).setRing 0 { cap0 := [2 ^ 40 + 1, 7] })).after (.ringCapRead 0 0)), ⟨State.acts_after rfl (by decide +kernel), by decide +kernel⟩⟩⟩

theorem witness_TimeReferencesComplete :
    (∃ (s : State) (d : Dev), s.acts .ppsEdge d ∧ d.isSet RING_PPSCFG.EN = false) ∧
    (∃ (s : State) (t : Nat) (t0 : Nat) (d : Dev), s.acts .ppsEdge d ∧ d.isSet RING_PPSCFG.EN = true ∧ t = d.tick ∧ (d.pps.last = none ∨ (d.pps.last = some t0 ∧ 153600000 + d.get RING_PPSCFG.TOL ≤ t - t0)) ∧ d.isSet MSH_CTRL.ROOT = false) ∧
    (∃ (s : State) (t : Nat) (t0 : Nat) (g : Nat) (d : Dev), s.acts .ppsEdge d ∧ d.isSet RING_PPSCFG.EN = true ∧ t = d.tick ∧ d.pps.last = some t0 ∧ 153600000 - d.get RING_PPSCFG.TOL ≤ t - t0 ∧ t - t0 < 153600000 + d.get RING_PPSCFG.TOL ∧ d.isSet MSH_CTRL.ROOT = false ∧ g = min (d.get RING_PPSST.GOOD + 1) 0xFF) ∧
    (∃ (s : State) (t0 : Nat) (d : Dev), s.acts .ppsEdge d ∧ d.isSet RING_PPSCFG.EN = true ∧ d.pps.last = some t0 ∧ d.tick - t0 < 153600000 - d.get RING_PPSCFG.TOL) ∧
    (∃ (s : State) (d : Dev), s.acts .ppsEdge d ∧ d.isSet RING_PPSCFG.EN = true ∧ d.pps.last = none ∧ d.isSet MSH_CTRL.ROOT = true ∧ d.isSet MSH_CTRL.ALIGN_PPS = true ∧ d.get MSH_STATUS.STATE = 2 ∧ d.get RING_PPSST.STATE = 1) ∧
    (∃ (s : State) (d : Dev), s.acts .ppsHoldover d ∧ d.get RING_PPSST.STATE = 1) ∧
    (∃ (s : State) (d : Dev), s.acts .ppsHoldover d ∧ d.get RING_PPSST.STATE ≠ 1) ∧
    (∃ (s : State) (d : Dev), s.acts .ppsFree d ∧ d.get RING_PPSST.STATE = 2) ∧
    (∃ (s : State) (d : Dev), s.acts .ppsFree d ∧ d.get RING_PPSST.STATE ≠ 2) ∧
    (∃ (s : State) (d : Dev), s.acts .aonHwRead d) ∧
    (∃ s : State, s.dev.open' = true) ∧
    (∃ s : State, s.dev.open' = false) ∧
    (∃ (s : State) (d : Dev), s.acts .rangerDebugResume d) :=
  ⟨⟨(st {}), ((st {}).after .ppsEdge), ⟨State.acts_after rfl (by decide +kernel), by decide +kernel⟩⟩,
    ⟨(st (({} : Dev).put RING_PPSCFG.EN 1)), (st (({} : Dev).put RING_PPSCFG.EN 1)).dev.tick, 7, ((st (({} : Dev).put RING_PPSCFG.EN 1)).after .ppsEdge), ⟨State.acts_after rfl (by decide +kernel), by decide +kernel⟩⟩,
    ⟨(st { (({} : Dev).put RING_PPSCFG.EN 1) with pps := { last := some 7 }, clk := 2 * 153600007 }), (st { (({} : Dev).put RING_PPSCFG.EN 1) with pps := { last := some 7 }, clk := 2 * 153600007 }).dev.tick, 7, min ((st { (({} : Dev).put RING_PPSCFG.EN 1) with pps := { last := some 7 }, clk := 2 * 153600007 }).dev.get RING_PPSST.GOOD + 1) 0xFF, ((st { (({} : Dev).put RING_PPSCFG.EN 1) with pps := { last := some 7 }, clk := 2 * 153600007 }).after .ppsEdge), ⟨State.acts_after rfl (by decide +kernel), by decide +kernel⟩⟩,
    ⟨(st { (({} : Dev).put RING_PPSCFG.EN 1) with pps := { last := some 7 }, clk := 2 * 1007 }), 7, ((st { (({} : Dev).put RING_PPSCFG.EN 1) with pps := { last := some 7 }, clk := 2 * 1007 }).after .ppsEdge), ⟨State.acts_after rfl (by decide +kernel), by decide +kernel⟩⟩,
    ⟨(st (((({} : Dev).put RING_PPSCFG.EN 1).put RING_PPSST.STATE 1).put MSH_CTRL.ROOT 1 |>.put MSH_CTRL.ALIGN_PPS 1 |>.put MSH_STATUS.STATE 2)), ((st (((({} : Dev).put RING_PPSCFG.EN 1).put RING_PPSST.STATE 1).put MSH_CTRL.ROOT 1 |>.put MSH_CTRL.ALIGN_PPS 1 |>.put MSH_STATUS.STATE 2)).after .ppsEdge), ⟨State.acts_after rfl (by decide +kernel), by decide +kernel⟩⟩,
    ⟨(st (({} : Dev).put RING_PPSST.STATE 1)), ((st (({} : Dev).put RING_PPSST.STATE 1)).after .ppsHoldover), ⟨State.acts_after rfl (by decide +kernel), by decide +kernel⟩⟩,
    ⟨(st {}), ((st {}).after .ppsHoldover), ⟨State.acts_after rfl (by decide +kernel), by decide +kernel⟩⟩,
    ⟨(st (({} : Dev).put RING_PPSST.STATE 2)), ((st (({} : Dev).put RING_PPSST.STATE 2)).after .ppsFree), ⟨State.acts_after rfl (by decide +kernel), by decide +kernel⟩⟩,
    ⟨(st {}), ((st {}).after .ppsFree), ⟨State.acts_after rfl (by decide +kernel), by decide +kernel⟩⟩,
    ⟨(st up), ((st up).after .aonHwRead), State.acts_after rfl (by decide +kernel)⟩,
    ⟨(st up), by decide +kernel⟩,
    ⟨(st (({} : Dev).put LCS_STATE.STATE 2)), by decide +kernel⟩,
    ⟨(st up), ((st up).after .rangerDebugResume), State.acts_after rfl (by decide +kernel)⟩⟩

theorem witness_TrailsComplete :
    (∃ (s : State) (w : Writer) (ch : BitVec 6) (gen : BitVec 3) (ok : Bool) (d : Dev), s.acts (.trlSwpub w ch gen) d ∧ ok = (if d.isSet TRL_CH.SECURE 0 ch.toNat then byRanger w else decide (d.get TRL_CH.OWNER 0 ch.toNat < 2)) ∧ ok = false) ∧
    (∃ (s : State) (w : Writer) (ch : BitVec 6) (gen : BitVec 3) (ok : Bool) (d : Dev), s.acts (.trlSwpub w ch gen) d ∧ ok = (if d.isSet TRL_CH.SECURE 0 ch.toNat then byRanger w else decide (d.get TRL_CH.OWNER 0 ch.toNat < 2)) ∧ ok = true ∧ gen.toNat < 7) ∧
    (∃ (s : State) (w : Writer) (ch : BitVec 6) (gen : BitVec 3) (ok : Bool) (d : Dev), s.acts (.trlSwpub w ch gen) d ∧ ok = (if d.isSet TRL_CH.SECURE 0 ch.toNat then byRanger w else decide (d.get TRL_CH.OWNER 0 ch.toNat < 2)) ∧ ok = true ∧ gen = 7) ∧
    (∃ (s : State) (w : Writer) (k : Fin 64) (x : Word) (d : Dev), s.acts (.trlChWrite w k x) d) ∧
    (∃ (s : State) (w : Writer) (k : Fin 64) (x : Word) (d : Dev), s.acts (.trlChWrite w k x) d ∧ byRanger w = true ∧ ownerCode (x.toNat % 8) = true) ∧
    (∃ (s : State) (w : Writer) (k : Fin 64) (x : Word) (d : Dev), s.acts (.trlChWrite w k x) d ∧ byRanger w = false ∧ d.isSet TRL_CH.SECURE 0 k = true ∧ x.toNat % 8 ≠ d.get TRL_CH.OWNER 0 k) ∧
    (∃ (s : State) (w : Writer) (k : Fin 64) (x : Word) (d : Dev), s.acts (.trlChWrite w k x) d ∧ byRanger w = false ∧ d.isSet TRL_CH.SECURE 0 k = false ∧ ownerCode (x.toNat % 8) = true) ∧
    (∃ (s : State) (id : Fin 128) (d : Dev), s.acts (.trailsDelivery id) d ∧ d.arriving id = []) ∧
    (∃ (s : State) (id : Fin 128) (f : Flight) (d : Dev), s.acts (.trailsDelivery id) d ∧ d.arriving id = [f] ∧ (id < 0x40 ∨ (0x40 ≤ id ∧ id < 0x60 ∧ d.isSet SYS_STRAP.HSEL = false) ∨ 0x70 ≤ id) ∧ id < 0x78 ∧ d.isSet TRL_CSTAT.PEND 0 id = false) ∧
    (∃ (s : State) (id : Fin 128) (f : Flight) (d : Dev), s.acts (.trailsDelivery id) d ∧ d.arriving id = [f] ∧ id < 0x40 ∧ d.isSet TRL_CSTAT.PEND 0 id = true) ∧
    (∃ (s : State) (id : Fin 128) (f : Flight) (d : Dev), s.acts (.trailsDelivery id) d ∧ d.arriving id = [f] ∧ 0x40 ≤ id ∧ id < 0x60 ∧ d.isSet SYS_STRAP.HSEL = true ∧ d.isSet TRL_CSTAT.PEND 0 id = false) ∧
    (∃ (s : State) (id : Fin 128) (f : Flight) (n : Nat) (j : Nat) (d : Dev), s.acts (.trailsDelivery id) d ∧ d.arriving id = [f] ∧ 0x60 ≤ id ∧ id < 0x70 ∧ n = (id - 0x60) / 2 ∧ j = id % 2 ∧ d.capSel n j = 1 ∧ ((d.ringx n).caps j).length < 8) :=
  ⟨⟨(st (({} : Dev).put TRL_CH.OWNER 4 0 5)), .host, 5, 0, false, ((st (({} : Dev).put TRL_CH.OWNER 4 0 5)).after (.trlSwpub .host 5 0)), ⟨State.acts_after rfl (by decide +kernel), by decide +kernel⟩⟩,
    ⟨(st ((({} : Dev).put TRL_CMASK_LO.MASK 0x20 0 5).put TRL_CMASK_LO.MASK 0x20 0 0x41)), .host, 5, 2, true, ((st ((({} : Dev).put TRL_CMASK_LO.MASK 0x20 0 5).put TRL_CMASK_LO.MASK 0x20 0 0x41)).after (.trlSwpub .host 5 2)), ⟨State.acts_after rfl (by decide +kernel), by decide +kernel⟩⟩,
    ⟨(st {}), .host, 5, 7, true, ((st {}).after (.trlSwpub .host 5 7)), ⟨State.acts_after rfl (by decide +kernel), by decide +kernel⟩⟩,
    ⟨(st up), .host, 0, 0, ((st up).after (.trlChWrite .host 0 0)), State.acts_after rfl (by decide +kernel)⟩,
    ⟨(st up), .ranger, 0, 0xC0000104, ((st up).after (.trlChWrite .ranger 0 0xC0000104)), ⟨State.acts_after rfl (by decide +kernel), by decide +kernel⟩⟩,
    ⟨(st (({} : Dev).put TRL_CH.SECURE 1 0 7)), .host, 7, 0xC0000104, ((st (({} : Dev).put TRL_CH.SECURE 1 0 7)).after (.trlChWrite .host 7 0xC0000104)), ⟨State.acts_after rfl (by decide +kernel), by decide +kernel⟩⟩,
    ⟨(st {}), .host, 7, 0xC0000104, ((st {}).after (.trlChWrite .host 7 0xC0000104)), ⟨State.acts_after rfl (by decide +kernel), by decide +kernel⟩⟩,
    ⟨(st {}), 5, ((st {}).after (.trailsDelivery 5)), ⟨State.acts_after rfl (by decide +kernel), by decide +kernel⟩⟩,
    ⟨(st { (({} : Dev)) with flights := [⟨5, 7, 3, 11, 0⟩, ⟨9, 7, 3, 11, 0⟩, ⟨5, 8, 3, 14, 0⟩] }), 5, (((st { (({} : Dev)) with flights := [⟨5, 7, 3, 11, 0⟩, ⟨9, 7, 3, 11, 0⟩, ⟨5, 8, 3, 14, 0⟩] }).dev.arriving 5).headD ⟨0,0,0,0,0⟩), ((st { (({} : Dev)) with flights := [⟨5, 7, 3, 11, 0⟩, ⟨9, 7, 3, 11, 0⟩, ⟨5, 8, 3, 14, 0⟩] }).after (.trailsDelivery 5)), ⟨State.acts_after rfl (by decide +kernel), by decide +kernel⟩⟩,
    ⟨(st { (({} : Dev).put TRL_CSTAT.PEND 1 0 5) with flights := [⟨5, 7, 3, 11, 0⟩] }), 5, (((st { (({} : Dev).put TRL_CSTAT.PEND 1 0 5) with flights := [⟨5, 7, 3, 11, 0⟩] }).dev.arriving 5).headD ⟨0,0,0,0,0⟩), ((st { (({} : Dev).put TRL_CSTAT.PEND 1 0 5) with flights := [⟨5, 7, 3, 11, 0⟩] }).after (.trailsDelivery 5)), ⟨State.acts_after rfl (by decide +kernel), by decide +kernel⟩⟩,
    ⟨(st { (({} : Dev).put SYS_STRAP.HSEL 1) with flights := [⟨0x43, 7, 3, 11, 0⟩] }), 0x43, (((st { (({} : Dev).put SYS_STRAP.HSEL 1) with flights := [⟨0x43, 7, 3, 11, 0⟩] }).dev.arriving 0x43).headD ⟨0,0,0,0,0⟩), ((st { (({} : Dev).put SYS_STRAP.HSEL 1) with flights := [⟨0x43, 7, 3, 11, 0⟩] }).after (.trailsDelivery 0x43)), ⟨State.acts_after rfl (by decide +kernel), by decide +kernel⟩⟩,
    ⟨(st { (({} : Dev).put RING_CAPCFG.SEL1 1 3) with flights := [⟨0x67, 7, 3, 11, 0⟩] }), 0x67, (((st { (({} : Dev).put RING_CAPCFG.SEL1 1 3) with flights := [⟨0x67, 7, 3, 11, 0⟩] }).dev.arriving 0x67).headD ⟨0,0,0,0,0⟩), 3, 1, ((st { (({} : Dev).put RING_CAPCFG.SEL1 1 3) with flights := [⟨0x67, 7, 3, 11, 0⟩] }).after (.trailsDelivery 0x67)), ⟨State.acts_after rfl (by decide +kernel), by decide +kernel⟩⟩⟩

theorem witness_HostQueueAccessCompletes :
    (∃ (s : State) (q : QueueNo) (w : Word) (d : Dev), s.acts (.qmxPush q w) d ∧ d.qEn q = false ∧ (d.qx q).left = none) ∧
    (∃ (s : State) (q : QueueNo) (w : Word) (d : Dev), s.acts (.qmxPush q w) d ∧ d.qEn q = true ∧ d.qProd q ≠ epHost) ∧
    (∃ (s : State) (q : QueueNo) (w : Word) (d : Dev), s.acts (.qmxPush q w) d ∧ d.qEn q = true ∧ d.qProd q = epHost ∧ (d.qx q).left = none ∧ w.getLsbD 31 = false) ∧
    (∃ (s : State) (q : QueueNo) (w : Word) (n : Nat) (d : Dev), s.acts (.qmxPush q w) d ∧ d.qEn q = true ∧ d.qProd q = epHost ∧ (d.qx q).left = none ∧ w.getLsbD 31 = true ∧ n = w.toNat % 65536 ∧ d.qFree q < n + 1) ∧
    (∃ (s : State) (q : QueueNo) (w : Word) (n : Nat) (d : Dev), s.acts (.qmxPush q w) d ∧ d.qEn q = true ∧ d.qProd q = epHost ∧ (d.qx q).left = none ∧ w.getLsbD 31 = true ∧ n = w.toNat % 65536 ∧ n + 1 ≤ d.qFree q ∧ 0 < n) ∧
    (∃ (s : State) (q : QueueNo) (w : Word) (d : Dev), s.acts (.qmxPush q w) d ∧ d.qEn q = true ∧ d.qProd q = epHost ∧ (d.qx q).left = none ∧ w.getLsbD 31 = true ∧ w.toNat % 65536 = 0 ∧ 1 ≤ d.qFree q ∧ (d.qx q).stall = none) ∧
    (∃ (s : State) (q : QueueNo) (w : Word) (n : Nat) (d : Dev), s.acts (.qmxPush q w) d ∧ d.qEn q = true ∧ d.qProd q = epHost ∧ (d.qx q).left = some n ∧ (d.qx q).drop = false ∧ 1 < n) ∧
    (∃ (s : State) (q : QueueNo) (w : Word) (n : Nat) (d : Dev), s.acts (.qmxPush q w) d ∧ d.qEn q = true ∧ d.qProd q = epHost ∧ (d.qx q).left = some n ∧ (d.qx q).drop = false ∧ n ≤ 1 ∧ (d.qx q).stall = none) ∧
    (∃ (s : State) (q : QueueNo) (w : Word) (n : Nat) (d : Dev), s.acts (.qmxPush q w) d ∧ d.qEn q = true ∧ d.qProd q = epHost ∧ (d.qx q).left = some n ∧ (d.qx q).drop = true) ∧
    (∃ (s : State) (q : QueueNo) (n : Nat) (d : Dev), s.acts (.qmxPop q) d ∧ n = (if d.qEn q = false then stQCfg else stQDenied) ∧ (d.qEn q = false ∨ d.qCons q ≠ epHost)) ∧
    (∃ (s : State) (q : QueueNo) (d : Dev), s.acts (.qmxPop q) d ∧ d.qEn q = true ∧ d.qCons q = epHost ∧ d.dmaTakes q = true) ∧
    (∃ (s : State) (q : QueueNo) (n : Nat) (d : Dev), s.acts (.qmxPop q) d ∧ d.qEn q = true ∧ d.qCons q = epHost ∧ d.dmaTakes q = false ∧ (0 < (d.qx q).rdLeft ∨ d.qReady q = true) ∧ n = (if (d.qx q).rdLeft = 0 then bitsOf (d.qHead q) 15 0 else (d.qx q).rdLeft - 1)) ∧
    (∃ (s : State) (q : QueueNo) (d : Dev), s.acts (.qmxPop q) d ∧ d.qEn q = true ∧ d.qCons q = epHost ∧ d.dmaTakes q = false ∧ (d.qx q).rdLeft = 0 ∧ d.qReady q = false ∧ d.qCopying q = false ∧ (d.qx q).stall = none) ∧
    (∃ (s : State) (q : QueueNo) (d : Dev), s.acts (.popCeiling q) d ∧ (d.qx q).stall = none) ∧
    (∃ (s : State) (q : QueueNo) (n : Nat) (t : Nat) (d : Dev), s.acts (.popCeiling q) d ∧ (d.qx q).stall = some t ∧ n = 2 * (t + usTicks (max 1 (d.get QMX_Q_EP.CEIL q))) ∧ (d.toClk n).qReady q = false) :=
  ⟨⟨(st {}), 5, 0, ((st {}).after (.qmxPush 5 0)), ⟨State.acts_after rfl (by decide +kernel), by decide +kernel⟩⟩,
    ⟨(st ((((({} : Dev)).put QMX_Q_BASE.EN 1 5).put QMX_Q_BASE.LOG2SZ 4 5).put QMX_Q_EP.PROD 3 5 |>.put QMX_Q_EP.CONS 0 5 |>.setQ 5 {  })), 5, 0, ((st ((((({} : Dev)).put QMX_Q_BASE.EN 1 5).put QMX_Q_BASE.LOG2SZ 4 5).put QMX_Q_EP.PROD 3 5 |>.put QMX_Q_EP.CONS 0 5 |>.setQ 5 {  })).after (.qmxPush 5 0)), ⟨State.acts_after rfl (by decide +kernel), by decide +kernel⟩⟩,
    ⟨(st ((((({} : Dev)).put QMX_Q_BASE.EN 1 5).put QMX_Q_BASE.LOG2SZ 4 5).put QMX_Q_EP.PROD 0x10 5 |>.put QMX_Q_EP.CONS 0 5 |>.setQ 5 {  })), 5, 5, ((st ((((({} : Dev)).put QMX_Q_BASE.EN 1 5).put QMX_Q_BASE.LOG2SZ 4 5).put QMX_Q_EP.PROD 0x10 5 |>.put QMX_Q_EP.CONS 0 5 |>.setQ 5 {  })).after (.qmxPush 5 5)), ⟨State.acts_after rfl (by decide +kernel), by decide +kernel⟩⟩,
    ⟨(st ((((({} : Dev)).put QMX_Q_BASE.EN 1 5).put QMX_Q_BASE.LOG2SZ 4 5).put QMX_Q_EP.PROD 0x10 5 |>.put QMX_Q_EP.CONS 0 5 |>.setQ 5 { prod := 15, vis := 15 })), 5, 0x80420003, 3, ((st ((((({} : Dev)).put QMX_Q_BASE.EN 1 5).put QMX_Q_BASE.LOG2SZ 4 5).put QMX_Q_EP.PROD 0x10 5 |>.put QMX_Q_EP.CONS 0 5 |>.setQ 5 { prod := 15, vis := 15 })).after (.qmxPush 5 0x80420003)), ⟨State.acts_after rfl (by decide +kernel), by decide +kernel⟩⟩,
    ⟨(st ((((({} : Dev)).put QMX_Q_BASE.EN 1 5).put QMX_Q_BASE.LOG2SZ 4 5).put QMX_Q_EP.PROD 0x10 5 |>.put QMX_Q_EP.CONS 0 5 |>.setQ 5 { prod := 9 })), 5, 0x80420003, 3, ((st ((((({} : Dev)).put QMX_Q_BASE.EN 1 5).put QMX_Q_BASE.LOG2SZ 4 5).put QMX_Q_EP.PROD 0x10 5 |>.put QMX_Q_EP.CONS 0 5 |>.setQ 5 { prod := 9 })).after (.qmxPush 5 0x80420003)), ⟨State.acts_after rfl (by decide +kernel), by decide +kernel⟩⟩,
    ⟨(st ((((({} : Dev)).put QMX_Q_BASE.EN 1 5).put QMX_Q_BASE.LOG2SZ 4 5).put QMX_Q_EP.PROD 0x10 5 |>.put QMX_Q_EP.CONS 0 5 |>.setQ 5 {  })), 5, 0x80770000, ((st ((((({} : Dev)).put QMX_Q_BASE.EN 1 5).put QMX_Q_BASE.LOG2SZ 4 5).put QMX_Q_EP.PROD 0x10 5 |>.put QMX_Q_EP.CONS 0 5 |>.setQ 5 {  })).after (.qmxPush 5 0x80770000)), ⟨State.acts_after rfl (by decide +kernel), by decide +kernel⟩⟩,
    ⟨(st ((((({} : Dev)).put QMX_Q_BASE.EN 1 5).put QMX_Q_BASE.LOG2SZ 4 5).put QMX_Q_EP.PROD 0x10 5 |>.put QMX_Q_EP.CONS 0 5 |>.setQ 5 { left := some 3, prod := 30 })), 5, 0, 3, ((st ((((({} : Dev)).put QMX_Q_BASE.EN 1 5).put QMX_Q_BASE.LOG2SZ 4 5).put QMX_Q_EP.PROD 0x10 5 |>.put QMX_Q_EP.CONS 0 5 |>.setQ 5 { left := some 3, prod := 30 })).after (.qmxPush 5 0)), ⟨State.acts_after rfl (by decide +kernel), by decide +kernel⟩⟩,
    ⟨(st ((((({} : Dev)).put QMX_Q_BASE.EN 1 5).put QMX_Q_BASE.LOG2SZ 4 5).put QMX_Q_EP.PROD 0x10 5 |>.put QMX_Q_EP.CONS 0 5 |>.setQ 5 { left := some 1, prod := 30 })), 5, 0, 1, ((st ((((({} : Dev)).put QMX_Q_BASE.EN 1 5).put QMX_Q_BASE.LOG2SZ 4 5).put QMX_Q_EP.PROD 0x10 5 |>.put QMX_Q_EP.CONS 0 5 |>.setQ 5 { left := some 1, prod := 30 })).after (.qmxPush 5 0)), ⟨State.acts_after rfl (by decide +kernel), by decide +kernel⟩⟩,
    ⟨(st ((((({} : Dev)).put QMX_Q_BASE.EN 1 5).put QMX_Q_BASE.LOG2SZ 4 5).put QMX_Q_EP.PROD 0x10 5 |>.put QMX_Q_EP.CONS 0 5 |>.setQ 5 { left := some 3, drop := true })), 5, 0, 3, ((st ((((({} : Dev)).put QMX_Q_BASE.EN 1 5).put QMX_Q_BASE.LOG2SZ 4 5).put QMX_Q_EP.PROD 0x10 5 |>.put QMX_Q_EP.CONS 0 5 |>.setQ 5 { left := some 3, drop := true })).after (.qmxPush 5 0)), ⟨State.acts_after rfl (by decide +kernel), by decide +kernel⟩⟩,
    ⟨(st {}), 5, stQCfg, ((st {}).after (.qmxPop 5)), ⟨State.acts_after rfl (by decide +kernel), by decide +kernel⟩⟩,
    ⟨(st (((((({} : Dev).put HLK_DMA_CFG.EN 1 2).put HLK_DMA_CFG.QUEUE 5 2).put QMX_Q_BASE.EN 1 5).put QMX_Q_BASE.LOG2SZ 4 5).put QMX_Q_EP.PROD 0x10 5 |>.put QMX_Q_EP.CONS 0x10 5 |>.setQ 5 {  })), 5, ((st (((((({} : Dev).put HLK_DMA_CFG.EN 1 2).put HLK_DMA_CFG.QUEUE 5 2).put QMX_Q_BASE.EN 1 5).put QMX_Q_BASE.LOG2SZ 4 5).put QMX_Q_EP.PROD 0x10 5 |>.put QMX_Q_EP.CONS 0x10 5 |>.setQ 5 {  })).after (.qmxPop 5)), ⟨State.acts_after rfl (by decide +kernel), by decide +kernel⟩⟩,
    ⟨(st ((((({} : Dev).setWord 0x100000 0x80010002).put QMX_Q_BASE.EN 1 5).put QMX_Q_BASE.LOG2SZ 4 5).put QMX_Q_EP.PROD 0x10 5 |>.put QMX_Q_EP.CONS 0x10 5 |>.setQ 5 { vis := 5 })), 5, 2, ((st ((((({} : Dev).setWord 0x100000 0x80010002).put QMX_Q_BASE.EN 1 5).put QMX_Q_BASE.LOG2SZ 4 5).put QMX_Q_EP.PROD 0x10 5 |>.put QMX_Q_EP.CONS 0x10 5 |>.setQ 5 { vis := 5 })).after (.qmxPop 5)), ⟨State.acts_after rfl (by decide +kernel), by decide +kernel⟩⟩,
    ⟨(st ((((({} : Dev)).put QMX_Q_BASE.EN 1 5).put QMX_Q_BASE.LOG2SZ 4 5).put QMX_Q_EP.PROD 0x10 5 |>.put QMX_Q_EP.CONS 0x10 5 |>.setQ 5 {  })), 5, ((st ((((({} : Dev)).put QMX_Q_BASE.EN 1 5).put QMX_Q_BASE.LOG2SZ 4 5).put QMX_Q_EP.PROD 0x10 5 |>.put QMX_Q_EP.CONS 0x10 5 |>.setQ 5 {  })).after (.qmxPop 5)), ⟨State.acts_after rfl (by decide +kernel), by decide +kernel⟩⟩,
    ⟨(st {}), 5, ((st {}).after (.popCeiling 5)), ⟨State.acts_after rfl (by decide +kernel), by decide +kernel⟩⟩,
    ⟨(st ((((({} : Dev)).put QMX_Q_BASE.EN 1 5).put QMX_Q_BASE.LOG2SZ 4 5).put QMX_Q_EP.PROD 0x10 5 |>.put QMX_Q_EP.CONS 0x10 5 |>.setQ 5 { stall := some 9 })), 5, 2 * (9 + usTicks (max 1 ((st ((((({} : Dev)).put QMX_Q_BASE.EN 1 5).put QMX_Q_BASE.LOG2SZ 4 5).put QMX_Q_EP.PROD 0x10 5 |>.put QMX_Q_EP.CONS 0x10 5 |>.setQ 5 { stall := some 9 })).dev.get QMX_Q_EP.CEIL 5))), 9, ((st ((((({} : Dev)).put QMX_Q_BASE.EN 1 5).put QMX_Q_BASE.LOG2SZ 4 5).put QMX_Q_EP.PROD 0x10 5 |>.put QMX_Q_EP.CONS 0x10 5 |>.setQ 5 { stall := some 9 })).after (.popCeiling 5)), ⟨State.acts_after rfl (by decide +kernel), by decide +kernel⟩⟩⟩

theorem witness_QueueControlCompletes :
    (∃ (s : State) (q : QueueNo) (d : Dev), s.acts (.flush q) d ∧ d.qEn q = false) ∧
    (∃ (s : State) (q : QueueNo) (d : Dev), s.acts (.ptrMismatch q) d ∧ d.qEn q = false) ∧
    (∃ (s : State) (q : QueueNo) (torn : Bool) (d : Dev), s.acts (.flush q) d ∧ d.qEn q = true ∧ d.qCopying q = false ∧ torn = ((d.qx q).left.isSome && !(d.qx q).drop)) ∧
    (∃ (s : State) (q : QueueNo) (n : Nat) (d : Dev), s.acts (.mark q) d ∧ d.qCons q = epHost ∧ n = stQCfg) ∧
    (∃ (s : State) (q : QueueNo) (n : Nat) (d : Dev), s.acts (.rewind q) d ∧ d.qCons q = epHost ∧ n = stQCfg) ∧
    (∃ (s : State) (q : QueueNo) (d : Dev), s.acts (.mark q) d ∧ d.qCons q ≠ epHost) ∧
    (∃ (s : State) (q : QueueNo) (n : Nat) (d : Dev), s.acts (.rewind q) d ∧ d.qCons q ≠ epHost ∧ (d.qx q).mark = some n) ∧
    (∃ (s : State) (q : QueueNo) (d : Dev), s.acts (.rewind q) d ∧ d.qCons q ≠ epHost ∧ (d.qx q).mark = none) ∧
    (∃ (s : State) (q : QueueNo) (d : Dev), s.acts (.ptrMismatch q) d ∧ d.qEn q = true ∧ d.qCopying q = false ∧ (d.qx q).stall = none ∧ (∀ v : Nat, v < 16 → (d.vatx v).wait = .none)) ∧
    (∃ (s : State) (w : Writer) (q : QueueNo) (x : Word) (ep : Bool) (d : Dev), s.acts (.qmxConfigWrite w q ep x) d ∧ q.val < 2 ∧ byRanger w = false) ∧
    (∃ (s : State) (w : Writer) (q : QueueNo) (x : Word) (d : Dev), s.acts (.qmxConfigWrite w q true x) d ∧ (2 ≤ q.val ∨ byRanger w = true) ∧ (d.qEn q = true ∨ d.qPlaceOk q (d.get QMX_Q_BASE.BASE q) (d.get QMX_Q_BASE.LOG2SZ q) = false)) ∧
    (∃ (s : State) (w : Writer) (q : QueueNo) (x : Word) (d : Dev), s.acts (.qmxConfigWrite w q true x) d ∧ (2 ≤ q.val ∨ byRanger w = true) ∧ d.qEn q = false ∧ d.qPlaceOk q (d.get QMX_Q_BASE.BASE q) (d.get QMX_Q_BASE.LOG2SZ q) = true) ∧
    (∃ (s : State) (w : Writer) (q : QueueNo) (x : Word) (d : Dev), s.acts (.qmxConfigWrite w q false x) d ∧ (2 ≤ q.val ∨ byRanger w = true) ∧ d.qEn q = false ∧ d.qPlaceOk q (bitsOf x.toNat 28 16) (bitsOf x.toNat 3 0) = false) ∧
    (∃ (s : State) (w : Writer) (q : QueueNo) (x : Word) (d : Dev), s.acts (.qmxConfigWrite w q false x) d ∧ (2 ≤ q.val ∨ byRanger w = true) ∧ d.qEn q = false ∧ d.qPlaceOk q (bitsOf x.toNat 28 16) (bitsOf x.toNat 3 0) = true) ∧
    (∃ (s : State) (w : Writer) (q : QueueNo) (x : Word) (d : Dev), s.acts (.qmxConfigWrite w q false x) d ∧ (2 ≤ q.val ∨ byRanger w = true) ∧ d.qEn q = true ∧ x.getLsbD 31 = true) ∧
    (∃ (s : State) (w : Writer) (q : QueueNo) (x : Word) (d : Dev), s.acts (.qmxConfigWrite w q false x) d ∧ (2 ≤ q.val ∨ byRanger w = true) ∧ d.qEn q = true ∧ x.getLsbD 31 = false ∧ bitsOf x.toNat 28 16 = d.get QMX_Q_BASE.BASE q ∧ bitsOf x.toNat 3 0 = d.get QMX_Q_BASE.LOG2SZ q ∧ d.qCopying q = false ∧ (d.qx q).stall = none ∧ (∀ v : Nat, v < 16 → (d.vatx v).wait = .none)) :=
  ⟨⟨(st {}), 5, ((st {}).after (.flush 5)), ⟨State.acts_after rfl (by decide +kernel), by decide +kernel⟩⟩,
    ⟨(st up), 2, ((st up).after (.ptrMismatch 2)), ⟨State.acts_after rfl (by decide +kernel), by decide +kernel⟩⟩,
    ⟨(st ((((({} : Dev)).put QMX_Q_BASE.EN 1 5).put QMX_Q_BASE.LOG2SZ 4 5).put QMX_Q_EP.PROD 0x10 5 |>.put QMX_Q_EP.CONS 0 5 |>.setQ 5 { vis := 5, prod := 7, left := some 3 })), 5, true, ((st ((((({} : Dev)).put QMX_Q_BASE.EN 1 5).put QMX_Q_BASE.LOG2SZ 4 5).put QMX_Q_EP.PROD 0x10 5 |>.put QMX_Q_EP.CONS 0 5 |>.setQ 5 { vis := 5, prod := 7, left := some 3 })).after (.flush 5)), ⟨State.acts_after rfl (by decide +kernel), by decide +kernel⟩⟩,
    ⟨(st ((((({} : Dev)).put QMX_Q_BASE.EN 1 5).put QMX_Q_BASE.LOG2SZ 4 5).put QMX_Q_EP.PROD 0x10 5 |>.put QMX_Q_EP.CONS 0x10 5 |>.setQ 5 {  })), 5, stQCfg, ((st ((((({} : Dev)).put QMX_Q_BASE.EN 1 5).put QMX_Q_BASE.LOG2SZ 4 5).put QMX_Q_EP.PROD 0x10 5 |>.put QMX_Q_EP.CONS 0x10 5 |>.setQ 5 {  })).after (.mark 5)), ⟨State.acts_after rfl (by decide +kernel), by decide +kernel⟩⟩,
    ⟨(st (up.put QMX_Q_EP.CONS epHost 0)), 0, (stQCfg), ((st (up.put QMX_Q_EP.CONS epHost 0)).after (.rewind 0)), ⟨State.acts_after rfl (by decide +kernel), by decide +kernel⟩⟩,
    ⟨(st ((((({} : Dev)).put QMX_Q_BASE.EN 1 5).put QMX_Q_BASE.LOG2SZ 4 5).put QMX_Q_EP.PROD 0x10 5 |>.put QMX_Q_EP.CONS 3 5 |>.setQ 5 { cons := 3, prod := 9 })), 5, ((st ((((({} : Dev)).put QMX_Q_BASE.EN 1 5).put QMX_Q_BASE.LOG2SZ 4 5).put QMX_Q_EP.PROD 0x10 5 |>.put QMX_Q_EP.CONS 3 5 |>.setQ 5 { cons := 3, prod := 9 })).after (.mark 5)), ⟨State.acts_after rfl (by decide +kernel), by decide +kernel⟩⟩,
    ⟨(st ((((({} : Dev)).put QMX_Q_BASE.EN 1 5).put QMX_Q_BASE.LOG2SZ 4 5).put QMX_Q_EP.PROD 0x10 5 |>.put QMX_Q_EP.CONS 3 5 |>.setQ 5 { cons := 7, prod := 9, vis := 9, mark := some 3 })), 5, 3, ((st ((((({} : Dev)).put QMX_Q_BASE.EN 1 5).put QMX_Q_BASE.LOG2SZ 4 5).put QMX_Q_EP.PROD 0x10 5 |>.put QMX_Q_EP.CONS 3 5 |>.setQ 5 { cons := 7, prod := 9, vis := 9, mark := some 3 })).after (.rewind 5)), ⟨State.acts_after rfl (by decide +kernel), by decide +kernel⟩⟩,
    ⟨(st ((((({} : Dev)).put QMX_Q_BASE.EN 1 5).put QMX_Q_BASE.LOG2SZ 4 5).put QMX_Q_EP.PROD 0x10 5 |>.put QMX_Q_EP.CONS 3 5 |>.setQ 5 { cons := 7, prod := 9, vis := 9 })), 5, ((st ((((({} : Dev)).put QMX_Q_BASE.EN 1 5).put QMX_Q_BASE.LOG2SZ 4 5).put QMX_Q_EP.PROD 0x10 5 |>.put QMX_Q_EP.CONS 3 5 |>.setQ 5 { cons := 7, prod := 9, vis := 9 })).after (.rewind 5)), ⟨State.acts_after rfl (by decide +kernel), by decide +kernel⟩⟩,
    ⟨(st ((((({} : Dev)).put QMX_Q_BASE.EN 1 5).put QMX_Q_BASE.LOG2SZ 4 5).put QMX_Q_EP.PROD 0x10 5 |>.put QMX_Q_EP.CONS 3 5 |>.setQ 5 { cons := 7, prod := 9, vis := 9 })), 5, ((st ((((({} : Dev)).put QMX_Q_BASE.EN 1 5).put QMX_Q_BASE.LOG2SZ 4 5).put QMX_Q_EP.PROD 0x10 5 |>.put QMX_Q_EP.CONS 3 5 |>.setQ 5 { cons := 7, prod := 9, vis := 9 })).after (.ptrMismatch 5)), ⟨State.acts_after rfl (by decide +kernel), by decide +kernel⟩⟩,
    ⟨(st up), .host, 1, 0, false, ((st up).after (.qmxConfigWrite .host 1 false 0)), ⟨State.acts_after rfl (by decide +kernel), by decide +kernel⟩⟩,
    ⟨(st ((((({} : Dev)).put QMX_Q_BASE.EN 1 5).put QMX_Q_BASE.LOG2SZ 4 5).put QMX_Q_EP.PROD 0x10 5 |>.put QMX_Q_EP.CONS 0 5 |>.setQ 5 {  })), .host, 5, 0, ((st ((((({} : Dev)).put QMX_Q_BASE.EN 1 5).put QMX_Q_BASE.LOG2SZ 4 5).put QMX_Q_EP.PROD 0x10 5 |>.put QMX_Q_EP.CONS 0 5 |>.setQ 5 {  })).after (.qmxConfigWrite .host 5 true 0)), ⟨State.acts_after rfl (by decide +kernel), by decide +kernel⟩⟩,
    ⟨(st {}), .host, 5, 0, ((st {}).after (.qmxConfigWrite .host 5 true 0)), ⟨State.acts_after rfl (by decide +kernel), by decide +kernel⟩⟩,
    ⟨(st {}), .host, 5, 0x80000003, ((st {}).after (.qmxConfigWrite .host 5 false 0x80000003)), ⟨State.acts_after rfl (by decide +kernel), by decide +kernel⟩⟩,
    ⟨(st {}), .host, 5, 0x80100008, ((st {}).after (.qmxConfigWrite .host 5 false 0x80100008)), ⟨State.acts_after rfl (by decide +kernel), by decide +kernel⟩⟩,
    ⟨(st ((((({} : Dev)).put QMX_Q_BASE.EN 1 5).put QMX_Q_BASE.LOG2SZ 4 5).put QMX_Q_EP.PROD 0x10 5 |>.put QMX_Q_EP.CONS 0 5 |>.setQ 5 {  })), .host, 5, 0x80100008, ((st ((((({} : Dev)).put QMX_Q_BASE.EN 1 5).put QMX_Q_BASE.LOG2SZ 4 5).put QMX_Q_EP.PROD 0x10 5 |>.put QMX_Q_EP.CONS 0 5 |>.setQ 5 {  })).after (.qmxConfigWrite .host 5 false 0x80100008)), ⟨State.acts_after rfl (by decide +kernel), by decide +kernel⟩⟩,
    ⟨(st ((((({} : Dev)).put QMX_Q_BASE.EN 1 5).put QMX_Q_BASE.LOG2SZ 4 5).put QMX_Q_EP.PROD 0x10 5 |>.put QMX_Q_EP.CONS 0 5 |>.setQ 5 {  })), .host, 5, 4, ((st ((((({} : Dev)).put QMX_Q_BASE.EN 1 5).put QMX_Q_BASE.LOG2SZ 4 5).put QMX_Q_EP.PROD 0x10 5 |>.put QMX_Q_EP.CONS 0 5 |>.setQ 5 {  })).after (.qmxConfigWrite .host 5 false 4)), ⟨State.acts_after rfl (by decide +kernel), by decide +kernel⟩⟩⟩

theorem witness_TransactionHostCommandsComplete :
    (∃ (s : State) (x : BitVec 8) (h : Nat) (d : Dev), s.acts (.txnFree x) d ∧ h = x.toNat ∧ d.hst h = 2) ∧
    (∃ (s : State) (x : BitVec 8) (h : Nat) (d : Dev), s.acts (.txnFree x) d ∧ h = x.toNat ∧ d.hst h = 3) ∧
    (∃ (s : State) (x : BitVec 8) (d : Dev), s.acts (.txnFree x) d ∧ d.hst x.toNat < 2) ∧
    (∃ (s : State) (x : BitVec 8) (h : Nat) (q : Nat) (d : Dev), s.acts (.txnAbort x) d ∧ h = x.toNat ∧ d.hst h = 1 ∧ q = d.get TXN_HINFO0.QUEUE 0 h ∧ d.hasRoom q = true ∧ d.txPend = [] ∧ (d.qx q).stall = none) ∧
    (∃ (s : State) (x : BitVec 8) (h : Nat) (d : Dev), s.acts (.txnAbort x) d ∧ h = x.toNat ∧ d.hst h = 1 ∧ d.hasRoom (d.get TXN_HINFO0.QUEUE 0 h) = false) ∧
    (∃ (s : State) (x : BitVec 8) (d : Dev), s.acts (.txnAbort x) d ∧ d.hst x.toNat ≠ 1) ∧
    (∃ (s : State) (value : Word) (d : Dev), s.acts (.txnPoolWrite value) d ∧ handles.all (fun n => d.hst n == 0) = true ∧ 64 ≤ bitsOf value.toNat 11 0 ∧ bitsOf value.toNat 11 0 ≤ 3072 ∧ bitsOf value.toNat 28 16 + bitsOf value.toNat 11 0 ≤ 8192) ∧
    (∃ (s : State) (value : Word) (d : Dev), s.acts (.txnPoolWrite value) d ∧ (handles.all (fun n => d.hst n == 0) = false ∨ bitsOf value.toNat 11 0 < 64 ∨ 3072 < bitsOf value.toNat 11 0 ∨ 8192 < bitsOf value.toNat 28 16 + bitsOf value.toNat 11 0)) ∧
    (∃ (s : State) (qn : QueueNo) (d : Dev), s.acts (.pendingMove qn) d ∧ (d.txPend = [] ∨ d.hasRoom qn = false)) ∧
    (∃ (s : State) (qn : QueueNo) (h : Nat) (at' : Nat) (l : List (Nat × Nat)) (d : Dev), s.acts (.pendingMove qn) d ∧ d.txPend = (h, at') :: l ∧ d.get TXN_HINFO0.QUEUE 0 h = qn ∧ d.hasRoom qn = true ∧ l.all (fun p => d.get TXN_HINFO0.QUEUE 0 p.1 != qn.val && p.1 != h) = true ∧ (d.qx qn).stall = none) :=
  ⟨⟨(st { (((((((({} : Dev)).put TXN_HINFO0.STATE 2 0 7).put TXN_HINFO0.QUEUE 2 0 7).put TXN_HINFO4.TAG 0x1234 0 7 |>.put VAT_HOPEN.OPEN 3 0).put QMX_Q_BASE.EN 1 2).put QMX_Q_BASE.LOG2SZ 6 2).put QMX_Q_EP.PROD 0x12 2) with txPend := [(7, 4), (9, 5)] }), 7, 7, ((st { (((((((({} : Dev)).put TXN_HINFO0.STATE 2 0 7).put TXN_HINFO0.QUEUE 2 0 7).put TXN_HINFO4.TAG 0x1234 0 7 |>.put VAT_HOPEN.OPEN 3 0).put QMX_Q_BASE.EN 1 2).put QMX_Q_BASE.LOG2SZ 6 2).put QMX_Q_EP.PROD 0x12 2) with txPend := [(7, 4), (9, 5)] }).after (.txnFree 7)), ⟨State.acts_after rfl (by decide +kernel), by decide +kernel⟩⟩,
    ⟨(st (((((((({} : Dev)).put TXN_HINFO0.STATE 3 0 7).put TXN_HINFO0.QUEUE 2 0 7).put TXN_HINFO4.TAG 0x1234 0 7 |>.put VAT_HOPEN.OPEN 3 0).put QMX_Q_BASE.EN 1 2).put QMX_Q_BASE.LOG2SZ 6 2).put QMX_Q_EP.PROD 0x12 2)), 7, 7, ((st (((((((({} : Dev)).put TXN_HINFO0.STATE 3 0 7).put TXN_HINFO0.QUEUE 2 0 7).put TXN_HINFO4.TAG 0x1234 0 7 |>.put VAT_HOPEN.OPEN 3 0).put QMX_Q_BASE.EN 1 2).put QMX_Q_BASE.LOG2SZ 6 2).put QMX_Q_EP.PROD 0x12 2)).after (.txnFree 7)), ⟨State.acts_after rfl (by decide +kernel), by decide +kernel⟩⟩,
    ⟨(st {}), 7, ((st {}).after (.txnFree 7)), ⟨State.acts_after rfl (by decide +kernel), by decide +kernel⟩⟩,
    ⟨(st (((((((({} : Dev)).put TXN_HINFO0.STATE 1 0 7).put TXN_HINFO0.QUEUE 2 0 7).put TXN_HINFO4.TAG 0x1234 0 7 |>.put VAT_HOPEN.OPEN 3 0).put QMX_Q_BASE.EN 1 2).put QMX_Q_BASE.LOG2SZ 6 2).put QMX_Q_EP.PROD 0x12 2)), 7, 7, 2, ((st (((((((({} : Dev)).put TXN_HINFO0.STATE 1 0 7).put TXN_HINFO0.QUEUE 2 0 7).put TXN_HINFO4.TAG 0x1234 0 7 |>.put VAT_HOPEN.OPEN 3 0).put QMX_Q_BASE.EN 1 2).put QMX_Q_BASE.LOG2SZ 6 2).put QMX_Q_EP.PROD 0x12 2)).after (.txnAbort 7)), ⟨State.acts_after rfl (by decide +kernel), by decide +kernel⟩⟩,
    ⟨(st ((((({} : Dev)).put TXN_HINFO0.STATE 1 0 7).put TXN_HINFO0.QUEUE 2 0 7).put TXN_HINFO4.TAG 0x1234 0 7 |>.put VAT_HOPEN.OPEN 3 0)), 7, 7, ((st ((((({} : Dev)).put TXN_HINFO0.STATE 1 0 7).put TXN_HINFO0.QUEUE 2 0 7).put TXN_HINFO4.TAG 0x1234 0 7 |>.put VAT_HOPEN.OPEN 3 0)).after (.txnAbort 7)), ⟨State.acts_after rfl (by decide +kernel), by decide +kernel⟩⟩,
    ⟨(st {}), 7, ((st {}).after (.txnAbort 7)), ⟨State.acts_after rfl (by decide +kernel), by decide +kernel⟩⟩,
    ⟨(st {}), 0x01000100, ((st {}).after (.txnPoolWrite 0x01000100)), ⟨State.acts_after rfl (by decide +kernel), by decide +kernel⟩⟩,
    ⟨(st (((((((({} : Dev)).put TXN_HINFO0.STATE 2 0 7).put TXN_HINFO0.QUEUE 2 0 7).put TXN_HINFO4.TAG 0x1234 0 7 |>.put VAT_HOPEN.OPEN 3 0).put QMX_Q_BASE.EN 1 2).put QMX_Q_BASE.LOG2SZ 6 2).put QMX_Q_EP.PROD 0x12 2)), 0x01000100, ((st (((((((({} : Dev)).put TXN_HINFO0.STATE 2 0 7).put TXN_HINFO0.QUEUE 2 0 7).put TXN_HINFO4.TAG 0x1234 0 7 |>.put VAT_HOPEN.OPEN 3 0).put QMX_Q_BASE.EN 1 2).put QMX_Q_BASE.LOG2SZ 6 2).put QMX_Q_EP.PROD 0x12 2)).after (.txnPoolWrite 0x01000100)), ⟨State.acts_after rfl (by decide +kernel), by decide +kernel⟩⟩,
    ⟨(st {}), 2, ((st {}).after (.pendingMove 2)), ⟨State.acts_after rfl (by decide +kernel), by decide +kernel⟩⟩,
    ⟨(st { (((((((({} : Dev)).put TXN_HINFO0.STATE 2 0 7).put TXN_HINFO0.QUEUE 2 0 7).put TXN_HINFO4.TAG 0x1234 0 7 |>.put VAT_HOPEN.OPEN 3 0).put QMX_Q_BASE.EN 1 2).put QMX_Q_BASE.LOG2SZ 6 2).put QMX_Q_EP.PROD 0x12 2) with txPend := [(7, 77)] }), 2, 7, 77, [], ((st { (((((((({} : Dev)).put TXN_HINFO0.STATE 2 0 7).put TXN_HINFO0.QUEUE 2 0 7).put TXN_HINFO4.TAG 0x1234 0 7 |>.put VAT_HOPEN.OPEN 3 0).put QMX_Q_BASE.EN 1 2).put QMX_Q_BASE.LOG2SZ 6 2).put QMX_Q_EP.PROD 0x12 2) with txPend := [(7, 77)] }).after (.pendingMove 2)), ⟨State.acts_after rfl (by decide +kernel), by decide +kernel⟩⟩⟩

theorem witness_LedgerHostCommandsComplete :
    (∃ (s : State) (c : Instr) (arg : BitVec 16) (run : Bool) (seed : Word) (value : Word) (reg : Reg), (c, reg) ∈ [(Instr.ldgRead arg, Reg.LDG_CMD), (.ldgDelete arg, .LDG_CMD), (.clearBank arg, .LDG_CMD), (.age, .LDG_CMD), (.clearAll, .LDG_CMD), (.ldgRunWrite run, .LDG_CTRL), (.ldgSeedWrite seed, .LDG_SEED), (.ldgOvfWrite value, .LDG_OVF)] ∧ s.dev.present 3 = false ∧ s.dev.pwr.asleep = none) ∧
    (∃ (s : State) (c : Instr) (arg : BitVec 16) (op : Nat) (a : Nat) (d : Dev), s.acts c d ∧ ((c, op, a) = (.ldgRead arg, 1, arg.toNat) ∨ (c, op, a) = (.ldgDelete arg, 2, arg.toNat) ∨ (c, op, a) = (.clearBank arg, 3, arg.toNat) ∨ (c, op, a) = (.age, 4, 0) ∨ (c, op, a) = (.clearAll, 5, 0)) ∧ d.pwr.entry = none ∧ d.isSet LDG_CMDST.BUSY = false ∧ (op ≠ 3 ∨ 16 ≤ a ∨ d.isSet LDG_STATUS.READY = false)) ∧
    (∃ (s : State) (arg : BitVec 16) (x0 : Dev), s.acts (.clearBank arg) x0 ∧ arg.toNat < 16 ∧ x0.pwr.entry = none ∧ x0.isSet LDG_CMDST.BUSY = false ∧ x0.isSet LDG_STATUS.READY = true) ∧
    (∃ (s : State) (c : Instr) (arg : BitVec 16) (op : Nat) (d : Dev), s.acts c d ∧ ((c, op) = (.ldgRead arg, 1) ∨ (c, op) = (.ldgDelete arg, 2) ∨ (c, op) = (.clearBank arg, 3) ∨ (c, op) = (.age, 4) ∨ (c, op) = (.clearAll, 5)) ∧ d.pwr.entry = none ∧ d.isSet LDG_CMDST.BUSY = true) ∧
    (∃ (s : State) (c : Instr) (arg : BitVec 16) (run : Bool) (d : Dev), s.acts c d ∧ c ∈ [.ldgRead arg, .ldgDelete arg, .clearBank arg, .age, .clearAll, .ldgRunWrite run] ∧ d.pwr.entry ≠ none) ∧
    (∃ (s : State) (x0 : Dev), s.acts .ldgCmdDone x0 ∧ x0.ldg.cmd = none) ∧
    (∃ (s : State) (a : Nat) (thr : Nat) (d : Dev) (x0 : Dev), s.acts .ldgCmdDone x0 ∧ d = x0.serveAll ∧ x0.ldg.cmd = some (1, a, thr) ∧ d.isSet LDG_STATUS.READY = true ∧ d.stale (a / 4096) = false) ∧
    (∃ (s : State) (a : Nat) (thr : Nat) (d : Dev) (x0 : Dev), s.acts .ldgCmdDone x0 ∧ d = x0.serveAll ∧ x0.ldg.cmd = some (2, a, thr) ∧ d.isSet LDG_STATUS.READY = true ∧ d.stale (a / 4096) = false) ∧
    (∃ (s : State) (a : Nat) (thr : Nat) (d : Dev) (x0 : Dev), s.acts .ldgCmdDone x0 ∧ d = x0.serveAll ∧ x0.ldg.cmd = some (3, a, thr) ∧ d.isSet LDG_STATUS.READY = true ∧ a < 16) ∧
    (∃ (s : State) (a : Nat) (thr : Nat) (d : Dev) (x0 : Dev), s.acts .ldgCmdDone x0 ∧ d = x0.serveAll ∧ x0.ldg.cmd = some (4, a, thr) ∧ d.isSet LDG_STATUS.READY = true) ∧
    (∃ (s : State) (a : Nat) (thr : Nat) (d : Dev) (x0 : Dev), s.acts .ldgCmdDone x0 ∧ d = x0.serveAll ∧ x0.ldg.cmd = some (5, a, thr)) ∧
    (∃ (s : State) (op : Nat) (a : Nat) (thr : Nat) (n : Nat) (d : Dev) (x0 : Dev), s.acts .ldgCmdDone x0 ∧ d = x0.serveAll ∧ n = (if d.isSet LDG_STATUS.READY = false then stLdgStopped else if op = 3 then stLdgCmdArg else stLdgStale) ∧ x0.ldg.cmd = some (op, a, thr) ∧ 1 ≤ op ∧ op ≤ 4 ∧ (d.isSet LDG_STATUS.READY = false ∨ (op = 3 ∧ 16 ≤ a) ∨ (op ≤ 2 ∧ d.stale (a / 4096) = true))) ∧
    (∃ (s : State) (x0 : Dev), s.acts (.ldgRunWrite false) x0 ∧ x0.pwr.entry = none ∧ x0.ldg.phase = 0 ∧ x0.ldg.reqs = []) ∧
    (∃ (s : State) (x0 : Dev), s.acts (.ldgRunWrite true) x0 ∧ x0.pwr.entry = none ∧ x0.ldg.phase = 2) ∧
    (∃ (s : State) (x0 : Dev), s.acts (.ldgRunWrite true) x0 ∧ x0.pwr.entry = none ∧ (x0.ldg.phase = 0 ∨ x0.ldg.phase = 3)) ∧
    (∃ (s : State) (x0 : Dev), s.acts .ldgStopDone x0 ∧ x0.ldg.phase ≠ 1) ∧
    (∃ (s : State) (x0 : Dev), s.acts .ldgStopDone x0 ∧ x0.ldg.phase = 1 ∧ x0.ldg.cmd = none) ∧
    (∃ (s : State) (op : Nat) (a : Nat) (thr : Nat) (x0 : Dev), s.acts .ldgStopDone x0 ∧ x0.ldg.phase = 1 ∧ x0.ldg.cmd = some (op, a, thr) ∧ op ≠ 5) ∧
    (∃ (s : State) (x0 : Dev), s.acts .ldgRebuildDone x0 ∧ x0.ldg.phase ≠ 3) ∧
    (∃ (s : State) (x0 : Dev), s.acts .ldgRebuildDone x0 ∧ x0.ldg.phase = 3) ∧
    (∃ (s : State) (seed : Word) (x0 : Dev), s.acts (.ldgSeedWrite seed) x0 ∧ x0.isSet LDG_CTRL.RUN = true) ∧
    (∃ (s : State) (seed : Word) (x0 : Dev), s.acts (.ldgSeedWrite seed) x0 ∧ x0.isSet LDG_CTRL.RUN = false) ∧
    (∃ (s : State) (value : Word) (x0 : Dev), s.acts (.ldgOvfWrite value) x0 ∧ x0.isSet LDG_CTRL.RUN = false ∧ x0.ovfUsed = [] ∧ bitsOf value.toNat 28 16 + 2 * bitsOf value.toNat 11 0 ≤ 8192) ∧
    (∃ (s : State) (value : Word) (x0 : Dev), s.acts (.ldgOvfWrite value) x0 ∧ (x0.isSet LDG_CTRL.RUN = true ∨ x0.ovfUsed ≠ [] ∨ 8192 < bitsOf value.toNat 28 16 + 2 * bitsOf value.toNat 11 0)) :=
  ⟨⟨(st (({} : Dev).put SYS_ROLL.MISSING 8)), .age, 0, false, 0, 0, .LDG_CMD, by decide +kernel⟩,
    ⟨(st {}), .ldgRead 5, 5, 1, 5, ((st {}).after (.ldgRead 5)), ⟨State.acts_after rfl (by decide +kernel), by decide +kernel⟩⟩,
    ⟨(st (((((({} : Dev).put LDG_STATUS.READY 1)).setWord (0x04000000 + 64 * 5 + 32) 0x80000007).setWord (0x04000000 + 64 * 5 + 48) 50).setWord (0x04000000 + 64 * 9 + 32) 0x80000007 |>.setWord (0x04000000 + 64 * 9 + 48) 150)), 5, ((st (((((({} : Dev).put LDG_STATUS.READY 1)).setWord (0x04000000 + 64 * 5 + 32) 0x80000007).setWord (0x04000000 + 64 * 5 + 48) 50).setWord (0x04000000 + 64 * 9 + 32) 0x80000007 |>.setWord (0x04000000 + 64 * 9 + 48) 150)).after (.clearBank 5)), ⟨State.acts_after rfl (by decide +kernel), by decide +kernel⟩⟩,
    ⟨(st (({} : Dev).put LDG_CMDST.BUSY 1)), .ldgRead 5, 5, 1, ((st (({} : Dev).put LDG_CMDST.BUSY 1)).after (.ldgRead 5)), ⟨State.acts_after rfl (by decide +kernel), by decide +kernel⟩⟩,
    ⟨(st { pwr := { entry := some { target := 1 } } }), .ldgRead 5, 5, true, ((st { pwr := { entry := some { target := 1 } } }).after (.ldgRead 5)), ⟨State.acts_after rfl (by decide +kernel), by decide +kernel⟩⟩,
    ⟨(st {}), ((st {}).after .ldgCmdDone), ⟨State.acts_after rfl (by decide +kernel), by decide +kernel⟩⟩,
    ⟨(st { (((((({} : Dev).put LDG_STATUS.READY 1)).setWord (0x04000000 + 64 * 5 + 32) 0x80000007).setWord (0x04000000 + 64 * 5 + 48) 50).setWord (0x04000000 + 64 * 9 + 32) 0x80000007 |>.setWord (0x04000000 + 64 * 9 + 48) 150) with ldg := { phase := 0, cmd := some (1, 5, 99) } }), 5, 99, ((st { (((((({} : Dev).put LDG_STATUS.READY 1)).setWord (0x04000000 + 64 * 5 + 32) 0x80000007).setWord (0x04000000 + 64 * 5 + 48) 50).setWord (0x04000000 + 64 * 9 + 32) 0x80000007 |>.setWord (0x04000000 + 64 * 9 + 48) 150) with ldg := { phase := 0, cmd := some (1, 5, 99) } }).dev.serveAll), ((st { (((((({} : Dev).put LDG_STATUS.READY 1)).setWord (0x04000000 + 64 * 5 + 32) 0x80000007).setWord (0x04000000 + 64 * 5 + 48) 50).setWord (0x04000000 + 64 * 9 + 32) 0x80000007 |>.setWord (0x04000000 + 64 * 9 + 48) 150) with ldg := { phase := 0, cmd := some (1, 5, 99) } }).after .ldgCmdDone), ⟨State.acts_after rfl (by decide +kernel), by decide +kernel⟩⟩,
    ⟨(st { (((((({} : Dev).put LDG_STATUS.READY 1)).setWord (0x04000000 + 64 * 5 + 32) 0x80000007).setWord (0x04000000 + 64 * 5 + 48) 50).setWord (0x04000000 + 64 * 9 + 32) 0x80000007 |>.setWord (0x04000000 + 64 * 9 + 48) 150) with ldg := { phase := 0, cmd := some (2, 5, 99) } }), 5, 99, ((st { (((((({} : Dev).put LDG_STATUS.READY 1)).setWord (0x04000000 + 64 * 5 + 32) 0x80000007).setWord (0x04000000 + 64 * 5 + 48) 50).setWord (0x04000000 + 64 * 9 + 32) 0x80000007 |>.setWord (0x04000000 + 64 * 9 + 48) 150) with ldg := { phase := 0, cmd := some (2, 5, 99) } }).dev.serveAll), ((st { (((((({} : Dev).put LDG_STATUS.READY 1)).setWord (0x04000000 + 64 * 5 + 32) 0x80000007).setWord (0x04000000 + 64 * 5 + 48) 50).setWord (0x04000000 + 64 * 9 + 32) 0x80000007 |>.setWord (0x04000000 + 64 * 9 + 48) 150) with ldg := { phase := 0, cmd := some (2, 5, 99) } }).after .ldgCmdDone), ⟨State.acts_after rfl (by decide +kernel), by decide +kernel⟩⟩,
    ⟨(st { ((((((({} : Dev).put LDG_STATUS.READY 1)).setWord (0x04000000 + 64 * 5 + 32) 0x80000007).setWord (0x04000000 + 64 * 5 + 48) 50).setWord (0x04000000 + 64 * 9 + 32) 0x80000007 |>.setWord (0x04000000 + 64 * 9 + 48) 150).put LDG_BANK.STALE 0x8001) with ldg := { phase := 0, cmd := some (3, 0, 99) } }), 0, 99, ((st { ((((((({} : Dev).put LDG_STATUS.READY 1)).setWord (0x04000000 + 64 * 5 + 32) 0x80000007).setWord (0x04000000 + 64 * 5 + 48) 50).setWord (0x04000000 + 64 * 9 + 32) 0x80000007 |>.setWord (0x04000000 + 64 * 9 + 48) 150).put LDG_BANK.STALE 0x8001) with ldg := { phase := 0, cmd := some (3, 0, 99) } }).dev.serveAll), ((st { ((((((({} : Dev).put LDG_STATUS.READY 1)).setWord (0x04000000 + 64 * 5 + 32) 0x80000007).setWord (0x04000000 + 64 * 5 + 48) 50).setWord (0x04000000 + 64 * 9 + 32) 0x80000007 |>.setWord (0x04000000 + 64 * 9 + 48) 150).put LDG_BANK.STALE 0x8001) with ldg := { phase := 0, cmd := some (3, 0, 99) } }).after .ldgCmdDone), ⟨State.acts_after rfl (by decide +kernel), by decide +kernel⟩⟩,
    ⟨(st { (((((({} : Dev).put LDG_STATUS.READY 1)).setWord (0x04000000 + 64 * 5 + 32) 0x80000007).setWord (0x04000000 + 64 * 5 + 48) 50).setWord (0x04000000 + 64 * 9 + 32) 0x80000007 |>.setWord (0x04000000 + 64 * 9 + 48) 150) with ldg := { phase := 0, cmd := some (4, 0, 100) } }), 0, 100, ((st { (((((({} : Dev).put LDG_STATUS.READY 1)).setWord (0x04000000 + 64 * 5 + 32) 0x80000007).setWord (0x04000000 + 64 * 5 + 48) 50).setWord (0x04000000 + 64 * 9 + 32) 0x80000007 |>.setWord (0x04000000 + 64 * 9 + 48) 150) with ldg := { phase := 0, cmd := some (4, 0, 100) } }).dev.serveAll), ((st { (((((({} : Dev).put LDG_STATUS.READY 1)).setWord (0x04000000 + 64 * 5 + 32) 0x80000007).setWord (0x04000000 + 64 * 5 + 48) 50).setWord (0x04000000 + 64 * 9 + 32) 0x80000007 |>.setWord (0x04000000 + 64 * 9 + 48) 150) with ldg := { phase := 0, cmd := some (4, 0, 100) } }).after .ldgCmdDone), ⟨State.acts_after rfl (by decide +kernel), by decide +kernel⟩⟩,
    ⟨(st { (((((({} : Dev).put LDG_STATUS.READY 1)).setWord (0x04000000 + 64 * 5 + 32) 0x80000007).setWord (0x04000000 + 64 * 5 + 48) 50).setWord (0x04000000 + 64 * 9 + 32) 0x80000007 |>.setWord (0x04000000 + 64 * 9 + 48) 150) with ldg := { phase := 0, cmd := some (5, 5, 99) } }), 5, 99, ((st { (((((({} : Dev).put LDG_STATUS.READY 1)).setWord (0x04000000 + 64 * 5 + 32) 0x80000007).setWord (0x04000000 + 64 * 5 + 48) 50).setWord (0x04000000 + 64 * 9 + 32) 0x80000007 |>.setWord (0x04000000 + 64 * 9 + 48) 150) with ldg := { phase := 0, cmd := some (5, 5, 99) } }).dev.serveAll), ((st { (((((({} : Dev).put LDG_STATUS.READY 1)).setWord (0x04000000 + 64 * 5 + 32) 0x80000007).setWord (0x04000000 + 64 * 5 + 48) 50).setWord (0x04000000 + 64 * 9 + 32) 0x80000007 |>.setWord (0x04000000 + 64 * 9 + 48) 150) with ldg := { phase := 0, cmd := some (5, 5, 99) } }).after .ldgCmdDone), ⟨State.acts_after rfl (by decide +kernel), by decide +kernel⟩⟩,
    ⟨(st { (({} : Dev)) with ldg := { phase := 0, cmd := some (1, 5, 99) } }), 1, 5, 99, stLdgStopped, ((st { (({} : Dev)) with ldg := { phase := 0, cmd := some (1, 5, 99) } }).dev.serveAll), ((st { (({} : Dev)) with ldg := { phase := 0, cmd := some (1, 5, 99) } }).after .ldgCmdDone), ⟨State.acts_after rfl (by decide +kernel), by decide +kernel⟩⟩,
    ⟨(st { ldg := { phase := 0 } }), ((st { ldg := { phase := 0 } }).after (.ldgRunWrite false)), ⟨State.acts_after rfl (by decide +kernel), by decide +kernel⟩⟩,
    ⟨(st { ldg := { phase := 2 } }), ((st { ldg := { phase := 2 } }).after (.ldgRunWrite true)), ⟨State.acts_after rfl (by decide +kernel), by decide +kernel⟩⟩,
    ⟨(st { ldg := { phase := 0 } }), ((st { ldg := { phase := 0 } }).after (.ldgRunWrite true)), ⟨State.acts_after rfl (by decide +kernel), by decide +kernel⟩⟩,
    ⟨(st { ldg := { phase := 0 } }), ((st { ldg := { phase := 0 } }).after .ldgStopDone), ⟨State.acts_after rfl (by decide +kernel), by decide +kernel⟩⟩,
    ⟨(st { ldg := { phase := 1 } }), ((st { ldg := { phase := 1 } }).after .ldgStopDone), ⟨State.acts_after rfl (by decide +kernel), by decide +kernel⟩⟩,
    ⟨(st { ldg := { phase := 1, cmd := some (1, 5, 99) } }), 1, 5, 99, ((st { ldg := { phase := 1, cmd := some (1, 5, 99) } }).after .ldgStopDone), ⟨State.acts_after rfl (by decide +kernel), by decide +kernel⟩⟩,
    ⟨(st { ldg := { phase := 1 } }), ((st { ldg := { phase := 1 } }).after .ldgRebuildDone), ⟨State.acts_after rfl (by decide +kernel), by decide +kernel⟩⟩,
    ⟨(st { (((((({} : Dev).put LDG_STATUS.READY 1)).setWord (0x04000000 + 64 * 5 + 32) 0x80000007).setWord (0x04000000 + 64 * 5 + 48) 50).setWord (0x04000000 + 64 * 9 + 32) 0x80000007 |>.setWord (0x04000000 + 64 * 9 + 48) 150) with ldg := { phase := 3 } }), ((st { (((((({} : Dev).put LDG_STATUS.READY 1)).setWord (0x04000000 + 64 * 5 + 32) 0x80000007).setWord (0x04000000 + 64 * 5 + 48) 50).setWord (0x04000000 + 64 * 9 + 32) 0x80000007 |>.setWord (0x04000000 + 64 * 9 + 48) 150) with ldg := { phase := 3 } }).after .ldgRebuildDone), ⟨State.acts_after rfl (by decide +kernel), by decide +kernel⟩⟩,
    ⟨(st (({} : Dev).put LDG_CTRL.RUN 1)), 0, ((st (({} : Dev).put LDG_CTRL.RUN 1)).after (.ldgSeedWrite 0)), ⟨State.acts_after rfl (by decide +kernel), by decide +kernel⟩⟩,
    ⟨(st (({} : Dev).put LDG_CTRL.RUN 0)), 0, ((st (({} : Dev).put LDG_CTRL.RUN 0)).after (.ldgSeedWrite 0)), ⟨State.acts_after rfl (by decide +kernel), by decide +kernel⟩⟩,
    ⟨(st (({} : Dev).put LDG_CTRL.RUN 0)), 0x01000100, ((st (({} : Dev).put LDG_CTRL.RUN 0)).after (.ldgOvfWrite 0x01000100)), ⟨State.acts_after rfl (by decide +kernel), by decide +kernel⟩⟩,
    ⟨(st (({} : Dev).put LDG_CTRL.RUN 1)), 0x01000100, ((st (({} : Dev).put LDG_CTRL.RUN 1)).after (.ldgOvfWrite 0x01000100)), ⟨State.acts_after rfl (by decide +kernel), by decide +kernel⟩⟩⟩

theorem witness_PowerEntryCompletes :
    (∃ (s : State) (target : BitVec 2) (x : Entry) (d : Dev), s.acts (.pwrEnter target) d ∧ d.pwr.entry = some x ∧ (x.auto ≠ some d.tick ∨ target = 0 ∨ target = 3 ∨ d.sources target.toNat = 0)) ∧
    (∃ (s : State) (target : BitVec 2) (x : Entry) (d : Dev), s.acts (.pwrEnter target) d ∧ d.pwr.entry = some x ∧ x.auto = some d.tick ∧ (target = 1 ∨ target = 2) ∧ d.sources target.toNat ≠ 0) ∧
    (∃ (s : State) (target : BitVec 2) (d : Dev), s.acts (.pwrEnter target) d ∧ d.entering = false ∧ d.entryIdle = false) ∧
    (∃ (s : State) (target : BitVec 2) (d : Dev), s.acts (.pwrEnter target) d ∧ d.entering = false ∧ d.entryIdle = true ∧ (target = 0 ∨ target = 3)) ∧
    (∃ (s : State) (target : BitVec 2) (d : Dev), s.acts (.pwrEnter target) d ∧ d.entering = false ∧ d.entryIdle = true ∧ (target = 1 ∨ target = 2) ∧ d.sources target.toNat = 0) ∧
    (∃ (s : State) (target : BitVec 2) (d : Dev), s.acts (.pwrEnter target) d ∧ d.entering = false ∧ d.entryIdle = true ∧ (target = 1 ∨ target = 2) ∧ d.sources target.toNat ≠ 0 ∧ d.ldg.phase = 0 ∧ d.ldg.reqs = []) ∧
    (∃ (s : State) (a : Nat) (t : Nat) (d : Dev), s.acts .autoEntry d ∧ d.get PWR_POLICY.AUTO = a ∧ (a = 1 ∨ a = 2) ∧ d.phase = 1 ∧ d.entryIdle = true ∧ d.entering = false ∧ d.sources a ≠ 0 ∧ d.ldg.phase = 0 ∧ d.ldg.reqs = [] ∧ t = max d.tick d.autoTick) ∧
    (∃ (s : State) (a : Nat) (d : Dev), s.acts .autoEntry d ∧ d.get PWR_POLICY.AUTO = a ∧ (a = 1 ∨ a = 2) ∧ d.phase = 1 ∧ d.entryIdle = true ∧ d.entering = false ∧ d.sources a = 0) ∧
    (∃ (s : State) (d : Dev), s.acts .autoEntry d ∧ ((d.get PWR_POLICY.AUTO ≠ 1 ∧ d.get PWR_POLICY.AUTO ≠ 2) ∨ d.phase ≠ 1 ∨ d.entryIdle = false ∨ d.entering = true)) ∧
    (∃ (s : State) (d : Dev), s.acts .pwrCancel d ∧ d.pwr.entry = none) ∧
    (∃ (s : State) (x : Entry) (d : Dev), s.acts .pwrCancel d ∧ d.pwr.entry = some x ∧ x.held = [] ∧ x.run = true ∧ d.ldg.phase = 2) ∧
    (∃ (s : State) (x : Entry) (d : Dev), s.acts .pwrCancel d ∧ d.pwr.entry = some x ∧ x.held = [] ∧ x.run = false) ∧
    (∃ (s : State) (d : Dev), s.acts .signaturesStored d ∧ d.pwr.entry = none) ∧
    (∃ (s : State) (x : Entry) (d : Dev), s.acts .signaturesStored d ∧ d.pwr.entry = some x ∧ (x.stage ≠ 0 ∨ d.ldg.phase ≠ 2)) ∧
    (∃ (s : State) (x : Entry) (d : Dev), s.acts .signaturesStored d ∧ d.pwr.entry = some x ∧ x.stage = 0 ∧ d.ldg.phase = 2) ∧
    (∃ (s : State) (d : Dev), s.acts .entryLatch d ∧ d.pwr.entry = none) ∧
    (∃ (s : State) (x : Entry) (d : Dev), s.acts .entryLatch d ∧ d.pwr.entry = some x ∧ x.stage ≠ 1) ∧
    (∃ (s : State) (x : Entry) (d : Dev), s.acts .entryLatch d ∧ d.pwr.entry = some x ∧ x.stage = 1 ∧ (x.target = 2 ∨ d.wakeCompares = [])) ∧
    (∃ (s : State) (a : Nat) (n : Nat) (k : Nat) (x : Entry) (d : Dev), s.acts .entryLatch d ∧ d.pwr.entry = some x ∧ x.stage = 1 ∧ x.target = 1 ∧ d.wakeCompares = [(n, k, some a)] ∧ n < 8 ∧ k < 4) ∧
    (∃ (s : State) (d : Dev), s.acts .pointOfNoReturn d ∧ d.pwr.entry = none) ∧
    (∃ (s : State) (x : Entry) (d : Dev), s.acts .pointOfNoReturn d ∧ d.pwr.entry = some x ∧ x.stage ≠ 2) ∧
    (∃ (s : State) (x : Entry) (d : Dev), s.acts .pointOfNoReturn d ∧ d.pwr.entry = some x ∧ x.stage = 2) ∧
    (∃ (s : State) (d : Dev), s.acts .domainsOff d ∧ (d.pwr.asleep = none ∨ d.pwr.off = true)) ∧
    (∃ (s : State) (d : Dev), s.acts .domainsOff d ∧ d.pwr.asleep ≠ none ∧ d.pwr.off = false ∧ d.pwr.wakes = []) ∧
    (∃ (s : State) (a : Nat) (k : Nat) (t : Nat) (d : Dev), s.acts .domainsOff d ∧ d.pwr.asleep ≠ none ∧ d.pwr.off = false ∧ d.pwr.wakes = [(k, a, t)] ∧ k < 8) :=
  ⟨⟨(st { up with pwr := { entry := some { target := 1 } } }), 1, { target := 1 }, ((st { up with pwr := { entry := some { target := 1 } } }).after (.pwrEnter 1)), ⟨State.acts_after rfl (by decide +kernel), by decide +kernel⟩⟩,
    ⟨(st { (up.put PWR_WAKEEN.EN 0x40) with pwr := { entry := some { target := 1, auto := some 0 } } }), 2, { target := 1, auto := some 0 }, ((st { (up.put PWR_WAKEEN.EN 0x40) with pwr := { entry := some { target := 1, auto := some 0 } } }).after (.pwrEnter 2)), ⟨State.acts_after rfl (by decide +kernel), by decide +kernel⟩⟩,
    ⟨(st (up.put VAT_STATUS.STATE vsRun 0)), 0, ((st (up.put VAT_STATUS.STATE vsRun 0)).after (.pwrEnter 0)), ⟨State.acts_after rfl (by decide +kernel), by decide +kernel⟩⟩,
    ⟨(st { up with ldg := {} }), 0, ((st { up with ldg := {} }).after (.pwrEnter 0)), ⟨State.acts_after rfl (by decide +kernel), by decide +kernel⟩⟩,
    ⟨(st (up.put PWR_WAKEEN.EN 0)), 1, ((st (up.put PWR_WAKEEN.EN 0)).after (.pwrEnter 1)), ⟨State.acts_after rfl (by decide +kernel), by decide +kernel⟩⟩,
    ⟨(st { (((up.put PWR_WAKEEN.EN 0xFF).put HFR_STATUS.STATE 1)) with ldg := { phase := 0 } }), 1, ((st { (((up.put PWR_WAKEEN.EN 0xFF).put HFR_STATUS.STATE 1)) with ldg := { phase := 0 } }).after (.pwrEnter 1)), ⟨State.acts_after rfl (by decide +kernel), by decide +kernel⟩⟩,
    ⟨(st ((((up.put SYS_STEP.DONE 0x3FF).put LCS_STATE.STATE 2).put PWR_POLICY.AUTO 1).put PWR_WAKEEN.EN 0x40)), 1, (max ((st ((((up.put SYS_STEP.DONE 0x3FF).put LCS_STATE.STATE 2).put PWR_POLICY.AUTO 1).put PWR_WAKEEN.EN 0x40)).after .autoEntry).tick ((st ((((up.put SYS_STEP.DONE 0x3FF).put LCS_STATE.STATE 2).put PWR_POLICY.AUTO 1).put PWR_WAKEEN.EN 0x40)).after .autoEntry).autoTick), ((st ((((up.put SYS_STEP.DONE 0x3FF).put LCS_STATE.STATE 2).put PWR_POLICY.AUTO 1).put PWR_WAKEEN.EN 0x40)).after .autoEntry), ⟨State.acts_after rfl (by decide +kernel), by decide +kernel⟩⟩,
    ⟨(st ((((up.put SYS_STEP.DONE 0x3FF).put LCS_STATE.STATE 2).put PWR_POLICY.AUTO 1).put PWR_WAKEEN.EN 0)), 1, ((st ((((up.put SYS_STEP.DONE 0x3FF).put LCS_STATE.STATE 2).put PWR_POLICY.AUTO 1).put PWR_WAKEEN.EN 0)).after .autoEntry), ⟨State.acts_after rfl (by decide +kernel), by decide +kernel⟩⟩,
    ⟨(st up), ((st up).after .autoEntry), ⟨State.acts_after rfl (by decide +kernel), by decide +kernel⟩⟩,
    ⟨(st up), ((st up).after .pwrCancel), ⟨State.acts_after rfl (by decide +kernel), by decide +kernel⟩⟩,
    ⟨(st { (up) with pwr := { entry := some { target := 1, run := true } }, ldg := { phase := 2 } }), { target := 1, run := true }, ((st { (up) with pwr := { entry := some { target := 1, run := true } }, ldg := { phase := 2 } }).after .pwrCancel), ⟨State.acts_after rfl (by decide +kernel), by decide +kernel⟩⟩,
    ⟨(st { (up) with pwr := { entry := some { target := 1, run := false } }, ldg := { phase := 2 } }), { target := 1, run := false }, ((st { (up) with pwr := { entry := some { target := 1, run := false } }, ldg := { phase := 2 } }).after .pwrCancel), ⟨State.acts_after rfl (by decide +kernel), by decide +kernel⟩⟩,
    ⟨(st up), ((st up).after .signaturesStored), ⟨State.acts_after rfl (by decide +kernel), by decide +kernel⟩⟩,
    ⟨(st { (up) with pwr := { entry := some { target := 1, stage := 1 } }, ldg := { phase := 2 } }), { target := 1, stage := 1 }, ((st { (up) with pwr := { entry := some { target := 1, stage := 1 } }, ldg := { phase := 2 } }).after .signaturesStored), ⟨State.acts_after rfl (by decide +kernel), by decide +kernel⟩⟩,
    ⟨(st { (up) with pwr := { entry := some { target := 1 } }, ldg := { phase := 2 } }), { target := 1 }, ((st { (up) with pwr := { entry := some { target := 1 } }, ldg := { phase := 2 } }).after .signaturesStored), ⟨State.acts_after rfl (by decide +kernel), by decide +kernel⟩⟩,
    ⟨(st up), ((st up).after .entryLatch), ⟨State.acts_after rfl (by decide +kernel), by decide +kernel⟩⟩,
    ⟨(st { (up) with pwr := { entry := some { target := 2 } }, ldg := { phase := 2 } }), { target := 2 }, ((st { (up) with pwr := { entry := some { target := 2 } }, ldg := { phase := 2 } }).after .entryLatch), ⟨State.acts_after rfl (by decide +kernel), by decide +kernel⟩⟩,
    ⟨(st { (up) with pwr := { entry := some { target := 2, stage := 1 } }, ldg := { phase := 2 } }), { target := 2, stage := 1 }, ((st { (up) with pwr := { entry := some { target := 2, stage := 1 } }, ldg := { phase := 2 } }).after .entryLatch), ⟨State.acts_after rfl (by decide +kernel), by decide +kernel⟩⟩,
    ⟨(st { (((((up.put RING_CTRL.SRC 2 3).put RING_CTRL.EN 1 3).put RING_CMPST.ARMED 2 3).put RING_CMPST.WAKE 2 3).setRing 3 { cnt := 9, cmp := [(1, 100)] }) with pwr := { entry := some { target := 1, stage := 1 } }, ldg := { phase := 2 } }), ((st { (((((up.put RING_CTRL.SRC 2 3).put RING_CTRL.EN 1 3).put RING_CMPST.ARMED 2 3).put RING_CMPST.WAKE 2 3).setRing 3 { cnt := 9, cmp := [(1, 100)] }) with pwr := { entry := some { target := 1, stage := 1 } }, ldg := { phase := 2 } }).dev.wakeCompares.headD (0,0,none)).2.2.getD 0, 3, 1, { target := 1, stage := 1 }, ((st { (((((up.put RING_CTRL.SRC 2 3).put RING_CTRL.EN 1 3).put RING_CMPST.ARMED 2 3).put RING_CMPST.WAKE 2 3).setRing 3 { cnt := 9, cmp := [(1, 100)] }) with pwr := { entry := some { target := 1, stage := 1 } }, ldg := { phase := 2 } }).after .entryLatch), ⟨State.acts_after rfl (by decide +kernel), by decide +kernel⟩⟩,
    ⟨(st up), ((st up).after .pointOfNoReturn), ⟨State.acts_after rfl (by decide +kernel), by decide +kernel⟩⟩,
    ⟨(st { (up) with pwr := { entry := some { target := 2 } }, ldg := { phase := 2 } }), { target := 2 }, ((st { (up) with pwr := { entry := some { target := 2 } }, ldg := { phase := 2 } }).after .pointOfNoReturn), ⟨State.acts_after rfl (by decide +kernel), by decide +kernel⟩⟩,
    ⟨(st { (up) with pwr := { entry := some { target := 2, stage := 2 } }, ldg := { phase := 2 } }), { target := 2, stage := 2 }, ((st { (up) with pwr := { entry := some { target := 2, stage := 2 } }, ldg := { phase := 2 } }).after .pointOfNoReturn), ⟨State.acts_after rfl (by decide +kernel), by decide +kernel⟩⟩,
    ⟨(st up), ((st up).after .domainsOff), ⟨State.acts_after rfl (by decide +kernel), by decide +kernel⟩⟩,
    ⟨(st { (up.setWord 0x04000000 7 |>.setWord 0x04080000 7 |>.setWord 0x100000 7 |>.put PWR_WAKEEN.EN 5) with pwr := { asleep := some 1, sigs := [(2, 9)] } }), ((st { (up.setWord 0x04000000 7 |>.setWord 0x04080000 7 |>.setWord 0x100000 7 |>.put PWR_WAKEEN.EN 5) with pwr := { asleep := some 1, sigs := [(2, 9)] } }).after .domainsOff), ⟨State.acts_after rfl (by decide +kernel), by decide +kernel⟩⟩,
    ⟨(st { up with pwr := { asleep := some 1, wakes := [(6, 0, 5)] } }), 0, 6, 5, ((st { up with pwr := { asleep := some 1, wakes := [(6, 0, 5)] } }).after .domainsOff), ⟨State.acts_after rfl (by decide +kernel), by decide +kernel⟩⟩⟩

theorem witness_WakesComplete :
    (∃ s : State, s.dev.awake) ∧
    (∃ s : State, s.dev.awake) ∧
    (∃ s : State, s.dev.awake) ∧
    (∃ s : State, s.dev.awake) ∧
    (∃ s : State, s.dev.awake) ∧
    (∃ (s : State) (sources : BitVec 8) (t : Nat) (k : Nat) (m : Nat), s.dev.sleeps t ∧ m = Nat.land sources.toNat (s.dev.sources t) ∧ bitOf m k = true ∧ (∀ j : Nat, j < k → bitOf m j = false)) ∧
    (∃ (s : State) (sources : BitVec 8) (t : Nat), s.dev.sleeps t ∧ Nat.land sources.toNat (s.dev.sources t) = 0) ∧
    (∃ (s : State) (t : Nat), s.dev.sleeps t ∧ bitOf (s.dev.sources t) 6 = true) ∧
    (∃ (s : State) (t : Nat), s.dev.sleeps t ∧ s.dev.latched.isSet PWR_WT_HI.EN = true ∧ bitOf (s.dev.sources t) 5 = true) ∧
    (∃ (s : State) (t : Nat), s.dev.sleeps t ∧ s.dev.latched.isSet PWR_WT_HI.EN = false) ∧
    (∃ s : State, s.dev.sleeps 1 ∧ s.dev.isSet AON_HWCMP_W1.VALID = true ∧ bitOf (s.dev.sources 1) 3 = true) ∧
    (∃ s : State, s.dev.sleeps 2) ∧
    (∃ s : State, s.dev.sleeps 2) ∧
    (∃ (s : State) (temp : BitVec 8), s.dev.sleeps 1 ∧ (temp.toInt < signedOf 8 (s.dev.latched.get PWR_GTEMP.LO) ∨ signedOf 8 (s.dev.latched.get PWR_GTEMP.HI) ≤ temp.toInt) ∧ bitOf (s.dev.sources 1) 4 = true) ∧
    (∃ (s : State) (temp : BitVec 8), s.dev.sleeps 1 ∧ signedOf 8 (s.dev.latched.get PWR_GTEMP.LO) ≤ temp.toInt ∧ temp.toInt < signedOf 8 (s.dev.latched.get PWR_GTEMP.HI)) ∧
    (∃ (s : State) (x : Entry), s.dev.rst.asserted = false ∧ s.dev.pwr.asleep = none ∧ s.dev.pwr.entry = some x ∧ x.held = [] ∧ x.run = false ∧ s.dev.phase = 1 ∧ bitOf (s.dev.sources x.target) 6 = true) ∧
    (∃ (s : State) (x : Entry), s.dev.rst.asserted = false ∧ s.dev.pwr.asleep = none ∧ s.dev.pwr.entry = some x ∧ s.dev.phase ≠ 1 ∧ bitOf (s.dev.sources x.target) 6 = true) ∧
    (∃ (s : State) (t : Nat) (m : Nat) (h : Nat), s.dev.rst.asserted = true ∧ s.dev.pwr.asleep = none ∧ s.dev.rst.slept = some (t, h) ∧ bitOf s.dev.rst.causes 7 = true ∧ bitOf (s.dev.latched.sources t) 6 = true ∧ s.dev.hw ≠ s.dev.get AON_WAKE_REC1.HW_LO + 2 ^ 32 * s.dev.get AON_WAKE_REC2.HW_HI ∧ m = Nat.lor (s.dev.get AON_WAKE_REC0.MASK) 0x40) :=
  ⟨⟨(st up), by unfold Dev.awake; decide +kernel⟩,
    ⟨(st up), by unfold Dev.awake; decide +kernel⟩,
    ⟨(st up), by unfold Dev.awake; decide +kernel⟩,
    ⟨(st up), by unfold Dev.awake; decide +kernel⟩,
    ⟨(st up), by unfold Dev.awake; decide +kernel⟩,
    ⟨(st ((slept 1 (up)).put PWR_WAKEEN.EN 0xFF)), 0x48, 1, 3, Nat.land 0x48 ((st ((slept 1 (up)).put PWR_WAKEEN.EN 0xFF)).dev.sources 1), by unfold Dev.sleeps; decide +kernel⟩,
    ⟨(st ((slept 1 (up)).put PWR_WAKEEN.EN 7)), 0x48, 1, by unfold Dev.sleeps; decide +kernel⟩,
    ⟨(st ((slept 1 (up)).put PWR_WAKEEN.EN 0xFF)), 1, by unfold Dev.sleeps; decide +kernel⟩,
    ⟨(st ((slept 1 ((up.put PWR_WT_HI.EN 1).put PWR_WT_LO.WT_LO 99)).put PWR_WAKEEN.EN 0xFF)), 1, by unfold Dev.sleeps; decide +kernel⟩,
    ⟨(st ((slept 1 (up)).put PWR_WAKEEN.EN 0xFF)), 1, by unfold Dev.sleeps; decide +kernel⟩,
    ⟨(st (((slept 1 up).put PWR_WAKEEN.EN 8).put AON_HWCMP_W1.VALID 1 |>.put AON_HWCMP_W1.RING 5 |>.put AON_HWCMP_W0.HWC_LO 1000)), by unfold Dev.sleeps; decide +kernel⟩,
    ⟨(st (slept 2 up)), by unfold Dev.sleeps; decide +kernel⟩,
    ⟨(st ((slept 2 (up)).put PWR_WAKEEN.EN 0xFF)), by unfold Dev.sleeps; decide +kernel⟩,
    ⟨(st ((slept 1 ((up.put PWR_GTEMP.LO 0xF6).put PWR_GTEMP.HI 30)).put PWR_WAKEEN.EN 0xFF)), 30, by unfold Dev.sleeps; decide +kernel⟩,
    ⟨(st ((slept 1 ((up.put PWR_GTEMP.LO 0xF6).put PWR_GTEMP.HI 30)).put PWR_WAKEEN.EN 0xFF)), 29, by unfold Dev.sleeps; decide +kernel⟩,
    ⟨(st { (((up.put SYS_STEP.DONE 0x3FF).put LCS_STATE.STATE 2).put PWR_WAKEEN.EN 0x40) with pwr := { entry := some { target := 2, run := false } } }), { target := 2, run := false }, by decide +kernel⟩,
    ⟨(st { (up.put PWR_WAKEEN.EN 0x40) with pwr := { entry := some { target := 1 } } }), { target := 1 }, by decide +kernel⟩,
    ⟨(st { ({} : Dev) with rst := { causes := 128, slept := some (1, 0) }, pwr := { latch := [(⟨PWR_WAKEEN.EN, 0, 0⟩, 0x40)] }, hw := 9 }), 1, 0x40, 0, by decide +kernel⟩⟩

theorem witness_DomainsComplete :
    (∃ (s : State) (dom : Domain) (d : Dev), s.acts (.domainGate dom) d ∧ d.mayGate dom = false) ∧
    (∃ (s : State) (dom : Domain) (d : Dev), s.acts (.domainGate dom) d ∧ d.mayGate dom = true) ∧
    (∃ (s : State) (c : ChainNo) (t : Nat) (d : Dev), s.acts (.domainGate (.uhf c)) d ∧ d.mayGate (.uhf c) = true ∧ (d.chx c).goal = none ∧ t = max d.tick (d.idleFrom (.uhf c) + d.idleTime (.uhf c))) ∧
    (∃ (s : State) (m : Fin 4) (t : Nat) (d : Dev), s.acts (.domainGate (.syn m)) d ∧ d.mayGate (.syn m) = true ∧ d.entering = false ∧ d.rst.asserted = false ∧ t = max d.tick (d.idleFrom (.syn m) + d.idleTime (.syn m))) ∧
    (∃ (s : State) (t : Nat) (d : Dev), s.acts (.domainGate .hfr) d ∧ d.mayGate .hfr = true ∧ d.pst 9 = 1 ∧ (d.chx 9).goal = none ∧ t = max d.tick (d.idleFrom .hfr + d.idleTime .hfr)) ∧
    (∃ (s : State) (t : Nat) (d : Dev), s.acts (.domainGate .act) d ∧ d.mayGate .act = true ∧ d.pst 10 = 1 ∧ (d.chx 10).goal = none ∧ t = max d.tick (d.idleFrom .act + d.idleTime .act)) ∧
    (∃ (s : State) (t : Nat) (d : Dev), s.acts (.domainGate .msh) d ∧ d.mayGate .msh = true ∧ d.entering = false ∧ d.rst.asserted = false ∧ t = max d.tick (d.idleFrom .msh + d.idleTime .msh)) ∧
    (∃ (s : State) (n : Fin 2) (t : Nat) (d : Dev), s.acts (.domainGate (.spe n)) d ∧ d.mayGate (.spe n) = true ∧ d.entering = false ∧ d.rst.asserted = false ∧ t = max d.tick (d.idleFrom (.spe n) + d.idleTime (.spe n))) ∧
    (∃ (s : State) (k : Fin 16) (t : Nat) (d : Dev), s.acts (.domainGate (.clr k)) d ∧ d.mayGate (.clr k) = true ∧ d.entering = false ∧ d.rst.asserted = false ∧ t = max d.tick (d.idleFrom (.clr k) + d.idleTime (.clr k))) ∧
    (∃ (s : State) (c : ChainNo) (d : Dev), s.acts (.domainWake (.uhf c)) d ∧ d.gatedNow (.uhf c) = false ∧ d.cst c = csOff ∧ (d.chx c).goal = none) ∧
    (∃ (s : State) (m : Fin 4) (d : Dev), s.acts (.domainWake (.syn m)) d ∧ d.gatedNow (.syn m) = false) ∧
    (∃ (s : State) (d : Dev), s.acts (.domainWake .hfr) d ∧ d.gatedNow .hfr = false ∧ d.get HFR_STATUS.STATE = 0 ∧ (d.chx 9).goal = none) ∧
    (∃ (s : State) (d : Dev), s.acts (.domainWake .act) d ∧ d.gatedNow .act = false ∧ d.get ACT_STATUS.STATE = 0 ∧ (d.chx 10).goal = none) ∧
    (∃ (s : State) (d : Dev), s.acts (.domainWake .msh) d ∧ d.gatedNow .msh = false) ∧
    (∃ (s : State) (n : Fin 2) (d : Dev), s.acts (.domainWake (.spe n)) d ∧ d.gatedNow (.spe n) = false) ∧
    (∃ (s : State) (k : Fin 16) (d : Dev), s.acts (.domainWake (.clr k)) d ∧ d.gatedNow (.clr k) = false) ∧
    (∃ (s : State) (c : ChainNo) (l : Nat) (d : Dev), s.acts (.domainWake (.uhf c)) d ∧ d.gated = some (c.val, d.tick, l)) ∧
    (∃ (s : State) (m : Fin 4) (l : Nat) (d : Dev), s.acts (.domainWake (.syn m)) d ∧ d.gated = some (11 + m.val, d.tick, l)) ∧
    (∃ (s : State) (l : Nat) (d : Dev), s.acts (.domainWake .hfr) d ∧ d.gated = some (9, d.tick, l)) ∧
    (∃ (s : State) (l : Nat) (d : Dev), s.acts (.domainWake .act) d ∧ d.gated = some (10, d.tick, l)) ∧
    (∃ (s : State) (k : Fin 16) (l : Nat) (d : Dev), s.acts (.domainWake (.clr k)) d ∧ d.gated = some (18 + k.val, d.tick, l)) :=
  ⟨⟨(st ((((up.put PWR_IDLE0.UHF 0).put PWR_IDLE0.SYN 0).put PWR_IDLE0.HFR 0).put PWR_IDLE0.ACT 0 |>.put PWR_IDLE1.MSH 0 |>.put PWR_IDLE1.SPE 0 |>.put PWR_IDLE1.CLR 0)), .uhf 0, ((st ((((up.put PWR_IDLE0.UHF 0).put PWR_IDLE0.SYN 0).put PWR_IDLE0.HFR 0).put PWR_IDLE0.ACT 0 |>.put PWR_IDLE1.MSH 0 |>.put PWR_IDLE1.SPE 0 |>.put PWR_IDLE1.CLR 0)).after (.domainGate (.uhf 0))), ⟨State.acts_after rfl (by decide +kernel), by decide +kernel⟩⟩,
    ⟨(st ((up.put PWR_IDLE0.UHF 3)|>.put UHF_STATUS.STATE csReady 0)), .uhf 0, ((st ((up.put PWR_IDLE0.UHF 3)|>.put UHF_STATUS.STATE csReady 0)).after (.domainGate (.uhf 0))), ⟨State.acts_after rfl (by decide +kernel), by decide +kernel⟩⟩,
    ⟨(st ((up.put UHF_STATUS.STATE 1 0).put PWR_IDLE0.UHF 5)), 0, (max ((st ((up.put UHF_STATUS.STATE 1 0).put PWR_IDLE0.UHF 5)).after (.domainGate (.uhf 0))).tick (((st ((up.put UHF_STATUS.STATE 1 0).put PWR_IDLE0.UHF 5)).after (.domainGate (.uhf 0))).idleFrom (.uhf 0) + ((st ((up.put UHF_STATUS.STATE 1 0).put PWR_IDLE0.UHF 5)).after (.domainGate (.uhf 0))).idleTime (.uhf 0))), ((st ((up.put UHF_STATUS.STATE 1 0).put PWR_IDLE0.UHF 5)).after (.domainGate (.uhf 0))), ⟨State.acts_after rfl (by decide +kernel), by decide +kernel⟩⟩,
    ⟨(st ((up.put SYN_F_CTRL.KEEP 0 3).put PWR_IDLE0.SYN 5)), 3, (max ((st ((up.put SYN_F_CTRL.KEEP 0 3).put PWR_IDLE0.SYN 5)).after (.domainGate (.syn 3))).tick (((st ((up.put SYN_F_CTRL.KEEP 0 3).put PWR_IDLE0.SYN 5)).after (.domainGate (.syn 3))).idleFrom (.syn 3) + ((st ((up.put SYN_F_CTRL.KEEP 0 3).put PWR_IDLE0.SYN 5)).after (.domainGate (.syn 3))).idleTime (.syn 3))), ((st ((up.put SYN_F_CTRL.KEEP 0 3).put PWR_IDLE0.SYN 5)).after (.domainGate (.syn 3))), ⟨State.acts_after rfl (by decide +kernel), by decide +kernel⟩⟩,
    ⟨(st ((up.put HFR_STATUS.STATE 1).put PWR_IDLE0.HFR 5)), (max ((st ((up.put HFR_STATUS.STATE 1).put PWR_IDLE0.HFR 5)).after (.domainGate .hfr)).tick (((st ((up.put HFR_STATUS.STATE 1).put PWR_IDLE0.HFR 5)).after (.domainGate .hfr)).idleFrom .hfr + ((st ((up.put HFR_STATUS.STATE 1).put PWR_IDLE0.HFR 5)).after (.domainGate .hfr)).idleTime .hfr)), ((st ((up.put HFR_STATUS.STATE 1).put PWR_IDLE0.HFR 5)).after (.domainGate .hfr)), ⟨State.acts_after rfl (by decide +kernel), by decide +kernel⟩⟩,
    ⟨(st ((up.put ACT_STATUS.STATE 1).put PWR_IDLE0.ACT 5)), (max ((st ((up.put ACT_STATUS.STATE 1).put PWR_IDLE0.ACT 5)).after (.domainGate .act)).tick (((st ((up.put ACT_STATUS.STATE 1).put PWR_IDLE0.ACT 5)).after (.domainGate .act)).idleFrom .act + ((st ((up.put ACT_STATUS.STATE 1).put PWR_IDLE0.ACT 5)).after (.domainGate .act)).idleTime .act)), ((st ((up.put ACT_STATUS.STATE 1).put PWR_IDLE0.ACT 5)).after (.domainGate .act)), ⟨State.acts_after rfl (by decide +kernel), by decide +kernel⟩⟩,
    ⟨(st (up.put PWR_IDLE1.MSH 5)), (max ((st (up.put PWR_IDLE1.MSH 5)).after (.domainGate .msh)).tick (((st (up.put PWR_IDLE1.MSH 5)).after (.domainGate .msh)).idleFrom .msh + ((st (up.put PWR_IDLE1.MSH 5)).after (.domainGate .msh)).idleTime .msh)), ((st (up.put PWR_IDLE1.MSH 5)).after (.domainGate .msh)), ⟨State.acts_after rfl (by decide +kernel), by decide +kernel⟩⟩,
    ⟨(st (up.put PWR_IDLE1.SPE 5)), 0, (max ((st (up.put PWR_IDLE1.SPE 5)).after (.domainGate (.spe 0))).tick (((st (up.put PWR_IDLE1.SPE 5)).after (.domainGate (.spe 0))).idleFrom (.spe 0) + ((st (up.put PWR_IDLE1.SPE 5)).after (.domainGate (.spe 0))).idleTime (.spe 0))), ((st (up.put PWR_IDLE1.SPE 5)).after (.domainGate (.spe 0))), ⟨State.acts_after rfl (by decide +kernel), by decide +kernel⟩⟩,
    ⟨(st (up.put PWR_IDLE1.CLR 5)), 0, (max ((st (up.put PWR_IDLE1.CLR 5)).after (.domainGate (.clr 0))).tick (((st (up.put PWR_IDLE1.CLR 5)).after (.domainGate (.clr 0))).idleFrom (.clr 0) + ((st (up.put PWR_IDLE1.CLR 5)).after (.domainGate (.clr 0))).idleTime (.clr 0))), ((st (up.put PWR_IDLE1.CLR 5)).after (.domainGate (.clr 0))), ⟨State.acts_after rfl (by decide +kernel), by decide +kernel⟩⟩,
    ⟨(st up), 0, ((st up).after (.domainWake (.uhf 0))), ⟨State.acts_after rfl (by decide +kernel), by decide +kernel⟩⟩,
    ⟨(st ((up.put PWR_IDLE0.SYN 3) |>.put PWR_DOM1.SYN 0xF |>.put SYN_F_STATUS.LOCK 1 0 |>.put UHF_CTRL.SYN_SEL 1 0)), 3, ((st ((up.put PWR_IDLE0.SYN 3) |>.put PWR_DOM1.SYN 0xF |>.put SYN_F_STATUS.LOCK 1 0 |>.put UHF_CTRL.SYN_SEL 1 0)).after (.domainWake (.syn 3))), ⟨State.acts_after rfl (by decide +kernel), by decide +kernel⟩⟩,
    ⟨(st up), ((st up).after (.domainWake .hfr)), ⟨State.acts_after rfl (by decide +kernel), by decide +kernel⟩⟩,
    ⟨(st up), ((st up).after (.domainWake .act)), ⟨State.acts_after rfl (by decide +kernel), by decide +kernel⟩⟩,
    ⟨(st ((up.put PWR_IDLE1.MSH 3)|>.put PWR_DOM1.UNITS 0x1F)), ((st ((up.put PWR_IDLE1.MSH 3)|>.put PWR_DOM1.UNITS 0x1F)).after (.domainWake .msh)), ⟨State.acts_after rfl (by decide +kernel), by decide +kernel⟩⟩,
    ⟨(st ((up.put PWR_IDLE1.SPE 3)|>.put PWR_DOM1.UNITS 0x1F)), 1, ((st ((up.put PWR_IDLE1.SPE 3)|>.put PWR_DOM1.UNITS 0x1F)).after (.domainWake (.spe 1))), ⟨State.acts_after rfl (by decide +kernel), by decide +kernel⟩⟩,
    ⟨(st ((up.put PWR_IDLE1.CLR 3)|>.put PWR_DOM0.CLR 0xFFFF)), 5, ((st ((up.put PWR_IDLE1.CLR 3)|>.put PWR_DOM0.CLR 0xFFFF)).after (.domainWake (.clr 5))), ⟨State.acts_after rfl (by decide +kernel), by decide +kernel⟩⟩,
    ⟨(st { up with gated := some (0, 0, 1) }), 0, 1, ((st { up with gated := some (0, 0, 1) }).after (.domainWake (.uhf 0))), ⟨State.acts_after rfl (by decide +kernel), by decide +kernel⟩⟩,
    ⟨(st { up with gated := some (11, 0, 1) }), 0, 1, ((st { up with gated := some (11, 0, 1) }).after (.domainWake (.syn 0))), ⟨State.acts_after rfl (by decide +kernel), by decide +kernel⟩⟩,
    ⟨(st { up with gated := some (9, 0, 1) }), 1, ((st { up with gated := some (9, 0, 1) }).after (.domainWake .hfr)), ⟨State.acts_after rfl (by decide +kernel), by decide +kernel⟩⟩,
    ⟨(st { up with gated := some (10, 0, 1) }), 1, ((st { up with gated := some (10, 0, 1) }).after (.domainWake .act)), ⟨State.acts_after rfl (by decide +kernel), by decide +kernel⟩⟩,
    ⟨(st { up with gated := some (18, 0, 1) }), 0, 1, ((st { up with gated := some (18, 0, 1) }).after (.domainWake (.clr 0))), ⟨State.acts_after rfl (by decide +kernel), by decide +kernel⟩⟩⟩

theorem witness_ResetsComplete :
    (∃ (s : State) (straps : Straps) (rail : BitVec 4) (sensor : Fin 12) (temp : BitVec 12) (c : Instr) (k : Nat) (x : Nat) (d : Dev), s.acts c d ∧ ((c, k) = (.pinReset straps, 1) ∨ (c, k) = (.thermalReset sensor temp, 3) ∧ 1450 ≤ temp.toInt ∨ (c, k) = (.sysResetReq 0xA5C3 true, 4) ∨ (c, k) = (.rangerResetReq, 5) ∨ ((c, k) = (.brownOut rail, 2) ∧ (rail = 3 ∨ (rail = 0 ∨ rail = 5) ∧ d.pwr.off = false))) ∧ x = (if d.rst.asserted then Nat.lor d.rst.causes (2 ^ k) else 2 ^ k)) ∧
    (∃ temp : BitVec 12, temp.toInt < 1450) ∧
    (∃ (s : State) (d : Dev), s.acts (.sysResetReq 0xA5C3 false) d) ∧
    (∃ (s : State) (key : BitVec 16) (device : Bool) (d : Dev), s.acts (.sysResetReq key device) d ∧ key ≠ 0xA5C3) ∧
    (∃ s : State, (s.dev.rst.hot = true ∨ s.dev.rst.asserted = false)) ∧
    (∃ (s : State) (x : Nat), s.dev.rst.asserted = true ∧ s.dev.rst.hot = false ∧ x = (if bitOf s.dev.rst.causes 0 then 1 else s.dev.rst.causes % 512)) ∧
    (∃ (s : State) (t : Nat) (d : Dev), (s.dev.rgr.wdTick = none ∨ (s.dev.rgr.wdTick = some t ∧ t + msTicks 10000 < s.dev.tick)) ∧ d = s.dev.loadLost) ∧
    (∃ (s : State) (t : Nat), s.dev.rgr.wdTick = some t ∧ s.dev.tick ≤ t + msTicks 10000 ∧ s.dev.rst.asserted = false) ∧
    (∃ c : Instr, c = .hlkReset) ∧
    (∃ (s : State) (rail : BitVec 4), s.dev.pwr.off = true ∧ rail ∈ [0, 1, 2, 5, 6, 7]) ∧
    (∃ rail : BitVec 4, 9 ≤ rail.toNat) ∧
    (∃ (s : State) (rail : BitVec 4), (rail = 4 ∧ s.dev.get HFR_STATUS.STATE = 0 ∨ rail = 6 ∧ s.dev.speState 0 ≠ speUp ∧ s.dev.speState 1 ≠ speUp ∧ s.dev.pwr.off = false) ∧ (s.dev.chx 9).goal = none) ∧
    (∃ s : State, s.dev.pwr.off = false ∧ s.dev.noLaunchNow ∧ s.dev.noneHeld ∧ s.dev.spare.sw = none ∧ s.dev.get UHFS_SPARE.ELIGIBLE = 0 ∧ s.dev.attached = none ∧ (∀ n : Nat, n < 9 → s.dev.unattended n ∧ (s.dev.chx n).goal = none)) :=
  ⟨⟨(st up), ⟨true, false, true⟩, 4, 3, 20, .pinReset ⟨true, false, true⟩, 1, if (st up).dev.rst.asserted then Nat.lor (st up).dev.rst.causes (2 ^ 1) else 2 ^ 1, ((st up).after (.pinReset ⟨true, false, true⟩)), ⟨State.acts_after rfl (by decide +kernel), by decide +kernel⟩⟩,
    ⟨1449, by decide +kernel⟩,
    ⟨(st up), ((st up).after (.sysResetReq 0xA5C3 false)), State.acts_after rfl (by decide +kernel)⟩,
    ⟨(st up), 5, false, ((st up).after (.sysResetReq 5 false)), ⟨State.acts_after rfl (by decide +kernel), by decide +kernel⟩⟩,
    ⟨(st up), by decide +kernel⟩,
    ⟨(st {}), 1, by decide +kernel⟩,
    ⟨(st up), 0, ((st up).dev.loadLost), by decide +kernel⟩,
    ⟨(st { up with clk := 2 * 1536000000, rgr := { wdTick := some 0 } }), 0, by decide +kernel⟩,
    ⟨.hlkReset, by decide +kernel⟩,
    ⟨(st (slept 1 up)), 0, by decide +kernel⟩,
    ⟨9, by decide +kernel⟩,
    ⟨(st up), 4, by decide +kernel⟩,
    ⟨(st ((up.put UHFS_SPARE.ELIGIBLE 0).rx 0 |>.put UHF_STATUS.STATE csReady 1)), by unfold Dev.noLaunchNow Dev.unattended Dev.noneHeld; decide +kernel⟩⟩

theorem witness_StartupStepsComplete :
    (∃ (s : State) (k : Fin 14), (s.dev.rst.asserted = true ∨ s.dev.stepDone k = true ∨ s.dev.stepFailed 2 = true ∨ s.dev.stepMay k = false)) ∧
    (∃ (s : State) (k : Fin 14) (o : StepObs) (code : Nat), s.dev.mayEnd k ∧ (k = 12 ∨ k = 13) ∧ code = (if (if k = 12 then s.dev.meshJoined else s.dev.speAllUp) then 0 else failStatus o)) ∧
    (∃ (s : State) (k : Fin 14), s.dev.mayEnd k ∧ (k = 8 ∨ k = 10 ∨ k = 11)) ∧
    (∃ s : State, s.dev.mayEnd 1) ∧
    (∃ (s : State) (o : StepObs), s.dev.mayEnd 2 ∧ o.status ≠ 0) ∧
    (∃ (s : State) (o : StepObs), s.dev.mayEnd 2 ∧ o.status = 0 ∧ s.dev.rst.wasWake = false) ∧
    (∃ (s : State) (o : StepObs), s.dev.mayEnd 2 ∧ o.status = 0 ∧ s.dev.rst.wasWake = true) ∧
    (∃ (s : State) (lcs : Nat) (n : Nv) (slot : Option Nat) (trial : Bool), s.dev.mayEnd 3 ∧ lcs = min 3 s.nv.fuses ∧ lcs < 3 ∧ s.nv.romBoot lcs = (n, slot, false, trial) ∧ s.dev.isSet SYS_STRAP.RCVRY = false ∧ (lcs = 0 → slot = none ∨ n.key 32 ≠ none) ∧ s.dev.qTakes 1 epRanger 2 = false ∧ (∀ r : Nat, r < 5 → n.torn r 0 = false ∧ n.torn r 1 = false)) ∧
    (∃ (s : State) (g : Nat) (n : Nv) (trial : Bool), s.dev.mayEnd 3 ∧ s.nv.fuses = 0 ∧ s.nv.romBoot 0 = (n, some g, false, trial) ∧ s.dev.isSet SYS_STRAP.RCVRY = false ∧ n.key 32 = none) ∧
    (∃ (s : State) (o : StepObs) (m : Nat), s.dev.mayEnd 4 ∧ m = 1023 - o.present.toNat ∧ (m = 0 ∨ m = 512) ∧ s.dev.isSet AON_ATST.RESTORED = false ∧ s.dev.present 4 = true) ∧
    (∃ (s : State) (o : StepObs) (m : Nat), s.dev.mayEnd 5 ∧ s.dev.rst.wasWake = false ∧ m = s.dev.get LDG_BANK.STALE ||| o.failedBanks.toNat) ∧
    (∃ (s : State) (code : Nat) (g : Nat) (m : Nat), s.dev.mayEnd 5 ∧ s.dev.rst.wasWake = true ∧ s.dev.pwr.sigs = [(g, code)] ∧ g < 16 ∧ m = (if s.dev.pwr.missed.contains g || s.dev.bankSig g != code then 2 ^ g else 0)) ∧
    (∃ (s : State) (code : Nat), s.dev.mayEnd 6 ∧ s.dev.rgr.recovery = true ∧ code = (if s.dev.isSet HLK_STATUS.LINK = true ∨ s.dev.isSet SYS_STRAP.HSEL = true then 0 else 0x0805)) ∧
    (∃ (s : State) (code : Nat), s.dev.mayEnd 6 ∧ s.dev.rgr.recovery = false ∧ s.dev.present 2 = true ∧ s.dev.present 5 = true ∧ s.dev.cal = [] ∧ s.nv.startProfile = none ∧ s.nv.currentBase 1 = none ∧ code = (if s.dev.isSet HLK_STATUS.LINK = true ∨ s.dev.isSet SYS_STRAP.HSEL = true then 0 else 0x0805)) ∧
    (∃ s : State, s.dev.mayEnd 7) ∧
    (∃ s : State, s.dev.mayEnd 9 ∧ s.nv.currentBase 0 = none ∧ s.nv.current 0 = none ∧ s.nv.currentBase 2 = none ∧ s.dev.rst.wakeMask = none) ∧
    (∃ (s : State) (m : Nat), s.dev.mayEnd 9 ∧ s.nv.current 0 = none ∧ s.nv.currentBase 2 = none ∧ s.dev.rst.wakeMask = some m) :=
  ⟨⟨(st {}), 1, by decide +kernel⟩,
    ⟨(st ((up.put SYS_STEP.DONE 0x1FF).put MSH_STATUS.STATE 2)), 12, ⟨0, 0, 0, 0⟩, 0, by unfold Dev.mayEnd; decide +kernel⟩,
    ⟨(st (((up.put SYS_STEP.DONE 0x7F).put UHFS_SPARE.ELIGIBLE 0))), 8, by unfold Dev.mayEnd; decide +kernel⟩,
    ⟨(st up), by unfold Dev.mayEnd; decide +kernel⟩,
    ⟨(st (up.put SYS_STEP.DONE 1)), ⟨1, 0, 0, 0⟩, by unfold Dev.mayEnd; decide +kernel⟩,
    ⟨(st (((up.put SYS_STEP.DONE 1).put UHFS_SPARE.ELIGIBLE 0))), ⟨0, 0, 0, 0⟩, by unfold Dev.mayEnd; decide +kernel⟩,
    ⟨(st { (up.put SYS_STEP.DONE 1) with rst := { asserted := false, wasWake := true } }), ⟨0, 0, 0, 0⟩, by unfold Dev.mayEnd; decide +kernel⟩,
    ⟨(st (((up.put SYS_STEP.DONE 3).put UHFS_SPARE.ELIGIBLE 0)|>.put QMX_Q_BASE.EN 0 1)), 0, ((st (((up.put SYS_STEP.DONE 3).put UHFS_SPARE.ELIGIBLE 0)|>.put QMX_Q_BASE.EN 0 1)).nv.romBoot 0).1, ((st (((up.put SYS_STEP.DONE 3).put UHFS_SPARE.ELIGIBLE 0)|>.put QMX_Q_BASE.EN 0 1)).nv.romBoot 0).2.1, ((st (((up.put SYS_STEP.DONE 3).put UHFS_SPARE.ELIGIBLE 0)|>.put QMX_Q_BASE.EN 0 1)).nv.romBoot 0).2.2.2, by unfold Dev.mayEnd; decide +kernel⟩,
    ⟨{ st (up.put SYS_STEP.DONE 3) with nv := plainFw }, 0, plainFw, false, by unfold Dev.mayEnd; decide +kernel⟩,
    ⟨(st (((up.put SYS_STEP.DONE 7).put UHFS_SPARE.ELIGIBLE 0))), ⟨0, 0x3FF, 0, 0xF⟩, 0, by unfold Dev.mayEnd; decide +kernel⟩,
    ⟨(st (((up.put SYS_STEP.DONE 15).put UHFS_SPARE.ELIGIBLE 0)|>.setWord 0x04000020 0x80000000 |>.setWord 0x100000 5)), ⟨0, 0x3FF, 0, 0xF⟩, 0, by unfold Dev.mayEnd; decide +kernel⟩,
    ⟨(st { (up.put SYS_STEP.DONE 15) with rst := { asserted := false, wasWake := true }, pwr := { sigs := [(3, 9)], missed := [3] } }), 9, 3, 8, by unfold Dev.mayEnd; decide +kernel⟩,
    ⟨(st { (up.put SYS_STEP.DONE 15) with rgr := { recovery := true } }), ((if (st { (up.put SYS_STEP.DONE 15) with rgr := { recovery := true } }).dev.isSet HLK_STATUS.LINK = true ∨ (st { (up.put SYS_STEP.DONE 15) with rgr := { recovery := true } }).dev.isSet SYS_STRAP.HSEL = true then 0 else 0x0805)), by unfold Dev.mayEnd; decide +kernel⟩,
    ⟨(st (((up.put SYS_STEP.DONE 15).put UHFS_SPARE.ELIGIBLE 0))), ((if (st (((up.put SYS_STEP.DONE 15).put UHFS_SPARE.ELIGIBLE 0))).dev.isSet HLK_STATUS.LINK = true ∨ (st (((up.put SYS_STEP.DONE 15).put UHFS_SPARE.ELIGIBLE 0))).dev.isSet SYS_STRAP.HSEL = true then 0 else 0x0805)), by unfold Dev.mayEnd; decide +kernel⟩,
    ⟨(st (((up.put SYS_STEP.DONE 47).put UHFS_SPARE.ELIGIBLE 0))), by unfold Dev.mayEnd; decide +kernel⟩,
    ⟨(st (((up.put SYS_STEP.DONE 255).put UHFS_SPARE.ELIGIBLE 0))), by unfold Dev.mayEnd; decide +kernel⟩,
    ⟨(st { (up.put SYS_STEP.DONE 0xFF) with rst := { asserted := false, wakeMask := some 7 } }), 7, by unfold Dev.mayEnd; decide +kernel⟩⟩

theorem witness_MeshReceptionCompletes :
    (∃ (s : State) (f : MshFrame) (d : Dev), s.acts (.mshFrameRx f) d ∧ d.mshAcquires f = false) ∧
    (∃ (s : State) (f : MshFrame) (fin : Nat) (d : Dev), s.acts (.mshFrameRx f) d ∧ d.mshAcquires f = true ∧ fin = f.startTick + frameTicks f.sf.toNat f.len ∧ (f.fcsOk = false ∨ f.parsable = false ∨ longest f.sf.toNat < f.len)) ∧
    (∃ (s : State) (f : MshFrame) (fin : Nat) (d : Dev), s.acts (.mshFrameRx f) d ∧ d.hears f fin ∧ f.pan.toNat ≠ d.get MSH_NET.PAN_ID ∧ (∀ j : Nat, j < 32 → d.isSet MSH_SDATA_W2.VALID 0 j = false)) ∧
    (∃ (s : State) (f : MshFrame) (i : Nat) (fin : Nat) (d : Dev), s.acts (.mshFrameRx f) d ∧ d.hears f fin ∧ f.pan.toNat ≠ d.get MSH_NET.PAN_ID ∧ i < 32 ∧ d.isSet MSH_SDATA_W2.VALID 0 i = true ∧ d.get MSH_SDATA_W3.PAN_ID 0 i = f.pan.toNat ∧ f.srcExt = 0 ∧ d.get MSH_SDATA_W0.ADDR_LO 0 i = f.srcShort.toNat ∧ d.get MSH_SDATA_W1.ADDR_HI 0 i = 0 ∧ (∀ j : Nat, j < i → d.isSet MSH_SDATA_W2.VALID 0 j = false)) ∧
    (∃ (s : State) (f : MshFrame) (fin : Nat) (d : Dev), s.acts (.mshFrameRx f) d ∧ d.hears f fin ∧ f.pan.toNat = d.get MSH_NET.PAN_ID ∧ d.mshSecure f = false ∧ f.toUs = true ∧ f.ackReq = false) ∧
    (∃ (s : State) (f : MshFrame) (i : Nat) (fin : Nat) (d : Dev), s.acts (.mshFrameRx f) d ∧ d.hears f fin ∧ f.pan.toNat = d.get MSH_NET.PAN_ID ∧ d.mshSecure f = true ∧ d.nbrOf f.srcExt.toNat = some i ∧ d.replayOf i f = 2) ∧
    (∃ (s : State) (f : MshFrame) (i : Nat) (fin : Nat) (d : Dev), s.acts (.mshFrameRx f) d ∧ d.hears f fin ∧ f.pan.toNat = d.get MSH_NET.PAN_ID ∧ d.mshSecure f = true ∧ d.nbrOf f.srcExt.toNat = some i ∧ d.replayOf i f = 1 ∧ f.ackReq = false ∧ d.parent ≠ some i) ∧
    (∃ (s : State) (f : MshFrame) (i : Nat) (fin : Nat) (bytes : List Byte) (d : Dev), s.acts (.mshFrameRx f) d ∧ d.hears f fin ∧ f.pan.toNat = d.get MSH_NET.PAN_ID ∧ d.mshSecure f = true ∧ d.nbrOf f.srcExt.toNat = some i ∧ d.replayOf i f = 0 ∧ d.mshState = mshSync ∧ d.parent ≠ some i ∧ f.rank = none ∧ f.keyroll = none ∧ f.sched = none ∧ f.kind = .data ∧ f.toUs = true ∧ f.ackReq = false ∧ f.host = some bytes ∧ 2 ≤ d.get MSH_Q.RXQ ∧ d.qTakes (d.get MSH_Q.RXQ) epMsh (4 + (bytes.length + 3) / 4) = true ∧ (d.qx (d.get MSH_Q.RXQ)).stall = none ∧ (d.qx (d.get MSH_Q.RXQ)).freeAt = 0) ∧
    (∃ (s : State) (f : MshFrame) (i : Nat) (fin : Nat) (r : MTx) (d : Dev), s.acts (.mshFrameRx f) d ∧ d.hears f fin ∧ f.pan.toNat = d.get MSH_NET.PAN_ID ∧ d.mshSecure f = true ∧ d.nbrOf f.srcExt.toNat = some i ∧ d.replayOf i f = 0 ∧ d.mshState = mshSync ∧ d.parent ≠ some i ∧ f.rank = none ∧ f.keyroll = none ∧ f.sched = none ∧ f.kind = .ack ∧ d.msh.cur = some r ∧ d.get MSH_Q.RXQ < 2) ∧
    (∃ (s : State) (f : MshFrame) (i : Nat) (fin : Nat) (d : Dev), s.acts (.mshFrameRx f) d ∧ d.hears f fin ∧ f.pan.toNat = d.get MSH_NET.PAN_ID ∧ d.mshSecure f = true ∧ d.nbrOf f.srcExt.toNat = some i ∧ d.replayOf i f = 0 ∧ d.mshState = mshSync ∧ d.mshRoot = false ∧ d.parent = some i ∧ f.rank = none ∧ f.keyroll = none ∧ f.sched = none ∧ f.kind = .data ∧ f.host = none ∧ f.ackReq = false ∧ f.startTick = d.msh.bound + txOffset + 5 ∧ d.msh.corrAt = none) ∧
    (∃ (s : State) (f : MshFrame) (i : Nat) (fin : Nat) (d : Dev), s.acts (.mshFrameRx f) d ∧ d.hears f fin ∧ f.pan.toNat = d.get MSH_NET.PAN_ID ∧ d.mshSecure f = true ∧ d.nbrOf f.srcExt.toNat = some i ∧ d.replayOf i f = 0 ∧ d.mshState = mshScan ∧ f.rank = none ∧ f.keyroll = none ∧ f.sched = none ∧ f.kind = .beacon ∧ f.tables = none ∧ f.ackReq = false ∧ f.host = none) ∧
    (∃ (s : State) (f : MshFrame) (i : Nat) (fin : Nat) (d : Dev), s.acts (.mshFrameRx f) d ∧ d.hears f fin ∧ f.pan.toNat = d.get MSH_NET.PAN_ID ∧ d.mshSecure f = true ∧ d.nbrOf f.srcExt.toNat = none ∧ (d.toTick fin).nbrSlot = some i ∧ d.mshState = mshSync ∧ d.parent ≠ some i ∧ f.rank = none ∧ f.keyroll = none ∧ f.sched = none ∧ f.kind = .data ∧ f.host = none ∧ f.ackReq = false) ∧
    (∃ (s : State) (f : MshFrame) (fin : Nat) (d : Dev), s.acts (.mshFrameRx f) d ∧ d.hears f fin ∧ f.pan.toNat = d.get MSH_NET.PAN_ID ∧ d.mshSecure f = true ∧ d.nbrOf f.srcExt.toNat = none ∧ (d.toTick fin).nbrSlot = none) ∧
    (∃ (s : State) (o : AbandonObs) (c : Nat) (d : Dev), s.acts (.mshFrameAbandon o) d ∧ c = max 3 (min 12 (d.get MSH_PHY.CAPM)) ∧ (d.mshState = mshOff ∨ (d.get MSH_PHY.FLOOR ≤ o.corr ∧ ∀ x : Int, o.margin = some x → x < 10 * c))) ∧
    (∃ (s : State) (o : AbandonObs) (g : Fld) (c : Nat) (d : Dev), s.acts (.mshFrameAbandon o) d ∧ c = max 3 (min 12 (d.get MSH_PHY.CAPM)) ∧ d.mshState ≠ mshOff ∧ (o.corr < d.get MSH_PHY.FLOOR ∨ (∃ x : Int, o.margin = some x ∧ 10 * c ≤ x)) ∧ g = (if o.phrValid then MSH_CNT.CNT_LO else MSH_CNT.CNT_HI)) :=
  ⟨⟨(st up), aFrame, ((st up).after (.mshFrameRx aFrame)), ⟨State.acts_after rfl (by decide +kernel), by decide +kernel⟩⟩,
    ⟨(st { (((up).put MSH_STATUS.STATE mshScan).put MSH_NET.PAN_ID 7 |>.put MSH_KEYST.LOADED 0xF) with msh := { scanCh := 11 } }), ({ aFrame with fcsOk := false } : MshFrame), ({ aFrame with fcsOk := false } : MshFrame).startTick + frameTicks ({ aFrame with fcsOk := false } : MshFrame).sf.toNat ({ aFrame with fcsOk := false } : MshFrame).len, ((st { (((up).put MSH_STATUS.STATE mshScan).put MSH_NET.PAN_ID 7 |>.put MSH_KEYST.LOADED 0xF) with msh := { scanCh := 11 } }).after (.mshFrameRx ({ aFrame with fcsOk := false } : MshFrame))), ⟨State.acts_after rfl (by decide +kernel), by decide +kernel⟩⟩,
    ⟨(st { (((up).put MSH_STATUS.STATE mshScan).put MSH_NET.PAN_ID 7 |>.put MSH_KEYST.LOADED 0xF) with msh := { scanCh := 11 } }), ({ aFrame with pan := 8 } : MshFrame), ({ aFrame with pan := 8 } : MshFrame).startTick + frameTicks ({ aFrame with pan := 8 } : MshFrame).sf.toNat ({ aFrame with pan := 8 } : MshFrame).len, ((st { (((up).put MSH_STATUS.STATE mshScan).put MSH_NET.PAN_ID 7 |>.put MSH_KEYST.LOADED 0xF) with msh := { scanCh := 11 } }).after (.mshFrameRx ({ aFrame with pan := 8 } : MshFrame))), ⟨State.acts_after rfl (by decide +kernel), by unfold Dev.hears; decide +kernel⟩⟩,
    ⟨(st { (((up).put MSH_STATUS.STATE mshScan).put MSH_NET.PAN_ID 7 |>.put MSH_KEYST.LOADED 0xF |>.put MSH_SDATA_W2.VALID 1 0 2 |>.put MSH_SDATA_W3.PAN_ID 8 0 2 |>.put MSH_SDATA_W0.ADDR_LO 0x55 0 2) with msh := { scanCh := 11 } }), ({ aFrame with pan := 8, srcExt := 0 } : MshFrame), 2, ({ aFrame with pan := 8, srcExt := 0 } : MshFrame).startTick + frameTicks ({ aFrame with pan := 8, srcExt := 0 } : MshFrame).sf.toNat ({ aFrame with pan := 8, srcExt := 0 } : MshFrame).len, ((st { (((up).put MSH_STATUS.STATE mshScan).put MSH_NET.PAN_ID 7 |>.put MSH_KEYST.LOADED 0xF |>.put MSH_SDATA_W2.VALID 1 0 2 |>.put MSH_SDATA_W3.PAN_ID 8 0 2 |>.put MSH_SDATA_W0.ADDR_LO 0x55 0 2) with msh := { scanCh := 11 } }).after (.mshFrameRx ({ aFrame with pan := 8, srcExt := 0 } : MshFrame))), ⟨State.acts_after rfl (by decide +kernel), by unfold Dev.hears; decide +kernel⟩⟩,
    ⟨(st { (((up).put MSH_STATUS.STATE mshScan).put MSH_NET.PAN_ID 7 |>.put MSH_KEYST.LOADED 0xF) with msh := { scanCh := 11 } }), ({ aFrame with mic := false } : MshFrame), ({ aFrame with mic := false } : MshFrame).startTick + frameTicks ({ aFrame with mic := false } : MshFrame).sf.toNat ({ aFrame with mic := false } : MshFrame).len, ((st { (((up).put MSH_STATUS.STATE mshScan).put MSH_NET.PAN_ID 7 |>.put MSH_KEYST.LOADED 0xF) with msh := { scanCh := 11 } }).after (.mshFrameRx ({ aFrame with mic := false } : MshFrame))), ⟨State.acts_after rfl (by decide +kernel), by unfold Dev.hears; decide +kernel⟩⟩,
    ⟨(st { (((up).put MSH_STATUS.STATE mshScan).put MSH_NET.PAN_ID 7 |>.put MSH_KEYST.LOADED 0xF |>.put MSH_NDATA_W2.VALID 1 0 3 |>.put MSH_NDATA_W0.EXT_LO 0x55667788 0 3 |>.put MSH_NDATA_W1.EXT_HI 0x11223344 0 3 |>.put MSH_NDATA_W4.FC 50 0 3) with msh := { scanCh := 11 } }), ({ aFrame with counter := 49 } : MshFrame), 3, ({ aFrame with counter := 49 } : MshFrame).startTick + frameTicks ({ aFrame with counter := 49 } : MshFrame).sf.toNat ({ aFrame with counter := 49 } : MshFrame).len, ((st { (((up).put MSH_STATUS.STATE mshScan).put MSH_NET.PAN_ID 7 |>.put MSH_KEYST.LOADED 0xF |>.put MSH_NDATA_W2.VALID 1 0 3 |>.put MSH_NDATA_W0.EXT_LO 0x55667788 0 3 |>.put MSH_NDATA_W1.EXT_HI 0x11223344 0 3 |>.put MSH_NDATA_W4.FC 50 0 3) with msh := { scanCh := 11 } }).after (.mshFrameRx ({ aFrame with counter := 49 } : MshFrame))), ⟨State.acts_after rfl (by decide +kernel), by unfold Dev.hears; decide +kernel⟩⟩,
    ⟨(st { (((up).put MSH_STATUS.STATE mshScan).put MSH_NET.PAN_ID 7 |>.put MSH_KEYST.LOADED 0xF |>.put MSH_NDATA_W2.VALID 1 0 3 |>.put MSH_NDATA_W0.EXT_LO 0x55667788 0 3 |>.put MSH_NDATA_W1.EXT_HI 0x11223344 0 3 |>.put MSH_NDATA_W4.FC 50 0 3 |>.put MSH_NDATA_W3.DSN 9 0 3) with msh := { scanCh := 11 } }), ({ aFrame with counter := 50 } : MshFrame), 3, ({ aFrame with counter := 50 } : MshFrame).startTick + frameTicks ({ aFrame with counter := 50 } : MshFrame).sf.toNat ({ aFrame with counter := 50 } : MshFrame).len, ((st { (((up).put MSH_STATUS.STATE mshScan).put MSH_NET.PAN_ID 7 |>.put MSH_KEYST.LOADED 0xF |>.put MSH_NDATA_W2.VALID 1 0 3 |>.put MSH_NDATA_W0.EXT_LO 0x55667788 0 3 |>.put MSH_NDATA_W1.EXT_HI 0x11223344 0 3 |>.put MSH_NDATA_W4.FC 50 0 3 |>.put MSH_NDATA_W3.DSN 9 0 3) with msh := { scanCh := 11 } }).after (.mshFrameRx ({ aFrame with counter := 50 } : MshFrame))), ⟨State.acts_after rfl (by decide +kernel), by unfold Dev.hears; decide +kernel⟩⟩,
    ⟨(st { (((up).put MSH_STATUS.STATE mshSync).put MSH_NET.PAN_ID 7 |>.put MSH_KEYST.LOADED 0xF |>.put MSH_NDATA_W2.VALID 1 0 3 |>.put MSH_NDATA_W0.EXT_LO 0x55667788 0 3 |>.put MSH_NDATA_W1.EXT_HI 0x11223344 0 3 |>.put MSH_NDATA_W4.FC 50 0 3 |>.put MSH_LDATA.VALID 1 0 2 |>.put MSH_LDATA.RX 1 0 2 |>.put MSH_SF.EN 1 0 0 |>.put MSH_SF.LEN 1 0 0 |>.put MSH_SYNC.GUARD_BASE 1000 |>.put MSH_HOP.CH0 11 0 0 |>.put MSH_SCAN.HOPLEN 0|>.put QMX_Q_BASE.EN 1 5 |>.put QMX_Q_BASE.LOG2SZ 5 5 |>.put QMX_Q_EP.PROD 0x13 5 |>.put MSH_Q.RXQ 5) with msh := { scanCh := 11 } }), ({ kind := .data, sf := 1, fcsOk := true, len := 30, parsable := true, pan := 7, srcExt := 0x1122334455667788, srcShort := 0x55, toUs := true, broadcast := false, ackReq := false, nack := false, dsn := 9, counter := 100, level := 6, keyMode := 1, keyIdx := 1, mic := true, rssi := 0xF00, ch := 0, startTick := 332000, correction := none, asn := 77, rank := none, sched := none, keyroll := none, tables := none, host := some [1, 2, 3, 4, 5] } : MshFrame), 3, ({ kind := .data, sf := 1, fcsOk := true, len := 30, parsable := true, pan := 7, srcExt := 0x1122334455667788, srcShort := 0x55, toUs := true, broadcast := false, ackReq := false, nack := false, dsn := 9, counter := 100, level := 6, keyMode := 1, keyIdx := 1, mic := true, rssi := 0xF00, ch := 0, startTick := 332000, correction := none, asn := 77, rank := none, sched := none, keyroll := none, tables := none, host := some [1, 2, 3, 4, 5] } : MshFrame).startTick + frameTicks ({ kind := .data, sf := 1, fcsOk := true, len := 30, parsable := true, pan := 7, srcExt := 0x1122334455667788, srcShort := 0x55, toUs := true, broadcast := false, ackReq := false, nack := false, dsn := 9, counter := 100, level := 6, keyMode := 1, keyIdx := 1, mic := true, rssi := 0xF00, ch := 0, startTick := 332000, correction := none, asn := 77, rank := none, sched := none, keyroll := none, tables := none, host := some [1, 2, 3, 4, 5] } : MshFrame).sf.toNat ({ kind := .data, sf := 1, fcsOk := true, len := 30, parsable := true, pan := 7, srcExt := 0x1122334455667788, srcShort := 0x55, toUs := true, broadcast := false, ackReq := false, nack := false, dsn := 9, counter := 100, level := 6, keyMode := 1, keyIdx := 1, mic := true, rssi := 0xF00, ch := 0, startTick := 332000, correction := none, asn := 77, rank := none, sched := none, keyroll := none, tables := none, host := some [1, 2, 3, 4, 5] } : MshFrame).len, [1, 2, 3, 4, 5], ((st { (((up).put MSH_STATUS.STATE mshSync).put MSH_NET.PAN_ID 7 |>.put MSH_KEYST.LOADED 0xF |>.put MSH_NDATA_W2.VALID 1 0 3 |>.put MSH_NDATA_W0.EXT_LO 0x55667788 0 3 |>.put MSH_NDATA_W1.EXT_HI 0x11223344 0 3 |>.put MSH_NDATA_W4.FC 50 0 3 |>.put MSH_LDATA.VALID 1 0 2 |>.put MSH_LDATA.RX 1 0 2 |>.put MSH_SF.EN 1 0 0 |>.put MSH_SF.LEN 1 0 0 |>.put MSH_SYNC.GUARD_BASE 1000 |>.put MSH_HOP.CH0 11 0 0 |>.put MSH_SCAN.HOPLEN 0|>.put QMX_Q_BASE.EN 1 5 |>.put QMX_Q_BASE.LOG2SZ 5 5 |>.put QMX_Q_EP.PROD 0x13 5 |>.put MSH_Q.RXQ 5) with msh := { scanCh := 11 } }).after (.mshFrameRx ({ kind := .data, sf := 1, fcsOk := true, len := 30, parsable := true, pan := 7, srcExt := 0x1122334455667788, srcShort := 0x55, toUs := true, broadcast := false, ackReq := false, nack := false, dsn := 9, counter := 100, level := 6, keyMode := 1, keyIdx := 1, mic := true, rssi := 0xF00, ch := 0, startTick := 332000, correction := none, asn := 77, rank := none, sched := none, keyroll := none, tables := none, host := some [1, 2, 3, 4, 5] } : MshFrame))), ⟨State.acts_after rfl (by decide +kernel), by unfold Dev.hears; decide +kernel⟩⟩,
    ⟨(st { (((up).put MSH_STATUS.STATE mshSync).put MSH_NET.PAN_ID 7 |>.put MSH_KEYST.LOADED 0xF |>.put MSH_NDATA_W2.VALID 1 0 3 |>.put MSH_NDATA_W0.EXT_LO 0x55667788 0 3 |>.put MSH_NDATA_W1.EXT_HI 0x11223344 0 3 |>.put MSH_NDATA_W4.FC 50 0 3 |>.put MSH_LDATA.VALID 1 0 2 |>.put MSH_LDATA.RX 1 0 2 |>.put MSH_SF.EN 1 0 0 |>.put MSH_SF.LEN 1 0 0 |>.put MSH_SYNC.GUARD_BASE 1000 |>.put MSH_HOP.CH0 11 0 0 |>.put MSH_SCAN.HOPLEN 0 |>.put MSH_Q.RXQ 0) with msh := { cur := some { dst := 0x55, tag := 3, ack := true, sf := 1, bytes := [1, 2, 3] }, txEnd := some 0 } }), ({ aFrame with kind := .ack, startTick := 150000 } : MshFrame), 3, ({ aFrame with kind := .ack, startTick := 150000 } : MshFrame).startTick + frameTicks ({ aFrame with kind := .ack, startTick := 150000 } : MshFrame).sf.toNat ({ aFrame with kind := .ack, startTick := 150000 } : MshFrame).len, { dst := 0x55, tag := 3, ack := true, sf := 1, bytes := [1, 2, 3] }, ((st { (((up).put MSH_STATUS.STATE mshSync).put MSH_NET.PAN_ID 7 |>.put MSH_KEYST.LOADED 0xF |>.put MSH_NDATA_W2.VALID 1 0 3 |>.put MSH_NDATA_W0.EXT_LO 0x55667788 0 3 |>.put MSH_NDATA_W1.EXT_HI 0x11223344 0 3 |>.put MSH_NDATA_W4.FC 50 0 3 |>.put MSH_LDATA.VALID 1 0 2 |>.put MSH_LDATA.RX 1 0 2 |>.put MSH_SF.EN 1 0 0 |>.put MSH_SF.LEN 1 0 0 |>.put MSH_SYNC.GUARD_BASE 1000 |>.put MSH_HOP.CH0 11 0 0 |>.put MSH_SCAN.HOPLEN 0 |>.put MSH_Q.RXQ 0) with msh := { cur := some { dst := 0x55, tag := 3, ack := true, sf := 1, bytes := [1, 2, 3] }, txEnd := some 0 } }).after (.mshFrameRx ({ aFrame with kind := .ack, startTick := 150000 } : MshFrame))), ⟨State.acts_after rfl (by decide +kernel), by unfold Dev.hears; decide +kernel⟩⟩,
    ⟨(st { (((up).put MSH_STATUS.STATE mshSync).put MSH_NET.PAN_ID 7 |>.put MSH_KEYST.LOADED 0xF |>.put MSH_NDATA_W2.VALID 1 0 3 |>.put MSH_NDATA_W0.EXT_LO 0x55667788 0 3 |>.put MSH_NDATA_W1.EXT_HI 0x11223344 0 3 |>.put MSH_NDATA_W4.FC 50 0 3 |>.put MSH_LDATA.VALID 1 0 2 |>.put MSH_LDATA.RX 1 0 2 |>.put MSH_SF.EN 1 0 0 |>.put MSH_SF.LEN 1 0 0 |>.put MSH_SYNC.GUARD_BASE 1000 |>.put MSH_HOP.CH0 11 0 0 |>.put MSH_SCAN.HOPLEN 0 |>.put MSH_TSRC.CUR_V 1 |>.put MSH_TSRC.CUR 3) with msh := { widen := 1 } }), ({ aFrame with startTick := 325637 } : MshFrame), 3, ({ aFrame with startTick := 325637 } : MshFrame).startTick + frameTicks ({ aFrame with startTick := 325637 } : MshFrame).sf.toNat ({ aFrame with startTick := 325637 } : MshFrame).len, ((st { (((up).put MSH_STATUS.STATE mshSync).put MSH_NET.PAN_ID 7 |>.put MSH_KEYST.LOADED 0xF |>.put MSH_NDATA_W2.VALID 1 0 3 |>.put MSH_NDATA_W0.EXT_LO 0x55667788 0 3 |>.put MSH_NDATA_W1.EXT_HI 0x11223344 0 3 |>.put MSH_NDATA_W4.FC 50 0 3 |>.put MSH_LDATA.VALID 1 0 2 |>.put MSH_LDATA.RX 1 0 2 |>.put MSH_SF.EN 1 0 0 |>.put MSH_SF.LEN 1 0 0 |>.put MSH_SYNC.GUARD_BASE 1000 |>.put MSH_HOP.CH0 11 0 0 |>.put MSH_SCAN.HOPLEN 0 |>.put MSH_TSRC.CUR_V 1 |>.put MSH_TSRC.CUR 3) with msh := { widen := 1 } }).after (.mshFrameRx ({ aFrame with startTick := 325637 } : MshFrame))), ⟨State.acts_after rfl (by decide +kernel), by unfold Dev.hears; decide +kernel⟩⟩,
    ⟨(st { (((up).put MSH_STATUS.STATE mshScan).put MSH_NET.PAN_ID 7 |>.put MSH_KEYST.LOADED 0xF |>.put MSH_NDATA_W2.VALID 1 0 3 |>.put MSH_NDATA_W0.EXT_LO 0x55667788 0 3 |>.put MSH_NDATA_W1.EXT_HI 0x11223344 0 3 |>.put MSH_NDATA_W4.FC 50 0 3 |>.put MSH_NDATA_W2.RANK 4 0 3) with msh := { scanCh := 11 } }), ({ aFrame with kind := .beacon, level := 2, startTick := 400000 } : MshFrame), 3, ({ aFrame with kind := .beacon, level := 2, startTick := 400000 } : MshFrame).startTick + frameTicks ({ aFrame with kind := .beacon, level := 2, startTick := 400000 } : MshFrame).sf.toNat ({ aFrame with kind := .beacon, level := 2, startTick := 400000 } : MshFrame).len, ((st { (((up).put MSH_STATUS.STATE mshScan).put MSH_NET.PAN_ID 7 |>.put MSH_KEYST.LOADED 0xF |>.put MSH_NDATA_W2.VALID 1 0 3 |>.put MSH_NDATA_W0.EXT_LO 0x55667788 0 3 |>.put MSH_NDATA_W1.EXT_HI 0x11223344 0 3 |>.put MSH_NDATA_W4.FC 50 0 3 |>.put MSH_NDATA_W2.RANK 4 0 3) with msh := { scanCh := 11 } }).after (.mshFrameRx ({ aFrame with kind := .beacon, level := 2, startTick := 400000 } : MshFrame))), ⟨State.acts_after rfl (by decide +kernel), by unfold Dev.hears; decide +kernel⟩⟩,
    ⟨(st { (((up).put MSH_STATUS.STATE mshSync).put MSH_NET.PAN_ID 7 |>.put MSH_KEYST.LOADED 0xF |>.put MSH_LDATA.VALID 1 0 2 |>.put MSH_LDATA.RX 1 0 2 |>.put MSH_SF.EN 1 0 0 |>.put MSH_SF.LEN 1 0 0 |>.put MSH_SYNC.GUARD_BASE 1000 |>.put MSH_HOP.CH0 11 0 0 |>.put MSH_SCAN.HOPLEN 0 |>.put MSH_NDATA_W2.VALID 1 0 0 |>.put MSH_NDATA_W0.EXT_LO 1 0 0 |>.put MSH_NDATA_W1.EXT_HI 0x11223344 0 0 |>.put MSH_NDATA_W4.FC 50 0 0) with msh := { scanCh := 11 } }), ({ aFrame with startTick := 332000 } : MshFrame), 1, ({ aFrame with startTick := 332000 } : MshFrame).startTick + frameTicks ({ aFrame with startTick := 332000 } : MshFrame).sf.toNat ({ aFrame with startTick := 332000 } : MshFrame).len, ((st { (((up).put MSH_STATUS.STATE mshSync).put MSH_NET.PAN_ID 7 |>.put MSH_KEYST.LOADED 0xF |>.put MSH_LDATA.VALID 1 0 2 |>.put MSH_LDATA.RX 1 0 2 |>.put MSH_SF.EN 1 0 0 |>.put MSH_SF.LEN 1 0 0 |>.put MSH_SYNC.GUARD_BASE 1000 |>.put MSH_HOP.CH0 11 0 0 |>.put MSH_SCAN.HOPLEN 0 |>.put MSH_NDATA_W2.VALID 1 0 0 |>.put MSH_NDATA_W0.EXT_LO 1 0 0 |>.put MSH_NDATA_W1.EXT_HI 0x11223344 0 0 |>.put MSH_NDATA_W4.FC 50 0 0) with msh := { scanCh := 11 } }).after (.mshFrameRx ({ aFrame with startTick := 332000 } : MshFrame))), ⟨State.acts_after rfl (by decide +kernel), by unfold Dev.hears; decide +kernel⟩⟩,
    ⟨(st { (((fullTables).put MSH_STATUS.STATE mshSync).put MSH_NET.PAN_ID 7 |>.put MSH_KEYST.LOADED 0xF |>.put MSH_LDATA.VALID 1 0 2 |>.put MSH_LDATA.RX 1 0 2 |>.put MSH_SF.EN 1 0 0 |>.put MSH_SF.LEN 1 0 0 |>.put MSH_SYNC.GUARD_BASE 1000 |>.put MSH_HOP.CH0 11 0 0 |>.put MSH_SCAN.HOPLEN 0 |>.put MSH_LDATA.RX 1 0 0) with msh := { scanCh := 11 } }), ({ aFrame with startTick := 332000 } : MshFrame), ({ aFrame with startTick := 332000 } : MshFrame).startTick + frameTicks ({ aFrame with startTick := 332000 } : MshFrame).sf.toNat ({ aFrame with startTick := 332000 } : MshFrame).len, ((st { (((fullTables).put MSH_STATUS.STATE mshSync).put MSH_NET.PAN_ID 7 |>.put MSH_KEYST.LOADED 0xF |>.put MSH_LDATA.VALID 1 0 2 |>.put MSH_LDATA.RX 1 0 2 |>.put MSH_SF.EN 1 0 0 |>.put MSH_SF.LEN 1 0 0 |>.put MSH_SYNC.GUARD_BASE 1000 |>.put MSH_HOP.CH0 11 0 0 |>.put MSH_SCAN.HOPLEN 0 |>.put MSH_LDATA.RX 1 0 0) with msh := { scanCh := 11 } }).after (.mshFrameRx ({ aFrame with startTick := 332000 } : MshFrame))), ⟨State.acts_after rfl (by decide +kernel), by unfold Dev.hears; decide +kernel⟩⟩,
    ⟨(st up), ⟨true, none, 0⟩, max 3 (min 12 (((st up).after (.mshFrameAbandon ⟨true, none, 0⟩)).get MSH_PHY.CAPM)), ((st up).after (.mshFrameAbandon (⟨true, none, 0⟩))), ⟨State.acts_after rfl (by decide +kernel), by decide +kernel⟩⟩,
    ⟨(st ((up.put MSH_STATUS.STATE mshSync).put MSH_PHY.FLOOR 9)), ⟨true, none, 5⟩, MSH_CNT.CNT_LO, max 3 (min 12 (((st ((up.put MSH_STATUS.STATE mshSync).put MSH_PHY.FLOOR 9)).after (.mshFrameAbandon ⟨true, none, 5⟩)).get MSH_PHY.CAPM)), ((st ((up.put MSH_STATUS.STATE mshSync).put MSH_PHY.FLOOR 9)).after (.mshFrameAbandon (⟨true, none, 5⟩))), ⟨State.acts_after rfl (by decide +kernel), by decide +kernel⟩⟩⟩

theorem witness_MeshSlotsComplete :
    (∃ (s : State) (root : Bool) (align : Bool) (k : Nat) (cmd : Instr) (reg : Reg), (cmd, reg) ∈ [(Instr.mshRunWrite (k == 0) root align, Reg.MSH_CTRL), (.rescan, .MSH_CTRL), (.mshCntClr, .MSH_CTRL), (.mshWake, .MSH_WAKE)] ∧ s.dev.present 7 = false ∧ s.dev.pwr.asleep = none) ∧
    (∃ (s : State) (root : Bool) (align : Bool) (d : Dev), s.acts (.mshRunWrite false root align) d ∧ d.isSet MSH_CTRL.RUN = true ∧ d.msh.cur = none ∧ d.msh.txq = []) ∧
    (∃ (s : State) (root : Bool) (align : Bool) (d : Dev), s.acts (.mshRunWrite false root align) d ∧ d.isSet MSH_CTRL.RUN = false) ∧
    (∃ (s : State) (align : Bool) (d : Dev), s.acts (.mshRunWrite true false align) d ∧ d.isSet MSH_CTRL.RUN = false ∧ d.msh.cur = none ∧ d.msh.txq = []) ∧
    (∃ (s : State) (align : Bool) (d : Dev), s.acts (.mshRunWrite true true align) d ∧ (d.isSet MSH_CTRL.RUN = false ∨ d.mshRoot = false)) ∧
    (∃ (s : State) (d : Dev), s.acts .rescan d ∧ (d.mshState < 2 ∨ d.mshRoot = true)) ∧
    (∃ (s : State) (d : Dev), s.acts .rescan d ∧ 2 ≤ d.mshState ∧ d.mshRoot = false) ∧
    (∃ (s : State) (d : Dev), s.acts .mshCntClr d) ∧
    (∃ (s : State) (o : SlotObs) (d : Dev), s.acts (.mshSlotBoundary o) d ∧ d.mshState < 2) ∧
    (∃ (s : State) (o : SlotObs) (b : Nat) (len : Int) (frac : Int) (d : Dev), s.acts (.mshSlotBoundary o) d ∧ 2 ≤ d.mshState ∧ d.slotLen = (len, frac) ∧ d.msh.eb = none ∧ d.msh.roll = none ∧ d.msh.train = none ∧ d.msh.wire = [] ∧ d.msh.rescan = false ∧ d.linkOf ((d.msh.asn + 1) % 2 ^ 40) = none ∧ b = ((d.msh.bound : Int) + len + d.msh.adj).toNat) ∧
    (∃ (s : State) (o : SlotObs) (k : Nat) (b : Nat) (a : Nat) (len : Int) (frac : Int) (d : Dev), s.acts (.mshSlotBoundary o) d ∧ 2 ≤ d.mshState ∧ d.slotLen = (len, frac) ∧ d.msh.eb = some (a, k) ∧ d.msh.roll = none ∧ d.msh.train = none ∧ d.msh.wire = [] ∧ d.msh.rescan = false ∧ d.linkOf ((a + 1) % 2 ^ 40) = none ∧ b = ((k : Int) + len).toNat) ∧
    (∃ (s : State) (o : SlotObs) (d : Dev), s.acts (.mshSlotBoundary o) d ∧ d.mshState = mshSync ∧ d.msh.eb = none ∧ d.msh.roll = none ∧ d.msh.train = none ∧ d.msh.wire = [] ∧ d.msh.rescan = true ∧ d.msh.cur = none ∧ d.msh.txq = []) ∧
    (∃ (s : State) (o : SlotObs) (k : Nat) (len : Int) (frac : Int) (d : Dev), s.acts (.mshSlotBoundary o) d ∧ d.mshState = mshSync ∧ d.slotLen = (len, frac) ∧ d.msh.eb = none ∧ d.msh.roll = none ∧ d.msh.train = none ∧ d.msh.wire = [] ∧ d.msh.rescan = false ∧ d.msh.cur = none ∧ d.linkOf ((d.msh.asn + 1) % 2 ^ 40) = some k ∧ d.isSet MSH_LDATA.ADV 0 k = true ∧ d.fcReady = true ∧ d.speCarries 0 = false ∧ d.speCarries 1 = false) ∧
    (∃ (s : State) (o : SlotObs) (k : Nat) (r : MTx) (rest : List MTx) (len : Int) (frac : Int) (d : Dev), s.acts (.mshSlotBoundary o) d ∧ d.mshState = mshSync ∧ d.slotLen = (len, frac) ∧ d.msh.eb = none ∧ d.msh.roll = none ∧ d.msh.train = none ∧ d.msh.wire = [] ∧ d.msh.rescan = false ∧ d.msh.cur = none ∧ d.linkOf ((d.msh.asn + 1) % 2 ^ 40) = some k ∧ d.isSet MSH_LDATA.ADV 0 k = false ∧ d.isSet MSH_LDATA.TX 0 k = true ∧ d.isSet MSH_LDATA.SHARED 0 k = false ∧ d.msh.txq = r :: rest ∧ d.linkServes k r.dst = true ∧ r.fc = none ∧ r.ack = true ∧ d.fcReady = true ∧ d.speCarries 0 = false ∧ d.speCarries 1 = false) ∧
    (∃ (s : State) (d : Dev), s.acts .mshMiss d ∧ (d.linkOf d.msh.asn = none ∨ d.parent = none ∨ d.mshState ≠ mshSync ∨ d.mshRoot = true)) ∧
    (∃ (s : State) (k : Nat) (p : Nat) (d : Dev), s.acts .mshMiss d ∧ d.missed k p ∧ d.get MSH_TSRC.MISS < 2) ∧
    (∃ (s : State) (k : Nat) (c : Nat) (p : Nat) (b : Nat) (d : Dev), s.acts .mshMiss d ∧ d.missed k p ∧ d.get MSH_TSRC.MISS = 2 ∧ b = d.msh.bound + txOffset + usTicks (d.guardUs k) ∧ (d.toTick b).cand1 = some c) ∧
    (∃ (s : State) (k : Nat) (p : Nat) (b : Nat) (d : Dev), s.acts .mshMiss d ∧ d.missed k p ∧ d.get MSH_TSRC.MISS = 2 ∧ b = d.msh.bound + txOffset + usTicks (d.guardUs k) ∧ (d.toTick b).cand1 = none ∧ d.msh.cur = none ∧ d.msh.txq = []) ∧
    (∃ (s : State) (d : Dev), s.acts .mshScanDwell d ∧ d.mshState ≠ mshScan) ∧
    (∃ (s : State) (t : Nat) (d : Dev), s.acts .mshScanDwell d ∧ d.mshState = mshScan ∧ t = d.msh.dwellAt + msTicks (d.get MSH_SCAN.SCAN_DWELL)) ∧
    (∃ (s : State) (asn : BitVec 40) (t : Nat) (d : Dev), s.acts (.asnPair asn t) d ∧ (d.mshState < 2 ∨ (asn.toNat, t) ≠ d.mshNext ∨ t < d.tick + msTicks 1)) ∧
    (∃ (s : State) (asn : BitVec 40) (t : Nat) (n : Nat) (d : Dev), s.acts (.asnPair asn t) d ∧ 2 ≤ d.mshState ∧ (asn.toNat, t) = d.mshNext ∧ d.tick + msTicks 1 ≤ t ∧ n = (if (d.asn.settle d.tick).missing = false ∧ asn.toNat = (d.asn.settle d.tick).asn + 1 then t - (d.asn.settle d.tick).tick else (d.asn.settle d.tick).len)) ∧
    (∃ (s : State) (d : Dev), s.acts .asnPairMissing d ∧ (d.asn.settle d.tick).next ≠ none) ∧
    (∃ (s : State) (d : Dev), s.acts .asnPairMissing d ∧ (d.asn.settle d.tick).next = none) ∧
    (∃ (s : State) (k : Nat) (d : Dev), s.acts .mshTxRequest d ∧ k = d.get MSH_Q.TXQ ∧ (k < 2 ∨ d.qEn k = false ∨ d.qCons k ≠ epMsh ∨ d.qReady k = false)) ∧
    (∃ (s : State) (k : Nat) (a : Nat) (n : Nat) (d : Dev), s.acts .mshTxRequest d ∧ k = d.get MSH_Q.TXQ ∧ 2 ≤ k ∧ d.qEn k = true ∧ d.qCons k = epMsh ∧ d.qReady k = true ∧ bitsOf (d.qHead k) 23 16 = 0x41 ∧ a = (d.qBody k).getD 0 0 ∧ n = bitsOf ((d.qBody k).getD 1 0) 7 0 ∧ d.mshState = mshSync ∧ (bitOf a 3 = true → bitsOf a 1 0 ≠ 2) ∧ n ≤ (if bitsOf a 1 0 = 2 then 17 else 96) ∧ d.fcGone = false) ∧
    (∃ (s : State) (k : Nat) (b : Nat) (a : Nat) (n : Nat) (d : Dev), s.acts .mshTxRequest d ∧ k = d.get MSH_Q.TXQ ∧ 2 ≤ k ∧ d.qEn k = true ∧ d.qCons k = epMsh ∧ d.qReady k = true ∧ d.get MSH_Q.RXQ < 2 ∧ bitsOf (d.qHead k) 23 16 = 0x41 ∧ a = (d.qBody k).getD 0 0 ∧ n = bitsOf ((d.qBody k).getD 1 0) 7 0 ∧ b = (if d.mshState ≠ mshSync then stMshNotSync else if (bitOf a 3 = true ∧ bitsOf a 1 0 = 2) ∨ (if bitsOf a 1 0 = 2 then 17 else 96) < n then stMshTooLong else if d.fcGone then stMshFcExhaust else 0) ∧ b ≠ 0) ∧
    (∃ (s : State) (d : Dev), s.acts .mshAckWindowEnd d ∧ d.msh.cur = none) ∧
    (∃ (s : State) (r : MTx) (d : Dev), s.acts .mshAckWindowEnd d ∧ d.msh.cur = some r ∧ r.made < 4) ∧
    (∃ (s : State) (r : MTx) (d : Dev), s.acts .mshAckWindowEnd d ∧ d.msh.cur = some r ∧ 4 ≤ r.made ∧ d.get MSH_Q.RXQ < 2) ∧
    (∃ (s : State) (d : Dev), s.acts .mshWake d ∧ (d.isSet MSH_WAKE.BUSY = true ∨ d.mshState = mshOff)) ∧
    (∃ (s : State) (d : Dev), s.acts .mshWake d ∧ d.isSet MSH_WAKE.BUSY = false ∧ d.mshState ≠ mshOff) ∧
    (∃ (s : State) (d : Dev), s.acts .mshWakeDone d ∧ d.msh.train.bind (fun y => y.here) = none) ∧
    (∃ (s : State) (t : Nat) (y : Train) (d : Dev), s.acts .mshWakeDone d ∧ d.msh.train = some y ∧ y.here = some t ∧ d.mshState ≠ mshScan ∧ d.mshNext.2 < t + y.left) ∧
    (∃ (s : State) (t : Nat) (b : Nat) (y : Train) (d : Dev), s.acts .mshWakeDone d ∧ d.msh.train = some y ∧ y.here = some t ∧ (d.mshState = mshScan ∨ t + y.left ≤ d.mshNext.2) ∧ b = t + y.left) ∧
    (∃ (s : State) (x : Fin 64) (d : Dev), s.acts (.neighbourExpiry x) d ∧ (d.nbrValid x = false ∨ d.nbrLinked x = true)) ∧
    (∃ (s : State) (x : Fin 64) (d : Dev), s.acts (.neighbourExpiry x) d ∧ d.nbrValid x = true ∧ d.nbrLinked x = false) ∧
    (∃ s : State, (s.dev.rgr.down = true ∨ s.dev.stepDone 4 = false ∨ s.dev.live 7 = false ∨ s.dev.get MSH_FCOUT.FC + 32768 < s.dev.msh.mark)) ∧
    (∃ (s : State) (n : Nat), s.dev.rgr.down = false ∧ s.dev.stepDone 4 = true ∧ s.dev.live 7 = true ∧ s.dev.msh.mark ≤ s.dev.get MSH_FCOUT.FC + 32768 ∧ n = min 0xFFFFFFFF (s.nv.word ctrFcMark + 65536)) :=
  ⟨⟨(st (({} : Dev).put SYS_ROLL.MISSING 0x80)), false, false, 0, .rescan, .MSH_CTRL, by decide +kernel⟩,
    ⟨(st { (((up).put MSH_STATUS.STATE mshSync).put MSH_NET.PAN_ID 7 |>.put MSH_KEYST.LOADED 0xF |>.put MSH_CTRL.RUN 1) with msh := { scanCh := 11 } }), false, false, ((st { (((up).put MSH_STATUS.STATE mshSync).put MSH_NET.PAN_ID 7 |>.put MSH_KEYST.LOADED 0xF |>.put MSH_CTRL.RUN 1) with msh := { scanCh := 11 } }).after (.mshRunWrite false false false)), ⟨State.acts_after rfl (by decide +kernel), by decide +kernel⟩⟩,
    ⟨(st up), false, false, ((st up).after (.mshRunWrite false false false)), ⟨State.acts_after rfl (by decide +kernel), by decide +kernel⟩⟩,
    ⟨(st up), false, ((st up).after (.mshRunWrite true false false)), ⟨State.acts_after rfl (by decide +kernel), by decide +kernel⟩⟩,
    ⟨(st up), false, ((st up).after (.mshRunWrite true true false)), ⟨State.acts_after rfl (by decide +kernel), by decide +kernel⟩⟩,
    ⟨(st up), ((st up).after .rescan), ⟨State.acts_after rfl (by decide +kernel), by decide +kernel⟩⟩,
    ⟨(st { (((up).put MSH_STATUS.STATE mshSync).put MSH_NET.PAN_ID 7 |>.put MSH_KEYST.LOADED 0xF) with msh := { scanCh := 11 } }), ((st { (((up).put MSH_STATUS.STATE mshSync).put MSH_NET.PAN_ID 7 |>.put MSH_KEYST.LOADED 0xF) with msh := { scanCh := 11 } }).after .rescan), ⟨State.acts_after rfl (by decide +kernel), by decide +kernel⟩⟩,
    ⟨(st up), ((st up).after .mshCntClr), State.acts_after rfl (by decide +kernel)⟩,
    ⟨(st { (((up).put MSH_STATUS.STATE mshScan).put MSH_NET.PAN_ID 7 |>.put MSH_KEYST.LOADED 0xF) with msh := { scanCh := 11 } }), ⟨false⟩, ((st { (((up).put MSH_STATUS.STATE mshScan).put MSH_NET.PAN_ID 7 |>.put MSH_KEYST.LOADED 0xF) with msh := { scanCh := 11 } }).after (.mshSlotBoundary ⟨false⟩)), ⟨State.acts_after rfl (by decide +kernel), by decide +kernel⟩⟩,
    ⟨(st { (((up).put MSH_STATUS.STATE mshSync).put MSH_NET.PAN_ID 7 |>.put MSH_KEYST.LOADED 0xF) with msh := { asn := 2 ^ 40 - 1, bound := 9 } }), ⟨false⟩, (((st { (((up).put MSH_STATUS.STATE mshSync).put MSH_NET.PAN_ID 7 |>.put MSH_KEYST.LOADED 0xF) with msh := { asn := 2 ^ 40 - 1, bound := 9 } }).dev.msh.bound : Int) + (st { (((up).put MSH_STATUS.STATE mshSync).put MSH_NET.PAN_ID 7 |>.put MSH_KEYST.LOADED 0xF) with msh := { asn := 2 ^ 40 - 1, bound := 9 } }).dev.slotLen.1 + (st { (((up).put MSH_STATUS.STATE mshSync).put MSH_NET.PAN_ID 7 |>.put MSH_KEYST.LOADED 0xF) with msh := { asn := 2 ^ 40 - 1, bound := 9 } }).dev.msh.adj).toNat, (st { (((up).put MSH_STATUS.STATE mshSync).put MSH_NET.PAN_ID 7 |>.put MSH_KEYST.LOADED 0xF) with msh := { asn := 2 ^ 40 - 1, bound := 9 } }).dev.slotLen.1, (st { (((up).put MSH_STATUS.STATE mshSync).put MSH_NET.PAN_ID 7 |>.put MSH_KEYST.LOADED 0xF) with msh := { asn := 2 ^ 40 - 1, bound := 9 } }).dev.slotLen.2, ((st { (((up).put MSH_STATUS.STATE mshSync).put MSH_NET.PAN_ID 7 |>.put MSH_KEYST.LOADED 0xF) with msh := { asn := 2 ^ 40 - 1, bound := 9 } }).after (.mshSlotBoundary ⟨false⟩)), ⟨State.acts_after rfl (by decide +kernel), by decide +kernel⟩⟩,
    ⟨(st { (((up).put MSH_STATUS.STATE mshDesync).put MSH_NET.PAN_ID 7 |>.put MSH_KEYST.LOADED 0xF) with msh := { eb := some (6, 7) } }), ⟨false⟩, 7, ((7 : Nat) : Int) + (st { (((up).put MSH_STATUS.STATE mshDesync).put MSH_NET.PAN_ID 7 |>.put MSH_KEYST.LOADED 0xF) with msh := { eb := some (6, 7) } }).dev.slotLen.1 |>.toNat, 6, (st { (((up).put MSH_STATUS.STATE mshDesync).put MSH_NET.PAN_ID 7 |>.put MSH_KEYST.LOADED 0xF) with msh := { eb := some (6, 7) } }).dev.slotLen.1, (st { (((up).put MSH_STATUS.STATE mshDesync).put MSH_NET.PAN_ID 7 |>.put MSH_KEYST.LOADED 0xF) with msh := { eb := some (6, 7) } }).dev.slotLen.2, ((st { (((up).put MSH_STATUS.STATE mshDesync).put MSH_NET.PAN_ID 7 |>.put MSH_KEYST.LOADED 0xF) with msh := { eb := some (6, 7) } }).after (.mshSlotBoundary ⟨false⟩)), ⟨State.acts_after rfl (by decide +kernel), by decide +kernel⟩⟩,
    ⟨(st { (((up).put MSH_STATUS.STATE mshSync).put MSH_NET.PAN_ID 7 |>.put MSH_KEYST.LOADED 0xF) with msh := { rescan := true } }), ⟨false⟩, ((st { (((up).put MSH_STATUS.STATE mshSync).put MSH_NET.PAN_ID 7 |>.put MSH_KEYST.LOADED 0xF) with msh := { rescan := true } }).after (.mshSlotBoundary ⟨false⟩)), ⟨State.acts_after rfl (by decide +kernel), by decide +kernel⟩⟩,
    ⟨(st { (((up).put MSH_STATUS.STATE mshSync).put MSH_NET.PAN_ID 7 |>.put MSH_KEYST.LOADED 0xF |>.put MSH_LDATA.VALID 1 0 2 |>.put MSH_LDATA.RX 1 0 2 |>.put MSH_SF.EN 1 0 0 |>.put MSH_SF.LEN 1 0 0 |>.put MSH_SYNC.GUARD_BASE 1000 |>.put MSH_HOP.CH0 11 0 0 |>.put MSH_SCAN.HOPLEN 0 |>.put MSH_LDATA.ADV 1 0 2) with msh := { mark := 9 } }), ⟨false⟩, 2, (st { (((up).put MSH_STATUS.STATE mshSync).put MSH_NET.PAN_ID 7 |>.put MSH_KEYST.LOADED 0xF |>.put MSH_LDATA.VALID 1 0 2 |>.put MSH_LDATA.RX 1 0 2 |>.put MSH_SF.EN 1 0 0 |>.put MSH_SF.LEN 1 0 0 |>.put MSH_SYNC.GUARD_BASE 1000 |>.put MSH_HOP.CH0 11 0 0 |>.put MSH_SCAN.HOPLEN 0 |>.put MSH_LDATA.ADV 1 0 2) with msh := { mark := 9 } }).dev.slotLen.1, (st { (((up).put MSH_STATUS.STATE mshSync).put MSH_NET.PAN_ID 7 |>.put MSH_KEYST.LOADED 0xF |>.put MSH_LDATA.VALID 1 0 2 |>.put MSH_LDATA.RX 1 0 2 |>.put MSH_SF.EN 1 0 0 |>.put MSH_SF.LEN 1 0 0 |>.put MSH_SYNC.GUARD_BASE 1000 |>.put MSH_HOP.CH0 11 0 0 |>.put MSH_SCAN.HOPLEN 0 |>.put MSH_LDATA.ADV 1 0 2) with msh := { mark := 9 } }).dev.slotLen.2, ((st { (((up).put MSH_STATUS.STATE mshSync).put MSH_NET.PAN_ID 7 |>.put MSH_KEYST.LOADED 0xF |>.put MSH_LDATA.VALID 1 0 2 |>.put MSH_LDATA.RX 1 0 2 |>.put MSH_SF.EN 1 0 0 |>.put MSH_SF.LEN 1 0 0 |>.put MSH_SYNC.GUARD_BASE 1000 |>.put MSH_HOP.CH0 11 0 0 |>.put MSH_SCAN.HOPLEN 0 |>.put MSH_LDATA.ADV 1 0 2) with msh := { mark := 9 } }).after (.mshSlotBoundary ⟨false⟩)), ⟨State.acts_after rfl (by decide +kernel), by decide +kernel⟩⟩,
    ⟨(st { (((up).put MSH_STATUS.STATE mshSync).put MSH_NET.PAN_ID 7 |>.put MSH_KEYST.LOADED 0xF |>.put MSH_LDATA.VALID 1 0 2 |>.put MSH_LDATA.RX 1 0 2 |>.put MSH_SF.EN 1 0 0 |>.put MSH_SF.LEN 1 0 0 |>.put MSH_SYNC.GUARD_BASE 1000 |>.put MSH_HOP.CH0 11 0 0 |>.put MSH_SCAN.HOPLEN 0 |>.put MSH_LDATA.TX 1 0 2 |>.put MSH_LDATA.NBR 0x7F 0 2) with msh := { mark := 9, txq := [{ dst := 0x55, tag := 3, ack := true, sf := 1, bytes := [1, 2, 3] }] } }), ⟨false⟩, 2, { dst := 0x55, tag := 3, ack := true, sf := 1, bytes := [1, 2, 3] }, [], (st { (((up).put MSH_STATUS.STATE mshSync).put MSH_NET.PAN_ID 7 |>.put MSH_KEYST.LOADED 0xF |>.put MSH_LDATA.VALID 1 0 2 |>.put MSH_LDATA.RX 1 0 2 |>.put MSH_SF.EN 1 0 0 |>.put MSH_SF.LEN 1 0 0 |>.put MSH_SYNC.GUARD_BASE 1000 |>.put MSH_HOP.CH0 11 0 0 |>.put MSH_SCAN.HOPLEN 0 |>.put MSH_LDATA.TX 1 0 2 |>.put MSH_LDATA.NBR 0x7F 0 2) with msh := { mark := 9, txq := [{ dst := 0x55, tag := 3, ack := true, sf := 1, bytes := [1, 2, 3] }] } }).dev.slotLen.1, (st { (((up).put MSH_STATUS.STATE mshSync).put MSH_NET.PAN_ID 7 |>.put MSH_KEYST.LOADED 0xF |>.put MSH_LDATA.VALID 1 0 2 |>.put MSH_LDATA.RX 1 0 2 |>.put MSH_SF.EN 1 0 0 |>.put MSH_SF.LEN 1 0 0 |>.put MSH_SYNC.GUARD_BASE 1000 |>.put MSH_HOP.CH0 11 0 0 |>.put MSH_SCAN.HOPLEN 0 |>.put MSH_LDATA.TX 1 0 2 |>.put MSH_LDATA.NBR 0x7F 0 2) with msh := { mark := 9, txq := [{ dst := 0x55, tag := 3, ack := true, sf := 1, bytes := [1, 2, 3] }] } }).dev.slotLen.2, ((st { (((up).put MSH_STATUS.STATE mshSync).put MSH_NET.PAN_ID 7 |>.put MSH_KEYST.LOADED 0xF |>.put MSH_LDATA.VALID 1 0 2 |>.put MSH_LDATA.RX 1 0 2 |>.put MSH_SF.EN 1 0 0 |>.put MSH_SF.LEN 1 0 0 |>.put MSH_SYNC.GUARD_BASE 1000 |>.put MSH_HOP.CH0 11 0 0 |>.put MSH_SCAN.HOPLEN 0 |>.put MSH_LDATA.TX 1 0 2 |>.put MSH_LDATA.NBR 0x7F 0 2) with msh := { mark := 9, txq := [{ dst := 0x55, tag := 3, ack := true, sf := 1, bytes := [1, 2, 3] }] } }).after (.mshSlotBoundary ⟨false⟩)), ⟨State.acts_after rfl (by decide +kernel), by decide +kernel⟩⟩,
    ⟨(st up), ((st up).after .mshMiss), ⟨State.acts_after rfl (by decide +kernel), by decide +kernel⟩⟩,
    ⟨(st { (((up).put MSH_STATUS.STATE mshSync).put MSH_NET.PAN_ID 7 |>.put MSH_KEYST.LOADED 0xF |>.put MSH_LDATA.VALID 1 0 2 |>.put MSH_LDATA.RX 1 0 2 |>.put MSH_SF.EN 1 0 0 |>.put MSH_SF.LEN 1 0 0 |>.put MSH_SYNC.GUARD_BASE 1000 |>.put MSH_HOP.CH0 11 0 0 |>.put MSH_SCAN.HOPLEN 0 |>.put MSH_TSRC.CUR_V 1 |>.put MSH_TSRC.CUR 3 |>.put MSH_LDATA.TK 1 0 2 |>.put MSH_LDATA.NBR 0x7F 0 2) with msh := { scanCh := 11 } }), 2, 3, ((st { (((up).put MSH_STATUS.STATE mshSync).put MSH_NET.PAN_ID 7 |>.put MSH_KEYST.LOADED 0xF |>.put MSH_LDATA.VALID 1 0 2 |>.put MSH_LDATA.RX 1 0 2 |>.put MSH_SF.EN 1 0 0 |>.put MSH_SF.LEN 1 0 0 |>.put MSH_SYNC.GUARD_BASE 1000 |>.put MSH_HOP.CH0 11 0 0 |>.put MSH_SCAN.HOPLEN 0 |>.put MSH_TSRC.CUR_V 1 |>.put MSH_TSRC.CUR 3 |>.put MSH_LDATA.TK 1 0 2 |>.put MSH_LDATA.NBR 0x7F 0 2) with msh := { scanCh := 11 } }).after .mshMiss), ⟨State.acts_after rfl (by decide +kernel), by unfold Dev.missed; decide +kernel⟩⟩,
    ⟨(st { (((up).put MSH_STATUS.STATE mshSync).put MSH_NET.PAN_ID 7 |>.put MSH_KEYST.LOADED 0xF |>.put MSH_LDATA.VALID 1 0 2 |>.put MSH_LDATA.RX 1 0 2 |>.put MSH_SF.EN 1 0 0 |>.put MSH_SF.LEN 1 0 0 |>.put MSH_SYNC.GUARD_BASE 1000 |>.put MSH_HOP.CH0 11 0 0 |>.put MSH_SCAN.HOPLEN 0 |>.put MSH_TSRC.CUR_V 1 |>.put MSH_TSRC.CUR 3 |>.put MSH_LDATA.TK 1 0 2 |>.put MSH_LDATA.NBR 0x7F 0 2 |>.put MSH_TSRC.MISS 2 |>.put MSH_NDATA_W2.VALID 1 0 9 |>.put MSH_NDATA_W2.RANK 4 0 9 |>.put MSH_NDATA_W3.RSSI 0 0 9 |>.put MSH_NET.SHORT 1) with msh := { nbr := [(9, { rankAt := some 0 })] } }), 2, 9, 3, (st { (((up).put MSH_STATUS.STATE mshSync).put MSH_NET.PAN_ID 7 |>.put MSH_KEYST.LOADED 0xF |>.put MSH_LDATA.VALID 1 0 2 |>.put MSH_LDATA.RX 1 0 2 |>.put MSH_SF.EN 1 0 0 |>.put MSH_SF.LEN 1 0 0 |>.put MSH_SYNC.GUARD_BASE 1000 |>.put MSH_HOP.CH0 11 0 0 |>.put MSH_SCAN.HOPLEN 0 |>.put MSH_TSRC.CUR_V 1 |>.put MSH_TSRC.CUR 3 |>.put MSH_LDATA.TK 1 0 2 |>.put MSH_LDATA.NBR 0x7F 0 2 |>.put MSH_TSRC.MISS 2 |>.put MSH_NDATA_W2.VALID 1 0 9 |>.put MSH_NDATA_W2.RANK 4 0 9 |>.put MSH_NDATA_W3.RSSI 0 0 9 |>.put MSH_NET.SHORT 1) with msh := { nbr := [(9, { rankAt := some 0 })] } }).dev.msh.bound + txOffset + usTicks ((st { (((up).put MSH_STATUS.STATE mshSync).put MSH_NET.PAN_ID 7 |>.put MSH_KEYST.LOADED 0xF |>.put MSH_LDATA.VALID 1 0 2 |>.put MSH_LDATA.RX 1 0 2 |>.put MSH_SF.EN 1 0 0 |>.put MSH_SF.LEN 1 0 0 |>.put MSH_SYNC.GUARD_BASE 1000 |>.put MSH_HOP.CH0 11 0 0 |>.put MSH_SCAN.HOPLEN 0 |>.put MSH_TSRC.CUR_V 1 |>.put MSH_TSRC.CUR 3 |>.put MSH_LDATA.TK 1 0 2 |>.put MSH_LDATA.NBR 0x7F 0 2 |>.put MSH_TSRC.MISS 2 |>.put MSH_NDATA_W2.VALID 1 0 9 |>.put MSH_NDATA_W2.RANK 4 0 9 |>.put MSH_NDATA_W3.RSSI 0 0 9 |>.put MSH_NET.SHORT 1) with msh := { nbr := [(9, { rankAt := some 0 })] } }).dev.guardUs 2), ((st { (((up).put MSH_STATUS.STATE mshSync).put MSH_NET.PAN_ID 7 |>.put MSH_KEYST.LOADED 0xF |>.put MSH_LDATA.VALID 1 0 2 |>.put MSH_LDATA.RX 1 0 2 |>.put MSH_SF.EN 1 0 0 |>.put MSH_SF.LEN 1 0 0 |>.put MSH_SYNC.GUARD_BASE 1000 |>.put MSH_HOP.CH0 11 0 0 |>.put MSH_SCAN.HOPLEN 0 |>.put MSH_TSRC.CUR_V 1 |>.put MSH_TSRC.CUR 3 |>.put MSH_LDATA.TK 1 0 2 |>.put MSH_LDATA.NBR 0x7F 0 2 |>.put MSH_TSRC.MISS 2 |>.put MSH_NDATA_W2.VALID 1 0 9 |>.put MSH_NDATA_W2.RANK 4 0 9 |>.put MSH_NDATA_W3.RSSI 0 0 9 |>.put MSH_NET.SHORT 1) with msh := { nbr := [(9, { rankAt := some 0 })] } }).after .mshMiss), ⟨State.acts_after rfl (by decide +kernel), by unfold Dev.missed; decide +kernel⟩⟩,
    ⟨(st { (((up).put MSH_STATUS.STATE mshSync).put MSH_NET.PAN_ID 7 |>.put MSH_KEYST.LOADED 0xF |>.put MSH_LDATA.VALID 1 0 2 |>.put MSH_LDATA.RX 1 0 2 |>.put MSH_SF.EN 1 0 0 |>.put MSH_SF.LEN 1 0 0 |>.put MSH_SYNC.GUARD_BASE 1000 |>.put MSH_HOP.CH0 11 0 0 |>.put MSH_SCAN.HOPLEN 0 |>.put MSH_TSRC.CUR_V 1 |>.put MSH_TSRC.CUR 3 |>.put MSH_LDATA.TK 1 0 2 |>.put MSH_LDATA.NBR 0x7F 0 2 |>.put MSH_TSRC.MISS 2) with msh := { scanCh := 11 } }), 2, 3, (st { (((up).put MSH_STATUS.STATE mshSync).put MSH_NET.PAN_ID 7 |>.put MSH_KEYST.LOADED 0xF |>.put MSH_LDATA.VALID 1 0 2 |>.put MSH_LDATA.RX 1 0 2 |>.put MSH_SF.EN 1 0 0 |>.put MSH_SF.LEN 1 0 0 |>.put MSH_SYNC.GUARD_BASE 1000 |>.put MSH_HOP.CH0 11 0 0 |>.put MSH_SCAN.HOPLEN 0 |>.put MSH_TSRC.CUR_V 1 |>.put MSH_TSRC.CUR 3 |>.put MSH_LDATA.TK 1 0 2 |>.put MSH_LDATA.NBR 0x7F 0 2 |>.put MSH_TSRC.MISS 2) with msh := { scanCh := 11 } }).dev.msh.bound + txOffset + usTicks ((st { (((up).put MSH_STATUS.STATE mshSync).put MSH_NET.PAN_ID 7 |>.put MSH_KEYST.LOADED 0xF |>.put MSH_LDATA.VALID 1 0 2 |>.put MSH_LDATA.RX 1 0 2 |>.put MSH_SF.EN 1 0 0 |>.put MSH_SF.LEN 1 0 0 |>.put MSH_SYNC.GUARD_BASE 1000 |>.put MSH_HOP.CH0 11 0 0 |>.put MSH_SCAN.HOPLEN 0 |>.put MSH_TSRC.CUR_V 1 |>.put MSH_TSRC.CUR 3 |>.put MSH_LDATA.TK 1 0 2 |>.put MSH_LDATA.NBR 0x7F 0 2 |>.put MSH_TSRC.MISS 2) with msh := { scanCh := 11 } }).dev.guardUs 2), ((st { (((up).put MSH_STATUS.STATE mshSync).put MSH_NET.PAN_ID 7 |>.put MSH_KEYST.LOADED 0xF |>.put MSH_LDATA.VALID 1 0 2 |>.put MSH_LDATA.RX 1 0 2 |>.put MSH_SF.EN 1 0 0 |>.put MSH_SF.LEN 1 0 0 |>.put MSH_SYNC.GUARD_BASE 1000 |>.put MSH_HOP.CH0 11 0 0 |>.put MSH_SCAN.HOPLEN 0 |>.put MSH_TSRC.CUR_V 1 |>.put MSH_TSRC.CUR 3 |>.put MSH_LDATA.TK 1 0 2 |>.put MSH_LDATA.NBR 0x7F 0 2 |>.put MSH_TSRC.MISS 2) with msh := { scanCh := 11 } }).after .mshMiss), ⟨State.acts_after rfl (by decide +kernel), by unfold Dev.missed; decide +kernel⟩⟩,
    ⟨(st up), ((st up).after .mshScanDwell), ⟨State.acts_after rfl (by decide +kernel), by decide +kernel⟩⟩,
    ⟨(st { (((up).put MSH_STATUS.STATE mshScan).put MSH_NET.PAN_ID 7 |>.put MSH_KEYST.LOADED 0xF) with msh := { scanCh := 11 } }), 92160000, ((st { (((up).put MSH_STATUS.STATE mshScan).put MSH_NET.PAN_ID 7 |>.put MSH_KEYST.LOADED 0xF) with msh := { scanCh := 11 } }).after .mshScanDwell), ⟨State.acts_after rfl (by decide +kernel), by decide +kernel⟩⟩,
    ⟨(st up), 0, 500000, ((st up).after (.asnPair 0 500000)), ⟨State.acts_after rfl (by decide +kernel), by decide +kernel⟩⟩,
    ⟨(st { (((up).put MSH_STATUS.STATE mshSync).put MSH_NET.PAN_ID 7 |>.put MSH_KEYST.LOADED 0xF) with msh := { scanCh := 11 } }), 1, 1536000, 1536000, ((st { (((up).put MSH_STATUS.STATE mshSync).put MSH_NET.PAN_ID 7 |>.put MSH_KEYST.LOADED 0xF) with msh := { scanCh := 11 } }).after (.asnPair 1 1536000)), ⟨State.acts_after rfl (by decide +kernel), by decide +kernel⟩⟩,
    ⟨(st { up with asn := { next := some (9, 2 ^ 40, 1536000) } }), ((st { up with asn := { next := some (9, 2 ^ 40, 1536000) } }).after .asnPairMissing), ⟨State.acts_after rfl (by decide +kernel), by decide +kernel⟩⟩,
    ⟨(st up), ((st up).after .asnPairMissing), ⟨State.acts_after rfl (by decide +kernel), by decide +kernel⟩⟩,
    ⟨(st up), (st up).dev.get MSH_Q.TXQ, ((st up).after .mshTxRequest), ⟨State.acts_after rfl (by decide +kernel), by decide +kernel⟩⟩,
    ⟨(st ((((up.put MSH_STATUS.STATE mshSync).put MSH_Q.TXQ 5).put MSH_Q.RXQ 0 |>.put MSH_FCOUT.FC 5|>.put QMX_Q_BASE.EN 1 5 |>.put QMX_Q_BASE.LOG2SZ 5 5 |>.put QMX_Q_EP.CONS 0x13 5).setWords 0x100000 [qHeader 65 3, 0x00550309, 3, 0x030201]|>.setQ 5 { prod := 4, vis := 4 })), (st ((((up.put MSH_STATUS.STATE mshSync).put MSH_Q.TXQ 5).put MSH_Q.RXQ 0 |>.put MSH_FCOUT.FC 5|>.put QMX_Q_BASE.EN 1 5 |>.put QMX_Q_BASE.LOG2SZ 5 5 |>.put QMX_Q_EP.CONS 0x13 5).setWords 0x100000 [qHeader 65 3, 0x00550309, 3, 0x030201]|>.setQ 5 { prod := 4, vis := 4 })).dev.get MSH_Q.TXQ, ((st ((((up.put MSH_STATUS.STATE mshSync).put MSH_Q.TXQ 5).put MSH_Q.RXQ 0 |>.put MSH_FCOUT.FC 5|>.put QMX_Q_BASE.EN 1 5 |>.put QMX_Q_BASE.LOG2SZ 5 5 |>.put QMX_Q_EP.CONS 0x13 5).setWords 0x100000 [qHeader 65 3, 0x00550309, 3, 0x030201]|>.setQ 5 { prod := 4, vis := 4 })).dev.qBody ((st ((((up.put MSH_STATUS.STATE mshSync).put MSH_Q.TXQ 5).put MSH_Q.RXQ 0 |>.put MSH_FCOUT.FC 5|>.put QMX_Q_BASE.EN 1 5 |>.put QMX_Q_BASE.LOG2SZ 5 5 |>.put QMX_Q_EP.CONS 0x13 5).setWords 0x100000 [qHeader 65 3, 0x00550309, 3, 0x030201]|>.setQ 5 { prod := 4, vis := 4 })).dev.get MSH_Q.TXQ)).getD 0 0, bitsOf (((st ((((up.put MSH_STATUS.STATE mshSync).put MSH_Q.TXQ 5).put MSH_Q.RXQ 0 |>.put MSH_FCOUT.FC 5|>.put QMX_Q_BASE.EN 1 5 |>.put QMX_Q_BASE.LOG2SZ 5 5 |>.put QMX_Q_EP.CONS 0x13 5).setWords 0x100000 [qHeader 65 3, 0x00550309, 3, 0x030201]|>.setQ 5 { prod := 4, vis := 4 })).dev.qBody ((st ((((up.put MSH_STATUS.STATE mshSync).put MSH_Q.TXQ 5).put MSH_Q.RXQ 0 |>.put MSH_FCOUT.FC 5|>.put QMX_Q_BASE.EN 1 5 |>.put QMX_Q_BASE.LOG2SZ 5 5 |>.put QMX_Q_EP.CONS 0x13 5).setWords 0x100000 [qHeader 65 3, 0x00550309, 3, 0x030201]|>.setQ 5 { prod := 4, vis := 4 })).dev.get MSH_Q.TXQ)).getD 1 0) 7 0, ((st ((((up.put MSH_STATUS.STATE mshSync).put MSH_Q.TXQ 5).put MSH_Q.RXQ 0 |>.put MSH_FCOUT.FC 5|>.put QMX_Q_BASE.EN 1 5 |>.put QMX_Q_BASE.LOG2SZ 5 5 |>.put QMX_Q_EP.CONS 0x13 5).setWords 0x100000 [qHeader 65 3, 0x00550309, 3, 0x030201]|>.setQ 5 { prod := 4, vis := 4 })).after .mshTxRequest), ⟨State.acts_after rfl (by decide +kernel), by decide +kernel⟩⟩,
    ⟨(st ((((up.put MSH_STATUS.STATE mshScan).put MSH_Q.TXQ 5).put MSH_Q.RXQ 0 |>.put MSH_FCOUT.FC 5|>.put QMX_Q_BASE.EN 1 5 |>.put QMX_Q_BASE.LOG2SZ 5 5 |>.put QMX_Q_EP.CONS 0x13 5).setWords 0x100000 [qHeader 65 3, 0x00550309, 3, 0x030201]|>.setQ 5 { prod := 4, vis := 4 })), (st ((((up.put MSH_STATUS.STATE mshScan).put MSH_Q.TXQ 5).put MSH_Q.RXQ 0 |>.put MSH_FCOUT.FC 5|>.put QMX_Q_BASE.EN 1 5 |>.put QMX_Q_BASE.LOG2SZ 5 5 |>.put QMX_Q_EP.CONS 0x13 5).setWords 0x100000 [qHeader 65 3, 0x00550309, 3, 0x030201]|>.setQ 5 { prod := 4, vis := 4 })).dev.get MSH_Q.TXQ, if (st ((((up.put MSH_STATUS.STATE mshScan).put MSH_Q.TXQ 5).put MSH_Q.RXQ 0 |>.put MSH_FCOUT.FC 5|>.put QMX_Q_BASE.EN 1 5 |>.put QMX_Q_BASE.LOG2SZ 5 5 |>.put QMX_Q_EP.CONS 0x13 5).setWords 0x100000 [qHeader 65 3, 0x00550309, 3, 0x030201]|>.setQ 5 { prod := 4, vis := 4 })).dev.mshState ≠ mshSync then stMshNotSync else if (bitOf (((st ((((up.put MSH_STATUS.STATE mshScan).put MSH_Q.TXQ 5).put MSH_Q.RXQ 0 |>.put MSH_FCOUT.FC 5|>.put QMX_Q_BASE.EN 1 5 |>.put QMX_Q_BASE.LOG2SZ 5 5 |>.put QMX_Q_EP.CONS 0x13 5).setWords 0x100000 [qHeader 65 3, 0x00550309, 3, 0x030201]|>.setQ 5 { prod := 4, vis := 4 })).dev.qBody ((st ((((up.put MSH_STATUS.STATE mshScan).put MSH_Q.TXQ 5).put MSH_Q.RXQ 0 |>.put MSH_FCOUT.FC 5|>.put QMX_Q_BASE.EN 1 5 |>.put QMX_Q_BASE.LOG2SZ 5 5 |>.put QMX_Q_EP.CONS 0x13 5).setWords 0x100000 [qHeader 65 3, 0x00550309, 3, 0x030201]|>.setQ 5 { prod := 4, vis := 4 })).dev.get MSH_Q.TXQ)).getD 0 0) 3 = true ∧ bitsOf (((st ((((up.put MSH_STATUS.STATE mshScan).put MSH_Q.TXQ 5).put MSH_Q.RXQ 0 |>.put MSH_FCOUT.FC 5|>.put QMX_Q_BASE.EN 1 5 |>.put QMX_Q_BASE.LOG2SZ 5 5 |>.put QMX_Q_EP.CONS 0x13 5).setWords 0x100000 [qHeader 65 3, 0x00550309, 3, 0x030201]|>.setQ 5 { prod := 4, vis := 4 })).dev.qBody ((st ((((up.put MSH_STATUS.STATE mshScan).put MSH_Q.TXQ 5).put MSH_Q.RXQ 0 |>.put MSH_FCOUT.FC 5|>.put QMX_Q_BASE.EN 1 5 |>.put QMX_Q_BASE.LOG2SZ 5 5 |>.put QMX_Q_EP.CONS 0x13 5).setWords 0x100000 [qHeader 65 3, 0x00550309, 3, 0x030201]|>.setQ 5 { prod := 4, vis := 4 })).dev.get MSH_Q.TXQ)).getD 0 0) 1 0 = 2) ∨ (if bitsOf (((st ((((up.put MSH_STATUS.STATE mshScan).put MSH_Q.TXQ 5).put MSH_Q.RXQ 0 |>.put MSH_FCOUT.FC 5|>.put QMX_Q_BASE.EN 1 5 |>.put QMX_Q_BASE.LOG2SZ 5 5 |>.put QMX_Q_EP.CONS 0x13 5).setWords 0x100000 [qHeader 65 3, 0x00550309, 3, 0x030201]|>.setQ 5 { prod := 4, vis := 4 })).dev.qBody ((st ((((up.put MSH_STATUS.STATE mshScan).put MSH_Q.TXQ 5).put MSH_Q.RXQ 0 |>.put MSH_FCOUT.FC 5|>.put QMX_Q_BASE.EN 1 5 |>.put QMX_Q_BASE.LOG2SZ 5 5 |>.put QMX_Q_EP.CONS 0x13 5).setWords 0x100000 [qHeader 65 3, 0x00550309, 3, 0x030201]|>.setQ 5 { prod := 4, vis := 4 })).dev.get MSH_Q.TXQ)).getD 0 0) 1 0 = 2 then 17 else 96) < bitsOf (((st ((((up.put MSH_STATUS.STATE mshScan).put MSH_Q.TXQ 5).put MSH_Q.RXQ 0 |>.put MSH_FCOUT.FC 5|>.put QMX_Q_BASE.EN 1 5 |>.put QMX_Q_BASE.LOG2SZ 5 5 |>.put QMX_Q_EP.CONS 0x13 5).setWords 0x100000 [qHeader 65 3, 0x00550309, 3, 0x030201]|>.setQ 5 { prod := 4, vis := 4 })).dev.qBody ((st ((((up.put MSH_STATUS.STATE mshScan).put MSH_Q.TXQ 5).put MSH_Q.RXQ 0 |>.put MSH_FCOUT.FC 5|>.put QMX_Q_BASE.EN 1 5 |>.put QMX_Q_BASE.LOG2SZ 5 5 |>.put QMX_Q_EP.CONS 0x13 5).setWords 0x100000 [qHeader 65 3, 0x00550309, 3, 0x030201]|>.setQ 5 { prod := 4, vis := 4 })).dev.get MSH_Q.TXQ)).getD 1 0) 7 0 then stMshTooLong else if (st ((((up.put MSH_STATUS.STATE mshScan).put MSH_Q.TXQ 5).put MSH_Q.RXQ 0 |>.put MSH_FCOUT.FC 5|>.put QMX_Q_BASE.EN 1 5 |>.put QMX_Q_BASE.LOG2SZ 5 5 |>.put QMX_Q_EP.CONS 0x13 5).setWords 0x100000 [qHeader 65 3, 0x00550309, 3, 0x030201]|>.setQ 5 { prod := 4, vis := 4 })).dev.fcGone then stMshFcExhaust else 0, ((st ((((up.put MSH_STATUS.STATE mshScan).put MSH_Q.TXQ 5).put MSH_Q.RXQ 0 |>.put MSH_FCOUT.FC 5|>.put QMX_Q_BASE.EN 1 5 |>.put QMX_Q_BASE.LOG2SZ 5 5 |>.put QMX_Q_EP.CONS 0x13 5).setWords 0x100000 [qHeader 65 3, 0x00550309, 3, 0x030201]|>.setQ 5 { prod := 4, vis := 4 })).dev.qBody ((st ((((up.put MSH_STATUS.STATE mshScan).put MSH_Q.TXQ 5).put MSH_Q.RXQ 0 |>.put MSH_FCOUT.FC 5|>.put QMX_Q_BASE.EN 1 5 |>.put QMX_Q_BASE.LOG2SZ 5 5 |>.put QMX_Q_EP.CONS 0x13 5).setWords 0x100000 [qHeader 65 3, 0x00550309, 3, 0x030201]|>.setQ 5 { prod := 4, vis := 4 })).dev.get MSH_Q.TXQ)).getD 0 0, bitsOf (((st ((((up.put MSH_STATUS.STATE mshScan).put MSH_Q.TXQ 5).put MSH_Q.RXQ 0 |>.put MSH_FCOUT.FC 5|>.put QMX_Q_BASE.EN 1 5 |>.put QMX_Q_BASE.LOG2SZ 5 5 |>.put QMX_Q_EP.CONS 0x13 5).setWords 0x100000 [qHeader 65 3, 0x00550309, 3, 0x030201]|>.setQ 5 { prod := 4, vis := 4 })).dev.qBody ((st ((((up.put MSH_STATUS.STATE mshScan).put MSH_Q.TXQ 5).put MSH_Q.RXQ 0 |>.put MSH_FCOUT.FC 5|>.put QMX_Q_BASE.EN 1 5 |>.put QMX_Q_BASE.LOG2SZ 5 5 |>.put QMX_Q_EP.CONS 0x13 5).setWords 0x100000 [qHeader 65 3, 0x00550309, 3, 0x030201]|>.setQ 5 { prod := 4, vis := 4 })).dev.get MSH_Q.TXQ)).getD 1 0) 7 0, ((st ((((up.put MSH_STATUS.STATE mshScan).put MSH_Q.TXQ 5).put MSH_Q.RXQ 0 |>.put MSH_FCOUT.FC 5|>.put QMX_Q_BASE.EN 1 5 |>.put QMX_Q_BASE.LOG2SZ 5 5 |>.put QMX_Q_EP.CONS 0x13 5).setWords 0x100000 [qHeader 65 3, 0x00550309, 3, 0x030201]|>.setQ 5 { prod := 4, vis := 4 })).after .mshTxRequest), ⟨State.acts_after rfl (by decide +kernel), by decide +kernel⟩⟩,
    ⟨(st up), ((st up).after .mshAckWindowEnd), ⟨State.acts_after rfl (by decide +kernel), by decide +kernel⟩⟩,
    ⟨(st { (((up).put MSH_STATUS.STATE mshSync).put MSH_NET.PAN_ID 7 |>.put MSH_KEYST.LOADED 0xF) with msh := { cur := some { dst := 0x55, tag := 3, ack := true, sf := 1, bytes := [1, 2, 3] } } }), { dst := 0x55, tag := 3, ack := true, sf := 1, bytes := [1, 2, 3] }, ((st { (((up).put MSH_STATUS.STATE mshSync).put MSH_NET.PAN_ID 7 |>.put MSH_KEYST.LOADED 0xF) with msh := { cur := some { dst := 0x55, tag := 3, ack := true, sf := 1, bytes := [1, 2, 3] } } }).after .mshAckWindowEnd), ⟨State.acts_after rfl (by decide +kernel), by decide +kernel⟩⟩,
    ⟨(st { (((up).put MSH_STATUS.STATE mshSync).put MSH_NET.PAN_ID 7 |>.put MSH_KEYST.LOADED 0xF |>.put MSH_Q.RXQ 0) with msh := { cur := some { dst := 0x55, tag := 3, ack := true, sf := 1, bytes := [1, 2, 3], made := 4 } } }), { dst := 0x55, tag := 3, ack := true, sf := 1, bytes := [1, 2, 3], made := 4 }, ((st { (((up).put MSH_STATUS.STATE mshSync).put MSH_NET.PAN_ID 7 |>.put MSH_KEYST.LOADED 0xF |>.put MSH_Q.RXQ 0) with msh := { cur := some { dst := 0x55, tag := 3, ack := true, sf := 1, bytes := [1, 2, 3], made := 4 } } }).after .mshAckWindowEnd), ⟨State.acts_after rfl (by decide +kernel), by decide +kernel⟩⟩,
    ⟨(st up), ((st up).after .mshWake), ⟨State.acts_after rfl (by decide +kernel), by decide +kernel⟩⟩,
    ⟨(st { (((up).put MSH_STATUS.STATE mshSync).put MSH_NET.PAN_ID 7 |>.put MSH_KEYST.LOADED 0xF) with msh := { scanCh := 11 } }), ((st { (((up).put MSH_STATUS.STATE mshSync).put MSH_NET.PAN_ID 7 |>.put MSH_KEYST.LOADED 0xF) with msh := { scanCh := 11 } }).after .mshWake), ⟨State.acts_after rfl (by decide +kernel), by decide +kernel⟩⟩,
    ⟨(st up), ((st up).after .mshWakeDone), ⟨State.acts_after rfl (by decide +kernel), by decide +kernel⟩⟩,
    ⟨(st { (up.put MSH_STATUS.STATE mshSync) with msh := { train := some { left := 10, here := some 99999999 } } }), 99999999, { left := 10, here := some 99999999 }, ((st { (up.put MSH_STATUS.STATE mshSync) with msh := { train := some { left := 10, here := some 99999999 } } }).after .mshWakeDone), ⟨State.acts_after rfl (by decide +kernel), by decide +kernel⟩⟩,
    ⟨(st { (up.put MSH_STATUS.STATE mshScan) with msh := { train := some { left := 7, here := some 500000 } } }), 500000, 500007, { left := 7, here := some 500000 }, ((st { (up.put MSH_STATUS.STATE mshScan) with msh := { train := some { left := 7, here := some 500000 } } }).after .mshWakeDone), ⟨State.acts_after rfl (by decide +kernel), by decide +kernel⟩⟩,
    ⟨(st up), 3, ((st up).after (.neighbourExpiry 3)), ⟨State.acts_after rfl (by decide +kernel), by decide +kernel⟩⟩,
    ⟨(st { (((up).put MSH_STATUS.STATE mshSync).put MSH_NET.PAN_ID 7 |>.put MSH_KEYST.LOADED 0xF |>.put MSH_NDATA_W2.VALID 1 0 3 |>.put MSH_NDATA_W0.EXT_LO 0x55667788 0 3 |>.put MSH_NDATA_W1.EXT_HI 0x11223344 0 3 |>.put MSH_NDATA_W4.FC 50 0 3) with msh := { scanCh := 11 } }), 3, ((st { (((up).put MSH_STATUS.STATE mshSync).put MSH_NET.PAN_ID 7 |>.put MSH_KEYST.LOADED 0xF |>.put MSH_NDATA_W2.VALID 1 0 3 |>.put MSH_NDATA_W0.EXT_LO 0x55667788 0 3 |>.put MSH_NDATA_W1.EXT_HI 0x11223344 0 3 |>.put MSH_NDATA_W4.FC 50 0 3) with msh := { scanCh := 11 } }).after (.neighbourExpiry 3)), ⟨State.acts_after rfl (by decide +kernel), by decide +kernel⟩⟩,
    ⟨(st { (up.put MSH_FCOUT.FC 5) with msh := { mark := 32774 } }), by decide +kernel⟩,
    ⟨(st { (up.put SYS_STEP.DONE 15) with msh := { mark := 32768 } }), min 0xFFFFFFFF ((st { (up.put SYS_STEP.DONE 15) with msh := { mark := 32768 } }).nv.word ctrFcMark + 65536), by decide +kernel⟩⟩

theorem witness_WiredPortsComplete :
    (∃ (s : State) (n : Fin 2) (en : Bool) (c : Instr), (c = .speEnWrite n en ∨ c = .retrain n ∨ c = .speCntClr n) ∧ s.dev.present (8 + n) = false ∧ s.dev.pwr.asleep = none) ∧
    (∃ (s : State) (n : Fin 2) (en : Bool) (c : Instr) (st : Nat) (d : Dev), s.acts c d ∧ (c = .speEnWrite n en ∧ st = (if en then speAn else speDisabled) ∧ (en = true → d.speState n = speDisabled ∨ d.speState n = speFail) ∨ c = .retrain n ∧ st = speAn ∧ d.speState n ≠ speDisabled ∨ c = .speTrainTimeout n ∧ st = speAn ∧ d.speState n = speTraining) ∧ d.speState n ≠ speUp) ∧
    (∃ (s : State) (n : Fin 2) (c : Instr) (st : Nat) (d : Dev), s.acts c d ∧ (c = .speEnWrite n false ∧ st = speDisabled ∨ c = .retrain n ∧ st = speAn ∨ c = .speLinkLoss n ∧ st = speAn) ∧ d.speState n = speUp ∧ d.get SPE_Q.RXQ n < 2) ∧
    (∃ (s : State) (n : Fin 2) (d : Dev), s.acts (.speEnWrite n true) d ∧ d.speState n ≠ speDisabled ∧ d.speState n ≠ speFail) ∧
    (∃ (s : State) (n : Fin 2) (p24 : Bool) (p10 : Bool) (snr : BitVec 8) (eye : BitVec 8) (echo : BitVec 8) (f : WireFrame) (c : Instr) (d : Dev), s.acts c d ∧ (c = .retrain n ∧ d.speState n = speDisabled ∨ c = .speAnDone n p24 p10 ∧ d.speState n ≠ speAn ∨ c = .speTrained n snr eye echo ∧ (d.speState n ≠ speTraining ∨ snr.toNat < d.get SPE_CTRL.UP_SNR n) ∨ c = .speTrainTimeout n ∧ d.speState n ≠ speTraining ∨ c = .speLinkLoss n ∧ d.speState n ≠ speUp ∨ c = .speFrameRx n f ∧ d.speState n ≠ speUp)) ∧
    (∃ (s : State) (n : Fin 2) (d : Dev), s.acts (.speTxDone n) d ∧ (d.spex n).tx = none) ∧
    (∃ (s : State) (n : Fin 2) (d : Dev), s.acts (.speCntClr n) d) ∧
    (∃ (s : State) (n : Fin 2) (p24 : Bool) (p10 : Bool) (a : Bool) (x : Nat) (d : Dev), s.acts (.speAnDone n p24 p10) d ∧ d.speState n = speAn ∧ x = d.get SPE_CTRL.AMP n ∧ a = (x == 1 || (x != 2 && d.isSet SPE_CTRL.ADV24 n && p24)) ∧ (x = 1 ∨ x = 2 ∨ a = true ∨ p10 = true)) ∧
    (∃ (s : State) (n : Fin 2) (p24 : Bool) (p10 : Bool) (d : Dev), s.acts (.speAnDone n p24 p10) d ∧ d.speState n = speAn ∧ d.get SPE_CTRL.AMP n ≠ 1 ∧ d.get SPE_CTRL.AMP n ≠ 2 ∧ (d.isSet SPE_CTRL.ADV24 n = false ∨ p24 = false) ∧ p10 = false) ∧
    (∃ (s : State) (n : Fin 2) (snr : BitVec 8) (eye : BitVec 8) (echo : BitVec 8) (d : Dev), s.acts (.speTrained n snr eye echo) d ∧ d.speState n = speTraining ∧ d.get SPE_CTRL.UP_SNR n ≤ snr.toNat ∧ d.get SPE_CTRL.DOWN_SNR n ≤ snr.toNat) ∧
    (∃ (s : State) (n : Fin 2) (k : Nat) (d : Dev), s.acts (.speTxRequest n) d ∧ k = d.get SPE_Q.TXQ n ∧ (k < 2 ∨ d.qEn k = false ∨ d.qCons k ≠ epSpe n ∨ d.qReady k = false ∨ (d.spex n).tx ≠ none)) ∧
    (∃ (s : State) (n : Fin 2) (k : Nat) (st : Nat) (x : Nat) (d : Dev), s.acts (.speTxRequest n) d ∧ k = d.get SPE_Q.TXQ n ∧ 2 ≤ k ∧ d.qEn k = true ∧ d.qCons k = epSpe n ∧ d.qReady k = true ∧ (d.spex n).tx = none ∧ bitsOf (d.qHead k) 23 16 = 0x51 ∧ x = (d.qBody k).getD 0 0 ∧ st = (if d.speState n ≠ speUp then stSpeNoLink else if bitsOf x 10 0 < 60 ∨ 1514 < bitsOf x 10 0 then stSpeLength else 0) ∧ (st = 0 ∨ d.get SPE_Q.RXQ n < 2)) ∧
    (∃ (s : State) (n : Fin 2) (tag : Nat) (ws : List Byte) (d : Dev), s.acts (.speTxDone n) d ∧ (d.spex n).tx = some (tag, ws) ∧ d.get SPE_Q.RXQ n < 2) ∧
    (∃ (s : State) (n : Fin 2) (k : Nat) (tag : Nat) (ws : List Byte) (d : Dev), s.acts (.speTxDone n) d ∧ (d.spex n).tx = some (tag, ws) ∧ k = d.get SPE_Q.RXQ n ∧ 2 ≤ k ∧ d.qTakes k (epSpe n) 1 = true ∧ (d.qx k).stall = none) ∧
    (∃ (s : State) (n : Fin 2) (f : WireFrame) (k : Nat) (cause : Nat) (g : Fld) (d : Dev), s.acts (.speFrameRx n f) d ∧ d.speState n = speUp ∧ ((g, k, cause) = (SPE_CNT.CNT_HI, 2, 2) ∧ f.codeOk = false ∨ f.codeOk = true ∧ (f.bytes.length < 64 ∨ 1518 < f.bytes.length) ∧ (g, k, cause) = (SPE_CNT.CNT_LO, 1, 1) ∨ f.codeOk = true ∧ 64 ≤ f.bytes.length ∧ f.bytes.length ≤ 1518 ∧ f.fcsOk = false ∧ (g, k, cause) = (SPE_CNT.CNT_HI, 1, 0) ∨ f.codeOk = true ∧ 64 ≤ f.bytes.length ∧ f.bytes.length ≤ 1518 ∧ f.fcsOk = true ∧ f.control = true ∧ (g, k, cause) = (SPE_CNT.CNT_LO, 3, 3) ∨ d.takesFrame n f ∧ d.get SPE_Q.RXQ n < 2 ∧ (g, k, cause) = (SPE_CNT.CNT_LO, 2, 4))) ∧
    (∃ (s : State) (n : Fin 2) (f : WireFrame) (k : Nat) (d : Dev), s.acts (.speFrameRx n f) d ∧ d.speState n = speUp ∧ d.takesFrame n f ∧ k = d.get SPE_Q.RXQ n ∧ 2 ≤ k ∧ d.qTakes k (epSpe n) (3 + (f.bytes.length - 1) / 4) = true ∧ (d.qx k).stall = none ∧ (d.qx k).freeAt = 0) ∧
    (∃ (s : State) (n : Fin 2) (f : WireFrame) (d : Dev), s.acts (.speFrameRx n f) d ∧ d.speState n = speUp ∧ f.codeOk = true ∧ 64 ≤ f.bytes.length ∧ f.bytes.length ≤ 1518 ∧ f.fcsOk = true ∧ f.control = false ∧ f.etherType = 0x88B5 ∧ d.isSet SPE_CTRL.OLUON n = true ∧ d.mshState = mshOff) ∧
    (∃ (s : State) (n : Fin 2) (f : WireFrame) (d : Dev), s.acts (.speFrameRx n f) d ∧ d.speState n = speUp ∧ f.codeOk = true ∧ 64 ≤ f.bytes.length ∧ f.bytes.length ≤ 1518 ∧ f.fcsOk = true ∧ f.control = false ∧ (f.etherType ≠ 0x88B5 ∨ d.isSet SPE_CTRL.OLUON n = false) ∧ d.speForUs n f.dst = false) :=
  ⟨⟨(st (({} : Dev).put SYS_ROLL.MISSING 0x200)), 1, true, .speEnWrite 1 true, by decide +kernel⟩,
    ⟨(st (((up).put SPE_STATUS.STATE speDisabled 1).put SPE_Q.RXQ 0 1)), 1, true, .speEnWrite 1 true, speAn, ((st (((up).put SPE_STATUS.STATE speDisabled 1).put SPE_Q.RXQ 0 1)).after (.speEnWrite 1 true)), ⟨State.acts_after rfl (by decide +kernel), by decide +kernel⟩⟩,
    ⟨(st (((up).put SPE_STATUS.STATE speUp 1).put SPE_Q.RXQ 0 1)), 1, .speEnWrite 1 false, speDisabled, ((st (((up).put SPE_STATUS.STATE speUp 1).put SPE_Q.RXQ 0 1)).after (.speEnWrite 1 false)), ⟨State.acts_after rfl (by decide +kernel), by decide +kernel⟩⟩,
    ⟨(st (((up).put SPE_STATUS.STATE speAn 1).put SPE_Q.RXQ 0 1)), 1, ((st (((up).put SPE_STATUS.STATE speAn 1).put SPE_Q.RXQ 0 1)).after (.speEnWrite 1 true)), ⟨State.acts_after rfl (by decide +kernel), by decide +kernel⟩⟩,
    ⟨(st (((up).put SPE_STATUS.STATE speDisabled 1).put SPE_Q.RXQ 0 1)), 1, false, false, 100, 5, 6, ⟨0x010000000000, 0x0800, List.replicate 64 3, true, true, false, 99, none⟩, .retrain 1, ((st (((up).put SPE_STATUS.STATE speDisabled 1).put SPE_Q.RXQ 0 1)).after (.retrain 1)), ⟨State.acts_after rfl (by decide +kernel), by decide +kernel⟩⟩,
    ⟨(st (((up).put SPE_STATUS.STATE speAn 1).put SPE_Q.RXQ 0 1)), 1, ((st (((up).put SPE_STATUS.STATE speAn 1).put SPE_Q.RXQ 0 1)).after (.speTxDone 1)), ⟨State.acts_after rfl (by decide +kernel), by decide +kernel⟩⟩,
    ⟨(st up), 1, ((st up).after (.speCntClr 1)), State.acts_after rfl (by decide +kernel)⟩,
    ⟨(st (((up).put SPE_STATUS.STATE speAn 1).put SPE_Q.RXQ 0 1|>.put SPE_CTRL.AMP 1 1)), 1, false, false, true, (st (((up).put SPE_STATUS.STATE speAn 1).put SPE_Q.RXQ 0 1|>.put SPE_CTRL.AMP 1 1)).dev.get SPE_CTRL.AMP 1, ((st (((up).put SPE_STATUS.STATE speAn 1).put SPE_Q.RXQ 0 1|>.put SPE_CTRL.AMP 1 1)).after (.speAnDone 1 false false)), ⟨State.acts_after rfl (by decide +kernel), by decide +kernel⟩⟩,
    ⟨(st (((up).put SPE_STATUS.STATE speAn 1).put SPE_Q.RXQ 0 1|>.put SPE_CTRL.AMP 0 1)), 1, false, false, ((st (((up).put SPE_STATUS.STATE speAn 1).put SPE_Q.RXQ 0 1|>.put SPE_CTRL.AMP 0 1)).after (.speAnDone 1 false false)), ⟨State.acts_after rfl (by decide +kernel), by decide +kernel⟩⟩,
    ⟨(st (((up).put SPE_STATUS.STATE speTraining 1).put SPE_Q.RXQ 0 1)), 1, 100, 0, 0, ((st (((up).put SPE_STATUS.STATE speTraining 1).put SPE_Q.RXQ 0 1)).after (.speTrained 1 100 0 0)), ⟨State.acts_after rfl (by decide +kernel), by decide +kernel⟩⟩,
    ⟨(st (((up).put SPE_STATUS.STATE speAn 1).put SPE_Q.RXQ 0 1)), 1, (st (((up).put SPE_STATUS.STATE speAn 1).put SPE_Q.RXQ 0 1)).dev.get SPE_Q.TXQ 1, ((st (((up).put SPE_STATUS.STATE speAn 1).put SPE_Q.RXQ 0 1)).after (.speTxRequest 1)), ⟨State.acts_after rfl (by decide +kernel), by decide +kernel⟩⟩,
    ⟨(st (((up.put SPE_STATUS.STATE speUp 1).put SPE_Q.TXQ 5 1).put SPE_Q.RXQ 0 1 |>.put QMX_Q_BASE.EN 1 5 |>.put QMX_Q_BASE.LOG2SZ 5 5 |>.put QMX_Q_EP.CONS 0x15 5 |>.setWords 0x100000 [qHeader 0x51 3, 0x0007003C, 7, 0x030201]|>.setQ 5 { prod := 4, vis := 4 })), 1, (st (((up.put SPE_STATUS.STATE speUp 1).put SPE_Q.TXQ 5 1).put SPE_Q.RXQ 0 1 |>.put QMX_Q_BASE.EN 1 5 |>.put QMX_Q_BASE.LOG2SZ 5 5 |>.put QMX_Q_EP.CONS 0x15 5 |>.setWords 0x100000 [qHeader 0x51 3, 0x0007003C, 7, 0x030201]|>.setQ 5 { prod := 4, vis := 4 })).dev.get SPE_Q.TXQ 1, if (st (((up.put SPE_STATUS.STATE speUp 1).put SPE_Q.TXQ 5 1).put SPE_Q.RXQ 0 1 |>.put QMX_Q_BASE.EN 1 5 |>.put QMX_Q_BASE.LOG2SZ 5 5 |>.put QMX_Q_EP.CONS 0x15 5 |>.setWords 0x100000 [qHeader 0x51 3, 0x0007003C, 7, 0x030201]|>.setQ 5 { prod := 4, vis := 4 })).dev.speState 1 ≠ speUp then stSpeNoLink else if bitsOf (((st (((up.put SPE_STATUS.STATE speUp 1).put SPE_Q.TXQ 5 1).put SPE_Q.RXQ 0 1 |>.put QMX_Q_BASE.EN 1 5 |>.put QMX_Q_BASE.LOG2SZ 5 5 |>.put QMX_Q_EP.CONS 0x15 5 |>.setWords 0x100000 [qHeader 0x51 3, 0x0007003C, 7, 0x030201]|>.setQ 5 { prod := 4, vis := 4 })).dev.qBody ((st (((up.put SPE_STATUS.STATE speUp 1).put SPE_Q.TXQ 5 1).put SPE_Q.RXQ 0 1 |>.put QMX_Q_BASE.EN 1 5 |>.put QMX_Q_BASE.LOG2SZ 5 5 |>.put QMX_Q_EP.CONS 0x15 5 |>.setWords 0x100000 [qHeader 0x51 3, 0x0007003C, 7, 0x030201]|>.setQ 5 { prod := 4, vis := 4 })).dev.get SPE_Q.TXQ 1)).getD 0 0) 10 0 < 60 ∨ 1514 < bitsOf (((st (((up.put SPE_STATUS.STATE speUp 1).put SPE_Q.TXQ 5 1).put SPE_Q.RXQ 0 1 |>.put QMX_Q_BASE.EN 1 5 |>.put QMX_Q_BASE.LOG2SZ 5 5 |>.put QMX_Q_EP.CONS 0x15 5 |>.setWords 0x100000 [qHeader 0x51 3, 0x0007003C, 7, 0x030201]|>.setQ 5 { prod := 4, vis := 4 })).dev.qBody ((st (((up.put SPE_STATUS.STATE speUp 1).put SPE_Q.TXQ 5 1).put SPE_Q.RXQ 0 1 |>.put QMX_Q_BASE.EN 1 5 |>.put QMX_Q_BASE.LOG2SZ 5 5 |>.put QMX_Q_EP.CONS 0x15 5 |>.setWords 0x100000 [qHeader 0x51 3, 0x0007003C, 7, 0x030201]|>.setQ 5 { prod := 4, vis := 4 })).dev.get SPE_Q.TXQ 1)).getD 0 0) 10 0 then stSpeLength else 0, ((st (((up.put SPE_STATUS.STATE speUp 1).put SPE_Q.TXQ 5 1).put SPE_Q.RXQ 0 1 |>.put QMX_Q_BASE.EN 1 5 |>.put QMX_Q_BASE.LOG2SZ 5 5 |>.put QMX_Q_EP.CONS 0x15 5 |>.setWords 0x100000 [qHeader 0x51 3, 0x0007003C, 7, 0x030201]|>.setQ 5 { prod := 4, vis := 4 })).dev.qBody ((st (((up.put SPE_STATUS.STATE speUp 1).put SPE_Q.TXQ 5 1).put SPE_Q.RXQ 0 1 |>.put QMX_Q_BASE.EN 1 5 |>.put QMX_Q_BASE.LOG2SZ 5 5 |>.put QMX_Q_EP.CONS 0x15 5 |>.setWords 0x100000 [qHeader 0x51 3, 0x0007003C, 7, 0x030201]|>.setQ 5 { prod := 4, vis := 4 })).dev.get SPE_Q.TXQ 1)).getD 0 0, ((st (((up.put SPE_STATUS.STATE speUp 1).put SPE_Q.TXQ 5 1).put SPE_Q.RXQ 0 1 |>.put QMX_Q_BASE.EN 1 5 |>.put QMX_Q_BASE.LOG2SZ 5 5 |>.put QMX_Q_EP.CONS 0x15 5 |>.setWords 0x100000 [qHeader 0x51 3, 0x0007003C, 7, 0x030201]|>.setQ 5 { prod := 4, vis := 4 })).after (.speTxRequest 1)), ⟨State.acts_after rfl (by decide +kernel), by decide +kernel⟩⟩,
    ⟨(st (((up).put SPE_STATUS.STATE speUp 1).put SPE_Q.RXQ 0 1|>.setSpe 1 { tx := some (7, [1, 2]) })), 1, 7, [1, 2], ((st (((up).put SPE_STATUS.STATE speUp 1).put SPE_Q.RXQ 0 1|>.setSpe 1 { tx := some (7, [1, 2]) })).after (.speTxDone 1)), ⟨State.acts_after rfl (by decide +kernel), by decide +kernel⟩⟩,
    ⟨(st (((up).put SPE_STATUS.STATE speUp 1).put SPE_Q.RXQ 0 1|>.put QMX_Q_BASE.EN 1 5 |>.put QMX_Q_BASE.LOG2SZ 6 5 |>.put QMX_Q_EP.PROD 0x15 5 |>.put SPE_Q.RXQ 5 1|>.setSpe 1 { tx := some (7, [1, 2]) })), 1, (st (((up).put SPE_STATUS.STATE speUp 1).put SPE_Q.RXQ 0 1|>.put QMX_Q_BASE.EN 1 5 |>.put QMX_Q_BASE.LOG2SZ 6 5 |>.put QMX_Q_EP.PROD 0x15 5 |>.put SPE_Q.RXQ 5 1|>.setSpe 1 { tx := some (7, [1, 2]) })).dev.get SPE_Q.RXQ 1, 7, [1, 2], ((st (((up).put SPE_STATUS.STATE speUp 1).put SPE_Q.RXQ 0 1|>.put QMX_Q_BASE.EN 1 5 |>.put QMX_Q_BASE.LOG2SZ 6 5 |>.put QMX_Q_EP.PROD 0x15 5 |>.put SPE_Q.RXQ 5 1|>.setSpe 1 { tx := some (7, [1, 2]) })).after (.speTxDone 1)), ⟨State.acts_after rfl (by decide +kernel), by decide +kernel⟩⟩,
    ⟨(st (((up).put SPE_STATUS.STATE speUp 1).put SPE_Q.RXQ 0 1)), 1, ⟨0x010000000000, 0x0800, List.replicate 64 3, true, false, false, 99, none⟩, 2, 2, SPE_CNT.CNT_HI, ((st (((up).put SPE_STATUS.STATE speUp 1).put SPE_Q.RXQ 0 1)).after (.speFrameRx 1 (⟨0x010000000000, 0x0800, List.replicate 64 3, true, false, false, 99, none⟩))), ⟨State.acts_after rfl (by decide +kernel), by unfold Dev.takesFrame; decide +kernel⟩⟩,
    ⟨(st (((up).put SPE_STATUS.STATE speUp 1).put SPE_Q.RXQ 0 1|>.put QMX_Q_BASE.EN 1 5 |>.put QMX_Q_BASE.LOG2SZ 6 5 |>.put QMX_Q_EP.PROD 0x15 5 |>.put SPE_Q.RXQ 5 1)), 1, ⟨0x010000000000, 0x0800, List.replicate 64 3, true, true, false, 99, none⟩, (st (((up).put SPE_STATUS.STATE speUp 1).put SPE_Q.RXQ 0 1|>.put QMX_Q_BASE.EN 1 5 |>.put QMX_Q_BASE.LOG2SZ 6 5 |>.put QMX_Q_EP.PROD 0x15 5 |>.put SPE_Q.RXQ 5 1)).dev.get SPE_Q.RXQ 1, ((st (((up).put SPE_STATUS.STATE speUp 1).put SPE_Q.RXQ 0 1|>.put QMX_Q_BASE.EN 1 5 |>.put QMX_Q_BASE.LOG2SZ 6 5 |>.put QMX_Q_EP.PROD 0x15 5 |>.put SPE_Q.RXQ 5 1)).after (.speFrameRx 1 (⟨0x010000000000, 0x0800, List.replicate 64 3, true, true, false, 99, none⟩))), ⟨State.acts_after rfl (by decide +kernel), by unfold Dev.takesFrame; decide +kernel⟩⟩,
    ⟨(st (((up).put SPE_STATUS.STATE speUp 1).put SPE_Q.RXQ 0 1|>.put SPE_CTRL.OLUON 1 1)), 1, ⟨0x010000000000, 0x88B5, List.replicate 64 3, true, true, false, 99, none⟩, ((st (((up).put SPE_STATUS.STATE speUp 1).put SPE_Q.RXQ 0 1|>.put SPE_CTRL.OLUON 1 1)).after (.speFrameRx 1 (⟨0x010000000000, 0x88B5, List.replicate 64 3, true, true, false, 99, none⟩))), ⟨State.acts_after rfl (by decide +kernel), by decide +kernel⟩⟩,
    ⟨(st (((up).put SPE_STATUS.STATE speUp 1).put SPE_Q.RXQ 0 1)), 1, ⟨0x000000000001, 0x0800, List.replicate 64 3, true, true, false, 99, none⟩, ((st (((up).put SPE_STATUS.STATE speUp 1).put SPE_Q.RXQ 0 1)).after (.speFrameRx 1 (⟨0x000000000001, 0x0800, List.replicate 64 3, true, true, false, 99, none⟩))), ⟨State.acts_after rfl (by decide +kernel), by decide +kernel⟩⟩⟩

theorem witness_MailboxChecksComplete :
    (∃ (s : State) (c : Instr) (type : Nat) (n : Nat), ((c, type, n) ∈ mailboxCmds ∨ (c, type) = (.stageWrite, 0x11) ∨ (c, type) = (.keySet, 0x39)) ∧ s.dev.rgr.announce = none ∧ (s.dev.mbxReady = false ∨ s.dev.mbxType ≠ type)) ∧
    (∃ (s : State) (c : Instr) (type : Nat) (n : Nat) (tag : Nat), ((c, type, n) ∈ mailboxCmds ∨ (c, type) = (.stageWrite, 0x11) ∨ (c, type) = (.keySet, 0x39)) ∧ s.dev.mbxReady = true ∧ s.dev.mbxType = type ∧ (s.dev.qx 1).stall = none ∧ tag = (s.dev.qBody 0).getD 0 0 ∧ ((s.dev.rgr.recovery = true ∧ mbxRecovery type = false) ∨ mbxState type s.dev.lcs = false)) ∧
    (∃ (s : State) (c : Instr) (type : Nat) (n : Nat) (tag : Nat) (args : List Nat), ((c, type, n) ∈ mailboxCmds ∧ args.length ≠ n ∨ (c, type) = (.stageWrite, 0x11) ∧ (args.length < 3 ∨ 254 < args.length) ∨ (c, type) = (.keySet, 0x39) ∧ args.length ≠ (if s.dev.lcs = 2 then 4 else 3)) ∧ s.dev.offers type tag args) ∧
    (∃ s : State, s.dev.rgr.announce = none ∧ (s.dev.mbxReady = false ∨ s.dev.mbxType ∈ mbxTypes)) ∧
    (∃ (s : State) (type : Nat) (tag : Nat) (st : Nat), s.dev.mbxReady = true ∧ s.dev.mbxType = type ∧ type ∉ mbxTypes ∧ (s.dev.qx 1).stall = none ∧ tag = (s.dev.qBody 0).getD 0 0 ∧ st = (if s.dev.rgr.recovery then stLcsDenied else stMbxUnknown)) :=
  ⟨⟨(st (up.mbx 99 [7])), .info, 1, 0, by decide +kernel⟩,
    ⟨(st ((up).mbx 16 [7] |> fun d => { d with rgr := { d.rgr with recovery := true } })), .stageOpen, 16, 1, 7, by decide +kernel⟩,
    ⟨(st ((up).mbx 1 [7, 0]|>.put LCS_STATE.STATE 0)), .info, 1, 0, 7, [0], by unfold Dev.offers; decide +kernel⟩,
    ⟨(st up), by decide +kernel⟩,
    ⟨(st ((up).mbx 99 [7])), 99, 7, stMbxUnknown, by decide +kernel⟩⟩

theorem witness_StagingCompletes :
    (∃ (s : State) (c : Instr) (type : Nat) (tag : Nat) (r : Nat) (st : Nat) (args : List Nat), (c, type) ∈ [(.stageOpen, 0x10), (.stageWrite, 0x11), (.store, 0x12)] ∧ s.dev.offers type tag (r :: args) ∧ r < 5 ∧ (if c = .stageWrite then 2 ≤ args.length ∧ args.length ≤ 253 else args = []) ∧ st = s.dev.regionDenied r ∧ st ≠ 0) ∧
    (∃ (s : State) (c : Instr) (type : Nat) (tag : Nat) (r : Nat) (off : Nat) (st : Nat) (args : List Nat) (ws : List Nat), ((c = .stageOpen ∧ type = 0x10 ∧ args = [r] ∧ r < 4 ∧ s.dev.regionDenied r = 0 ∧ s.dev.rgr.stage ≠ none ∧ s.dev.rgr.stage ≠ some r ∧ st = stNvmBusy) ∨ (c = .calCapture ∧ type = 0x14 ∧ args = [] ∧ s.dev.rgr.stage ≠ none ∧ s.dev.rgr.stage ≠ some 1 ∧ st = stNvmBusy) ∨ ((c, type) ∈ [(.store, 0x12), (.stageDiscard, 0x13)] ∧ args = [r] ∧ r < 4 ∧ s.dev.regionDenied r = 0 ∧ s.dev.rgr.stage ≠ some r ∧ st = stNvmNotStaged) ∨ (c = .stageWrite ∧ type = 0x11 ∧ args = r :: off :: ws ∧ 1 ≤ ws.length ∧ ws.length ≤ 252 ∧ r < 4 ∧ s.dev.regionDenied r = 0 ∧ st = (if s.dev.rgr.stage ≠ some r then stNvmNotStaged else if off % 4 ≠ 0 ∨ slotSize r - 4 < off + 4 * ws.length then stNvmRange else 0) ∧ st ≠ 0)) ∧ s.dev.offers type tag args) ∧
    (∃ (s : State) (tag : Nat) (r : Nat) (t : Nat), s.dev.offers 0x10 tag [r] ∧ r < 4 ∧ s.dev.regionDenied r = 0 ∧ (s.dev.rgr.stage = none ∨ s.dev.rgr.stage = some r) ∧ t = s.nv.target r) ∧
    (∃ (s : State) (tag : Nat) (r : Nat) (off : Nat) (t : Nat) (ws : List Nat), s.dev.offers 0x11 tag (r :: off :: ws) ∧ 1 ≤ ws.length ∧ ws.length ≤ 252 ∧ r < 4 ∧ s.dev.regionDenied r = 0 ∧ s.dev.rgr.stage = some r ∧ off % 4 = 0 ∧ off + 4 * ws.length ≤ slotSize r - 4 ∧ t = slotBase r (s.nv.target r) + off) ∧
    (∃ (s : State) (tag : Nat) (r : Nat) (n : Nat) (t : Nat), s.dev.offers 0x12 tag [r] ∧ r < 4 ∧ s.dev.regionDenied r = 0 ∧ s.dev.rgr.stage = some r ∧ t = s.nv.target r ∧ n = slotBase r t + slotSize r - 4) ∧
    (∃ (s : State) (tag : Nat) (r : Nat), s.dev.offers 0x13 tag [r] ∧ r < 5 ∧ s.dev.rgr.stage = some r) ∧
    (∃ (s : State) (tag : Nat) (t : Nat), s.dev.offers 0x14 tag [] ∧ s.dev.rgr.stage = some 1 ∧ t = slotBase 1 (s.nv.target 1)) :=
  ⟨⟨(st ((up).mbx 16 [7, 4])), .stageOpen, 0x10, 7, 4, stLcsDenied, [], by unfold Dev.offers; decide +kernel⟩,
    ⟨(st ((up).mbx 16 [7, 2]|> fun d => { d with rgr := { d.rgr with stage := some 1 } })), .stageOpen, 0x10, 7, 2, 0, stNvmBusy, [2], [], by unfold Dev.offers; decide +kernel⟩,
    ⟨(st ((up).mbx 16 [7, 2])), 7, 2, (st ((up).mbx 16 [7, 2])).nv.target (2), by unfold Dev.offers; decide +kernel⟩,
    ⟨(st ((up).mbx 17 [7, 2, 0x3FF4, 5, 6]|> fun d => { d with rgr := { d.rgr with stage := some 2 } })), 7, 2, 0x3FF4, slotBase (2) ((st ((up).mbx 17 [7, 2, 0x3FF4, 5, 6]|> fun d => { d with rgr := { d.rgr with stage := some 2 } })).nv.target (2)) + (0x3FF4), [5, 6], by unfold Dev.offers; decide +kernel⟩,
    ⟨(st ((up).mbx 18 [7, 2]|> fun d => { d with rgr := { d.rgr with stage := some 2 } })), 7, 2, slotBase (2) ((st ((up).mbx 18 [7, 2]|> fun d => { d with rgr := { d.rgr with stage := some 2 } })).nv.target (2)) + slotSize (2) - 4, (st ((up).mbx 18 [7, 2]|> fun d => { d with rgr := { d.rgr with stage := some 2 } })).nv.target (2), by unfold Dev.offers; decide +kernel⟩,
    ⟨(st ((up).mbx 19 [7, 2]|> fun d => { d with rgr := { d.rgr with stage := some 2 } })), 7, 2, by unfold Dev.offers; decide +kernel⟩,
    ⟨(st ((up).mbx 20 [7]|> fun d => { d with rgr := { d.rgr with stage := some 1 } })), 7, slotBase 1 ((st ((up).mbx 20 [7]|> fun d => { d with rgr := { d.rgr with stage := some 1 } })).nv.target 1), by unfold Dev.offers; decide +kernel⟩⟩

theorem witness_HoopFreeCompletes :
    (∃ (s : State) (tag : Nat) (k : Nat) (e1 : Nat × Nat), s.dev.offers 0x22 tag [k] ∧ k < 32 ∧ s.dev.hoopEntry k = (true, e1) ∧ s.dev.spanUsed e1.1 e1.2 = false ∧ s.dev.qAddr 1 + 4 * s.dev.qSize 1 ≤ 0x180000) ∧
    (∃ (s : State) (tag : Nat) (k : Nat) (e1 : Nat × Nat), s.dev.offers 0x22 tag [k] ∧ k < 32 ∧ s.dev.hoopEntry k = (true, e1) ∧ s.dev.spanUsed e1.1 e1.2 = true) :=
  ⟨⟨(st ((up).mbx 34 [7, 3]|>.hoop3)), 7, 3, (0x1000, 0x1051), by unfold Dev.offers; decide +kernel⟩,
    ⟨(st ((up).mbx 34 [7, 3]|>.hoop3|>.setVat 0 { hoop := some 0x1000 }|>.put VAT_STATUS.STATE vsRun 0 |>.put VAT_PC.PC 0x1050 0|>.put VAT_ENTRY.ENTRY 0x1050 0)), 7, 3, (0x1000, 0x1051), by unfold Dev.offers; decide +kernel⟩⟩

theorem witness_HoopCommandsComplete :
    (∃ (s : State) (tag : Nat) (src : Nat) (len : Nat) (base : Nat), s.dev.offers 0x20 tag [src, len, base] ∧ s.image src len = none) ∧
    (∃ (s : State) (tag : Nat) (src : Nat) (len : Nat) (base : Nat) (k : Nat) (b : Nat) (bs : List Byte) (ws : List Nat), s.dev.offers 0x20 tag [src, len, base] ∧ s.image src len = some bs ∧ s.dev.hoopFreeEntry = some k ∧ spanFor s.dev.hoopSpans base (imgEnd bs) = some b ∧ imgLoaded bs b = (ws, true)) ∧
    (∃ (s : State) (tag : Nat) (src : Nat) (len : Nat) (base : Nat) (k : Nat) (m : Nat) (bs : List Byte), s.dev.offers 0x21 tag [src, len, base, m] ∧ s.image src len = some bs ∧ (maskIds (m % 65536)).all (bitOf (imgMask bs)) = true ∧ s.dev.contractClash (m % 65536) (imgContract bs) = false ∧ s.dev.hoopResident bs = some k ∧ bitOf m 16 = false) ∧
    (∃ (s : State) (tag : Nat) (src : Nat) (len : Nat) (base : Nat) (k : Nat) (m : Nat) (bs : List Byte), s.dev.offers 0x21 tag [src, len, base, m] ∧ s.image src len = some bs ∧ (maskIds (m % 65536)).all (bitOf (imgMask bs)) = true ∧ s.dev.contractClash (m % 65536) (imgContract bs) = false ∧ s.dev.hoopResident bs = some k ∧ bitOf m 16 = true) ∧
    (∃ (s : State) (tag : Nat) (src : Nat) (len : Nat) (base : Nat) (m : Nat) (bs : List Byte), s.dev.offers 0x21 tag [src, len, base, m] ∧ s.image src len = some bs ∧ (imgCheck s.dev.lcs s.nv.keys false bs).1 ≠ 0) ∧
    (∃ s : State, s.dev.rgr.joint = none) ∧
    (∃ (s : State) (j : Joint), s.dev.rgr.joint = some j ∧ (∃ v : Fin 16, bitOf j.mask v = true ∧ s.dev.vst v ≠ vsStopped)) ∧
    (∃ (s : State) (j : Joint), s.dev.rgr.joint = some j ∧ (∀ v : Nat, v < 16 → bitOf j.mask v = true → s.dev.vst v = vsStopped) ∧ s.dev.tick ≤ j.stopAt ∧ s.dev.rgr.halted = false ∧ s.dev.entering = false ∧ s.dev.qTakes 1 epRanger 3 = true ∧ (s.dev.qx 1).stall = none) ∧
    (∃ (s : State) (j : Joint), s.dev.rgr.joint = some j ∧ (∀ v : Nat, v < 16 → bitOf j.mask v = true → s.dev.vst v = vsStopped) ∧ s.dev.tick < j.stopAt) ∧
    (∃ (s : State) (j : Joint), s.dev.rgr.joint = some j ∧ (∃ v : Fin 16, bitOf j.mask v = true ∧ s.dev.vst v = vsFault) ∧ s.dev.qTakes 1 epRanger 2 = true ∧ s.dev.entering = false ∧ (s.dev.qx 1).stall = none) ∧
    (∃ (s : State) (tag : Nat) (src : Nat) (len : Nat) (base : Nat) (pos : Nat), s.dev.offers 0x23 tag [0, src, len, base] ∧ s.dev.rgr.stage = some 0 ∧ src = 0xFFFFFF00 + pos ∧ pos < 8 ∧ (s.nv.bootEntry (s.nv.target 0) pos).1 = true) ∧
    (∃ (s : State) (tag : Nat) (src : Nat) (len : Nat) (base : Nat) (k : Nat), s.dev.offers 0x23 tag [k, src, len, base] ∧ k < 2 ∧ s.dev.rgr.stage ≠ some 0) ∧
    (∃ (s : State) (tag : Nat) (src : Nat) (len : Nat) (base : Nat) (b : Nat) (off : Nat) (pos : Nat) (bs : List Byte) (ws : List Nat), s.dev.offers 0x23 tag [1, src, len, base] ∧ s.dev.rgr.stage = some 0 ∧ s.image src len = some bs ∧ (List.range 8).find? (fun i => !(s.nv.bootEntry (s.nv.target 0) i).1) = some pos ∧ bootPlace (s.nv.bootSpans (s.nv.target 0)) bs.length = some off ∧ off < 0x60000 ∧ spanFor (s.nv.bootLoads (s.nv.target 0)) base (imgEnd bs) = some b ∧ imgLoaded bs b = (ws, true)) ∧
    (∃ (s : State) (tag : Nat) (k : Nat), s.dev.offers 0x22 tag [k] ∧ k < 32 ∧ (s.dev.hoopEntry k).1 = false) ∧
    (∃ (s : State) (tag : Nat) (len : Nat) (k : Nat) (b : Nat), s.dev.offers 0x22 tag [k] ∧ k < 32 ∧ s.dev.hoopEntry k = (true, b, len)) :=
  ⟨⟨(st ((up).mbx 32 [7, 5, 324, 0x1000])), 7, 5, 324, 0x1000, by unfold Dev.offers; decide +kernel⟩,
    ⟨(st ((up).mbx 32 [7, 0x140000, 324, 0x1000]|>.setWords 0x140000 hoopWords)), 7, 0x140000, 324, 0x1000, 0, 0x1000, hoopBytes, (imgLoaded (hoopBytes) (0x1000)).1, by unfold Dev.offers; decide +kernel⟩,
    ⟨(st ((up).mbx 33 [7, 0x140000, 324, 0x1000, 1]|>.setWords 0x140000 hoopWords|>.hoop3)), 7, 0x140000, 324, 0x1000, 3, 1, hoopBytes, by unfold Dev.offers; decide +kernel⟩,
    ⟨(st ((up).mbx 33 [7, 0x140000, 324, 0x1000, 0x10001]|>.setWords 0x140000 hoopWords|>.hoop3)), 7, 0x140000, 324, 0x1000, 3, 0x10001, hoopBytes, by unfold Dev.offers; decide +kernel⟩,
    ⟨(st ((up).mbx 33 [7, 0x140000, 4, 0x1000, 1])), 7, 0x140000, 4, 0x1000, 1, [0, 0, 0, 0], by unfold Dev.offers; decide +kernel⟩,
    ⟨(st up), by decide +kernel⟩,
    ⟨(st (up.mbx 0 []|> fun d => { d with rgr := { d.rgr with joint := some { entry := 3, mask := 3, stopAt := 99, tag := 7, cmd := 0x21 } } }|>.put VAT_STATUS.STATE vsRun 1)), { entry := 3, mask := 3, stopAt := 99, tag := 7, cmd := 0x21 }, by decide +kernel⟩,
    ⟨(st ((up.mbx 0 []|>.hoop3|> fun d => { d with rgr := { d.rgr with joint := some { entry := 3, mask := 3, stopAt := 99, tag := 7, cmd := 0x21 } } }))), { entry := 3, mask := 3, stopAt := 99, tag := 7, cmd := 0x21 }, by decide +kernel⟩,
    ⟨(st (up.mbx 0 []|> fun d => { d with rgr := { d.rgr with joint := some { entry := 3, mask := 3, stopAt := 99, tag := 7, cmd := 0x21 } } })), { entry := 3, mask := 3, stopAt := 99, tag := 7, cmd := 0x21 }, by decide +kernel⟩,
    ⟨(st (up.mbx 0 []|> fun d => { d with rgr := { d.rgr with joint := some { entry := 3, mask := 3, stopAt := 99, tag := 7, cmd := 0x21 } } }|>.put VAT_STATUS.STATE vsFault 1)), { entry := 3, mask := 3, stopAt := 99, tag := 7, cmd := 0x21 }, by decide +kernel⟩,
    ⟨(let s := st ((up).mbx 35 [7, 0, 0xFFFFFF00, 324, 0x1000]|> fun d => { d with rgr := { d.rgr with stage := some 0 } }); { s with nv := s.nv.setWord (slotBase 0 0 + bootDir + 12) 1 }), 7, 0xFFFFFF00, 324, 0x1000, 0, by unfold Dev.offers; decide +kernel⟩,
    ⟨(st ((up).mbx 35 [7, 1, 0x140000, 324, 0x1000]|>.setWords 0x140000 hoopWords)), 7, 0x140000, 324, 0x1000, 1, by unfold Dev.offers; decide +kernel⟩,
    ⟨(st ((up).mbx 35 [7, 1, 0x140000, 324, 0x1000]|>.setWords 0x140000 hoopWords|> fun d => { d with rgr := { d.rgr with stage := some 0 } })), 7, 0x140000, 324, 0x1000, 0x1000, (bootPlace ((st ((up).mbx 35 [7, 1, 0x140000, 324, 0x1000]|>.setWords 0x140000 hoopWords|> fun d => { d with rgr := { d.rgr with stage := some 0 } })).nv.bootSpans ((st ((up).mbx 35 [7, 1, 0x140000, 324, 0x1000]|>.setWords 0x140000 hoopWords|> fun d => { d with rgr := { d.rgr with stage := some 0 } })).nv.target 0)) (hoopBytes).length).getD 0, 0, hoopBytes, (imgLoaded (hoopBytes) (0x1000)).1, by unfold Dev.offers; decide +kernel⟩,
    ⟨(st ((up).mbx 34 [7, 3])), 7, 3, by unfold Dev.offers; decide +kernel⟩,
    ⟨(st ((up).mbx 34 [7, 3]|>.hoop3)), 7, ((st ((up).mbx 34 [7, 3]|>.hoop3)).dev.hoopEntry 3).2.2, 3, ((st ((up).mbx 34 [7, 3]|>.hoop3)).dev.hoopEntry 3).2.1, by unfold Dev.offers; decide +kernel⟩⟩

theorem witness_RangerServicesComplete :
    (∃ (s : State) (tag : Nat), s.dev.offers 0x01 tag []) ∧
    (∃ (s : State) (tag : Nat) (a : Nat), s.dev.offers 0x30 tag [a] ∧ s.nv.usable (a % 16) = false) ∧
    (∃ (s : State) (tag : Nat) (a : Nat), s.dev.offers 0x30 tag [a] ∧ s.nv.usable (a % 16) = true ∧ bitOf a 8 = true ∧ s.dev.rgr.stage ≠ none) ∧
    (∃ (s : State) (tag : Nat) (a : Nat) (p : Nat), s.dev.offers 0x30 tag [a] ∧ p = a % 16 ∧ s.nv.usable p = true ∧ (bitOf a 8 = false ∨ s.dev.rgr.stage = none) ∧ s.dev.noneHeld ∧ (∀ c : Nat, c < 9 → s.dev.carrierOn c = false)) ∧
    (∃ (s : State) (tag : Nat) (a : Nat) (i : Nat), s.dev.offers 0x38 tag [a] ∧ i = a % 8 ∧ 1 ≤ i ∧ i ≤ 4 ∧ s.nv.key (15 + i) ≠ none ∧ bitOf a 8 = false) ∧
    (∃ (s : State) (tag : Nat) (a : Nat) (i : Nat) (addr : Nat) (n : Nat), s.dev.offers 0x38 tag [a] ∧ i = a % 8 ∧ 1 ≤ i ∧ i ≤ 4 ∧ s.nv.key (15 + i) ≠ none ∧ bitOf a 8 = true ∧ n = s.nv.word ctrEpoch + 1 ∧ addr = (Config.meshAddress s.nv.serialBytes n).toNat) ∧
    (∃ (s : State) (tag : Nat) (a : Nat) (i : Nat), s.dev.offers 0x38 tag [a] ∧ (i = a % 8 ∧ (i = 0 ∨ 4 < i ∨ s.nv.key (15 + i) = none))) ∧
    (∃ (s : State) (tag : Nat) (i : Nat) (addr : Nat) (r : Nat) (len : Nat) (key : List Byte) (rest : List Nat), s.dev.offers 0x39 tag (i :: len :: addr :: rest) ∧ (s.dev.lcs = 2 ∧ rest = [r] ∧ sramOk r 136 = true ∨ s.dev.lcs ≠ 2 ∧ rest = []) ∧ keyLength i = some len ∧ sramOk addr len = true ∧ key = s.dev.bytes addr len ∧ s.dev.rgr.stage = none) ∧
    (∃ (s : State) (tag : Nat) (i : Nat) (addr : Nat) (len : Nat) (rest : List Nat), s.dev.offers 0x39 tag (i :: len :: addr :: rest) ∧ s.dev.lcs < 2 ∧ rest = [] ∧ keyLength i = some len ∧ sramOk addr len = true ∧ s.dev.rgr.stage ≠ none) ∧
    (∃ (s : State) (n : Nat) (d : Dev), s.acts .snsTrngRead d ∧ d.get SNS_TRNG_ST.READY = 1 ∧ d.rgr.trngAt ≤ d.tick ∧ n = (Config.trngWord d.fresh).toNat) ∧
    (∃ (s : State) (d : Dev), s.acts .snsTrngRead d ∧ (d.get SNS_TRNG_ST.READY = 0 ∨ d.tick < d.rgr.trngAt)) ∧
    (∃ (s : State) (d : Dev), s.acts .trngHealthFail d) ∧
    (∃ (s : State) (d : Dev), s.acts .trngHealthPass d) ∧
    (∃ (s : State) (d : Dev), s.acts .mgtLogRead d ∧ d.log.find (d.get MGT_LOG_IDX.SEQ) = none) ∧
    (∃ (s : State) (n : Nat) (t : Nat) (x : LogEntry) (d : Dev), s.acts .mgtLogRead d ∧ d.log.find (d.get MGT_LOG_IDX.SEQ) = some x ∧ x.detail = [n, t]) :=
  ⟨⟨(st ((up).mbx 1 [7])), 7, by unfold Dev.offers; decide +kernel⟩,
    ⟨(st ((up).mbx 48 [7, 5])), 7, 5, by unfold Dev.offers; decide +kernel⟩,
    ⟨({ st ((up.mbx 0x30 [7, 0x105]) |> fun d => { d with rgr := { stage := some 1 } }) with nv := rguFive }), 7, 0x105, by exact ⟨by unfold Dev.offers; decide +kernel, rguFive_usable, by decide +kernel, by decide +kernel⟩⟩,
    ⟨({ st (up.mbx 0x30 [7, 5]) with nv := rguFive }), 7, 5, 5, by exact ⟨by unfold Dev.offers; decide +kernel, rfl, rguFive_usable, Or.inl (by decide +kernel), by unfold Dev.noneHeld; decide +kernel, by decide +kernel⟩⟩,
    ⟨(let s := st ((up).mbx 56 [7, 1]); { s with nv := { s.nv with keys := [(16, [1])] } }), 7, 1, 1, by unfold Dev.offers; decide +kernel⟩,
    ⟨(let s := st ((up).mbx 56 [7, 0x104]|>.put MSH_FCOUT.FC 9); { s with nv := { s.nv with keys := [(19, [1])] } }), 7, 0x104, 4, (Config.meshAddress (st up).nv.serialBytes 1).toNat, 1, by unfold Dev.offers; exact ⟨by decide +kernel, by decide +kernel, by decide +kernel, by decide +kernel, by decide +kernel, by decide +kernel, by decide +kernel, rfl⟩⟩,
    ⟨(st ((up).mbx 56 [7, 0])), 7, 0, (st ((up).mbx 56 [7, 0])).dev.get MSH_FCOUT.FC, by unfold Dev.offers; decide +kernel⟩,
    ⟨(st ((up).mbx 57 [7, 17, 16, 0x140000]|>.setWord 0x140000 5)), 7, 17, 0x140000, 0x140000, 16, (st ((up).mbx 57 [7, 17, 16, 0x140000]|>.setWord 0x140000 5)).dev.bytes 0x140000 16, [], by unfold Dev.offers; decide +kernel⟩,
    ⟨(st ((up).mbx 57 [7, 17, 16, 0x140000]|> fun d => { d with rgr := { d.rgr with stage := some 2 } })), 7, 17, 0x140000, 16, [], by unfold Dev.offers; decide +kernel⟩,
    ⟨(st (up.put SNS_TRNG_ST.READY 1)), (Config.trngWord (st (up.put SNS_TRNG_ST.READY 1)).dev.fresh).toNat, ((st (up.put SNS_TRNG_ST.READY 1)).after .snsTrngRead), ⟨State.acts_after rfl (by decide +kernel), by exact ⟨rfl, by decide +kernel, rfl⟩⟩⟩,
    ⟨(st up), ((st up).after .snsTrngRead), ⟨State.acts_after rfl (by decide +kernel), by decide +kernel⟩⟩,
    ⟨(st up), ((st up).after .trngHealthFail), State.acts_after rfl (by decide +kernel)⟩,
    ⟨(st up), ((st up).after .trngHealthPass), State.acts_after rfl (by decide +kernel)⟩,
    ⟨(st up), ((st up).after .mgtLogRead), ⟨State.acts_after rfl (by decide +kernel), by decide +kernel⟩⟩,
    ⟨(st { (up.put MGT_LOG_IDX.SEQ 9) with log := { ram := [{ seq := 9, hw := 5, sev := 1, block := 7, inst := 3, code := 4, detail := [5, 6] }] } }), 5, 6, { seq := 9, hw := 5, sev := 1, block := 7, inst := 3, code := 4, detail := [5, 6] }, ((st { (up.put MGT_LOG_IDX.SEQ 9) with log := { ram := [{ seq := 9, hw := 5, sev := 1, block := 7, inst := 3, code := 4, detail := [5, 6] }] } }).after .mgtLogRead), ⟨State.acts_after rfl (by decide +kernel), by decide +kernel⟩⟩⟩

theorem witness_FirmwareCompletes :
    (∃ (s : State) (tag : Nat) (off : Nat) (addr : Nat) (len : Nat) (slot : Nat), s.dev.offers 0x40 tag [off, addr, len] ∧ sramOk addr len = true ∧ 0 < len ∧ off % 4 = 0 ∧ off + len ≤ 393216 ∧ slot = 1 - s.dev.get NVM_BOOT.RUNNING) ∧
    (∃ (s : State) (tag : Nat) (off : Nat) (addr : Nat) (len : Nat), s.dev.offers 0x40 tag [off, addr, len] ∧ sramOk addr len = true ∧ 0 < len ∧ (off % 4 ≠ 0 ∨ 393216 < off + len)) ∧
    (∃ (s : State) (tag : Nat) (slot : Nat) (st : Nat), s.dev.offers 0x41 tag [] ∧ slot = 1 - s.dev.get NVM_BOOT.RUNNING ∧ st = (if s.nv.fwFormat slot = false then stFwFormat else if s.nv.fwSvn slot < s.nv.word ctrRollback then stNvmRollback else if s.nv.fwSigned s.dev.lcs slot = false then stNvmSigFail else 0)) ∧
    (∃ (s : State) (tag : Nat) (boot : Nat), s.dev.offers 0x42 tag [] ∧ boot = s.nv.word ctrBoot ∧ bitOf boot 1 = false) ∧
    (∃ (s : State) (tag : Nat) (boot : Nat) (t : Nat), s.dev.offers 0x42 tag [] ∧ boot = s.nv.word ctrBoot ∧ bitOf boot 1 = true ∧ t = max (s.nv.word ctrRollback) (s.nv.fwSvn (s.dev.get NVM_BOOT.RUNNING))) ∧
    (∃ s : State, s.dev.rgr.trialFrom = none) ∧
    (∃ (s : State) (t : Nat) (d : Dev), s.dev.rgr.trialFrom = some t ∧ d = (s.dev.toTick (t + msTicks 60000)).loadLost) ∧
    (∃ s : State, s.dev.rgr.down = false) ∧
    (∃ (s : State) (lcs : Nat) (cause : Nat) (n : Nv) (pick : Option Nat) (back : Bool) (trial : Bool), s.dev.rgr.down = true ∧ lcs = min 3 s.nv.fuses ∧ (lcs < 3 ∨ 2 ≤ s.nv.word ctrErase) ∧ (n, pick, back, trial) = s.nv.romBoot lcs ∧ s.dev.get SYS_STRAP.RCVRY = 0 ∧ cause = (if back then 4 else s.dev.rgr.cause)) ∧
    (∃ s : State, s.dev.rgr.down = true ∧ 3 ≤ s.nv.fuses ∧ s.nv.word ctrErase < 2) :=
  ⟨⟨(st ((up).mbx 64 [7, 4, 0x140000, 5]|>.setWord 0x140000 5)), 7, 4, 0x140000, 5, 1, by unfold Dev.offers; decide +kernel⟩,
    ⟨(st ((up).mbx 64 [7, 2, 0x140000, 5])), 7, 2, 0x140000, 5, by unfold Dev.offers; decide +kernel⟩,
    ⟨(st ((up).mbx 65 [7])), 7, 1, (if (st ((up).mbx 65 [7])).nv.fwFormat 1 = false then stFwFormat else if (st ((up).mbx 65 [7])).nv.fwSvn 1 < (st ((up).mbx 65 [7])).nv.word ctrRollback then stNvmRollback else if (st ((up).mbx 65 [7])).nv.fwSigned (st ((up).mbx 65 [7])).dev.lcs 1 = false then stNvmSigFail else 0), by unfold Dev.offers; decide +kernel⟩,
    ⟨(let s := st ((up).mbx 66 [7]); { s with nv := s.nv.setWord ctrBoot 1 }), 7, 1, by unfold Dev.offers; decide +kernel⟩,
    ⟨(let s := st ((up).mbx 66 [7]); { s with nv := ((s.nv.setWord ctrBoot 6).setWord 8 5).setWord ctrRollback 3 }), 7, 6, max (((let s := st ((up).mbx 66 [7]); { s with nv := ((s.nv.setWord ctrBoot 6).setWord 8 5).setWord ctrRollback 3 })).nv.word ctrRollback) (((let s := st ((up).mbx 66 [7]); { s with nv := ((s.nv.setWord ctrBoot 6).setWord 8 5).setWord ctrRollback 3 })).nv.fwSvn (((let s := st ((up).mbx 66 [7]); { s with nv := ((s.nv.setWord ctrBoot 6).setWord 8 5).setWord ctrRollback 3 })).dev.get NVM_BOOT.RUNNING)), by unfold Dev.offers; decide +kernel⟩,
    ⟨(st up), by decide +kernel⟩,
    ⟨(st { up with rgr := { trialFrom := some 5 } }), 5, (((st { up with rgr := { trialFrom := some 5 } }).dev.toTick ((5 : Nat) + msTicks 60000)).loadLost), by and_intros <;> first | decide +kernel | rfl⟩,
    ⟨(st up), by decide +kernel⟩,
    ⟨(st (up.mbx 0 []|> fun d => { d with rgr := { d.rgr with down := true } })), 0, if ((st (up.mbx 0 []|> fun d => { d with rgr := { d.rgr with down := true } })).nv.romBoot 0).2.2.1 then 4 else (st (up.mbx 0 []|> fun d => { d with rgr := { d.rgr with down := true } })).dev.rgr.cause, ((st (up.mbx 0 []|> fun d => { d with rgr := { d.rgr with down := true } })).nv.romBoot 0).1, ((st (up.mbx 0 []|> fun d => { d with rgr := { d.rgr with down := true } })).nv.romBoot 0).2.1, ((st (up.mbx 0 []|> fun d => { d with rgr := { d.rgr with down := true } })).nv.romBoot 0).2.2.1, ((st (up.mbx 0 []|> fun d => { d with rgr := { d.rgr with down := true } })).nv.romBoot 0).2.2.2, by decide +kernel⟩,
    ⟨(let s := st (up|> fun d => { d with rgr := { d.rgr with down := true } }); { s with nv := { ((s.nv.setWord (ctrGen 2 0) 5).setWord 0x0C0000 5).setWord ctrErase 1 with fuses := 3, keys := [(3, [1]), (33, [1])] } }), by decide +kernel⟩⟩

theorem witness_LifeCycleAdvanceCompletes :
    (∃ (s : State) (tag : Nat) (t : Nat), s.dev.offers 0x50 tag [t] ∧ t ≠ s.dev.lcs + 1) ∧
    (∃ (s : State) (tag : Nat) (t : Nat), s.dev.offers 0x50 tag [t] ∧ t = s.dev.lcs + 1 ∧ (s.dev.rgr.stage ≠ none ∨ (t = 2 ∧ (s.nv.usableMask = 0 ∨ s.nv.key 9 = none)))) ∧
    (∃ (s : State) (tag : Nat) (t : Nat), s.dev.offers 0x50 tag [t] ∧ t = s.dev.lcs + 1 ∧ s.dev.rgr.stage = none ∧ (t ≠ 2 ∨ (s.nv.usableMask ≠ 0 ∧ s.nv.key 9 ≠ none)) ∧ s.dev.rst.asserted = false) :=
  ⟨⟨(st ((up).mbx 80 [7, 2])), 7, 2, by unfold Dev.offers; decide +kernel⟩,
    ⟨(st ((up).mbx 80 [7, 1]|> fun d => { d with rgr := { d.rgr with stage := some 1 } })), 7, 1, by unfold Dev.offers; decide +kernel⟩,
    ⟨(st ((up).mbx 80 [7, 1])), 7, 1, by unfold Dev.offers; decide +kernel⟩⟩

theorem witness_LifeCycleCommandsComplete :
    (∃ (s : State) (tag : Nat) (a : Nat) (len : Nat) (nonce : List Nat) (key : List Byte), s.dev.offers 0x48 tag (a :: nonce) ∧ nonce.length = 8 ∧ len = 256 + 72 * s.dev.hoopSpans.length + 136 ∧ sramOk a len = true ∧ s.nv.key 32 = some key ∧ (a + len ≤ s.dev.qAddr 1 ∨ s.dev.qAddr 1 + 4 * s.dev.qSize 1 ≤ a)) ∧
    (∃ (s : State) (tag : Nat) (a : Nat) (nonce : List Nat), s.dev.offers 0x48 tag (a :: nonce) ∧ nonce.length = 8 ∧ sramOk a (256 + 72 * s.dev.hoopSpans.length + 136) = true ∧ s.nv.key 32 = none) ∧
    (∃ (s : State) (tag : Nat) (a : Nat) (key : List Byte) (cert : List Byte), s.dev.offers 0x49 tag [a] ∧ sramOk a 285 = true ∧ s.nv.key 32 = some key ∧ s.nv.key 33 = some cert ∧ cert.length = 285 ∧ (a + 285 ≤ s.dev.qAddr 1 ∨ s.dev.qAddr 1 + 4 * s.dev.qSize 1 ≤ a)) ∧
    (∃ (s : State) (tag : Nat) (a : Nat), s.dev.offers 0x49 tag [a] ∧ sramOk a 285 = true ∧ (s.nv.key 32 = none ∨ s.nv.key 33 = none)) ∧
    (∃ (s : State) (tag : Nat) (a : Nat), s.dev.offers 0x51 tag [a] ∧ sramOk a 136 = true ∧ s.nv.key 9 = none) ∧
    (∃ (s : State) (tag : Nat) (a : Nat) (key : List Byte), s.dev.offers 0x51 tag [a] ∧ sramOk a 136 = true ∧ s.nv.key 9 = some key) ∧
    (∃ (s : State) (tag : Nat) (a : Nat), s.dev.offers 0x52 tag [a] ∧ sramOk a 328 = true ∧ s.dev.rgr.challenge = []) ∧
    (∃ (s : State) (tag : Nat) (a : Nat) (tok : List Byte), s.dev.offers 0x52 tag [a] ∧ sramOk a 328 = true ∧ tok = s.dev.bytes a 328 ∧ s.dev.rgr.challenge ≠ [] ∧ (imgWord tok 0 ≠ 0x4E525452 ∨ (tok.drop 8).take 16 ≠ s.nv.serialBytes ∨ (tok.drop 24).take 32 ≠ s.dev.rgr.challenge)) ∧
    (∃ (s : State) (tag : Nat) (a : Nat) (key : List Byte) (tok : List Byte), s.dev.offers 0x52 tag [a] ∧ sramOk a 328 = true ∧ tok = s.dev.bytes a 328 ∧ s.dev.rgr.challenge ≠ [] ∧ imgWord tok 0 = 0x4E525452 ∧ (tok.drop 8).take 16 = s.nv.serialBytes ∧ (tok.drop 24).take 32 = s.dev.rgr.challenge ∧ key = (tok.drop 56).take 133) ∧
    (∃ (s : State) (tag : Nat) (a : Nat), s.dev.offers 0x50 tag [a] ∧ a = s.dev.lcs + 1 ∧ s.dev.rgr.stage = none ∧ (a ≠ 2 ∨ (s.nv.usableMask ≠ 0 ∧ s.nv.key 9 ≠ none)) ∧ s.dev.rst.asserted = false) :=
  ⟨⟨(let s := st ((up).mbx 72 [7, 0x140000, 1, 2, 3, 4, 5, 6, 7, 8]|>.hoop3); { s with nv := { s.nv with keys := [(32, [1])] } }), 7, 0x140000, 464, [1, 2, 3, 4, 5, 6, 7, 8], [1], by unfold Dev.offers; decide +kernel⟩,
    ⟨(st ((up).mbx 72 [7, 0x140000, 1, 2, 3, 4, 5, 6, 7, 8])), 7, 0x140000, [1, 2, 3, 4, 5, 6, 7, 8], by unfold Dev.offers; decide +kernel⟩,
    ⟨(let s := st ((up).mbx 73 [7, 0x140000]); { s with nv := { s.nv with keys := [(32, [1]), (33, List.replicate 285 3)] } }), 7, 0x140000, [1], List.replicate 285 3, by unfold Dev.offers; decide +kernel⟩,
    ⟨(let s := st ((up).mbx 73 [7, 0x140000]); { s with nv := { s.nv with keys := [(33, [1])] } }), 7, 0x140000, by unfold Dev.offers; decide +kernel⟩,
    ⟨(st ((up).mbx 81 [7, 0x140000]|>.put LCS_STATE.STATE 2)), 7, 0x140000, by unfold Dev.offers; decide +kernel⟩,
    ⟨(let s := st ((up).mbx 81 [7, 0x140000]|>.put LCS_STATE.STATE 2); { s with nv := { s.nv with keys := [(9, [1])] } }), 7, 0x140000, [1], by unfold Dev.offers; decide +kernel⟩,
    ⟨(st ((up).mbx 82 [7, 0x140000]|>.put LCS_STATE.STATE 2)), 7, 0x140000, by unfold Dev.offers; decide +kernel⟩,
    ⟨(st ((up).mbx 82 [7, 0x140000]|>.put LCS_STATE.STATE 2|> fun d => { d with rgr := { d.rgr with challenge := List.replicate 32 0 } })), 7, 0x140000, (st ((up).mbx 82 [7, 0x140000]|>.put LCS_STATE.STATE 2|> fun d => { d with rgr := { d.rgr with challenge := List.replicate 32 0 } })).dev.bytes 0x140000 328, by unfold Dev.offers; decide +kernel⟩,
    ⟨(st { ((up.mbx 0x52 [7, 0x140000]).put LCS_STATE.STATE 2).setWord 0x140000 0x4E525452 with rgr := { challenge := List.replicate 32 0 } }), 7, 0x140000, List.replicate 133 0, wordBytes 0x4E525452 ++ List.replicate 324 0, by unfold Dev.offers; decide +kernel⟩,
    ⟨(st ((up).mbx 80 [7, 1])), 7, 1, by unfold Dev.offers; decide +kernel⟩⟩

theorem witness_HostLinkCompletes :
    (∃ (s : State) (b : Bool) (d : Dev), s.acts (.pcieLinkUp b) d ∧ d.get SYS_STRAP.HSEL = 1) ∧
    (∃ (s : State) (d : Dev), s.acts .linkDown d ∧ d.get SYS_STRAP.HSEL = 1) ∧
    (∃ (s : State) (w : ConfigWrite) (d : Dev), s.acts (.pcieConfigRequest (some w)) d ∧ (d.get SYS_STRAP.HSEL = 1 ∨ bitOf (d.get SYS_STEP.DONE) 5 = false)) ∧
    (∃ (s : State) (d : Dev), s.acts (.pcieConfigRequest none) d ∧ (d.get SYS_STRAP.HSEL = 1 ∨ bitOf (d.get SYS_STEP.DONE) 5 = false)) ∧
    (∃ (s : State) (d : Dev), s.acts (.pcieConfigRequest none) d ∧ d.get SYS_STRAP.HSEL = 0 ∧ bitOf (d.get SYS_STEP.DONE) 5 = true) ∧
    (∃ (s : State) (b : Bool) (d : Dev), s.acts (.pcieLinkUp b) d ∧ d.get SYS_STRAP.HSEL = 0) ∧
    (∃ (s : State) (d : Dev), s.acts .linkDown d ∧ d.get SYS_STRAP.HSEL = 0) ∧
    (∃ (s : State) (w : ConfigWrite) (d : Dev), s.acts (.pcieConfigRequest (some w)) d ∧ d.get SYS_STRAP.HSEL = 0 ∧ bitOf (d.get SYS_STEP.DONE) 5 = true) ∧
    (∃ (s : State) (vec : Fin 32) (d : Dev), s.acts (.msixMessage vec) d ∧ (d.get TRL_CSTAT.PEND 0 (0x40 + vec.val) = 0 ∨ d.get SYS_STRAP.HSEL = 1 ∨ d.hlk.msixEn = false ∨ d.hlk.msixMask = true ∨ d.word (msixEntry vec + 12) % 2 = 1 ∨ d.get HLK_STATUS.BME = 0)) ∧
    (∃ (s : State) (vec : Fin 32) (a : Nat) (d : Dev), s.acts (.msixMessage vec) d ∧ d.get TRL_CSTAT.PEND 0 (0x40 + vec.val) = 1 ∧ d.get SYS_STRAP.HSEL = 0 ∧ d.hlk.msixEn = true ∧ d.hlk.msixMask = false ∧ d.word (msixEntry vec + 12) % 2 = 0 ∧ d.get HLK_STATUS.BME = 1 ∧ a = d.word (msixEntry vec) + 2 ^ 32 * d.word (msixEntry vec + 4)) ∧
    (∃ (s : State) (k : Fin 16) (d : Dev), s.acts (.dmaItem k) d ∧ d.dmaEn k = false) ∧
    (∃ (s : State) (k : Fin 16) (d : Dev), s.acts (.dmaItem k) d ∧ d.dmaEn k = true ∧ d.dmaMoves = false) ∧
    (∃ (s : State) (k : Fin 16) (q : Nat) (d : Dev), s.acts (.dmaItem k) d ∧ d.dmaEn k = true ∧ d.dmaMoves = true ∧ q = d.get HLK_DMA_CFG.QUEUE k ∧ (d.qEn q = false ∨ d.qCons q ≠ epHost)) ∧
    (∃ (s : State) (k : Fin 16) (q : Nat) (n : Nat) (wr : Nat) (size : Nat) (d : Dev), s.acts (.dmaItem k) d ∧ d.dmaEn k = true ∧ d.dmaMoves = true ∧ q = d.get HLK_DMA_CFG.QUEUE k ∧ d.qEn q = true ∧ d.qCons q = epHost ∧ (d.qx q).rdLeft = 0 ∧ size = 2 ^ dmaLog2 (d.get HLK_DMA_CFG.LOG2 k) ∧ wr = d.get HLK_DMA_WR.WR k ∧ n = bitsOf (d.qHead q) 15 0 + 1 ∧ (d.qReady q = false ∨ size < (wr + 2 ^ 32 - d.get HLK_DMA_RD.RD k) % 2 ^ 32 + n)) ∧
    (∃ (s : State) (k : Fin 16) (q : Nat) (n : Nat) (wr : Nat) (size : Nat) (base : Nat) (shd : Nat) (d : Dev), s.acts (.dmaItem k) d ∧ d.dmaEn k = true ∧ d.dmaMoves = true ∧ q = d.get HLK_DMA_CFG.QUEUE k ∧ d.qEn q = true ∧ d.qCons q = epHost ∧ (d.qx q).rdLeft = 0 ∧ size = 2 ^ dmaLog2 (d.get HLK_DMA_CFG.LOG2 k) ∧ wr = d.get HLK_DMA_WR.WR k ∧ n = bitsOf (d.qHead q) 15 0 + 1 ∧ d.qReady q = true ∧ (wr + 2 ^ 32 - d.get HLK_DMA_RD.RD k) % 2 ^ 32 + n ≤ size ∧ base = d.dmaBase k ∧ shd = d.dmaShd k ∧ (shd + 4 ≤ base ∨ base + 4 * size ≤ shd)) ∧
    (∃ (s : State) (k : Fin 16) (value : Word) (d : Dev), s.acts (.dmaCfgWrite k value) d ∧ bitOf value.toNat 31 = false) ∧
    (∃ (s : State) (k : Fin 16) (value : Word) (q : Nat) (n : Nat) (d : Dev), s.acts (.dmaCfgWrite k value) d ∧ bitOf value.toNat 31 = true ∧ q = bitsOf value.toNat 13 8 ∧ n = dmaLog2 (bitsOf value.toNat 3 0) ∧ (48 ≤ q ∨ d.qEn q = false ∨ d.qCons q ≠ epHost ∨ d.dmaBase k % 64 ≠ 0 ∨ d.dmaShd k % 4 ≠ 0 ∨ n < 4 ∨ n < d.get QMX_Q_BASE.LOG2SZ q ∨ (∃ j : Fin 16, j ≠ k ∧ d.dmaEn j = true ∧ d.get HLK_DMA_CFG.QUEUE j = q))) ∧
    (∃ (s : State) (k : Fin 16) (value : Word) (q : Nat) (n : Nat) (d : Dev), s.acts (.dmaCfgWrite k value) d ∧ bitOf value.toNat 31 = true ∧ q = bitsOf value.toNat 13 8 ∧ n = dmaLog2 (bitsOf value.toNat 3 0) ∧ q < 48 ∧ d.qEn q = true ∧ d.qCons q = epHost ∧ d.dmaBase k % 64 = 0 ∧ d.dmaShd k % 4 = 0 ∧ 4 ≤ n ∧ d.get QMX_Q_BASE.LOG2SZ q ≤ n ∧ (∀ j : Fin 16, j ≠ k → d.dmaEn j = true → d.get HLK_DMA_CFG.QUEUE j ≠ q) ∧ d.dmaMoves = true) ∧
    (∃ (s : State) (k : Fin 16) (value : Word) (d : Dev), s.acts (.dmaRdWrite k value) d) :=
  ⟨⟨(st (up.put SYS_STRAP.HSEL 1)), false, ((st (up.put SYS_STRAP.HSEL 1)).after (.pcieLinkUp false)), ⟨State.acts_after rfl (by decide +kernel), by decide +kernel⟩⟩,
    ⟨(st (up.put SYS_STRAP.HSEL 1)), ((st (up.put SYS_STRAP.HSEL 1)).after .linkDown), ⟨State.acts_after rfl (by decide +kernel), by decide +kernel⟩⟩,
    ⟨(st (up.put SYS_STRAP.HSEL 1 |>.put SYS_STEP.DONE 0x3FF)), ⟨0x80000000, true, 1, true, false⟩, ((st (up.put SYS_STRAP.HSEL 1 |>.put SYS_STEP.DONE 0x3FF)).after (.pcieConfigRequest (some (⟨0x80000000, true, 1, true, false⟩)))), ⟨State.acts_after rfl (by decide +kernel), by decide +kernel⟩⟩,
    ⟨(st up), ((st up).after (.pcieConfigRequest none)), ⟨State.acts_after rfl (by decide +kernel), by decide +kernel⟩⟩,
    ⟨(st (up.put SYS_STEP.DONE 0x3FF)), ((st (up.put SYS_STEP.DONE 0x3FF)).after (.pcieConfigRequest none)), ⟨State.acts_after rfl (by decide +kernel), by decide +kernel⟩⟩,
    ⟨(st up), false, ((st up).after (.pcieLinkUp false)), ⟨State.acts_after rfl (by decide +kernel), by decide +kernel⟩⟩,
    ⟨(st (((((((up.put SYS_STRAP.HSEL 0).put HLK_STATUS.LINK 1).put HLK_STATUS.BME 1).put SYS_STEP.DONE 0x3FF)).put HLK_DMA_CFG.EN 1 2).put HLK_DMA_CFG.QUEUE 5 2 |>.put HLK_DMA_CFG.LOG2 6 2 |>.put HLK_DMA_BASE_LO.ADDR 0x10000 2 |>.put HLK_DMA_SHD_LO.ADDR 0x9000 2 |>.put HLK_DMA_WR.WR 62 2 |>.put HLK_DMA_RD.RD 10 2 |>.put QMX_Q_BASE.EN 1 5 |>.put QMX_Q_BASE.LOG2SZ 5 5 |>.put QMX_Q_BASE.BASE 0 5|>.put QMX_Q_EP.CONS 0x10 5 |>.setWords 0x100000 [qHeader 0x41 3, 1, 2, 3]|>.setQ 5 { prod := 4, vis := 4 })), ((st (((((((up.put SYS_STRAP.HSEL 0).put HLK_STATUS.LINK 1).put HLK_STATUS.BME 1).put SYS_STEP.DONE 0x3FF)).put HLK_DMA_CFG.EN 1 2).put HLK_DMA_CFG.QUEUE 5 2 |>.put HLK_DMA_CFG.LOG2 6 2 |>.put HLK_DMA_BASE_LO.ADDR 0x10000 2 |>.put HLK_DMA_SHD_LO.ADDR 0x9000 2 |>.put HLK_DMA_WR.WR 62 2 |>.put HLK_DMA_RD.RD 10 2 |>.put QMX_Q_BASE.EN 1 5 |>.put QMX_Q_BASE.LOG2SZ 5 5 |>.put QMX_Q_BASE.BASE 0 5|>.put QMX_Q_EP.CONS 0x10 5 |>.setWords 0x100000 [qHeader 0x41 3, 1, 2, 3]|>.setQ 5 { prod := 4, vis := 4 })).after .linkDown), ⟨State.acts_after rfl (by decide +kernel), by decide +kernel⟩⟩,
    ⟨(st (((((((up.put SYS_STRAP.HSEL 0).put HLK_STATUS.LINK 1).put HLK_STATUS.BME 1).put SYS_STEP.DONE 0x3FF)).put HLK_DMA_CFG.EN 1 2).put HLK_DMA_CFG.QUEUE 5 2 |>.put HLK_DMA_CFG.LOG2 6 2 |>.put HLK_DMA_BASE_LO.ADDR 0x10000 2 |>.put HLK_DMA_SHD_LO.ADDR 0x9000 2 |>.put HLK_DMA_WR.WR 62 2 |>.put HLK_DMA_RD.RD 10 2 |>.put QMX_Q_BASE.EN 1 5 |>.put QMX_Q_BASE.LOG2SZ 5 5 |>.put QMX_Q_BASE.BASE 0 5|>.put QMX_Q_EP.CONS 0x10 5 |>.setWords 0x100000 [qHeader 0x41 3, 1, 2, 3]|>.setQ 5 { prod := 4, vis := 4 })), ⟨0x80000000, true, 1, true, false⟩, ((st (((((((up.put SYS_STRAP.HSEL 0).put HLK_STATUS.LINK 1).put HLK_STATUS.BME 1).put SYS_STEP.DONE 0x3FF)).put HLK_DMA_CFG.EN 1 2).put HLK_DMA_CFG.QUEUE 5 2 |>.put HLK_DMA_CFG.LOG2 6 2 |>.put HLK_DMA_BASE_LO.ADDR 0x10000 2 |>.put HLK_DMA_SHD_LO.ADDR 0x9000 2 |>.put HLK_DMA_WR.WR 62 2 |>.put HLK_DMA_RD.RD 10 2 |>.put QMX_Q_BASE.EN 1 5 |>.put QMX_Q_BASE.LOG2SZ 5 5 |>.put QMX_Q_BASE.BASE 0 5|>.put QMX_Q_EP.CONS 0x10 5 |>.setWords 0x100000 [qHeader 0x41 3, 1, 2, 3]|>.setQ 5 { prod := 4, vis := 4 })).after (.pcieConfigRequest (some (⟨0x80000000, true, 1, true, false⟩)))), ⟨State.acts_after rfl (by decide +kernel), by decide +kernel⟩⟩,
    ⟨(st up), 3, ((st up).after (.msixMessage 3)), ⟨State.acts_after rfl (by decide +kernel), by decide +kernel⟩⟩,
    ⟨(st { (((((up.put SYS_STRAP.HSEL 0).put HLK_STATUS.LINK 1).put HLK_STATUS.BME 1).put SYS_STEP.DONE 0x3FF).put TRL_CSTAT.PEND 1 0 0x43 |>.setWords 0x40261030 [0x5000, 0, 77, 0]) with hlk := { msixEn := true } }), 3, (st { (((((up.put SYS_STRAP.HSEL 0).put HLK_STATUS.LINK 1).put HLK_STATUS.BME 1).put SYS_STEP.DONE 0x3FF).put TRL_CSTAT.PEND 1 0 0x43 |>.setWords 0x40261030 [0x5000, 0, 77, 0]) with hlk := { msixEn := true } }).dev.word (msixEntry 3) + 2 ^ 32 * (st { (((((up.put SYS_STRAP.HSEL 0).put HLK_STATUS.LINK 1).put HLK_STATUS.BME 1).put SYS_STEP.DONE 0x3FF).put TRL_CSTAT.PEND 1 0 0x43 |>.setWords 0x40261030 [0x5000, 0, 77, 0]) with hlk := { msixEn := true } }).dev.word (msixEntry 3 + 4), ((st { (((((up.put SYS_STRAP.HSEL 0).put HLK_STATUS.LINK 1).put HLK_STATUS.BME 1).put SYS_STEP.DONE 0x3FF).put TRL_CSTAT.PEND 1 0 0x43 |>.setWords 0x40261030 [0x5000, 0, 77, 0]) with hlk := { msixEn := true } }).after (.msixMessage 3)), ⟨State.acts_after rfl (by decide +kernel), by decide +kernel⟩⟩,
    ⟨(st up), 2, ((st up).after (.dmaItem 2)), ⟨State.acts_after rfl (by decide +kernel), by decide +kernel⟩⟩,
    ⟨(st (((up).put HLK_DMA_CFG.EN 1 2).put HLK_DMA_CFG.QUEUE 5 2 |>.put HLK_DMA_CFG.LOG2 6 2 |>.put HLK_DMA_BASE_LO.ADDR 0x10000 2 |>.put HLK_DMA_SHD_LO.ADDR 0x9000 2 |>.put HLK_DMA_WR.WR 62 2 |>.put HLK_DMA_RD.RD 10 2 |>.put QMX_Q_BASE.EN 1 5 |>.put QMX_Q_BASE.LOG2SZ 5 5 |>.put QMX_Q_BASE.BASE 0 5|>.put QMX_Q_EP.CONS 0x10 5 |>.setWords 0x100000 [qHeader 0x41 3, 1, 2, 3]|>.setQ 5 { prod := 4, vis := 4 })), 2, ((st (((up).put HLK_DMA_CFG.EN 1 2).put HLK_DMA_CFG.QUEUE 5 2 |>.put HLK_DMA_CFG.LOG2 6 2 |>.put HLK_DMA_BASE_LO.ADDR 0x10000 2 |>.put HLK_DMA_SHD_LO.ADDR 0x9000 2 |>.put HLK_DMA_WR.WR 62 2 |>.put HLK_DMA_RD.RD 10 2 |>.put QMX_Q_BASE.EN 1 5 |>.put QMX_Q_BASE.LOG2SZ 5 5 |>.put QMX_Q_BASE.BASE 0 5|>.put QMX_Q_EP.CONS 0x10 5 |>.setWords 0x100000 [qHeader 0x41 3, 1, 2, 3]|>.setQ 5 { prod := 4, vis := 4 })).after (.dmaItem 2)), ⟨State.acts_after rfl (by decide +kernel), by decide +kernel⟩⟩,
    ⟨(st (((((((up.put SYS_STRAP.HSEL 0).put HLK_STATUS.LINK 1).put HLK_STATUS.BME 1).put SYS_STEP.DONE 0x3FF)).put HLK_DMA_CFG.EN 1 2).put HLK_DMA_CFG.QUEUE 5 2 |>.put HLK_DMA_CFG.LOG2 6 2 |>.put HLK_DMA_BASE_LO.ADDR 0x10000 2 |>.put HLK_DMA_SHD_LO.ADDR 0x9000 2 |>.put HLK_DMA_WR.WR 62 2 |>.put HLK_DMA_RD.RD 10 2 |>.put QMX_Q_BASE.EN 1 5 |>.put QMX_Q_BASE.LOG2SZ 5 5 |>.put QMX_Q_BASE.BASE 0 5|>.put QMX_Q_EP.CONS 0x10 5 |>.setWords 0x100000 [qHeader 0x41 3, 1, 2, 3]|>.setQ 5 { prod := 4, vis := 4 }|>.put QMX_Q_BASE.EN 0 5)), 2, 5, ((st (((((((up.put SYS_STRAP.HSEL 0).put HLK_STATUS.LINK 1).put HLK_STATUS.BME 1).put SYS_STEP.DONE 0x3FF)).put HLK_DMA_CFG.EN 1 2).put HLK_DMA_CFG.QUEUE 5 2 |>.put HLK_DMA_CFG.LOG2 6 2 |>.put HLK_DMA_BASE_LO.ADDR 0x10000 2 |>.put HLK_DMA_SHD_LO.ADDR 0x9000 2 |>.put HLK_DMA_WR.WR 62 2 |>.put HLK_DMA_RD.RD 10 2 |>.put QMX_Q_BASE.EN 1 5 |>.put QMX_Q_BASE.LOG2SZ 5 5 |>.put QMX_Q_BASE.BASE 0 5|>.put QMX_Q_EP.CONS 0x10 5 |>.setWords 0x100000 [qHeader 0x41 3, 1, 2, 3]|>.setQ 5 { prod := 4, vis := 4 }|>.put QMX_Q_BASE.EN 0 5)).after (.dmaItem 2)), ⟨State.acts_after rfl (by decide +kernel), by decide +kernel⟩⟩,
    ⟨(st (((((((up.put SYS_STRAP.HSEL 0).put HLK_STATUS.LINK 1).put HLK_STATUS.BME 1).put SYS_STEP.DONE 0x3FF)).put HLK_DMA_CFG.EN 1 2).put HLK_DMA_CFG.QUEUE 5 2 |>.put HLK_DMA_CFG.LOG2 6 2 |>.put HLK_DMA_BASE_LO.ADDR 0x10000 2 |>.put HLK_DMA_SHD_LO.ADDR 0x9000 2 |>.put HLK_DMA_WR.WR 62 2 |>.put HLK_DMA_RD.RD 10 2 |>.put QMX_Q_BASE.EN 1 5 |>.put QMX_Q_BASE.LOG2SZ 5 5 |>.put QMX_Q_BASE.BASE 0 5|>.put QMX_Q_EP.CONS 0x10 5 |>.setWords 0x100000 [qHeader 0x41 3, 1, 2, 3]|>.setQ 5 { prod := 4, vis := 4 }|>.setQ 5 {})), 2, (st (((((((up.put SYS_STRAP.HSEL 0).put HLK_STATUS.LINK 1).put HLK_STATUS.BME 1).put SYS_STEP.DONE 0x3FF)).put HLK_DMA_CFG.EN 1 2).put HLK_DMA_CFG.QUEUE 5 2 |>.put HLK_DMA_CFG.LOG2 6 2 |>.put HLK_DMA_BASE_LO.ADDR 0x10000 2 |>.put HLK_DMA_SHD_LO.ADDR 0x9000 2 |>.put HLK_DMA_WR.WR 62 2 |>.put HLK_DMA_RD.RD 10 2 |>.put QMX_Q_BASE.EN 1 5 |>.put QMX_Q_BASE.LOG2SZ 5 5 |>.put QMX_Q_BASE.BASE 0 5|>.put QMX_Q_EP.CONS 0x10 5 |>.setWords 0x100000 [qHeader 0x41 3, 1, 2, 3]|>.setQ 5 { prod := 4, vis := 4 }|>.setQ 5 {})).dev.get HLK_DMA_CFG.QUEUE 2, bitsOf ((st (((((((up.put SYS_STRAP.HSEL 0).put HLK_STATUS.LINK 1).put HLK_STATUS.BME 1).put SYS_STEP.DONE 0x3FF)).put HLK_DMA_CFG.EN 1 2).put HLK_DMA_CFG.QUEUE 5 2 |>.put HLK_DMA_CFG.LOG2 6 2 |>.put HLK_DMA_BASE_LO.ADDR 0x10000 2 |>.put HLK_DMA_SHD_LO.ADDR 0x9000 2 |>.put HLK_DMA_WR.WR 62 2 |>.put HLK_DMA_RD.RD 10 2 |>.put QMX_Q_BASE.EN 1 5 |>.put QMX_Q_BASE.LOG2SZ 5 5 |>.put QMX_Q_BASE.BASE 0 5|>.put QMX_Q_EP.CONS 0x10 5 |>.setWords 0x100000 [qHeader 0x41 3, 1, 2, 3]|>.setQ 5 { prod := 4, vis := 4 }|>.setQ 5 {})).dev.qHead ((st (((((((up.put SYS_STRAP.HSEL 0).put HLK_STATUS.LINK 1).put HLK_STATUS.BME 1).put SYS_STEP.DONE 0x3FF)).put HLK_DMA_CFG.EN 1 2).put HLK_DMA_CFG.QUEUE 5 2 |>.put HLK_DMA_CFG.LOG2 6 2 |>.put HLK_DMA_BASE_LO.ADDR 0x10000 2 |>.put HLK_DMA_SHD_LO.ADDR 0x9000 2 |>.put HLK_DMA_WR.WR 62 2 |>.put HLK_DMA_RD.RD 10 2 |>.put QMX_Q_BASE.EN 1 5 |>.put QMX_Q_BASE.LOG2SZ 5 5 |>.put QMX_Q_BASE.BASE 0 5|>.put QMX_Q_EP.CONS 0x10 5 |>.setWords 0x100000 [qHeader 0x41 3, 1, 2, 3]|>.setQ 5 { prod := 4, vis := 4 }|>.setQ 5 {})).dev.get HLK_DMA_CFG.QUEUE 2)) 15 0 + 1, (st (((((((up.put SYS_STRAP.HSEL 0).put HLK_STATUS.LINK 1).put HLK_STATUS.BME 1).put SYS_STEP.DONE 0x3FF)).put HLK_DMA_CFG.EN 1 2).put HLK_DMA_CFG.QUEUE 5 2 |>.put HLK_DMA_CFG.LOG2 6 2 |>.put HLK_DMA_BASE_LO.ADDR 0x10000 2 |>.put HLK_DMA_SHD_LO.ADDR 0x9000 2 |>.put HLK_DMA_WR.WR 62 2 |>.put HLK_DMA_RD.RD 10 2 |>.put QMX_Q_BASE.EN 1 5 |>.put QMX_Q_BASE.LOG2SZ 5 5 |>.put QMX_Q_BASE.BASE 0 5|>.put QMX_Q_EP.CONS 0x10 5 |>.setWords 0x100000 [qHeader 0x41 3, 1, 2, 3]|>.setQ 5 { prod := 4, vis := 4 }|>.setQ 5 {})).dev.get HLK_DMA_WR.WR 2, 2 ^ dmaLog2 ((st (((((((up.put SYS_STRAP.HSEL 0).put HLK_STATUS.LINK 1).put HLK_STATUS.BME 1).put SYS_STEP.DONE 0x3FF)).put HLK_DMA_CFG.EN 1 2).put HLK_DMA_CFG.QUEUE 5 2 |>.put HLK_DMA_CFG.LOG2 6 2 |>.put HLK_DMA_BASE_LO.ADDR 0x10000 2 |>.put HLK_DMA_SHD_LO.ADDR 0x9000 2 |>.put HLK_DMA_WR.WR 62 2 |>.put HLK_DMA_RD.RD 10 2 |>.put QMX_Q_BASE.EN 1 5 |>.put QMX_Q_BASE.LOG2SZ 5 5 |>.put QMX_Q_BASE.BASE 0 5|>.put QMX_Q_EP.CONS 0x10 5 |>.setWords 0x100000 [qHeader 0x41 3, 1, 2, 3]|>.setQ 5 { prod := 4, vis := 4 }|>.setQ 5 {})).dev.get HLK_DMA_CFG.LOG2 2), ((st (((((((up.put SYS_STRAP.HSEL 0).put HLK_STATUS.LINK 1).put HLK_STATUS.BME 1).put SYS_STEP.DONE 0x3FF)).put HLK_DMA_CFG.EN 1 2).put HLK_DMA_CFG.QUEUE 5 2 |>.put HLK_DMA_CFG.LOG2 6 2 |>.put HLK_DMA_BASE_LO.ADDR 0x10000 2 |>.put HLK_DMA_SHD_LO.ADDR 0x9000 2 |>.put HLK_DMA_WR.WR 62 2 |>.put HLK_DMA_RD.RD 10 2 |>.put QMX_Q_BASE.EN 1 5 |>.put QMX_Q_BASE.LOG2SZ 5 5 |>.put QMX_Q_BASE.BASE 0 5|>.put QMX_Q_EP.CONS 0x10 5 |>.setWords 0x100000 [qHeader 0x41 3, 1, 2, 3]|>.setQ 5 { prod := 4, vis := 4 }|>.setQ 5 {})).after (.dmaItem 2)), ⟨State.acts_after rfl (by decide +kernel), by decide +kernel⟩⟩,
    ⟨(st (((((((up.put SYS_STRAP.HSEL 0).put HLK_STATUS.LINK 1).put HLK_STATUS.BME 1).put SYS_STEP.DONE 0x3FF)).put HLK_DMA_CFG.EN 1 2).put HLK_DMA_CFG.QUEUE 5 2 |>.put HLK_DMA_CFG.LOG2 6 2 |>.put HLK_DMA_BASE_LO.ADDR 0x10000 2 |>.put HLK_DMA_SHD_LO.ADDR 0x9000 2 |>.put HLK_DMA_WR.WR 62 2 |>.put HLK_DMA_RD.RD 10 2 |>.put QMX_Q_BASE.EN 1 5 |>.put QMX_Q_BASE.LOG2SZ 5 5 |>.put QMX_Q_BASE.BASE 0 5|>.put QMX_Q_EP.CONS 0x10 5 |>.setWords 0x100000 [qHeader 0x41 3, 1, 2, 3]|>.setQ 5 { prod := 4, vis := 4 })), 2, (st (((((((up.put SYS_STRAP.HSEL 0).put HLK_STATUS.LINK 1).put HLK_STATUS.BME 1).put SYS_STEP.DONE 0x3FF)).put HLK_DMA_CFG.EN 1 2).put HLK_DMA_CFG.QUEUE 5 2 |>.put HLK_DMA_CFG.LOG2 6 2 |>.put HLK_DMA_BASE_LO.ADDR 0x10000 2 |>.put HLK_DMA_SHD_LO.ADDR 0x9000 2 |>.put HLK_DMA_WR.WR 62 2 |>.put HLK_DMA_RD.RD 10 2 |>.put QMX_Q_BASE.EN 1 5 |>.put QMX_Q_BASE.LOG2SZ 5 5 |>.put QMX_Q_BASE.BASE 0 5|>.put QMX_Q_EP.CONS 0x10 5 |>.setWords 0x100000 [qHeader 0x41 3, 1, 2, 3]|>.setQ 5 { prod := 4, vis := 4 })).dev.get HLK_DMA_CFG.QUEUE 2, bitsOf ((st (((((((up.put SYS_STRAP.HSEL 0).put HLK_STATUS.LINK 1).put HLK_STATUS.BME 1).put SYS_STEP.DONE 0x3FF)).put HLK_DMA_CFG.EN 1 2).put HLK_DMA_CFG.QUEUE 5 2 |>.put HLK_DMA_CFG.LOG2 6 2 |>.put HLK_DMA_BASE_LO.ADDR 0x10000 2 |>.put HLK_DMA_SHD_LO.ADDR 0x9000 2 |>.put HLK_DMA_WR.WR 62 2 |>.put HLK_DMA_RD.RD 10 2 |>.put QMX_Q_BASE.EN 1 5 |>.put QMX_Q_BASE.LOG2SZ 5 5 |>.put QMX_Q_BASE.BASE 0 5|>.put QMX_Q_EP.CONS 0x10 5 |>.setWords 0x100000 [qHeader 0x41 3, 1, 2, 3]|>.setQ 5 { prod := 4, vis := 4 })).dev.qHead ((st (((((((up.put SYS_STRAP.HSEL 0).put HLK_STATUS.LINK 1).put HLK_STATUS.BME 1).put SYS_STEP.DONE 0x3FF)).put HLK_DMA_CFG.EN 1 2).put HLK_DMA_CFG.QUEUE 5 2 |>.put HLK_DMA_CFG.LOG2 6 2 |>.put HLK_DMA_BASE_LO.ADDR 0x10000 2 |>.put HLK_DMA_SHD_LO.ADDR 0x9000 2 |>.put HLK_DMA_WR.WR 62 2 |>.put HLK_DMA_RD.RD 10 2 |>.put QMX_Q_BASE.EN 1 5 |>.put QMX_Q_BASE.LOG2SZ 5 5 |>.put QMX_Q_BASE.BASE 0 5|>.put QMX_Q_EP.CONS 0x10 5 |>.setWords 0x100000 [qHeader 0x41 3, 1, 2, 3]|>.setQ 5 { prod := 4, vis := 4 })).dev.get HLK_DMA_CFG.QUEUE 2)) 15 0 + 1, (st (((((((up.put SYS_STRAP.HSEL 0).put HLK_STATUS.LINK 1).put HLK_STATUS.BME 1).put SYS_STEP.DONE 0x3FF)).put HLK_DMA_CFG.EN 1 2).put HLK_DMA_CFG.QUEUE 5 2 |>.put HLK_DMA_CFG.LOG2 6 2 |>.put HLK_DMA_BASE_LO.ADDR 0x10000 2 |>.put HLK_DMA_SHD_LO.ADDR 0x9000 2 |>.put HLK_DMA_WR.WR 62 2 |>.put HLK_DMA_RD.RD 10 2 |>.put QMX_Q_BASE.EN 1 5 |>.put QMX_Q_BASE.LOG2SZ 5 5 |>.put QMX_Q_BASE.BASE 0 5|>.put QMX_Q_EP.CONS 0x10 5 |>.setWords 0x100000 [qHeader 0x41 3, 1, 2, 3]|>.setQ 5 { prod := 4, vis := 4 })).dev.get HLK_DMA_WR.WR 2, 2 ^ dmaLog2 ((st (((((((up.put SYS_STRAP.HSEL 0).put HLK_STATUS.LINK 1).put HLK_STATUS.BME 1).put SYS_STEP.DONE 0x3FF)).put HLK_DMA_CFG.EN 1 2).put HLK_DMA_CFG.QUEUE 5 2 |>.put HLK_DMA_CFG.LOG2 6 2 |>.put HLK_DMA_BASE_LO.ADDR 0x10000 2 |>.put HLK_DMA_SHD_LO.ADDR 0x9000 2 |>.put HLK_DMA_WR.WR 62 2 |>.put HLK_DMA_RD.RD 10 2 |>.put QMX_Q_BASE.EN 1 5 |>.put QMX_Q_BASE.LOG2SZ 5 5 |>.put QMX_Q_BASE.BASE 0 5|>.put QMX_Q_EP.CONS 0x10 5 |>.setWords 0x100000 [qHeader 0x41 3, 1, 2, 3]|>.setQ 5 { prod := 4, vis := 4 })).dev.get HLK_DMA_CFG.LOG2 2), (st (((((((up.put SYS_STRAP.HSEL 0).put HLK_STATUS.LINK 1).put HLK_STATUS.BME 1).put SYS_STEP.DONE 0x3FF)).put HLK_DMA_CFG.EN 1 2).put HLK_DMA_CFG.QUEUE 5 2 |>.put HLK_DMA_CFG.LOG2 6 2 |>.put HLK_DMA_BASE_LO.ADDR 0x10000 2 |>.put HLK_DMA_SHD_LO.ADDR 0x9000 2 |>.put HLK_DMA_WR.WR 62 2 |>.put HLK_DMA_RD.RD 10 2 |>.put QMX_Q_BASE.EN 1 5 |>.put QMX_Q_BASE.LOG2SZ 5 5 |>.put QMX_Q_BASE.BASE 0 5|>.put QMX_Q_EP.CONS 0x10 5 |>.setWords 0x100000 [qHeader 0x41 3, 1, 2, 3]|>.setQ 5 { prod := 4, vis := 4 })).dev.dmaBase 2, (st (((((((up.put SYS_STRAP.HSEL 0).put HLK_STATUS.LINK 1).put HLK_STATUS.BME 1).put SYS_STEP.DONE 0x3FF)).put HLK_DMA_CFG.EN 1 2).put HLK_DMA_CFG.QUEUE 5 2 |>.put HLK_DMA_CFG.LOG2 6 2 |>.put HLK_DMA_BASE_LO.ADDR 0x10000 2 |>.put HLK_DMA_SHD_LO.ADDR 0x9000 2 |>.put HLK_DMA_WR.WR 62 2 |>.put HLK_DMA_RD.RD 10 2 |>.put QMX_Q_BASE.EN 1 5 |>.put QMX_Q_BASE.LOG2SZ 5 5 |>.put QMX_Q_BASE.BASE 0 5|>.put QMX_Q_EP.CONS 0x10 5 |>.setWords 0x100000 [qHeader 0x41 3, 1, 2, 3]|>.setQ 5 { prod := 4, vis := 4 })).dev.dmaShd 2, ((st (((((((up.put SYS_STRAP.HSEL 0).put HLK_STATUS.LINK 1).put HLK_STATUS.BME 1).put SYS_STEP.DONE 0x3FF)).put HLK_DMA_CFG.EN 1 2).put HLK_DMA_CFG.QUEUE 5 2 |>.put HLK_DMA_CFG.LOG2 6 2 |>.put HLK_DMA_BASE_LO.ADDR 0x10000 2 |>.put HLK_DMA_SHD_LO.ADDR 0x9000 2 |>.put HLK_DMA_WR.WR 62 2 |>.put HLK_DMA_RD.RD 10 2 |>.put QMX_Q_BASE.EN 1 5 |>.put QMX_Q_BASE.LOG2SZ 5 5 |>.put QMX_Q_BASE.BASE 0 5|>.put QMX_Q_EP.CONS 0x10 5 |>.setWords 0x100000 [qHeader 0x41 3, 1, 2, 3]|>.setQ 5 { prod := 4, vis := 4 })).after (.dmaItem 2)), ⟨State.acts_after rfl (by decide +kernel), by decide +kernel⟩⟩,
    ⟨(st up), 0, 0x506, ((st up).after (.dmaCfgWrite 0 0x506)), ⟨State.acts_after rfl (by decide +kernel), by decide +kernel⟩⟩,
    ⟨(st up), 2, 0x80000506, bitsOf (0x80000506#32).toNat 13 8, dmaLog2 (bitsOf (0x80000506#32).toNat 3 0), ((st up).after (.dmaCfgWrite 2 0x80000506)), ⟨State.acts_after rfl (by decide +kernel), by decide +kernel⟩⟩,
    ⟨(st (((((up.put SYS_STRAP.HSEL 0).put HLK_STATUS.LINK 1).put HLK_STATUS.BME 1).put SYS_STEP.DONE 0x3FF)|>.put QMX_Q_BASE.EN 1 5 |>.put QMX_Q_BASE.LOG2SZ 5 5 |>.put QMX_Q_EP.CONS 0x10 5)), 2, 0x80000506, bitsOf (0x80000506#32).toNat 13 8, dmaLog2 (bitsOf (0x80000506#32).toNat 3 0), ((st (((((up.put SYS_STRAP.HSEL 0).put HLK_STATUS.LINK 1).put HLK_STATUS.BME 1).put SYS_STEP.DONE 0x3FF)|>.put QMX_Q_BASE.EN 1 5 |>.put QMX_Q_BASE.LOG2SZ 5 5 |>.put QMX_Q_EP.CONS 0x10 5)).after (.dmaCfgWrite 2 0x80000506)), ⟨State.acts_after rfl (by decide +kernel), by decide +kernel⟩⟩,
    ⟨(st up), 0, 0, ((st up).after (.dmaRdWrite 0 0)), State.acts_after rfl (by decide +kernel)⟩⟩

theorem witness_RegisterAccessCompletes :
    (∃ (s : State) (wr : Writer) (addr : Word) (r : Reg) (i : Nat) (j : Nat) (p : Nat × Nat) (d : Dev), s.dev.mayWrite wr addr.toNat ∧ s.dev.isReg addr.toNat r i j ∧ s.dev.pwr.asleep = none ∧ r.special = [] ∧ r ∉ actingRegs ∧ d = s.dev.accessed r i wr ∧ p = d.place r i j) ∧
    (∃ (s : State) (wr : Writer) (addr : Word) (r : Reg) (i : Nat) (j : Nat) (d : Dev), s.dev.mayRead wr addr.toNat ∧ s.dev.isReg addr.toNat r i j ∧ s.dev.pwr.asleep = none ∧ r ∉ readingRegs ∧ d = s.dev.accessed r i wr) ∧
    (∃ (s : State) (wr : Writer) (addr : Word), s.dev.mayWrite wr addr.toNat ∧ blockIsland addr.toNat ≠ none ∧ (match blockIsland addr.toNat with | some m => s.dev.present m | none => false) = true ∧ addr.toNat % 4 = 0 ∧ inMsixTable addr.toNat = false ∧ addr.toNat ≠ 0x40261800 ∧ regAt addr.toNat = none ∧ s.dev.pwr.asleep = none) ∧
    (∃ (s : State) (wr : Writer) (addr : Word), s.dev.mayWrite wr addr.toNat ∧ inMsixTable addr.toNat = true ∧ addr.toNat % 4 = 0 ∧ s.dev.live 4 = true) ∧
    (∃ (s : State) (width : Width) (addr : Word) (i : Nat) (x : MemWin), ((blockIsland addr.toNat ≠ none ∧ (match blockIsland addr.toNat with | some m => s.dev.present m | none => false) = true ∧ (width ≠ .b4 ∨ addr.toNat % 4 ≠ 0) ∧ i = stHlkAccess) ∨ (blockIsland addr.toNat ≠ none ∧ (match blockIsland addr.toNat with | some m => s.dev.present m | none => true) = false ∧ i = stIsland) ∨ (memWin addr.toNat (widthBytes width) = some x ∧ blockIsland addr.toNat = none ∧ s.dev.present x.span.2.2 = false ∧ i = stIsland) ∨ (blockIsland addr.toNat = none ∧ memWin addr.toNat (widthBytes width) = none ∧ i = stHlkAddr) ∨ (memWin addr.toNat (widthBytes width) = some .ranger ∧ s.dev.present 1 = true ∧ i = stHlkAddr)) ∧ s.dev.pwr.asleep = none) ∧
    (∃ s : State, s.dev.pwr.asleep ≠ none) ∧
    (∃ (wr : Writer) (width : Width) (addr : Word), blockIsland addr.toNat ≠ none ∧ wr ≠ .host ∧ wr ≠ .jtag ∧ (width ≠ .b4 ∨ addr.toNat % 4 ≠ 0)) ∧
    (∃ (s : State) (wr : Writer) (width : Width) (addr : Word) (n : Nat) (x : MemWin) (d : Dev), s.dev.mayWrite wr addr.toNat ∧ memWin addr.toNat (widthBytes width) = some x ∧ s.dev.live x.span.2.2 = true ∧ x ≠ .mram ∧ (x = .hoop → (wr = .loader ∨ (s.dev.rst.asserted = false ∧ s.dev.lcs < 2)) ∧ ∀ v : Nat, v < 16 → (s.dev.vatx v).started ≠ s.dev.clk + 1) ∧ (x = .ranger → wr ≠ .host) ∧ (x = .cellar → s.dev.get LDG_STATUS.STOPPED = 1) ∧ n = widthBytes width ∧ d = s.dev.memAt x addr.toNat n) ∧
    (∃ (s : State) (width : Width) (addr : Word) (x : MemWin) (d : Dev), memWin addr.toNat (widthBytes width) = some x ∧ s.dev.live x.span.2.2 = true ∧ (x = .mram ∨ (x = .hoop ∧ 2 ≤ s.dev.lcs) ∨ (x = .cellar ∧ s.dev.get LDG_STATUS.STOPPED = 0)) ∧ d = s.dev.reachMem x addr.toNat (widthBytes width)) ∧
    (∃ (s : State) (wr : Writer) (width : Width) (addr : Word) (n : Nat) (bs : List Byte) (x : MemWin) (d : Dev), s.dev.mayRead wr addr.toNat ∧ memWin addr.toNat (widthBytes width) = some x ∧ s.dev.live x.span.2.2 = true ∧ n = widthBytes width ∧ (x = .ranger → wr ≠ .host) ∧ (x = .cellar → bitOf (s.dev.get LDG_BANK.STALE) ((addr.toNat - 0x4000000) / 0x40000) = false ∧ bitOf (s.dev.get LDG_BANK.STALE) ((addr.toNat + n - 1 - 0x4000000) / 0x40000) = false) ∧ d = s.dev.reachMem x addr.toNat n ∧ bs = (match x with | .mram => s.mramBytes (addr.toNat - 0x8000000) n | .capture => s.dev.capSync.bytes addr.toNat n | _ => s.dev.bytes addr.toNat n)) ∧
    (∃ (s : State) (addr : Word), (s.dev.lcs = 2 ∨ (s.dev.lcs = 1 ∧ debugReach addr.toNat = false) ∨ (s.dev.lcs = 3 ∧ s.dev.get LCS_STATE.DBG_OPEN = 0))) ∧
    (∃ (s : State) (addr : Word), (s.dev.lcs = 2 ∨ (s.dev.lcs = 1 ∧ debugReach addr.toNat = false) ∨ (s.dev.lcs = 3 ∧ addr.toNat ≠ 0x40290000))) ∧
    (∃ (s : State) (addr : Word), s.dev.lcs = 3 ∧ addr.toNat = 0x40290000) ∧
    (∃ (s : State) (c : Instr) (a : RegAccess), accessOf c = some a ∧ (leads c = true → s.inTurn c = true) ∧ s.dev.present a.island = false ∧ s.dev.pwr.asleep = none) ∧
    (∃ (s : State) (c : Instr) (a : RegAccess), accessOf c = some a ∧ (leads c = true → s.inTurn c = true) ∧ s.dev.pwr.asleep ≠ none) ∧
    (∃ (s : State) (c : Instr) (k : Nat), eventIsland c = some k ∧ (leads c = true → s.inTurn c = true) ∧ s.dev.live k = false) :=
  ⟨⟨(st up), .host, (BitVec.ofNat 32 (Reg.SYN_F_CAL.place.base + Reg.SYN_F_CAL.place.si)), .SYN_F_CAL, 1, 0, ((st up).dev.place .SYN_F_CAL 1 0), ((st up).dev.accessed (.SYN_F_CAL : Reg) (1 : Nat) (.host : Writer)), by unfold Dev.isReg Dev.mayWrite; decide +kernel⟩,
    ⟨(st up), .host, (BitVec.ofNat 32 (Reg.SYN_F_CAL.place.base + Reg.SYN_F_CAL.place.si)), .SYN_F_CAL, 1, 0, ((st up).dev.accessed (.SYN_F_CAL : Reg) (1 : Nat) (.host : Writer)), by unfold Dev.isReg Dev.mayRead; decide +kernel⟩,
    ⟨(st up), .host, 0x4000FFFC, by unfold Dev.mayWrite; decide +kernel⟩,
    ⟨(st up), .host, 0x40261004, by unfold Dev.mayWrite; decide +kernel⟩,
    ⟨(st up), .b4, 0x40000002, stHlkAccess, .hoop, by decide +kernel⟩,
    ⟨(st { up with pwr := { asleep := some 1 } }), by decide +kernel⟩,
    ⟨.ranger, .b4, 0x40000001, by decide +kernel⟩,
    ⟨(st ({ up with ecc := [(2, true), (3, false)] })), .host, .b1, 0x100004, (widthBytes (.b1 : Width)), .sram, ((st ({ up with ecc := [(2, true), (3, false)] })).dev.memAt (.sram : MemWin) (0x100004 : Word).toNat (widthBytes (.b1 : Width))), by unfold Dev.mayWrite; (decide +kernel)⟩,
    ⟨(st up), .b4, 0x8000000, .mram, ((st up).dev.reachMem (.mram : MemWin) (0x8000000 : Word).toNat (widthBytes (.b4 : Width))), by decide +kernel⟩,
    ⟨(st (up.setWord 0x100004 0x12345678)), .host, .b1, 0x100004, (widthBytes (.b1 : Width)), ((st (up.setWord 0x100004 0x12345678)).dev.bytes 0x100004 1), .sram, ((st (up.setWord 0x100004 0x12345678)).dev.reachMem (.sram : MemWin) (0x100004 : Word).toNat (widthBytes (.b1 : Width))), by unfold Dev.mayRead; decide +kernel⟩,
    ⟨(st (up.put LCS_STATE.STATE 2)), 0, by decide +kernel⟩,
    ⟨(st (up.put LCS_STATE.STATE 2)), 0, by decide +kernel⟩,
    ⟨(st (up.put LCS_STATE.STATE 3)), 0x40290000, by decide +kernel⟩,
    ⟨(st (up.put SYS_ROLL.MISSING 4)), (.start 0), ⟨2, .VAT_CTRL, 0, 0, .host⟩, by unfold accessOf; decide +kernel⟩,
    ⟨(st { up with pwr := { asleep := some 1 } }), (.start 0), ⟨2, .VAT_CTRL, 0, 0, .host⟩, by unfold accessOf; decide +kernel⟩,
    ⟨(st (up.put SYS_ROLL.MISSING 4)), .shadowSwap, 2, by decide +kernel⟩⟩

theorem witness_SpiCompletes :
    (∃ (s : State) (u : State), s.dev.spiOn = false ∧ u = { s with dev := { s.dev with hlk := { s.dev.hlk with spiArmed := false } } }) ∧
    (∃ s : State, s.dev.spiOn = true) ∧
    (∃ (s : State) (t : State) (addr : Word) (w : Word), s.dev.spiOn = true ∧ exec (.registerWrite .host .b4 addr (w.setWidth 64)) { s with dev := { s.dev with hlk := { s.dev.hlk with spiArmed := false } } } = .next t ∧ t.dev.spiOn = true ∧ t.dev.hlk.spiArmed = false) ∧
    (∃ (s : State) (addr : Word) (ws : List Word), s.dev.spiOn = true ∧ addr.toNat % 4 = 0 ∧ 0x100000 ≤ addr.toNat ∧ addr.toNat + 4 * ws.length ≤ 0x180000 ∧ s.dev.live 2 = true) ∧
    (∃ (s : State) (addr : Word) (c : BitVec 8) (n : Nat), s.dev.spiOn = true ∧ n = c.toNat + 1 ∧ addr.toNat % 4 = 0 ∧ 0x100000 ≤ addr.toNat ∧ addr.toNat + 4 * n ≤ 0x180000 ∧ s.dev.live 2 = true) ∧
    (∃ s : State, s.dev.get SYS_STRAP.HSEL = 1) ∧
    (∃ s : State, s.dev.get SYS_STRAP.HSEL = 0) ∧
    (∃ s : State, s.dev.spiOn = true) ∧
    (∃ s : State, s.dev.spiOn = true ∧ s.dev.hlk.spiArmed = false) ∧
    (∃ s : State, s.dev.spiOn = true ∧ s.dev.hlk.spiArmed = true) :=
  ⟨⟨(st (up |> fun d => { d with hlk := { d.hlk with spiArmed := true } })), { (st (up |> fun d => { d with hlk := { d.hlk with spiArmed := true } })) with dev := { (st (up |> fun d => { d with hlk := { d.hlk with spiArmed := true } })).dev with hlk := { (st (up |> fun d => { d with hlk := { d.hlk with spiArmed := true } })).dev.hlk with spiArmed := false } } }, by decide +kernel⟩,
    ⟨(st (((up.put SYS_STRAP.HSEL 1).put SYS_STEP.DONE 0x3FF) |> fun d => { d with hlk := { d.hlk with spiArmed := true } })), by decide +kernel⟩,
    ⟨(spiState), ({ spiState with dev := { spiState.dev with hlk := { spiState.dev.hlk with spiArmed := false } } } : State).busWrite .host (widthBytes .b4) (0x100000 : Word).toNat (((0x12345678 : Word).setWidth 64).toNat % 256 ^ widthBytes .b4), 0x100000, 0x12345678, by exact ⟨by decide +kernel, exec_hostWrite _ _ _ _, by decide +kernel, by decide +kernel⟩⟩,
    ⟨(st (((up.put SYS_STRAP.HSEL 1).put SYS_STEP.DONE 0x3FF) |> fun d => { d with hlk := { d.hlk with spiArmed := true } })), 0x100000, [1, 2, 0xFFFFFFFF], by decide +kernel⟩,
    ⟨(st (((up.put SYS_STRAP.HSEL 1).put SYS_STEP.DONE 0x3FF) |> fun d => { d with hlk := { d.hlk with spiArmed := true } }.setWord 0x100004 5)), 0x100000, 2, 3, by decide +kernel⟩,
    ⟨(st ((up.put SYS_STRAP.HSEL 1).put SYS_STEP.DONE 0x3FF)), by decide +kernel⟩,
    ⟨(st (up.put SYS_STRAP.HSEL 0)), by decide +kernel⟩,
    ⟨(st ((up.put SYS_STRAP.HSEL 1).put SYS_STEP.DONE 0x3FF)), by decide +kernel⟩,
    ⟨(st ((up.put SYS_STRAP.HSEL 1).put SYS_STEP.DONE 0x3FF)), by decide +kernel⟩,
    ⟨(st (((up.put SYS_STRAP.HSEL 1).put SYS_STEP.DONE 0x3FF) |> fun d => { d with hlk := { d.hlk with spiArmed := true } })), by decide +kernel⟩⟩

/-- The queue's front is taken, an empty queue idles, and one of a device in reset or asleep does not. -/
theorem witness_StepTakesTheFrontCommand :
    (∃ (s : State) (c : Instr) (rest : List Instr), s.pending = c :: rest) ∧
    (∃ s : State, s.pending = [] ∧ s.dev.rst.asserted = false ∧ s.dev.pwr.asleep = none ∧ s.dev.qCalm ∧ s.dev.cw.pulse = none) ∧
    (∃ s : State, s.pending = [] ∧ (s.dev.rst.asserted = true ∨ s.dev.pwr.asleep ≠ none) ∧ s.dev.qCalm ∧ s.dev.cw.pulse = none) ∧
    (∃ s : State, s.pending = []) :=
  ⟨⟨{ st up with pending := [.halt 0] }, .halt 0, [], rfl⟩, ⟨st up, rfl, rfl, rfl, rfl, rfl⟩,
    ⟨State.reset, rfl, Or.inl rfl, rfl, rfl⟩, ⟨st up, rfl⟩⟩

/-- A step of a host write to Data SRAM, from a state whose memories are in canonical form. -/
theorem witness_EveryStep :
    ∃ s t : State, s.volatileOk = true ∧ memWf s.nv.mram = true ∧ step s = .next t ∧ t.dev.mem ≠ s.dev.mem :=
  ⟨{ spiState with pending := [.registerWrite .host .b4 0x100000 0x12345678] },
    ({ spiState with pending := [] } : State).busWrite .host (widthBytes .b4) (0x100000 : Word).toNat
      ((0x12345678 : BitVec 64).toNat % 256 ^ widthBytes .b4),
    by decide +kernel, by decide +kernel, exec_hostWrite _ _ _ _, by decide +kernel⟩

/-- An instruction, an undefined word, and a word of one word's length. -/
theorem witness_InstructionWordsRoundTrip :
    (∃ i : Isrin, ∀ u, i ≠ .illegal u) ∧ (∃ w : Word, (Instr.illegal 0 w).illegalOk = true) ∧
    (∃ w e : Word, Isrin.len (decodeIsrin w e) = 1) :=
  ⟨⟨.nop 3, fun u h => by cases h⟩, ⟨0x58000000, by decide⟩, ⟨0x99800003, 0, by decide⟩⟩

/-- Bits that pass the check, and a place among them. -/
theorem witness_FramesWithTheirCrcPass : ∃ (bits : List Bool) (n : Nat), crc16Good bits = true ∧ n < bits.length :=
  ⟨[true, false, true] ++ crcBits 2 [true, false, true], 1, by decide +kernel, by decide +kernel⟩


end Sys2Proof.Machine
end

section
/-! SUPPORT. Actions and bus accesses change the device alone (R7, R24): the queue, what is non-volatile and the record of the
moment stay. -/

namespace Sys2Proof.Machine

/-- The action answers a state that differs in the device alone. -/
def OnDevice (a : Act) : Prop := ∀ s : State, ∃ d : Dev, a s = .next { s with dev := d }

/-- Every action of the list is one on the device alone. -/
def AllOnDevice (l : List Act) : Prop := ∀ a ∈ l, OnDevice a

@[simp] theorem allOnDevice_nil : AllOnDevice [] := List.forall_mem_nil _

@[simp] theorem allOnDevice_cons (a : Act) (l : List Act) : AllOnDevice (a :: l) ↔ OnDevice a ∧ AllOnDevice l :=
  List.forall_mem_cons

@[simp] theorem allOnDevice_append (l m : List Act) : AllOnDevice (l ++ m) ↔ AllOnDevice l ∧ AllOnDevice m :=
  List.forall_mem_append

@[simp] theorem allOnDevice_when (b : Bool) (a : Act) : AllOnDevice (when b a) ↔ (b = true → OnDevice a) := by
  cases b <;> simp [when]

/-- Whatever a write of a register sets in motion acts on the device alone: the lists come apart to their actions by the branches
of what each register triggers, and each action is one on the device. -/
theorem regActs_onDevice (w : Writer) (r : Reg) (v i j : Nat) (d : Dev) : AllOnDevice (regActs w r v i j d) := by
  unfold regActs chainActs vatActs engineActs ldgCmdAct radioActs timeActs pwrActs hlkActs
  simp only [allOnDevice_append]
  and_intros
  all_goals repeat' split
  all_goals simp
  all_goals and_intros
  all_goals
    intros
    exact fun _ => ⟨_, rfl⟩

/-- `t` is `s` but for the device. -/
def State.DevChange (s t : State) : Prop := ∃ d : Dev, t = { s with dev := d }

theorem State.DevChange.refl (s : State) : s.DevChange s := ⟨s.dev, rfl⟩

theorem State.DevChange.trans {s t u : State} : s.DevChange t → t.DevChange u → s.DevChange u := by
  rintro ⟨d, rfl⟩ ⟨e, rfl⟩
  exact ⟨e, rfl⟩

theorem State.DevChange.pending {s t : State} : s.DevChange t → t.pending = s.pending := by
  rintro ⟨d, rfl⟩
  rfl

theorem State.DevChange.ite {s t : State} (p : Prop) [Decidable p] (h : s.DevChange t) : s.DevChange (if p then t else s) := by
  split
  · exact h
  · exact .refl s

theorem State.doAct_devChange (s : State) {a : Act} (h : OnDevice a) : s.DevChange (s.doAct a) := by
  obtain ⟨d, hd⟩ := h s
  exact ⟨d, by unfold State.doAct; rw [hd]⟩

theorem State.doActs_devChange (s : State) {l : List Act} (h : AllOnDevice l) : s.DevChange (s.doActs l) := by
  induction l generalizing s with
  | nil => exact .refl s
  | cons a l ih =>
    obtain ⟨ha, hl⟩ := (allOnDevice_cons a l).1 h
    exact (s.doAct_devChange ha).trans (ih _ hl)

theorem State.regWrite_devChange (s : State) (w : Writer) (r : Reg) (v i j : Nat) : s.DevChange (s.regWrite w r v i j) := by
  have acts : ∀ d e, s.DevChange (({ s with dev := d } : State).doActs (regActs w r v i j e)) := fun d e =>
    .trans ⟨d, rfl⟩ (State.doActs_devChange _ (regActs_onDevice w r v i j e))
  unfold State.regWrite
  dsimp only
  split
  · exact (acts _ _).trans ⟨_, rfl⟩
  · exact acts _ _

theorem State.busWrite_devChange (s : State) (w : Writer) (n a v : Nat) : s.DevChange (s.busWrite w n a v) := by
  unfold State.busWrite
  dsimp only
  repeat' split
  case h_1 => exact .trans ⟨_, rfl⟩ (State.regWrite_devChange _ ..)
  all_goals exact ⟨_, rfl⟩

theorem State.regReadActs_devChange (s : State) (w : Writer) (r : Reg) (i j : Nat) : s.DevChange (s.regReadActs w r i j) := by
  unfold State.regReadActs
  repeat' split
  all_goals exact ⟨_, rfl⟩

theorem State.busRead_devChange (s : State) (w : Writer) (n a : Nat) : s.DevChange (s.busRead w n a) := by
  have reads : ∀ d r i j, s.DevChange (({ s with dev := d } : State).regReadActs w r i j) := fun d r i j =>
    .trans ⟨d, rfl⟩ (State.regReadActs_devChange _ ..)
  unfold State.busRead
  dsimp only
  split
  · exact ⟨_, rfl⟩
  split
  · split
    · exact ⟨_, rfl⟩
    split
    · exact ⟨_, rfl⟩
    split
    · exact ⟨_, rfl⟩
    split
    · exact ⟨_, rfl⟩
    split
    · split
      · exact reads _ _ _ _
      · exact (reads _ _ _ _).trans ⟨_, rfl⟩
    · exact ⟨_, rfl⟩
  · repeat' split
    all_goals exact ⟨_, rfl⟩

theorem State.spiWords_devChange (s : State) (a : Nat) (ws : List Word) : s.DevChange (s.spiWords a ws) := by
  induction ws generalizing s a with
  | nil => exact .refl s
  | cons w ws ih => exact (s.busWrite_devChange ..).trans (ih _ _)

theorem State.spiTake_devChange (s : State) (a : Nat) (got : List Nat) (n : Nat) : s.DevChange (s.spiTake a got n) := by
  induction n generalizing s a got with
  | zero => exact ⟨_, rfl⟩
  | succ n ih =>
    have read : s.DevChange (({ s with dev := s.dev.answers [] } : State).busRead .host 4 a) :=
      .trans ⟨_, rfl⟩ (State.busRead_devChange _ ..)
    unfold State.spiTake
    dsimp only
    split
    · exact read.trans ⟨_, rfl⟩
    · exact read.trans (ih _ _ _)

end Sys2Proof.Machine
end

section
/-! SUPPORT. Every command answers a next state with the queue of waiting commands as it was (R12). -/

namespace Sys2Proof.Machine

/-- A mailbox command answers with the queue as it was, when what it does once it is taken and checked leaves the queue alone. -/
theorem State.serve_answers {s : State} {type : Nat} {argsOk : List Nat → Bool} {f : State → Nat → List Nat → State}
    (hf : ∀ d tag args, (f { s with dev := d } tag args).pending = s.pending) :
    ∃ t, s.serve type argsOk f = .next t ∧ t.pending = s.pending := by
  unfold State.serve
  dsimp only
  repeat' split
  case isTrue.isFalse.isFalse => exact ⟨_, rfl, hf _ _ _⟩
  all_goals exact ⟨_, rfl, rfl⟩

theorem State.rangerUp_pending (s : State) : s.rangerUp.pending = s.pending := by
  unfold State.rangerUp
  dsimp only
  split <;> rfl

theorem State.logTorn_devChange (s : State) : s.DevChange s.logTorn := ⟨_, rfl⟩

theorem State.preload_devChange (s : State) (a v : Nat) : s.DevChange (s.preload a v) := by
  unfold State.preload
  split
  · exact .refl s
  split
  · exact ⟨_, rfl⟩
  · exact s.busWrite_devChange ..

theorem State.preloads_devChange (l : List Nat) (a v : State → Nat → Nat) (s : State) :
    s.DevChange (l.foldl (fun s k => s.preload (a s k) (v s k)) s) :=
  List.foldlRecOn (motive := s.DevChange) _ _ (.refl s) fun t h _ _ => h.trans (t.preload_devChange ..)

theorem State.configApply_devChange (s : State) : s.DevChange s.configApply := by
  unfold State.configApply
  split
  · exact .refl s
  · exact (State.preloads_devChange ..).trans ⟨_, rfl⟩

theorem State.meshRestore_devChange (s : State) : s.DevChange s.meshRestore := .ite _ ⟨_, rfl⟩

theorem State.restore_devChange (s : State) : s.DevChange s.restore := ⟨_, rfl⟩

theorem State.afterHost_devChange (s : State) : s.DevChange s.afterHost := by
  unfold State.afterHost
  split
  · exact .refl s
  · exact .trans (.ite _ (s.restore_devChange.trans ⟨_, rfl⟩)) (.ite _ ⟨_, rfl⟩)

theorem State.stepWork_pending (s : State) (k : Nat) (o : StepObs) : (s.stepWork k o).pending = s.pending := by
  unfold State.stepWork
  dsimp only
  split
  case h_3 => exact s.rangerUp.logTorn_devChange.pending.trans s.rangerUp_pending
  case h_4 => exact (State.meshRestore_devChange _).pending
  case h_6 => exact (State.configApply_devChange _).pending
  all_goals rfl

theorem State.stepNext_pending (s : State) (k : Nat) : (s.stepNext k).pending = s.pending := by
  unfold State.stepNext
  repeat' split
  case isFalse.isFalse.isTrue => exact s.afterHost_devChange.pending
  all_goals rfl

theorem execStartupStepEnd_answers (k : Fin 14) (o : StepObs) (s : State) :
    ∃ t, execStartupStepEnd k o s = .next t ∧ t.pending = s.pending := by
  unfold execStartupStepEnd
  dsimp only
  split
  · exact ⟨_, rfl, rfl⟩
  split
  · exact ⟨_, rfl, s.stepWork_pending ..⟩
  · exact ⟨_, rfl, (State.stepNext_pending _ _).trans (s.stepWork_pending ..)⟩

theorem execRegisterWrite_answers (w : Writer) (width : Width) (a : Word) (v : BitVec 64) (s : State) :
    ∃ t, execRegisterWrite w width a v s = .next t ∧ t.pending = s.pending := by
  refine ⟨_, rfl, State.DevChange.pending ?_⟩
  split
  · exact .ite _ ⟨_, rfl⟩
  · exact s.busWrite_devChange ..

theorem execRegisterRead_answers (w : Writer) (width : Width) (a : Word) (s : State) :
    ∃ t, execRegisterRead w width a s = .next t ∧ t.pending = s.pending := by
  refine ⟨_, rfl, State.DevChange.pending ?_⟩
  split
  · exact .refl s
  · exact s.busRead_devChange ..

theorem execSpiWrite_answers (a : Word) (ws : List Word) (s : State) :
    ∃ t, execSpiWrite a ws s = .next t ∧ t.pending = s.pending := by
  unfold execSpiWrite
  dsimp only
  split
  · exact ⟨_, rfl, (State.spiWords_devChange _ ..).pending⟩
  · exact ⟨_, rfl, rfl⟩

theorem execSpiRead_answers (a : Word) (n : BitVec 8) (s : State) :
    ∃ t, execSpiRead a n s = .next t ∧ t.pending = s.pending := by
  unfold execSpiRead
  dsimp only
  split
  · exact ⟨_, rfl, (State.spiTake_devChange _ ..).pending⟩
  · exact ⟨_, rfl, rfl⟩

theorem execFcMarkRaise_answers (s : State) : ∃ t, execFcMarkRaise s = .next t ∧ t.pending = s.pending := by
  unfold execFcMarkRaise
  split
  · exact ⟨_, rfl, rfl⟩
  · exact ⟨_, rfl, rfl⟩

theorem execRangerRestart_answers (s : State) : ∃ t, execRangerRestart s = .next t ∧ t.pending = s.pending := by
  unfold execRangerRestart
  split
  · exact ⟨_, rfl, s.rangerUp_pending⟩
  · exact ⟨_, rfl, rfl⟩

theorem State.inOrder_answers (s : State) (c : Instr) : ∃ t, s.inOrder c = .next t ∧ t.pending = s.pending := by
  unfold State.inOrder
  split
  · exact ⟨_, rfl, rfl⟩
  · exact ⟨_, rfl, rfl⟩

/-- Every command answers a next state and leaves the queue as it is: what is left to the last line acts on the device, or on what
is non-volatile, alone. -/
theorem exec_answers (c : Instr) (s : State) : ∃ t, exec c s = .next t ∧ t.pending = s.pending := by
  cases c
  case registerWrite w width a v => exact execRegisterWrite_answers w width a v s
  case registerRead w width a => exact execRegisterRead_answers w width a s
  case spiWrite a ws => exact execSpiWrite_answers a ws s
  case spiRead a n => exact execSpiRead_answers a n s
  case fcMarkRaise => exact execFcMarkRaise_answers s
  case rangerRestart => exact execRangerRestart_answers s
  case startupStepEnd k o => exact execStartupStepEnd_answers k o s
  case info | stageOpen | stageWrite | store | stageDiscard | calCapture | hoopLoad | hoopSwap | hoopFree
    | hoopBootset | rguSelect | mshKey | keySet | fwWrite | fwActivate | fwConfirm | attest | attestCert | lcsAdvance
    | returnAuth | returnToken =>
    dsimp only [exec,
      execInfo, execStageOpen, execStageWrite, execStore, execStageDiscard, execCalCapture, execHoopLoad, execHoopSwap,
      execHoopFree, execHoopBootset, execRguSelect, execMshKey, execKeySet, execFwWrite, execFwActivate, execFwConfirm,
      execAttest, execAttestCert, execLcsAdvance, execReturnAuth, execReturnToken]
    apply State.serve_answers
    intro d tag args
    dsimp only
    repeat' split
    all_goals rfl
  case topen | tdone | tfail | qpush | qpop | stop | resume | vatGstop | uhfTargetWrite | tripForce | chainTrip
    | synFreqWrite | shadowSwap | matchReady | pcalArm | takeGo | plannedSwitch | releaseSwitch | rguLimitEnd
    | overpower | rguDesync | hfrTargetWrite | hfrForce | hfrTrip | actTargetWrite | actForce | actTrip | speLinkLoss
    | ringSrcChange | ringSourceTick | ringCmpArm | ringCapRead | trailsDelivery | qmxPush | flush | txnFree
    | pointOfNoReturn | trngHealthFail | rangerDebugResume => exact s.inOrder_answers _
  all_goals exact ⟨_, rfl, rfl⟩

end Sys2Proof.Machine
end

section
/-! SUPPORT. Two commands of a moment in either order (R60, R80, R115, R194, R228, R302, R346, R355, R377, R395, R418): the first
is recorded with its own effect, and the one that a rule puts before it runs before it. -/

namespace Sys2Proof.Machine

theorem devOr_on_same (s : State) (r : Option (Dev × List Instr)) (f : Dev → Dev) :
    Outcome.devOr (({ s with same := r } : State).on f) s.dev = Outcome.devOr (s.on f) s.dev := rfl

theorem devOr_onUnit_same (s : State) (r : Option (Dev × List Instr)) (k : Nat) (f : Dev → Dev) :
    Outcome.devOr (({ s with same := r } : State).onUnit k f) s.dev = Outcome.devOr (s.onUnit k f) s.dev := rfl

theorem devOr_onIsland_same (s : State) (r : Option (Dev × List Instr)) (k : Nat) (g : Reg) (i : Nat)
    (f : Dev → Dev) (j : Nat) (w : Writer) :
    Outcome.devOr (({ s with same := r } : State).onIsland k g i f j w) s.dev =
      Outcome.devOr (s.onIsland k g i f j w) s.dev := rfl

/-- What a command does alone does not look at the record of the moment. -/
theorem State.alone_same (s : State) (r : Option (Dev × List Instr)) (c : Instr) :
    ({ s with same := r } : State).alone c = s.alone c := by
  cases c
  case tripForce | synFreqWrite | uhfTargetWrite | takeGo | hfrTargetWrite | hfrForce | actTargetWrite | actForce
    | stop | vatGstop | resume | txnFree | pcalArm | ringSrcChange | ringCmpArm | ringCapRead | qmxPush | flush
    | portWrite | txnAbort | txnPoolWrite | rewind | pwrCancel | snsTrngRead =>
    dsimp only [State.alone]
    exact devOr_onIsland_same ..
  case chainTrip | shadowSwap | plannedSwitch | releaseSwitch | rguLimitEnd | overpower | rguDesync | hfrTrip
    | actTrip | matchReady | speLinkLoss | ringSourceTick | trngHealthFail | lsnDecision | matchStart | speFrameRx
    | ringCapture | ptrMismatch =>
    dsimp only [State.alone]
    exact devOr_onUnit_same ..
  case trailsDelivery | rangerDebugResume | tdone | tfail | topen | qpush | qpop | pointOfNoReturn | clr | vatTimeout
    | lput | wake | wakenPin | wakeTimer | hwcmpWake =>
    dsimp only [State.alone]
    exact devOr_on_same ..
  all_goals rfl

/-- A command that a rule puts before others runs in its order within the moment. -/
theorem exec_of_leads {c : Instr} (s : State) (h : leads c = true) : exec c s = s.inOrder c := by
  cases c
  case topen | tdone | tfail | qpush | qpop | stop | resume | vatGstop | uhfTargetWrite | tripForce | chainTrip
    | synFreqWrite | shadowSwap | matchReady | pcalArm | takeGo | plannedSwitch | releaseSwitch | rguLimitEnd
    | overpower | rguDesync | hfrTargetWrite | hfrForce | hfrTrip | actTargetWrite | actForce | actTrip | speLinkLoss
    | ringSrcChange | ringSourceTick | ringCmpArm | ringCapRead | trailsDelivery | qmxPush | flush | txnFree
    | pointOfNoReturn | trngHealthFail | rangerDebugResume => rfl
  all_goals exact Bool.noConfusion h

theorem State.rerun_same (s : State) (r : Option (Dev × List Instr)) (d e : Dev) (l : List Instr) :
    ({ s with dev := d, same := r } : State).rerun e l = s.rerun e l := by
  unfold State.rerun
  exact congrArg (List.foldl · e l) (funext fun f => funext fun c => State.alone_same { s with dev := f } r c)

theorem not_rankBelow_zero (n : Nat) :
    ¬ ((decide (0 < n) && decide (n < 0)) = true ∨ false = true) := by simp

/-- A command that a rule puts after another is recorded, where no rule puts it before others. -/
theorem exec_of_follows {c x : Instr} {d : Dev} (s : State) (h : firstInTick c x = true ∨ firstInCycle d c x = true)
    (hx : leads x = false) : exec x s = s.marks x := by
  cases x
  case lsnDecision | portWrite | clr | vatTimeout | txnAbort | txnPoolWrite | lput | matchStart | speFrameRx | ringCapture
    | rewind | ptrMismatch | pwrCancel | wake | wakenPin | wakeTimer | hwcmpWake | snsTrngRead => rfl
  case topen | tdone | tfail | qpush | qpop | stop | resume | vatGstop | uhfTargetWrite | tripForce | chainTrip
    | synFreqWrite | shadowSwap | matchReady | pcalArm | takeGo | plannedSwitch | releaseSwitch | rguLimitEnd | overpower
    | rguDesync | hfrTargetWrite | hfrForce | hfrTrip | actTargetWrite | actForce | actTrip | speLinkLoss | ringSrcChange
    | ringSourceTick | ringCmpArm | ringCapRead | trailsDelivery | qmxPush | flush | txnFree | pointOfNoReturn
    | trngHealthFail | rangerDebugResume => exact Bool.noConfusion hx
  all_goals exact absurd h (not_rankBelow_zero (chainRank c))

/-- A command that a rule puts after another answers with its own effect and is recorded, where it is in its turn. -/
theorem exec_eq_marks {c x : Instr} (s : State) (h : firstInTick c x = true ∨ firstInCycle s.dev c x = true)
    (turn : leads x = true → s.inTurn x = true) : exec x s = s.marks x := by
  by_cases hx : leads x = true
  · rw [exec_of_leads s hx, State.inOrder, if_pos (turn hx)]
  · exact exec_of_follows s h (Bool.eq_false_iff.2 hx)

/-- The state with the effect of `x` done and `x` recorded as the first command of its moment. -/
def State.afterFirst (s : State) (x : Instr) : State := { s with dev := s.alone x, same := some (s.dev, [x]) }

/-- The first command of a moment that takes no time is recorded from the device that it ran on. -/
theorem State.marks_first {s : State} {x : Instr} (first : s.record.2 = []) (time : (s.alone x).clk = s.dev.clk) :
    s.marks x = .next (s.afterFirst x) := by
  have same : s.noted (s.record.2 ++ [x]) x (s.alone x) = some (s.dev, [x]) := by
    unfold State.noted
    simp [first, time, Dev.toClk]
  unfold State.marks
  dsimp only
  rw [same]
  rfl

theorem Dev.tick_of_clk {d e : Dev} (h : d.clk = e.clk) : d.tick = e.tick := by
  unfold Dev.tick
  rw [h]

theorem State.afterFirst_record {s : State} {x : Instr} (time : (s.alone x).clk = s.dev.clk) :
    (s.afterFirst x).record = (s.dev, [x]) :=
  if_pos ⟨Dev.tick_of_clk time.symm, s.alone_same (some (s.dev, [x])) x⟩

theorem State.afterFirst_alone (s : State) (x c : Instr) : (s.afterFirst x).alone c = { s with dev := s.alone x }.alone c :=
  State.alone_same { s with dev := s.alone x } _ c

/-- A command that comes before the recorded one, in the same moment, comes before all that is recorded. -/
theorem State.afterFirst_around {s : State} {x c : Instr} (hcx : firstInTick c x = true ∨ firstInCycle s.dev c x = true)
    (time : (s.alone x).clk = s.dev.clk) (timec : ({ s with dev := s.alone x }.alone c).clk = s.dev.clk) :
    (s.afterFirst x).around c = ([], [x]) := by
  unfold State.around
  rw [State.afterFirst_record time, State.afterFirst_alone]
  have ran : ({ s.afterFirst x with dev := s.dev } : State).alone x = s.alone x := s.alone_same (some (s.dev, [x])) x
  have clk := timec.trans time.symm
  unfold State.cutBefore
  simp [ran, clk, Dev.tick_of_clk clk, hcx]

end Sys2Proof.Machine
end

section
/-! SUPPORT. That every command answers, that ruled ties have the ruled outcome, what the reset state is, and where a register
write does more than its access codes say. -/

namespace Sys2Proof.Machine

/-- The second command of a moment, which a rule puts before the first, leaves the device of the ruled order. -/
theorem exec_afterFirst {s : State} {c x : Instr} (hc : leads c = true)
    (hcx : firstInTick c x = true ∨ firstInCycle s.dev c x = true) (time : (s.alone x).clk = s.dev.clk)
    (timec : ({ s with dev := s.alone x }.alone c).clk = s.dev.clk) :
    completes c (s.afterFirst x) (fun e => e = s.rerun s.dev [c, x]) := by
  have around := State.afterFirst_around hcx time timec
  have late : (s.afterFirst x).inTurn c = false := by rw [State.inTurn, around]; rfl
  obtain ⟨t, ht, queue, nv, dev⟩ := State.inOrder_before late
  refine ⟨t, (exec_of_leads _ hc).trans ht, ⟨queue, nv⟩, ?_⟩
  rw [dev, around, State.afterFirst_record time]
  exact s.rerun_same _ _ _ [c, x]

/-- Settles O55: each command by the shape of its effect, and a ruled tie by the record that the first command leaves. -/
theorem everyCommandAnswers : Obligations.EveryCommandAnswers := by
  unfold Obligations.EveryCommandAnswers
  intro c x s
  refine ⟨exec_answers c s, fun first hc hcx turn time timec => ⟨s.afterFirst x, ?_, exec_afterFirst hc hcx time timec⟩⟩
  exact (exec_eq_marks s hcx turn).trans (State.marks_first first time)

/-- Settles O54, field by field of the reset state. -/
theorem resetStateIsAsGiven : Obligations.ResetStateIsAsGiven := by
  unfold Obligations.ResetStateIsAsGiven
  exact ⟨rfl, rfl, fun _ _ _ => rfl, fun _ _ => rfl, fun _ _ => rfl, rfl, rfl, rfl, rfl, rfl, rfl⟩

/-- The reset state with the device reset released: no phase measurement runs. -/
def pcalIdle : State := { State.reset with dev := { rst := { asserted := false } } }

/-- A write of BRG_PCAL with bit 31 set arms the phase measurement (R224), so that STATE of BRG_PCAL_ST leaves its idle value. -/
theorem pcalIdle_write_arms :
    (pcalIdle.busWrite .host 4 0x40090110 0x80000000).dev.get BRG_PCAL_ST.STATE = 1 := by decide +kernel

theorem exec_pcalIdle_write :
    exec (.registerWrite .host .b4 0x40090110#32 0x80000000#64) pcalIdle =
      .next (pcalIdle.busWrite .host 4 0x40090110 0x80000000) := rfl

/-- Refutes O51: BRG_PCAL has no special behaviour and is not among the acting registers, yet a host's word write of 0x8000_0000
to it arms the phase measurement (R224), which changes BRG_PCAL_ST. -/
theorem not_registerAccessCompletes : ¬ Obligations.RegisterAccessCompletes := by
  unfold Obligations.RegisterAccessCompletes
  intro h
  have mayWrite : pcalIdle.dev.mayWrite .host 0x40090110 := by intro jtag; cases jtag
  have isReg : pcalIdle.dev.isReg 0x40090110 .BRG_PCAL 0 0 := by unfold Dev.isReg; decide +kernel
  obtain ⟨write, -⟩ := h pcalIdle .host .b4 0x40090110#32 0x80000000#64 .BRG_PCAL 0 0 0 _ [] .hoop .info
    ⟨2, .VAT_CTRL, 0, 0, .host⟩ 0 _
  obtain ⟨t, ht, -, -, others, -⟩ := write mayWrite isReg rfl rfl (by decide) rfl rfl
  cases exec_pcalIdle_write.symm.trans ht
  have stays := others BRG_PCAL_ST.STATE 0 0 (.inl (by decide))
  rw [pcalIdle_write_arms] at stays
  exact absurd stays (by decide +kernel)

end Sys2Proof.Machine
end
